-- ==== Sys2Proof/Word.lean ====
section
/-! DEFINITION. Sys2Proof/Word.lean: the word types of the LST-2P ("Notation" of spec/00_scope.md: a byte is 8 bits,
a halfword 16, a word 32 and a doubleword 64) and the name of a die. -/
namespace Sys2Proof

abbrev Byte := BitVec 8
abbrev Half := BitVec 16
abbrev Word := BitVec 32
abbrev DWord := BitVec 64

/-- Die A (index 0) or die B (index 1), "Terms" of spec/00_scope.md. -/
inductive DieId
  | a
  | b
  deriving DecidableEq, Repr

/-- The other die of the package. -/
def DieId.other : DieId → DieId
  | .a => .b
  | .b => .a

/-- The die index of "Terms". -/
def DieId.toNat : DieId → Nat
  | .a => 0
  | .b => 1

end Sys2Proof
end

