-- ==== Sys2Proof/CommandTypes.lean ====
section
/-! DEFINITION. Sys2Proof/CommandTypes.lean: the operand types of the commands of Sys2Proof/Syntax.lean. Each says what
an event brings from outside the block (bytes on a wire, a pin, a sensor's reading) or which unit it concerns. -/
namespace Sys2Proof

/-- A core of a die: cluster 0 to 5, core 0 to 15 (R131). -/
structure CoreLoc where
  cl : Fin 6
  core : Fin 16
  deriving DecidableEq, Repr

/-- A group's place: its pipe and its slot, 0 to 15, on that pipe (R131, R142). -/
structure GrpLoc where
  cl : Fin 6
  core : Fin 16
  pipe : Fin 4
  slot : Fin 16
  deriving DecidableEq, Repr

/-- Bits [53:0] of an instruction (R165): PNEG, PRED, FMT and bits [47:0]. CLASS and OP are the command's name. -/
structure InstrBits where
  pneg : Bool
  pred : BitVec 3
  fmt : BitVec 2
  body : BitVec 48
  deriving DecidableEq, Repr

/-- The ports of a pipe (R137). -/
inductive Port
  | alu
  | mtx
  | mem
  deriving DecidableEq, Repr

/-- The traffic classes of the bridge (R18). -/
inductive BridgeClass
  | ctl
  | cmp
  | mir
  | tor
  deriving DecidableEq, Repr

/-- What a pair comparison compares (R33): a paired job, by slot, or a paired pipe's frame. -/
inductive PairItem
  | job (slot : Nat)
  | pipe (p : Fin 4)
  deriving DecidableEq, Repr

/-- A prefetch side buffer: a core's (R221) or a slice's (R230). -/
inductive SideLoc
  | l1 (c : CoreLoc)
  | l2 (sl : Fin 16)
  deriving DecidableEq, Repr

/-- Who takes all banks under R210. -/
inductive BankUser
  | raster
  | stream
  deriving DecidableEq, Repr

/-- What parity error restarts a share (R341, R476): a group register, a scale register, an accumulator, or tile memory
at a physical offset. -/
inductive ParityAt
  | groupReg (r : BitVec 8)
  | scaleReg (r : BitVec 8)
  | accumulator (r : BitVec 7)
  | tileMemory (offset : BitVec 19)
  | carvedL1 (offset : BitVec 19)
  /-- Tile memory that a stream engine reads for a job: the job's slot and the physical offset. -/
  | streamRead (job : BitVec 12) (offset : BitVec 19)
  | control
  deriving DecidableEq, Repr

/-- A load of the core, and whether a line that its L1 holds fails parity as the load reads it (R234). -/
structure LoadBits where
  word : InstrBits
  par : Bool
  deriving DecidableEq, Repr

/-- Where a line that answers a core's miss fails parity (R234): nowhere, in its L2 slice, or in the L1 as it is read. -/
inductive FillParity
  | good
  | slice
  | core
  deriving DecidableEq, Repr

/-- How the fill of a migrating frame ended (R383): a ZERO fill, or a PEER GET with its bytes, its fault or its timeout. -/
inductive MigReply
  | zeroDone
  | peerData (bytes : List Byte)
  | peerFault
  | peerTimeout
  deriving DecidableEq, Repr

/-- The dimension of a link: die A owns the plus link, die B the minus link of each (R21). -/
inductive Dim
  | x
  | y
  | z
  deriving DecidableEq, Repr

def Dim.toNat : Dim → Nat
  | .x => 0
  | .y => 1
  | .z => 2

/-- What a training link finds about its lanes (R391): lane order reversed, and the inverted lanes. -/
structure LinkFound where
  reversed : Bool
  pol : BitVec 8
  deriving DecidableEq, Repr

/-- Where a packet to be routed waits (R407, R410): the input of a link, the die's own injection queue, or the bridge. -/
inductive RouteSrc
  | link (l : Dim)
  | local
  | bridge
  deriving DecidableEq, Repr

/-- An arbiter (R460). -/
inductive ArbId
  | fabricPort (c : CoreLoc)
  | sliceInput (sl : Fin 16)
  | dram (ch : Fin 24)
  | linkOutput (l : Dim)
  deriving DecidableEq, Repr

/-- The tamper events of R523. -/
inductive TamperCause
  | fuseCopies
  | romMeas
  | bootBound
  | fuseReadback
  | scrapped
  deriving DecidableEq, Repr

/-- Boundary access through DBG_ACCESS (R522). -/
inductive DbgOp
  | cfgRead (addr : BitVec 32)
  | cfgWrite (addr v : BitVec 32)
  | memRead (ctx : BitVec 10) (va : BitVec 48) (len : Nat)
  | memWrite (ctx : BitVec 10) (va : BitVec 48) (bytes : List Byte)
  | programKey (field : Nat) (digest : List Byte)
  | manufacture
  deriving DecidableEq, Repr

/-- What DRAM training found (R527). `gibs` is the GiB fitted to each channel. -/
structure Training where
  ok : Bool
  ranks : List Nat
  gibs : List Nat
  deriving DecidableEq, Repr

/-- The low-power requests of a USB host (R534). -/
inductive UsbPower
  | u1
  | u2
  | u3
  | suspend
  | resume
  deriving DecidableEq, Repr

/-- The USB speeds (R526), slowest first. -/
inductive UsbSpeed
  | highSpeed
  | gen1x1
  | gen2x1
  | gen2x2
  deriving DecidableEq, Repr

/-- The HPD events of R536. `pulse ok` is a pulse of 0.5 to 1 ms and the result of the link-status check. -/
inductive HpdEvent
  | high
  | low
  | pulse (linkOk : Bool)
  | short
  deriving DecidableEq, Repr

/-- A received CSI-2 packet header (R540). -/
structure CsiHeader where
  vc : BitVec 4
  dt : BitVec 6
  /-- Erroneous header bits: 0 none, 1 corrected, 2 uncorrectable. -/
  errs : Fin 3
  deriving DecidableEq, Repr

/-- The reset sources of R562 that begin outside the command stream: code and die. -/
inductive ResetSrc
  | powerOn (d : DieId)
  | packagePin
  | diePin (d : DieId)
  | pwrOkLow (d : DieId)
  | supply (d : DieId)
  deriving DecidableEq, Repr

/-- A master: a unit that moves data for a context or reports faults (R352, R379, R489). -/
inductive Master
  | group (g : GrpLoc)
  /-- A core's stream engine, for the job in a slot. -/
  | stream (c : CoreLoc) (job : Nat)
  | texture (g : GrpLoc)
  | raster (cl : Fin 6) (pass : Fin 4)
  | frontEnd (pass : Fin 4)
  | layer (p : Fin 4) (l : Fin 8)
  | writeback (p : Fin 4)
  | copy (e : Fin 4)
  | wringer (e : Fin 8)
  | usb (ch : Fin 4)
  /-- The command processor: on the path of the job in a slot, or else of a command of the context. -/
  | cmdProc (ctx : Nat) (job : Option Nat)
  | csi (p : Fin 4)
  | tdm (p : Fin 4)
  | ufs
  /-- The link target engine; 0 to 5 the links, 6 the bridge (R379). -/
  | linkTarget (l : Fin 7)
  | requester
  | slice (sl : Fin 16)
  | dram (ch : Fin 24)
  | pairLogic
  | clockCtl
  | thermal (sensor : Fin 16)
  | migration
  deriving DecidableEq, Repr

/-- Where control storage fails parity: a copy of R480, or both; or an entry of a cache whose error a new walk or table read
replaces (R361, R476). -/
inductive CtrlStore
  | copies (bothFail : Bool)
  | tlb (n : Nat)
  | nearTlb (m : Master) (n : Nat)
  | walkCache (n : Nat)
  | sliceOwnership
  deriving DecidableEq, Repr

end Sys2Proof
end

