-- ==== Sys2Proof/Syntax.lean ====
section
/-! DEFINITION. Sys2Proof/Syntax.lean: the commands of the LST-2P, one constructor for each row of
spec/opcode_table.json, in the table's order. A command names the die it acts on; a shader instruction names its group
and carries bits [53:0] of its encoding (R165). A command that executes a packet takes its parameters from the pending
pool (R65), where COMMAND_PACKET_TAKE put them. -/
namespace Sys2Proof

inductive Instr
  /-- COMMAND_PACKET_RECEIVE (R54): A USB data packet on endpoint 0x01 enters the command FIFO, or is answered NAK while the FIFO is full. -/
  | commandPacketReceive (d : DieId) (pkt : List Byte)
  /-- COMMAND_PACKET_TAKE (R64): Once a reply slot and a pending-pool place are reserved, the command processor takes a packet from the FIFO and validates it, rejecting it or consuming its sequence number. -/
  | commandPacketTake (d : DieId)
  /-- REPLY_IN_TOKEN (R55): An IN token on endpoint 0x81 receives the oldest queued reply, or NAK when the queue is empty. -/
  | replyInToken (d : DieId)
  /-- USB_LINK_LOSS (R58): A USB bus reset, warm reset or link loss discards the command FIFO and ends data transfers with LINK_LOST. -/
  | usbLinkLoss (d : DieId)
  /-- DATA_PACKET_OUT (R93): An OUT data packet on an assigned data channel is written, and can end the transfer as OK, DATA_SHORT or DATA_OVERRUN. -/
  | dataPacketOut (d : DieId) (ch : Fin 4) (pkt : List Byte)
  /-- DATA_PACKET_IN (R94): An IN token on an assigned data channel receives the next packet of a READ_MEM or report transfer. -/
  | dataPacketIn (d : DieId) (ch : Fin 4)
  /-- DATA_TIMEOUT (R93): When no packet moves for DATA_TIMEOUT, the data transfer ends with DATA_TIMEOUT. -/
  | dataTimeout (d : DieId) (ch : Fin 4)
  /-- PING (R80): PING returns the die's local time. -/
  | ping (d : DieId)
  /-- GET_STATUS (R85): GET_STATUS returns the 32-byte device status payload. -/
  | getStatus (d : DieId)
  /-- CFG_READ (R97): CFG_READ reads COUNT configuration words in ascending address order. -/
  | cfgRead (d : DieId)
  /-- CFG_WRITE (R99): CFG_WRITE checks every word, then writes COUNT configuration words, RWP fields going to their shadows; it carries writes to registers that have no row of their own. -/
  | cfgWrite (d : DieId)
  /-- PRESS (R467): PRESS issues a new epoch to every unit, or fails with BUSY, WRONG_STATE or PAIR_REFUSED. -/
  | press (d : DieId)
  /-- FAULT_READ (R381): FAULT_READ returns the oldest fault records and removes them from the queue. -/
  | faultRead (d : DieId)
  /-- OPEN_CONTEXT (R67): OPEN_CONTEXT opens a context with its VMID, attributes, stage-1 root and remote timeout. -/
  | openContext (d : DieId)
  /-- CLOSE_CONTEXT (R78): CLOSE_CONTEXT kills the context's jobs, abandons its migrations, disables its layers and hands its granules to the fill engine. -/
  | closeContext (d : DieId)
  /-- SUSPEND_CONTEXT (R79): SUSPEND_CONTEXT makes the context SUSPENDED and folds its running jobs before it is answered. -/
  | suspendContext (d : DieId)
  /-- RESUME_CONTEXT (R77): RESUME_CONTEXT returns a suspended context to RUNNING or OPEN. -/
  | resumeContext (d : DieId)
  /-- GRANT_GRANULES (R372): GRANT_GRANULES sets owner, kind and rights on a range of granules, all or nothing. -/
  | grantGranules (d : DieId)
  /-- RECLAIM_GRANULES (R373): RECLAIM_GRANULES gives a range of granules to the system tag and sends them to the fill engine. -/
  | reclaimGranules (d : DieId)
  /-- VM_CONFIG (R354): VM_CONFIG sets a VM's stage-2 root and invalidates its translations. -/
  | vmConfig (d : DieId)
  /-- HOLD_ENTER (R571): HOLD_ENTER saves state, drains writes, erases the identity key and puts DRAM in self-refresh. -/
  | holdEnter (d : DieId)
  /-- HOLD_EXIT (R573): HOLD_EXIT powers the domains, re-verifies the firmware and restores the saved state. -/
  | holdExit (d : DieId)
  /-- FAILOVER (R43): FAILOVER makes a standby die take over, or changes nothing on a die that is already primary. -/
  | failover (d : DieId)
  /-- RESET_DEVICE (R75): RESET_DEVICE is answered and schedules a die or package reset. -/
  | resetDevice (d : DieId)
  /-- RESET_DEVICE_BEGIN (R75): The requested reset begins once its reply is collected, or 10,000 local µs after it was queued. -/
  | resetDeviceBegin (d : DieId)
  /-- ATTEST (R513): ATTEST forms a signed attestation report and sends it on a data channel. -/
  | attest (d : DieId)
  /-- LOAD_IMAGE (R508): LOAD_IMAGE reserves a measurement entry and starts loading a model image from UFS. -/
  | loadImage (d : DieId)
  /-- LC_TRANSITION (R519): LC_TRANSITION checks a signed authorisation and performs a life-cycle change or a fuse operation. -/
  | lcTransition (d : DieId)
  /-- ROM_LOAD (R506): ROM_LOAD receives and verifies a recovery firmware image in ROM state. -/
  | romLoad (d : DieId)
  /-- WRITE_MEM (R92): WRITE_MEM writes host data to a context's virtual memory over a data channel. -/
  | writeMem (d : DieId) (ctx : Nat)
  /-- READ_MEM (R92): READ_MEM returns a context's virtual memory to the host over a data channel. -/
  | readMem (d : DieId) (ctx : Nat)
  /-- SUBMIT (R83): SUBMIT copies a job descriptor into a free job slot. -/
  | submit (d : DieId) (ctx : Nat)
  /-- CANCEL_JOB (R318): CANCEL_JOB ends a live job with CANCELLED, or changes nothing. -/
  | cancelJob (d : DieId) (ctx : Nat)
  /-- FENCE_SIGNAL (R87): FENCE_SIGNAL performs an atomic unsigned maximum on a fence and returns the previous value. -/
  | fenceSignal (d : DieId) (ctx : Nat)
  /-- FENCE_READ (R82): FENCE_READ returns a fence's value. -/
  | fenceRead (d : DieId) (ctx : Nat)
  /-- FENCE_WAIT (R89): FENCE_WAIT holds the context's later commands until a fence reaches a value. -/
  | fenceWait (d : DieId) (ctx : Nat)
  /-- FENCE_WAIT_POLL (R89): The periodic read of a waited fence completes the wait when the fence has reached the value. -/
  | fenceWaitPoll (d : DieId) (ctx : Nat)
  /-- FENCE_WAIT_TIMEOUT (R89): The wait's TIMEOUT expires and FENCE_WAIT ends with WAIT_TIMEOUT. -/
  | fenceWaitTimeout (d : DieId) (ctx : Nat)
  /-- CTX_STATUS (R86): CTX_STATUS returns a context's 16-byte status payload. -/
  | ctxStatus (d : DieId) (ctx : Nat)
  /-- CMD_PAIR_CFG_WRITE (R26): A write to CMD_PAIR_CFG updates both dies' shadows over the bridge, or is refused with PAIR_REFUSED. -/
  | cmdPairCfgWrite (d : DieId) (v : Word)
  /-- BRIDGE_SLOT_RECEIVE (R19): A bridge slot arrives; one that fails its CRC-32C is resent from the replay buffer. -/
  | bridgeSlotReceive (d : DieId) (cls : BridgeClass) (slot : List Byte)
  /-- ALIVE_WIRE_TOGGLE (R41): The partner's alive wire toggles, showing the partner is alive. -/
  | aliveWireToggle (d : DieId)
  /-- PARTNER_LOST (R41): The partner's alive wire and CTL slots stay silent for HB_LIMIT × 4 local µs, and the partner is declared lost. -/
  | partnerLost (d : DieId)
  /-- PARTNER_SAFE_ANNOUNCE (R41): The partner announces over CTL that it enters SAFE or LOCKED, and is declared lost. -/
  | partnerSafeAnnounce (d : DieId)
  /-- TAKEOVER_OUTPUT_OWNER (R42): Between 10 and 20 local µs into a takeover, die B pulls PK_OUTPUT_OWNER low. -/
  | takeoverOutputOwner (d : DieId)
  /-- TAKEOVER_JOB_RESTART (R42): From 20 local µs into a takeover, the scheduler restarts the lost die's running jobs from their folds or starts. -/
  | takeoverJobRestart (d : DieId)
  /-- OUTPUT_OWNER_RELEASE (R45): Die B's pin logic releases PK_OUTPUT_OWNER 40 µs after its last refresh. -/
  | outputOwnerRelease (d : DieId)
  /-- PAIR_CHECK_DONE (R33): A die's check engine finishes the CRC-32 tags of a paired job's compare ranges. -/
  | pairCheckDone (d : DieId) (slot : Nat)
  /-- PAIR_TAGS_RECEIVE (R34): The partner's tags arrive over CMP and are compared; the paired job is released or ends PAIR_MISMATCH. -/
  | pairTagsReceive (d : DieId)
  /-- PAIR_COMPARE_TIMEOUT (R35): The partner's tags miss CMP_TIMEOUT, and the item fails with cause PAIR_TIMEOUT. -/
  | pairCompareTimeout (d : DieId) (item : PairItem)
  /-- PAIR_CFG_CONFIRM (R50): The partner's die-pair logic confirms over CTL that it applied new CMD_PAIR_CFG values, and the local die-pair logic acknowledges the press. -/
  | pairCfgConfirm (d : DieId)
  /-- DEADLINE_PROGRESS_EXCHANGE (R32): The partner's progress for a paired job's checkpoint arrives over CTL, and the later projection of the two governs. -/
  | deadlineProgressExchange (d : DieId)
  /-- SPARE_INITIAL_COPY_DONE (R27): The initial copy into SPARE passes the last granule, the configuration is applied to the standby and MIRROR_SYNC sets. -/
  | spareInitialCopyDone (d : DieId)
  /-- MIRROR_WRITE (R38): A mirrored DRAM write, fill command or command result from the active die is applied on the standby. -/
  | mirrorWrite (d : DieId)
  /-- MOVS (R136): MOVS reads a special register into a group register. -/
  | movs (d : DieId) (g : GrpLoc) (w : InstrBits)
  /-- NOP (R169): NOP with MODE 0 does nothing. -/
  | nop (d : DieId) (g : GrpLoc) (w : InstrBits)
  /-- NOP_FOLD (R332): NOP.FOLD is a fold point, at which a group stops when a fold is requested. -/
  | nopFold (d : DieId) (g : GrpLoc) (w : InstrBits)
  /-- BRA (R146): BRA branches the selected threads, pushing a reconvergence entry on divergence. -/
  | bra (d : DieId) (g : GrpLoc) (w : InstrBits)
  /-- BRX (R147): BRX branches to a target held in a register, freezing on divergent targets. -/
  | brx (d : DieId) (g : GrpLoc) (w : InstrBits)
  /-- CALL (R169): CALL branches and writes the return address to a register pair. -/
  | callInstr (d : DieId) (g : GrpLoc) (w : InstrBits)
  /-- EXIT (R145): EXIT moves the selected threads to the exited mask. -/
  | exitInstr (d : DieId) (g : GrpLoc) (w : InstrBits)
  /-- END (R145): END exits every active thread and ends the program. -/
  | endProg (d : DieId) (g : GrpLoc) (w : InstrBits)
  /-- ADD (R169): The integer ADD instruction adds modulo the width of its type. -/
  | add (d : DieId) (g : GrpLoc) (w : InstrBits)
  /-- SUB (R169): The integer SUB instruction subtracts modulo the width of its type. -/
  | sub (d : DieId) (g : GrpLoc) (w : InstrBits)
  /-- MUL (R169): The integer MUL instruction returns the low half of the product. -/
  | mul (d : DieId) (g : GrpLoc) (w : InstrBits)
  /-- MULHI (R169): The integer MULHI instruction returns the high half of the product. -/
  | mulhi (d : DieId) (g : GrpLoc) (w : InstrBits)
  /-- SHL (R169): SHL shifts left. -/
  | shl (d : DieId) (g : GrpLoc) (w : InstrBits)
  /-- SHR (R169): SHR shifts right, arithmetic or logical by type. -/
  | shr (d : DieId) (g : GrpLoc) (w : InstrBits)
  /-- AND (R169): The integer AND instruction forms the bitwise and. -/
  | andInstr (d : DieId) (g : GrpLoc) (w : InstrBits)
  /-- OR (R169): The integer OR instruction forms the bitwise or. -/
  | orInstr (d : DieId) (g : GrpLoc) (w : InstrBits)
  /-- XOR (R169): The integer XOR instruction forms the bitwise exclusive or. -/
  | xorInstr (d : DieId) (g : GrpLoc) (w : InstrBits)
  /-- NOT (R169): NOT forms the bitwise inverse. -/
  | notInstr (d : DieId) (g : GrpLoc) (w : InstrBits)
  /-- MIN (R169): The integer MIN instruction takes the signed or unsigned minimum. -/
  | minInstr (d : DieId) (g : GrpLoc) (w : InstrBits)
  /-- MAX (R169): The integer MAX instruction takes the signed or unsigned maximum. -/
  | maxInstr (d : DieId) (g : GrpLoc) (w : InstrBits)
  /-- SEL (R169): SEL selects per thread by predicate. -/
  | sel (d : DieId) (g : GrpLoc) (w : InstrBits)
  /-- MOV (R169): MOV copies a register or an immediate. -/
  | mov (d : DieId) (g : GrpLoc) (w : InstrBits)
  /-- SETP (R169): SETP writes a predicate from an integer comparison. -/
  | setp (d : DieId) (g : GrpLoc) (w : InstrBits)
  /-- PLOP (R169): PLOP combines two predicates. -/
  | plop (d : DieId) (g : GrpLoc) (w : InstrBits)
  /-- FADD (R109): FADD adds FP32 values, or binary16 pairs in class 0x3, correctly rounded. -/
  | fadd (d : DieId) (g : GrpLoc) (half : Bool) (w : InstrBits)
  /-- FSUB (R109): FSUB subtracts FP32 values or binary16 pairs, correctly rounded. -/
  | fsub (d : DieId) (g : GrpLoc) (half : Bool) (w : InstrBits)
  /-- FMUL (R109): FMUL multiplies FP32 values or binary16 pairs, correctly rounded. -/
  | fmul (d : DieId) (g : GrpLoc) (half : Bool) (w : InstrBits)
  /-- FFMA (R109): FFMA forms a fused multiply-add with one rounding. -/
  | ffma (d : DieId) (g : GrpLoc) (half : Bool) (w : InstrBits)
  /-- FMIN (R169): FMIN takes the float minimum with the NaN rules. -/
  | fmin (d : DieId) (g : GrpLoc) (half : Bool) (w : InstrBits)
  /-- FMAX (R169): FMAX takes the float maximum with the NaN rules. -/
  | fmax (d : DieId) (g : GrpLoc) (half : Bool) (w : InstrBits)
  /-- FABS (R169): FABS clears the sign bit. -/
  | fabs (d : DieId) (g : GrpLoc) (half : Bool) (w : InstrBits)
  /-- FNEG (R169): FNEG inverts the sign bit. -/
  | fneg (d : DieId) (g : GrpLoc) (half : Bool) (w : InstrBits)
  /-- FSETP (R169): FSETP writes a predicate from a float comparison. -/
  | fsetp (d : DieId) (g : GrpLoc) (half : Bool) (w : InstrBits)
  /-- CVT (R126): CVT converts between integer, FP32 and binary16 types. -/
  | cvt (d : DieId) (g : GrpLoc) (w : InstrBits)
  /-- PACK (R127): PACK converts a value to an INT8, INT4, FN8 or FN4 element in a register. -/
  | pack (d : DieId) (g : GrpLoc) (w : InstrBits)
  /-- UNPACK (R113): UNPACK converts a narrow element to FP32. -/
  | unpack (d : DieId) (g : GrpLoc) (w : InstrBits)
  /-- FN8TO4 (R127): FN8TO4 converts an FN8 element to FN4 by its exact log position. -/
  | fn8to4 (d : DieId) (g : GrpLoc) (w : InstrBits)
  /-- RCP (R110): RCP computes an approximate reciprocal. -/
  | rcp (d : DieId) (g : GrpLoc) (w : InstrBits)
  /-- RSQ (R110): RSQ computes an approximate reciprocal square root. -/
  | rsq (d : DieId) (g : GrpLoc) (w : InstrBits)
  /-- LG2 (R110): LG2 computes an approximate base-2 logarithm. -/
  | lg2 (d : DieId) (g : GrpLoc) (w : InstrBits)
  /-- EX2 (R110): EX2 computes an approximate base-2 exponential. -/
  | ex2 (d : DieId) (g : GrpLoc) (w : InstrBits)
  /-- LD (R214): LD loads through L1 after pre-walking every touched page. -/
  | ld (d : DieId) (g : GrpLoc) (w : LoadBits)
  /-- LDS (R169): LDS loads a byte or halfword with sign extension. -/
  | lds (d : DieId) (g : GrpLoc) (w : LoadBits)
  /-- ST (R214): ST stores through L1 into the merging buffer. -/
  | st (d : DieId) (g : GrpLoc) (w : InstrBits)
  /-- PF (R221): PF prefetches lines into the L1 or L2 side buffer. -/
  | pf (d : DieId) (g : GrpLoc) (w : InstrBits)
  /-- LDC (R224): LDC loads from carved L1. -/
  | ldc (d : DieId) (g : GrpLoc) (par : Bool) (w : InstrBits)
  /-- STC (R224): STC stores to carved L1. -/
  | stc (d : DieId) (g : GrpLoc) (par : Bool) (w : InstrBits)
  /-- FENCE (R161): The FENCE instruction is a release and/or acquire fence at a given scope. -/
  | fenceInstr (d : DieId) (g : GrpLoc) (w : InstrBits)
  /-- FENCE_COMPLETE (R160): A pending release fence completes once the group's earlier stores are visible throughout its scope. -/
  | fenceComplete (d : DieId) (g : GrpLoc)
  /-- TLD (R207): TLD loads from the tile-memory partition. -/
  | tld (d : DieId) (g : GrpLoc) (par : Bool) (w : InstrBits)
  /-- TST (R207): TST stores to the tile-memory partition. -/
  | tst (d : DieId) (g : GrpLoc) (par : Bool) (w : InstrBits)
  /-- ILK_ACQ (R270): ILK.ACQ waits until earlier fragments on the group's samples have released. -/
  | ilkAcq (d : DieId) (g : GrpLoc) (w : InstrBits)
  /-- ILK_REL (R270): ILK.REL releases the group's samples. -/
  | ilkRel (d : DieId) (g : GrpLoc) (w : InstrBits)
  /-- ATOM_ADD (R156): The atomic ADD instruction performs a combined integer atomic add. -/
  | atomAdd (d : DieId) (g : GrpLoc) (w : InstrBits)
  /-- ATOM_SMIN (R155): The SMIN atomic performs a combined signed minimum. -/
  | atomSmin (d : DieId) (g : GrpLoc) (w : InstrBits)
  /-- ATOM_UMIN (R155): The UMIN atomic performs a combined unsigned minimum. -/
  | atomUmin (d : DieId) (g : GrpLoc) (w : InstrBits)
  /-- ATOM_SMAX (R155): The SMAX atomic performs a combined signed maximum. -/
  | atomSmax (d : DieId) (g : GrpLoc) (w : InstrBits)
  /-- ATOM_UMAX (R155): The UMAX atomic performs a combined unsigned maximum. -/
  | atomUmax (d : DieId) (g : GrpLoc) (w : InstrBits)
  /-- ATOM_AND (R155): The atomic AND instruction performs a combined atomic and. -/
  | atomAnd (d : DieId) (g : GrpLoc) (w : InstrBits)
  /-- ATOM_OR (R155): The atomic OR instruction performs a combined atomic or. -/
  | atomOr (d : DieId) (g : GrpLoc) (w : InstrBits)
  /-- ATOM_XOR (R155): The atomic XOR instruction performs a combined atomic xor. -/
  | atomXor (d : DieId) (g : GrpLoc) (w : InstrBits)
  /-- ATOM_FADD (R158): The atomic FADD instruction performs a combined FP32 atomic add. -/
  | atomFadd (d : DieId) (g : GrpLoc) (w : InstrBits)
  /-- XCHG (R159): XCHG performs serialised exchanges in lane order. -/
  | xchg (d : DieId) (g : GrpLoc) (w : InstrBits)
  /-- CAS (R159): CAS performs serialised compare-and-swaps in lane order. -/
  | cas (d : DieId) (g : GrpLoc) (w : InstrBits)
  /-- ATOMIC_REPLY (R214): An L2 atomic reply returns, and the old values are distributed to the threads. -/
  | atomicReply (d : DieId) (g : GrpLoc)
  /-- BAR (R148): BAR parks the active threads at a group barrier, releasing or freezing the group when the barrier resolves. -/
  | bar (d : DieId) (g : GrpLoc) (w : InstrBits)
  /-- BARW (R151): BARW arrives at the workgroup barrier, releasing every group when all have arrived. -/
  | barw (d : DieId) (g : GrpLoc) (w : InstrBits)
  /-- SHFL (R169): SHFL exchanges register values between lanes. -/
  | shfl (d : DieId) (g : GrpLoc) (w : InstrBits)
  /-- MASKA (R169): MASKA reads the active mask. -/
  | maska (d : DieId) (g : GrpLoc) (w : InstrBits)
  /-- MASKX (R169): MASKX reads the exited mask. -/
  | maskx (d : DieId) (g : GrpLoc) (w : InstrBits)
  /-- BALLOT (R169): BALLOT gathers a predicate into a mask. -/
  | ballot (d : DieId) (g : GrpLoc) (w : InstrBits)
  /-- MMA_I8I8 (R173): MMA.I8I8 multiply-accumulates INT8 by INT8 fragments. -/
  | mmaI8i8 (d : DieId) (g : GrpLoc) (w : InstrBits)
  /-- MMA_I8I4 (R173): MMA.I8I4 multiply-accumulates INT8 by INT4 fragments. -/
  | mmaI8i4 (d : DieId) (g : GrpLoc) (w : InstrBits)
  /-- MMA_I4I8 (R173): MMA.I4I8 multiply-accumulates INT4 by INT8 fragments. -/
  | mmaI4i8 (d : DieId) (g : GrpLoc) (w : InstrBits)
  /-- MMA_I4I4 (R173): MMA.I4I4 multiply-accumulates INT4 by INT4 fragments. -/
  | mmaI4i4 (d : DieId) (g : GrpLoc) (w : InstrBits)
  /-- MMA_F8F8 (R173): MMA.F8F8 multiply-accumulates FN8 by FN8 fragments. -/
  | mmaF8f8 (d : DieId) (g : GrpLoc) (w : InstrBits)
  /-- MMA_F8F4 (R173): MMA.F8F4 multiply-accumulates FN8 by FN4 fragments. -/
  | mmaF8f4 (d : DieId) (g : GrpLoc) (w : InstrBits)
  /-- MMA_F4F8 (R173): MMA.F4F8 multiply-accumulates FN4 by FN8 fragments. -/
  | mmaF4f8 (d : DieId) (g : GrpLoc) (w : InstrBits)
  /-- MMA_F4F4 (R173): MMA.F4F4 multiply-accumulates FN4 by FN4 register pairs. -/
  | mmaF4f4 (d : DieId) (g : GrpLoc) (w : InstrBits)
  /-- MMA_H (R173): MMA.H multiply-accumulates binary16 fragments. -/
  | mmaH (d : DieId) (g : GrpLoc) (w : InstrBits)
  /-- MOVA_R (R183): MOVA.R copies an accumulator register to a group register. -/
  | movaR (d : DieId) (g : GrpLoc) (w : InstrBits)
  /-- MOVA_W_I32 (R183): MOVA.W.I32 copies a group register to an accumulator unchanged. -/
  | movaWI32 (d : DieId) (g : GrpLoc) (w : InstrBits)
  /-- MOVA_W_F32 (R183): MOVA.W.F32 copies a group register to an accumulator, reading each word as FP32. -/
  | movaWF32 (d : DieId) (g : GrpLoc) (w : InstrBits)
  /-- ZACC (R183): ZACC zeroes four accumulator registers. -/
  | zacc (d : DieId) (g : GrpLoc) (w : InstrBits)
  /-- SCW (R181): SCW writes a scale register from a quarter of a group register. -/
  | scw (d : DieId) (g : GrpLoc) (w : InstrBits)
  /-- SCR (R181): SCR reads a scale register into a quarter of a group register. -/
  | scr (d : DieId) (g : GrpLoc) (w : InstrBits)
  /-- MSTAT_RD (R195): MSTAT.RD reads GSTAT or a numeric event counter. -/
  | mstatRd (d : DieId) (g : GrpLoc) (w : InstrBits)
  /-- MSTAT_CLR (R195): MSTAT.CLR clears selected GSTAT flags. -/
  | mstatClr (d : DieId) (g : GrpLoc) (w : InstrBits)
  /-- QUANT_INT8 (R186): QUANT with OP 0x00 converts accumulator tiles to INT8 with block exponents. -/
  | quantInt8 (d : DieId) (g : GrpLoc) (w : InstrBits)
  /-- QUANT_INT4 (R186): QUANT with OP 0x01 converts accumulator tiles to INT4 with block exponents. -/
  | quantInt4 (d : DieId) (g : GrpLoc) (w : InstrBits)
  /-- QUANT_FN8 (R186): QUANT with OP 0x02 converts accumulator tiles to FN8 with block exponents. -/
  | quantFn8 (d : DieId) (g : GrpLoc) (w : InstrBits)
  /-- QUANT_FN4 (R186): QUANT with OP 0x03 converts accumulator tiles to FN4 with block exponents. -/
  | quantFn4 (d : DieId) (g : GrpLoc) (w : InstrBits)
  /-- QUANT_BINARY16 (R186): QUANT with OP 0x04 converts accumulator tiles to binary16. -/
  | quantBinary16 (d : DieId) (g : GrpLoc) (w : InstrBits)
  /-- SAMPLE (R272): SAMPLE filters a texture. -/
  | sample (d : DieId) (g : GrpLoc) (w : InstrBits)
  /-- FETCH (R272): FETCH reads texels at integer coordinates. -/
  | fetchTexel (d : DieId) (g : GrpLoc) (w : InstrBits)
  /-- OUT_POS (R269): OUT.POS writes a vertex's clip-space position. -/
  | outPos (d : DieId) (g : GrpLoc) (w : InstrBits)
  /-- OUT_VAR (R269): OUT.VAR writes a vertex varying slot. -/
  | outVar (d : DieId) (g : GrpLoc) (w : InstrBits)
  /-- OUT_COL (R269): OUT.COL writes a fragment colour for an attachment. -/
  | outCol (d : DieId) (g : GrpLoc) (w : InstrBits)
  /-- OUT_DEPTH (R269): OUT.DEPTH writes a fragment depth. -/
  | outDepth (d : DieId) (g : GrpLoc) (w : InstrBits)
  /-- DISCARD (R269): DISCARD uncovers the selected threads' samples. -/
  | discard (d : DieId) (g : GrpLoc) (w : InstrBits)
  /-- GROUP_DISPATCH (R132): Once a pipe has room, the dispatcher places a new group or workgroup on a pipe. -/
  | groupDispatch (d : DieId) (slot : Nat)
  /-- ROUND_ROBIN_ROTATION (R142): A group's wait counter reaches RR_WAIT, and the port runs one round-robin rotation. -/
  | roundRobinRotation (d : DieId) (c : CoreLoc) (pipe : Fin 4) (port : Port)
  /-- L1_LINE_FILL (R216): An L1 miss line arrives from L2, is installed, and its miss register's requests are answered. -/
  | l1LineFill (d : DieId) (c : CoreLoc) (mr : Nat) (par : FillParity)
  /-- L1_MERGE_DRAIN (R219): The oldest L1 merging-buffer entry begins to drain on high level, age, a fence or a conflicting request. -/
  | l1MergeDrain (d : DieId) (c : CoreLoc)
  /-- L1_MERGE_WRITE_DONE (R220): The L2 slice performs a drained entry's write, and the entry frees. -/
  | l1MergeWriteDone (d : DieId) (c : CoreLoc) (par : BitVec 16)
  /-- L2_LINE_FILL (R228): An L2 miss line arrives from DRAM, and its joined requests are answered in order. -/
  | l2LineFill (d : DieId) (sl : Fin 16) (mr : Nat) (fails : List (Nat × Nat)) (par : Bool)
  /-- L2_MERGE_DRAIN (R229): The oldest L2 merging-buffer entry begins to drain on high level, age, a release or a conflicting miss. -/
  | l2MergeDrain (d : DieId) (sl : Fin 16)
  /-- L2_MERGE_COMMIT (R229): The DRAM controller commits a drained L2 entry's write, freeing the entry and mirroring it in SPARE mode. -/
  | l2MergeCommit (d : DieId) (sl : Fin 16) (par : BitVec 16) (fails : List (Nat × Nat))
  /-- SIDE_BUFFER_FILL (R222): A prefetched line arrives in the L1 or L2 side buffer, dropping the oldest unused line when full. -/
  | sideBufferFill (d : DieId) (buf : SideLoc)
  /-- STEP_ZERO_DONE (R206): The stream engines finish zeroing a taken-back tile-memory step, and it becomes free. -/
  | stepZeroDone (d : DieId) (cl : Fin 6)
  /-- TLM_STARVE_TAKE (R210): The raster back end or stream engine has waited STARVE_LIMIT cycles and takes all banks for one cycle. -/
  | tlmStarveTake (d : DieId) (c : CoreLoc) (who : BankUser) (pipe : Fin 4)
  /-- L2_CARVE_APPLY (R233): A slice applies a pressed CARVE change once no window request is in flight. -/
  | l2CarveApply (d : DieId) (sl : Fin 16)
  /-- PASS_START (R242): A render pass starts, its descriptor checked and its head table zeroed. -/
  | passStart (d : DieId) (p : Fin 4)
  /-- DRAW_CHECK (R248): The front end reaches a draw descriptor and checks it. -/
  | drawCheck (d : DieId) (p : Fin 4)
  /-- VERTEX_GROUP_DISPATCH (R249): A vertex group of 64 index positions is dispatched. -/
  | vertexGroupDispatch (d : DieId) (p : Fin 4)
  /-- TRIANGLE_BIN (R255): The front end assembles, clips and culls a triangle and reserves and writes its record and list entries. -/
  | triangleBin (d : DieId) (p : Fin 4)
  /-- EXT_ANSWER (R258): Firmware grants or refuses an extension chunk. -/
  | extAnswer (d : DieId) (p : Fin 4) (grant : Bool)
  /-- EXT_WAIT_TIMEOUT (R258): EXT_WAIT expires and the extension request counts as refused. -/
  | extWaitTimeout (d : DieId) (p : Fin 4)
  /-- RINSE (R259): A rinse renders the binned tiles to the rinse area and frees the hamper. -/
  | rinse (d : DieId) (p : Fin 4)
  /-- TILE_RENDER (R246): A tile is taken into a free tile slot, initialised, drawn and stored. -/
  | tileRender (d : DieId) (p : Fin 4) (cl : Fin 6)
  /-- FRAGMENT_GROUP_DISPATCH (R250): A fragment group of quads is dispatched when it is full or its sub-tile draw has no more quads. -/
  | fragmentGroupDispatch (d : DieId) (p : Fin 4) (cl : Fin 6)
  /-- PASS_COMPLETE (R277): Once every store is performed, a pass writes its statistics and completes. -/
  | passComplete (d : DieId) (p : Fin 4)
  /-- FRAME_BOUNDARY (R282): At B(n) a pipe finalises tags, advances its frame count, applies pending presses and reads layer fences. -/
  | frameBoundary (d : DieId) (p : Fin 4)
  /-- LAYER_CONFIG_FIX (R288): When its fence reads are answered, a pipe fixes each layer's configuration for the next frame and begins fetching. -/
  | layerConfigFix (d : DieId) (p : Fin 4)
  /-- FRAME_VERDICT (R308): Before the next active line, the pipe takes the verdict on the frame and may freeze under MM_LIMIT. -/
  | frameVerdict (d : DieId) (p : Fin 4)
  /-- FRAME_START_MESSAGE (R310): Die A's frame-start message starts die B's paired pipe frame. -/
  | frameStartMessage (d : DieId) (p : Fin 4)
  /-- LAYER_LINE_FETCH (R603): A layer or writeback path pre-walks and fetches one source line. -/
  | layerLineFetch (d : DieId) (p : Fin 4) (line : Nat)
  /-- FETCH_UNDERRUN (R293): A layer pixel is needed before its fetch arrives, and the SAFE colour replaces the layer for the line. -/
  | fetchUnderrun (d : DieId) (p : Fin 4) (layer : Fin 8)
  /-- WRITEBACK_FRAME_DONE (R303): Every writeback write of a frame is performed, and the writeback fence is signalled. -/
  | writebackFrameDone (d : DieId) (p : Fin 4)
  /-- PIPE_PRESS_APPLY_DISABLED (R284): A disabled pipe applies a press that concerns it within 16 FCLK cycles. -/
  | pipePressApplyDisabled (d : DieId) (p : Fin 4)
  /-- PIXEL_PLL_RELOCK (R287): The pixel PLL relocks after a timing change, and a new frame begins. -/
  | pixelPllRelock (d : DieId) (p : Fin 4)
  /-- JOB_WAIT_POLL (R319): The command processor reads a waiting job's fence and releases the job when it is reached. -/
  | jobWaitPoll (d : DieId) (slot : Nat)
  /-- JOB_START (R328): The scheduler places a released job or unfold on clusters or engines, folding lower-class shares if needed. -/
  | jobStart (d : DieId) (slot : Nat)
  /-- PREEMPT_WAIT_EXPIRY (R329): A started job's workgroup waits PREEMPT_WAIT and folds a lower-class share. -/
  | preemptWaitExpiry (d : DieId) (slot : Nat)
  /-- SHARE_FOLD (R335): A fold of a share is requested, and its groups stop at fold points. -/
  | shareFold (d : DieId) (slot : Nat) (cl : Fin 6)
  /-- FOLD_DONE (R335): Every save write is performed, the directory entry written and the partition taken back. -/
  | foldDone (d : DieId) (slot : Nat) (cl : Fin 6)
  /-- SHARE_UNFOLD (R330): A folded share is restored onto a cluster with room. -/
  | shareUnfold (d : DieId) (slot : Nat) (cl : Fin 6)
  /-- FOLD_LATE (R336): A group has not reached a fold point within FP_LIMIT, and the job ends FOLD_LATE. -/
  | foldLate (d : DieId) (g : GrpLoc)
  /-- COPY_UNIT (R331): A copy engine moves one 4 KiB unit, pausing at the boundary when preempted. -/
  | copyUnit (d : DieId) (e : Fin 4)
  /-- JOB_WORK_DONE (R320): A job's work is done with all stores performed, fixing its end status. -/
  | jobWorkDone (d : DieId) (slot : Nat)
  /-- JOB_END_SEQUENCE (R321): An ended job writes its end record, signals its fence and copies its follow-on. -/
  | jobEndSequence (d : DieId) (slot : Nat)
  /-- DEADLINE_CHECKPOINT (R347): At a checkpoint, the deadline monitor projects the job's finish and acts on a projected miss. -/
  | deadlineCheckpoint (d : DieId) (slot : Nat)
  /-- DEADLINE_EXPIRY (R347): At D + MARGIN, a job whose work is not done is treated as a projected miss. -/
  | deadlineExpiry (d : DieId) (slot : Nat)
  /-- PARITY_RESTART (R341): A register, accumulator or tile-memory parity error restarts the share from its fold image or the job from its start. -/
  | parityRestart (d : DieId) (g : GrpLoc) (what : ParityAt)
  /-- REPLAY (R377): XLT_RESOLVE with REPLAY replays the held units of a fault record. -/
  | replay (d : DieId) (fid : BitVec 20)
  /-- REPLAY_WRUNG (R384): XLT_RESOLVE with REPLAY_WRUNG decompresses a host page, then replays. -/
  | replayWrung (d : DieId) (fid : BitVec 20)
  /-- KILL (R377): XLT_RESOLVE with KILL puts the record's context in FAULTED and ends its work. -/
  | kill (d : DieId) (fid : BitVec 20)
  /-- INV_ALL (R364): XLT_INV_CTRL scope 0 drops every cached translation. -/
  | invAll (d : DieId)
  /-- INV_CONTEXT (R364): XLT_INV_CTRL scope 1 drops a context's translations. -/
  | invContext (d : DieId) (ctx : BitVec 10)
  /-- INV_VM (R364): XLT_INV_CTRL scope 2 drops a VM's translations. -/
  | invVm (d : DieId) (vm : BitVec 8)
  /-- INV_RANGE (R364): XLT_INV_CTRL scope 3 drops a context's translations over a VA range. -/
  | invRange (d : DieId) (ctx : BitVec 10) (pages : BitVec 12)
  /-- OWN_SHARE_WORD_WRITE (R375): A write to OWN_SHARE_WORD changes a share group's membership. -/
  | ownShareWordWrite (d : DieId) (i : Fin 32) (v : Word)
  /-- MIGRATION_FILL_DONE (R383): A ZERO or PEER fill of a migrating frame completes, the entry is made valid and its faults replay. -/
  | migrationFillDone (d : DieId) (ctx : Nat) (page : Nat) (reply : MigReply)
  /-- DARNER_REPORT (R487): A fault report reaches the darner and opens or merges into a place. -/
  | darnerReport (d : DieId)
  /-- DARNER_RECORD_CLOSE (R487): An open darner record's window expires, and it goes to the fault queue or is held. -/
  | darnerRecordClose (d : DieId) (place : Nat)
  /-- HELD_RECORD_ENQUEUE (R382): A place frees in the fault queue, and a held record enters it with HELD set. -/
  | heldRecordEnqueue (d : DieId)
  /-- OWN_ENTRY_PARITY_REPAIR (R479): Firmware rewrites an ownership entry with a parity error from its copy, and the request is checked again. -/
  | ownEntryParityRepair (d : DieId) (granule : Nat) (copyOk : Bool)
  /-- LANE_LOCK (R391): A lane locks after 64 valid headers, or loses lock on 16 invalid headers of 64. -/
  | laneLock (d : DieId) (l : Dim) (lane : Fin 8) (hdrs : List (BitVec 2))
  /-- TRAINING_BLOCK_RECEIVE (R404): A training control block is received and checked in EXCHANGE. -/
  | trainingBlockReceive (d : DieId) (l : Dim) (blk : List Byte)
  /-- LINK_TRAIN_PROGRESS (R403): A training link meets its state's exit condition and advances. -/
  | linkTrainProgress (d : DieId) (l : Dim) (found : LinkFound)
  /-- LINK_TRAIN_TIMEOUT (R403): A training state times out after 1 ms, and the link goes DOWN. -/
  | linkTrainTimeout (d : DieId) (l : Dim)
  /-- LINK_RETRAIN (R403): With AUTO_RETRAIN set, a DOWN link re-enters SIGNAL 1 ms later. -/
  | linkRetrain (d : DieId) (l : Dim)
  /-- LINK_DOWN (R406): A link goes DOWN, discarding its replay buffers and queued packets. -/
  | linkDown (d : DieId) (l : Dim) (cause : BitVec 3)
  /-- FLIT_RECEIVE (R394): A flit is received and accepted, or counted as a flit error that triggers NAK. -/
  | flitReceive (d : DieId) (l : Dim) (flit : List Byte) (blockErr : Bool)
  /-- LINK_CONTROL_BLOCK (R398): A link control block delivers ACK, NAK and credits to the transmitter. -/
  | linkControlBlock (d : DieId) (l : Dim) (blk : List Byte)
  /-- LINK_CONTROL_LOSS (R400): No valid control block arrives for 1 µs, and the link goes down. -/
  | linkControlLoss (d : DieId) (l : Dim)
  /-- PACKET_ROUTE (R407): A received or injected packet is routed by dimension order, or discarded with NO_ROUTE. -/
  | packetRoute (d : DieId) (src : RouteSrc)
  /-- RING_POLL (R414): The requester reads an enabled ring's PROD and issues new records. -/
  | ringPoll (d : DieId)
  /-- RECORD_ISSUE (R415): A remote record is checked and sent as transactions, or completed BAD_RECORD or PAIRED_DENIED. -/
  | recordIssue (d : DieId) (ctx : Nat)
  /-- REMOTE_TARGET_OP (R416): The link target engine performs a remote request and answers it. -/
  | remoteTargetOp (d : DieId)
  /-- REMOTE_REPLY (R421): A reply reaches the requester and frees its tag slot; a completing record writes its completion. -/
  | remoteReply (d : DieId)
  /-- REMOTE_TIMEOUT (R424): A transaction is unanswered within its context's TIMEOUT and ends with TIMEOUT. -/
  | remoteTimeout (d : DieId) (tag : Nat)
  /-- WRINGER_BLOCK (R441): A wringer engine compresses or decompresses one block and advances the job's counts. -/
  | wringerBlock (d : DieId) (e : Fin 8)
  /-- WRINGER_YIELD (R446): At a block boundary, a wringer engine releases to a higher-class job or a fold. -/
  | wringerYield (d : DieId) (e : Fin 8)
  /-- REF_LOST (R455): The reference fails or the PLL loses lock; the PLL enters holdover and the die enters SAFE. -/
  | refLost (d : DieId)
  /-- ARB_WINDOW_END (R462): An arbiter's quota window ends, restoring HIGH quotas and applying pressed settings. -/
  | arbWindowEnd (d : DieId) (arb : ArbId) (ready : List (BitVec 32))
  /-- EMERGENCY_GRANT (R463): An emergency requester takes a grant back, abandoning the holder's transfer. -/
  | emergencyGrant (d : DieId) (arb : ArbId) (holding : Option Master)
  /-- ARB_WATCHDOG (R465): A grant held for the watchdog limit is revoked and the holder frozen. -/
  | arbWatchdog (d : DieId) (arb : ArbId) (holder : Master)
  /-- PRESS_APPLY (R468): A unit reaches its boundary and applies or refuses a pending press. -/
  | pressApply (d : DieId) (u : Fin 44)
  /-- PRESS_ACK (R471): A unit's epoch acknowledgement reaches the command processor. -/
  | pressAck (d : DieId) (u : Fin 44)
  /-- PRESS_TIMEOUT (R473): A unit has not acknowledged by the press timeout; it is frozen and the die enters SAFE. -/
  | pressTimeout (d : DieId)
  /-- BOOT (R505): The boot ROM reads fuses, measures the ROM, derives the identity and verifies a firmware slot. -/
  | boot (d : DieId)
  /-- TAMPER (R523): A tamper event puts the die in LOCKED. -/
  | tamper (d : DieId) (cause : TamperCause)
  /-- IMAGE_LOAD_DONE (R510): A model image load ends, its status is written and its fence signalled. -/
  | imageLoadDone (d : DieId) (readOk : Bool) (image : List Byte)
  /-- EXTEST (R521): EXTEST selects boundary scan driving the pins. -/
  | extest
  /-- IDCODE (R521): IDCODE shifts out the device ID. -/
  | idcode
  /-- SAMPLE_PRELOAD (R521): SAMPLE/PRELOAD selects the boundary-scan register. -/
  | samplePreload
  /-- DBG_CHALLENGE (R521): DBG_CHALLENGE issues a new challenge with the die's identity. -/
  | dbgChallenge (sel : Byte)
  /-- DBG_RESPONSE (R522): DBG_RESPONSE checks a signed response and unlocks a debug level. -/
  | dbgResponse (resp : List Byte)
  /-- DBG_ACCESS (R522): DBG_ACCESS performs access through the unlocked die's access port. -/
  | dbgAccess (op : DbgOp)
  /-- BYPASS (R521): BYPASS selects the 1-bit bypass register. -/
  | bypass
  /-- DRAM_TRAINING_DONE (R527): DRAM training ends, succeeding or putting the die in SAFE. -/
  | dramTrainingDone (d : DieId) (res : Training)
  /-- DRAM_REFRESH (R530): A controller refreshes a bank as its emergency requester. -/
  | dramRefresh (d : DieId) (ch : Fin 24)
  /-- FILL_WIPE_DONE (R531): The fill engine finishes a granule or full wipe. -/
  | fillWipeDone (d : DieId)
  /-- USB_LOW_POWER_REQUEST (R534): The host requests U1, U2, U3 or suspend, which the port accepts or rejects. -/
  | usbLowPowerRequest (d : DieId) (req : UsbPower)
  /-- USB_RECONNECT (R535): 10 ms after a MAX_SPEED change, the port reconnects. -/
  | usbReconnect (d : DieId) (speed : UsbSpeed)
  /-- HPD_CHANGE (R536): An HPD low or pulse on a display port causes a link loss and retraining. -/
  | hpdChange (d : DieId) (p : Fin 4) (ev : HpdEvent)
  /-- DP_LINK_TRAIN (R536): Firmware trains the display link, retrying every 100 ms until it trains. -/
  | dpLinkTrain (d : DieId) (p : Fin 4) (trains : List Nat)
  /-- CSI_PACKET (R540): A CSI-2 packet arrives and is selected, corrected, counted or discarded. -/
  | csiPacket (d : DieId) (p : Fin 4) (hdr : CsiHeader)
  /-- CSI_FRAME_START (R542): A frame start consumes a frame count and checks the release fence. -/
  | csiFrameStart (d : DieId) (p : Fin 4)
  /-- CSI_LINE (R545): A received line is cropped and written as one access unit. -/
  | csiLine (d : DieId) (p : Fin 4) (payload : List Byte) (crcOk : Bool) (overflow : Bool)
  /-- CSI_FRAME_END (R542): A frame ends; its record is written and its fence signalled once writes are performed. -/
  | csiFrameEnd (d : DieId) (p : Fin 4)
  /-- CSI_LINE_WATCHDOG (R493): No line arrives within the line limit, and the frame ends incomplete. -/
  | csiLineWatchdog (d : DieId) (p : Fin 4)
  /-- CSI_FRAME_WATCHDOG (R544): No frame start arrives within FRAME_MS, and a CSI_WATCHDOG record is sent. -/
  | csiFrameWatchdog (d : DieId) (p : Fin 4)
  /-- TDM_BLOCK_DONE (R547): A TDM block's writes are performed, its header written and its fence signalled. -/
  | tdmBlockDone (d : DieId) (p : Fin 4) (samples : List Word)
  /-- TDM_CLOCK_LOSS (R548): The bit clock or frame sync is lost, and the block in progress is discarded. -/
  | tdmClockLoss (d : DieId) (p : Fin 4) (bclk fsync : Bool)
  /-- TDM_RESUME (R548): After 256 good frames, the port resumes with a RESUMED block. -/
  | tdmResume (d : DieId) (p : Fin 4)
  /-- UFS_XFER_GO (R550): A write to UFS_XFER_GO starts a UFS transfer. -/
  | ufsXferGo (d : DieId) (v : Word)
  /-- UFS_XFER_DONE (R550): A UFS transfer ends, writing its status and signalling its fence. -/
  | ufsXferDone (d : DieId) (readOk : Bool) (data : List Byte)
  /-- XSP_ERASE (R552): XSP_CMD ERASE erases a 64 KiB flash sector. -/
  | xspErase (d : DieId)
  /-- XSP_PROGRAM (R552): XSP_CMD PROGRAM writes XSP_BUF to a flash page. -/
  | xspProgram (d : DieId)
  /-- XSP_READ (R552): XSP_CMD READ fills XSP_BUF from flash. -/
  | xspRead (d : DieId)
  /-- XSP_BUSY_TIMEOUT (R552): The flash stays busy for 4 s, and ERROR sets. -/
  | xspBusyTimeout (d : DieId)
  /-- ENTDAA (R553): ENTDAA assigns the I3C target a dynamic address. -/
  | entdaa (d : DieId) (addr : BitVec 7)
  /-- SETDASA (R553): SETDASA assigns a dynamic address from the static address. -/
  | setdasa (d : DieId) (static addr : BitVec 7)
  /-- RSTDAA (R553): RSTDAA resets the dynamic address. -/
  | rstdaa (d : DieId)
  /-- GETPID (R553): GETPID returns the provisional ID. -/
  | getpid (d : DieId)
  /-- GETBCR (R553): GETBCR returns the bus characteristics. -/
  | getbcr (d : DieId)
  /-- GETDCR (R553): GETDCR returns the device characteristics. -/
  | getdcr (d : DieId)
  /-- GETSTATUS (R553): GETSTATUS returns the target status. -/
  | getstatus (d : DieId)
  /-- ENEC (R553): ENEC is accepted with no effect. -/
  | enec (d : DieId)
  /-- DISEC (R553): DISEC is accepted with no effect. -/
  | disec (d : DieId)
  /-- I3C_PRIVATE_WRITE (R554): A private write sets the telemetry index. -/
  | i3cPrivateWrite (d : DieId) (bytes : List Byte)
  /-- I3C_PRIVATE_READ (R554): A private read returns telemetry words from the snapshot. -/
  | i3cPrivateRead (d : DieId) (words : Nat)
  /-- TELEMETRY_SNAPSHOT (R554): Every 1 ms the telemetry snapshot is refreshed. -/
  | telemetrySnapshot (d : DieId)
  /-- HEALTHY_REFRESH_TIMEOUT (R555): Firmware has not refreshed HEALTHY for 10 ms, and the pin goes low. -/
  | healthyRefreshTimeout (d : DieId)
  /-- MTX_KMAC_LO_READ (R198): A read of MTX_KMAC_LO captures the high word of the MAC count. -/
  | mtxKmacLoRead (d : DieId)
  /-- CSI_FRAME_LO_READ (R542): A read of CSI_FRAME_LO captures CSI_FRAME_HI. -/
  | csiFrameLoRead (d : DieId) (p : Fin 4)
  /-- PWR_SLOT_LO_READ (R584): A read of PWR_SLOT_LO captures PWR_SLOT_HI. -/
  | pwrSlotLoRead (d : DieId)
  /-- PWR_GATED_LO_READ (R584): A read of PWR_GATED_LO captures PWR_GATED_HI. -/
  | pwrGatedLoRead (d : DieId)
  /-- RESET_SOURCE (R562): A reset pin, PWR_OK low, power-on or supply monitor event resets a die or the package. -/
  | resetSource (src : ResetSrc)
  /-- ROOT_PLL_LOCK (R568): The root PLL locks, the core domains leave reset and local time starts. -/
  | rootPllLock (d : DieId)
  /-- SRAM_INIT_DONE (R567): Built-in SRAM initialisation ends. -/
  | sramInitDone (d : DieId)
  /-- STARTUP_READY (R568): Once boot verification and the DRAM wipe have both ended, USB connects and the die becomes READY. -/
  | startupReady (d : DieId)
  /-- POWER_CAP_STEP (R576): Every 10 local µs the power controller updates the gating level from measured power. -/
  | powerCapStep (d : DieId) (mw : Word)
  /-- THERMAL_SAMPLE (R580): Every 1 ms the sensors are read, checked for plausibility and the thermal level updated. -/
  | thermalSample (d : DieId) (readings : List Int)
  /-- THERMAL_TRIP (R580): An analogue comparator reaches +140 °C and holds the die in reset. -/
  | thermalTrip (d : DieId) (hot : Bool)
  /-- CTRL_PARITY (R480): A control-storage copy fails parity and is rewritten, or the die enters SAFE. -/
  | ctrlParity (d : DieId) (what : CtrlStore)
  /-- CFG_PARITY (R481): A configuration register's active or shadow word fails parity. -/
  | cfgParity (d : DieId) (addr : Nat) (shadow : Bool)
  /-- XSP_CMD_DONE (R552): An xSPI ERASE, PROGRAM or READ command finishes in the flash and BUSY returns to 0. -/
  | xspCmdDone (d : DieId) (ok : Bool)
  /-- UNFOLD_DONE (R335): The save records and partition of an unfolding share have been read back, each core performs its acquire and the share's groups may issue, and JOB_UNFOLD_CNT increments. -/
  | unfoldDone (d : DieId) (slot : Nat) (cl : Fin 6)
  /-- PAIRED_PIPE_PRESS_ACK (R310): Die B's acknowledgement of a press on a paired pipe arrives over CTL, and die A's pipe then acknowledges the epoch. -/
  | pairedPipePressAck (p : Fin 4)
  /-- PAIRED_DEADLINE_DECISION (R348): Die A's evaluation of a paired job at D + MARGIN arrives at die B over CTL, and die B acts on it: a kid switch or DEADLINE_MISSED. -/
  | pairedDeadlineDecision (slot : Nat)
  /-- L2_CARVE_ZERO_DONE (R233): A slice finishes zeroing the ways added by a carve increase, the ways appear in the window, and the slice acknowledges the press epoch. -/
  | l2CarveZeroDone (d : DieId) (sl : Fin 16)
  /-- POWER_OFF (R561): After PWR_OK has gone low, the board removes a die's rails, and the die goes to state OFF with all state lost. -/
  | powerOff (d : DieId)
  deriving DecidableEq, Repr

end Sys2Proof
end

