-- ==== Sys2Proof/WellFormed.lean ====
section
/-! DEFINITION. Sys2Proof/WellFormed.lean: which commands the interfaces of the hardware can form. Every register number,
unit number and field width is bounded by its type; the checks here are those that a type does not make. A command that
fails one is still given a meaning by the machine. -/
namespace Sys2Proof

/-- A packet of an endpoint holds at most 1,024 bytes (R52). -/
def packetFits (pkt : List Byte) : Bool := decide (pkt.length ≤ 1024)

/-- A bridge slot holds 40 bytes: a flit, a header and the CRC-32C of both (R17). -/
def slotFits (slot : List Byte) : Bool := decide (slot.length = 40)

/-- A die has 4,096 job slots (R317). -/
def slotNumberFits (slot : Nat) : Bool := decide (slot < 4096)

/-- An open context is numbered 1 to 1,023 (R67). -/
def contextFits (ctx : Nat) : Bool := decide (1 ≤ ctx) && decide (ctx < 1024)

def itemFits : PairItem → Bool
  | .job slot => slotNumberFits slot
  | .pipe _ => true

/-- Failing reads name the 16 words of a line (R477). -/
def failsFit (fails : List (Nat × Nat)) : Bool := fails.all (fun f => decide (f.1 < 16))

/-- DRAM training finds something for each of the 24 channels (R527). -/
def trainingFits (t : Training) : Bool := decide (t.ranks.length = 24) && decide (t.gibs.length = 24)

/-- The command is one that the hardware can be given. -/
def Instr.wellFormed (i : Instr) : Bool :=
  match i with
  | .commandPacketReceive _ pkt => packetFits pkt
  | .commandPacketTake _ => true
  | .replyInToken _ => true
  | .usbLinkLoss _ => true
  | .dataPacketOut _ _ pkt => packetFits pkt
  | .dataPacketIn _ _ => true
  | .dataTimeout _ _ => true
  | .ping _ => true
  | .getStatus _ => true
  | .cfgRead _ => true
  | .cfgWrite _ => true
  | .press _ => true
  | .faultRead _ => true
  | .openContext _ => true
  | .closeContext _ => true
  | .suspendContext _ => true
  | .resumeContext _ => true
  | .grantGranules _ => true
  | .reclaimGranules _ => true
  | .vmConfig _ => true
  | .holdEnter _ => true
  | .holdExit _ => true
  | .failover _ => true
  | .resetDevice _ => true
  | .resetDeviceBegin _ => true
  | .attest _ => true
  | .loadImage _ => true
  | .lcTransition _ => true
  | .romLoad _ => true
  | .writeMem _ ctx => contextFits ctx
  | .readMem _ ctx => contextFits ctx
  | .submit _ ctx => contextFits ctx
  | .cancelJob _ ctx => contextFits ctx
  | .fenceSignal _ ctx => contextFits ctx
  | .fenceRead _ ctx => contextFits ctx
  | .fenceWait _ ctx => contextFits ctx
  | .fenceWaitPoll _ ctx => contextFits ctx
  | .fenceWaitTimeout _ ctx => contextFits ctx
  | .ctxStatus _ ctx => contextFits ctx
  | .cmdPairCfgWrite _ _ => true
  | .bridgeSlotReceive _ _ slot => slotFits slot
  | .aliveWireToggle _ => true
  | .partnerLost _ => true
  | .partnerSafeAnnounce _ => true
  | .takeoverOutputOwner _ => true
  | .takeoverJobRestart _ => true
  | .outputOwnerRelease _ => true
  | .pairCheckDone _ slot => slotNumberFits slot
  | .pairTagsReceive _ => true
  | .pairCompareTimeout _ item => itemFits item
  | .pairCfgConfirm _ => true
  | .deadlineProgressExchange _ => true
  | .spareInitialCopyDone _ => true
  | .mirrorWrite _ => true
  | .movs _ _ _ => true
  | .nop _ _ _ => true
  | .nopFold _ _ _ => true
  | .bra _ _ _ => true
  | .brx _ _ _ => true
  | .callInstr _ _ _ => true
  | .exitInstr _ _ _ => true
  | .endProg _ _ _ => true
  | .add _ _ _ => true
  | .sub _ _ _ => true
  | .mul _ _ _ => true
  | .mulhi _ _ _ => true
  | .shl _ _ _ => true
  | .shr _ _ _ => true
  | .andInstr _ _ _ => true
  | .orInstr _ _ _ => true
  | .xorInstr _ _ _ => true
  | .notInstr _ _ _ => true
  | .minInstr _ _ _ => true
  | .maxInstr _ _ _ => true
  | .sel _ _ _ => true
  | .mov _ _ _ => true
  | .setp _ _ _ => true
  | .plop _ _ _ => true
  | .fadd _ _ _ _ => true
  | .fsub _ _ _ _ => true
  | .fmul _ _ _ _ => true
  | .ffma _ _ _ _ => true
  | .fmin _ _ _ _ => true
  | .fmax _ _ _ _ => true
  | .fabs _ _ _ _ => true
  | .fneg _ _ _ _ => true
  | .fsetp _ _ _ _ => true
  | .cvt _ _ _ => true
  | .pack _ _ _ => true
  | .unpack _ _ _ => true
  | .fn8to4 _ _ _ => true
  | .rcp _ _ _ => true
  | .rsq _ _ _ => true
  | .lg2 _ _ _ => true
  | .ex2 _ _ _ => true
  | .ld _ _ _ => true
  | .lds _ _ _ => true
  | .st _ _ _ => true
  | .pf _ _ _ => true
  | .ldc _ _ _ _ => true
  | .stc _ _ _ _ => true
  | .fenceInstr _ _ _ => true
  | .fenceComplete _ _ => true
  | .tld _ _ _ _ => true
  | .tst _ _ _ _ => true
  | .ilkAcq _ _ _ => true
  | .ilkRel _ _ _ => true
  | .atomAdd _ _ _ => true
  | .atomSmin _ _ _ => true
  | .atomUmin _ _ _ => true
  | .atomSmax _ _ _ => true
  | .atomUmax _ _ _ => true
  | .atomAnd _ _ _ => true
  | .atomOr _ _ _ => true
  | .atomXor _ _ _ => true
  | .atomFadd _ _ _ => true
  | .xchg _ _ _ => true
  | .cas _ _ _ => true
  | .atomicReply _ _ => true
  | .bar _ _ _ => true
  | .barw _ _ _ => true
  | .shfl _ _ _ => true
  | .maska _ _ _ => true
  | .maskx _ _ _ => true
  | .ballot _ _ _ => true
  | .mmaI8i8 _ _ _ => true
  | .mmaI8i4 _ _ _ => true
  | .mmaI4i8 _ _ _ => true
  | .mmaI4i4 _ _ _ => true
  | .mmaF8f8 _ _ _ => true
  | .mmaF8f4 _ _ _ => true
  | .mmaF4f8 _ _ _ => true
  | .mmaF4f4 _ _ _ => true
  | .mmaH _ _ _ => true
  | .movaR _ _ _ => true
  | .movaWI32 _ _ _ => true
  | .movaWF32 _ _ _ => true
  | .zacc _ _ _ => true
  | .scw _ _ _ => true
  | .scr _ _ _ => true
  | .mstatRd _ _ _ => true
  | .mstatClr _ _ _ => true
  | .quantInt8 _ _ _ => true
  | .quantInt4 _ _ _ => true
  | .quantFn8 _ _ _ => true
  | .quantFn4 _ _ _ => true
  | .quantBinary16 _ _ _ => true
  | .sample _ _ _ => true
  | .fetchTexel _ _ _ => true
  | .outPos _ _ _ => true
  | .outVar _ _ _ => true
  | .outCol _ _ _ => true
  | .outDepth _ _ _ => true
  | .discard _ _ _ => true
  | .groupDispatch _ slot => slotNumberFits slot
  | .roundRobinRotation _ _ _ _ => true
  | .l1LineFill _ _ mr _ => decide (mr < 32)
  | .l1MergeDrain _ _ => true
  | .l1MergeWriteDone _ _ _ => true
  | .l2LineFill _ _ mr fails _ => decide (mr < 64) && failsFit fails
  | .l2MergeDrain _ _ => true
  | .l2MergeCommit _ _ _ fails => failsFit fails
  | .sideBufferFill _ _ => true
  | .stepZeroDone _ _ => true
  | .tlmStarveTake _ _ _ _ => true
  | .l2CarveApply _ _ => true
  | .passStart _ _ => true
  | .drawCheck _ _ => true
  | .vertexGroupDispatch _ _ => true
  | .triangleBin _ _ => true
  | .extAnswer _ _ _ => true
  | .extWaitTimeout _ _ => true
  | .rinse _ _ => true
  | .tileRender _ _ _ => true
  | .fragmentGroupDispatch _ _ _ => true
  | .passComplete _ _ => true
  | .frameBoundary _ _ => true
  | .layerConfigFix _ _ => true
  | .frameVerdict _ _ => true
  | .frameStartMessage _ _ => true
  | .layerLineFetch _ _ _ => true
  | .fetchUnderrun _ _ _ => true
  | .writebackFrameDone _ _ => true
  | .pipePressApplyDisabled _ _ => true
  | .pixelPllRelock _ _ => true
  | .jobWaitPoll _ slot => slotNumberFits slot
  | .jobStart _ slot => slotNumberFits slot
  | .preemptWaitExpiry _ slot => slotNumberFits slot
  | .shareFold _ slot _ => slotNumberFits slot
  | .foldDone _ slot _ => slotNumberFits slot
  | .shareUnfold _ slot _ => slotNumberFits slot
  | .foldLate _ _ => true
  | .copyUnit _ _ => true
  | .jobWorkDone _ slot => slotNumberFits slot
  | .jobEndSequence _ slot => slotNumberFits slot
  | .deadlineCheckpoint _ slot => slotNumberFits slot
  | .deadlineExpiry _ slot => slotNumberFits slot
  | .parityRestart _ _ _ => true
  | .replay _ _ => true
  | .replayWrung _ _ => true
  | .kill _ _ => true
  | .invAll _ => true
  | .invContext _ _ => true
  | .invVm _ _ => true
  | .invRange _ _ _ => true
  | .ownShareWordWrite _ _ _ => true
  | .migrationFillDone _ ctx page _ => decide (ctx < 1024) && decide (page < 2 ^ 48)
  | .darnerReport _ => true
  | .darnerRecordClose _ place => decide (place < 64)
  | .heldRecordEnqueue _ => true
  | .ownEntryParityRepair _ granule _ => decide (granule < 2 ^ 19)
  | .laneLock _ _ _ _ => true
  | .trainingBlockReceive _ _ blk => decide (blk.length = 16)
  | .linkTrainProgress _ _ _ => true
  | .linkTrainTimeout _ _ => true
  | .linkRetrain _ _ => true
  | .linkDown _ _ _ => true
  | .flitReceive _ _ flit _ => decide (flit.length = 32)
  | .linkControlBlock _ _ blk => decide (blk.length = 16)
  | .linkControlLoss _ _ => true
  | .packetRoute _ _ => true
  | .ringPoll _ => true
  | .recordIssue _ ctx => contextFits ctx
  | .remoteTargetOp _ => true
  | .remoteReply _ => true
  | .remoteTimeout _ tag => decide (tag < 65536)
  | .wringerBlock _ _ => true
  | .wringerYield _ _ => true
  | .refLost _ => true
  | .arbWindowEnd _ _ _ => true
  | .emergencyGrant _ _ _ => true
  | .arbWatchdog _ _ _ => true
  | .pressApply _ _ => true
  | .pressAck _ _ => true
  | .pressTimeout _ => true
  | .boot _ => true
  | .tamper _ _ => true
  | .imageLoadDone _ _ _ => true
  | .extest => true
  | .idcode => true
  | .samplePreload => true
  | .dbgChallenge _ => true
  | .dbgResponse _ => true
  | .dbgAccess _ => true
  | .bypass => true
  | .dramTrainingDone _ res => trainingFits res
  | .dramRefresh _ _ => true
  | .fillWipeDone _ => true
  | .usbLowPowerRequest _ _ => true
  | .usbReconnect _ _ => true
  | .hpdChange _ _ _ => true
  | .dpLinkTrain _ _ _ => true
  | .csiPacket _ _ _ => true
  | .csiFrameStart _ _ => true
  | .csiLine _ _ payload _ _ => decide (payload.length < 65536)
  | .csiFrameEnd _ _ => true
  | .csiLineWatchdog _ _ => true
  | .csiFrameWatchdog _ _ => true
  | .tdmBlockDone _ _ _ => true
  | .tdmClockLoss _ _ _ _ => true
  | .tdmResume _ _ => true
  | .ufsXferGo _ _ => true
  | .ufsXferDone _ _ _ => true
  | .xspErase _ => true
  | .xspProgram _ => true
  | .xspRead _ => true
  | .xspBusyTimeout _ => true
  | .entdaa _ _ => true
  | .setdasa _ _ _ => true
  | .rstdaa _ => true
  | .getpid _ => true
  | .getbcr _ => true
  | .getdcr _ => true
  | .getstatus _ => true
  | .enec _ => true
  | .disec _ => true
  | .i3cPrivateWrite _ _ => true
  | .i3cPrivateRead _ words => decide (1 ≤ words)
  | .telemetrySnapshot _ => true
  | .healthyRefreshTimeout _ => true
  | .mtxKmacLoRead _ => true
  | .csiFrameLoRead _ _ => true
  | .pwrSlotLoRead _ => true
  | .pwrGatedLoRead _ => true
  | .resetSource _ => true
  | .rootPllLock _ => true
  | .sramInitDone _ => true
  | .startupReady _ => true
  | .powerCapStep _ _ => true
  | .thermalSample _ readings => decide (readings.length = 16)
  | .thermalTrip _ _ => true
  | .ctrlParity _ _ => true
  | .cfgParity _ addr _ => decide (addr % 4 = 0) && decide (addr < 0x5E0000)
  | .xspCmdDone _ _ => true
  | .unfoldDone _ slot _ => slotNumberFits slot
  | .pairedPipePressAck _ => true
  | .pairedDeadlineDecision slot => slotNumberFits slot
  | .l2CarveZeroDone _ _ => true
  | .powerOff _ => true

end Sys2Proof
end

