-- ==== Sys2Proof/Machine/State.lean ====
section
/-! DEFINITION. Sys2Proof/Machine/State.lean: the state of the LST-2P as plain data: both dies, what lies between them,
and the queue of commands that wait. INVENTORY.md lists every field with the rule that names it and its reset value.

Registers of the configuration space are kept by address in two word maps, active and shadow (R13); a word that is
not listed holds the reset value of its field map. Memories are lists of cells with strictly rising addresses; an
unlisted address reads 0 (R567: the reset wipes every memory to zero). -/
namespace Sys2Proof.Machine

/-- A register file by configuration address. Unlisted: the reset value of the register's field map. -/
abbrev WordMap := List (Nat × Word)

/-- The device states of R63. -/
inductive DevState
  | off
  | rom
  | ready
  | active
  | hold
  | safe
  | locked
  deriving DecidableEq, Repr

/-- The context states of R63. -/
inductive CtxState
  | free
  | opened
  | running
  | suspended
  | faulted
  deriving DecidableEq, Repr

/-- The roles of R23. -/
inductive Role
  | independent
  | primary
  | secondary
  | standby
  deriving DecidableEq, Repr

/-! ### Command processor (02_command_packets.md) -/

/-- A sequence number that was accepted, with its reply once formed (R68, R69). -/
structure HistEnt where
  seq : Word
  reply : Option (List Byte)
  deriving DecidableEq, Repr

/-- The numbered stream of a context (R67 to R69). -/
structure Stream where
  /-- The expected number E. -/
  expected : Word
  /-- Accepted numbers, newest first: every one whose reply is not yet formed, and the last 32 executed (R69). -/
  hist : List HistEnt
  deriving DecidableEq, Repr

/-- How far a validated, unanswered command of the pending pool has come. -/
inductive Phase
  /-- Not yet started (R71). -/
  | waiting
  /-- Its data channel is assigned to it (R91). -/
  | transfer (ch : Fin 4)
  /-- FENCE_WAIT, waiting since the given time (R89). A held fault of its read stops its reads, not its TIMEOUT (R74). -/
  | fenceWait (since : DWord) (frozen : Option Byte)
  /-- SUSPEND_CONTEXT, its folds running (R79). -/
  | folding
  /-- Frozen on a held fault of its own (R74). -/
  | frozen (cls : Byte)
  deriving DecidableEq, Repr

/-- A place of the pending pool (R57). -/
structure PendCmd where
  ctx : Nat
  pkt : List Byte
  phase : Phase
  /-- Its context was closed while it was queued (R66, R78). -/
  closed : Bool
  /-- Repeats of its reply asked for before it was formed (R68). -/
  repeats : Nat
  deriving DecidableEq, Repr

/-- What a data channel moves (R91, R93). -/
inductive XferKind
  | writeMem
  | readMem
  | attest
  | lcAuth
  | romImage
  deriving DecidableEq, Repr

/-- A transfer of a data channel (R93). -/
structure Xfer where
  kind : XferKind
  ctx : Nat
  va : Nat
  len : Nat
  moved : Nat
  /-- When the channel was assigned or the latest packet moved (R93). -/
  last : DWord
  /-- Bytes to be sent (a report), bytes received (an authorisation, an image), or the packet held while frozen. -/
  buf : List Byte
  frozen : Option Byte
  /-- When it was frozen: DATA_TIMEOUT does not run from then until it resumes (R93). -/
  heldAt : DWord
  deriving DecidableEq, Repr

/-- What the port answered to the latest token or packet: the interface's output. In SuperSpeed operation a refusal is
NRDY (R56). -/
inductive UsbAnswer
  | none
  | ack
  | nak
  | nrdy
  | stall
  | data (bytes : List Byte)
  deriving DecidableEq, Repr

/-- An open context (R67, R77, R86). -/
structure Ctx where
  num : Nat
  state : CtxState
  attr : Byte
  vmid : BitVec 8
  s1root : DWord
  timeout : Word
  stream : Stream
  faultCnt : Word
  deriving DecidableEq, Repr

/-! ### Presses (13_clocks_crossings_arbiters.md) -/

/-- The press in force and the press that is pending (R467 to R473). Sets of units are bits 0 to 43 of R469. -/
structure Press where
  /-- The epoch of the latest press, PENDING_EPOCH. -/
  epoch : Word
  /-- ACTIVE_EPOCH. -/
  activeEpoch : Word
  /-- Units that have not acknowledged. -/
  behind : BitVec 44
  /-- Units that have applied the pending press and whose acknowledgement is on its way (R471). -/
  applied : BitVec 44
  /-- Units concerned by RWP writes since the last press they applied (R468). -/
  dirty : BitVec 44
  /-- Units frozen under R473. -/
  late : BitVec 44
  /-- When the press was issued. -/
  issued : DWord
  /-- The shadows as the press found them: later writes wait for the next press (R16). -/
  pressed : WordMap
  /-- Units whose active configuration failed parity (R481), with the register. -/
  cfgBad : List (Nat × Nat)
  /-- Registers whose shadow word failed parity since they were last written (R481). -/
  shadowBad : List Nat
  /-- Interface blocks that have dealt with the pending press (R557): bit 0 USB, 1 to 4 the CSI ports, 5 to 8 the TDM
  ports, 9 UFS. -/
  ioDone : BitVec 10
  /-- The epoch in force at each unit, by bit. -/
  unitEpoch : List Word
  deriving DecidableEq, Repr

/-! ### The pair (01_die_pair.md) -/

/-- A model measurement (R511). An entry that is not `verified` is reserved by a load in progress. -/
structure ModelEnt where
  ctx : Nat
  keySlot : Nat
  wrung : Bool
  closed : Bool
  svn : Word
  dest : DWord
  digest : List Byte
  verified : Bool
  deriving DecidableEq, Repr

/-- A die's comparison of a paired job, as its release vote reports it (R34, R35). -/
inductive Vote
  | agree
  | mismatch
  | timeout
  deriving DecidableEq, Repr

/-- Messages over CTL (R18). -/
inductive CtlMsg
  | safeAnnounce
  | pairApplied (epoch : Word)
  /-- Progress of a paired job at a checkpoint: context, key, checkpoint and projection (R32). -/
  | progress (ctx key chk : Nat) (proj : Nat)
  | deadline (ctx key : Nat) (miss : Bool)
  | frameStart (p : Fin 4) (frame : Word)
  | pipeAck (p : Fin 4) (epoch : Word)
  | foldRequest (ctx key index : Nat)
  deriving DecidableEq, Repr

/-- Messages over CMP: tags, with a frame's verdict, and release votes of jobs (R18, R34, R311). -/
inductive CmpMsg
  | job (ctx key : Nat) (tags : List Word)
  | vote (ctx key : Nat) (vote : Vote)
  | frame (p : Fin 4) (frame : Word) (tags : List (Option Word)) (passed : BitVec 16)
  deriving DecidableEq, Repr

/-- Items of the mirror stream over MIR and the commands mirrored over CTL (R38). -/
inductive MirItem
  | write (pa : Nat) (bytes : List Byte)
  /-- A 64-bit word, by PA / 8, is written with wrong parity (R28, R477). -/
  | spoil (word : Nat)
  | wipe (granule : Nat)
  | command (ctx : Nat) (pkt : List Byte) (reply : List Byte)
  /-- An entry of the model measurement list, as a load left it (R38, R511). -/
  | model (index : Nat) (ent : Option ModelEnt)
  deriving DecidableEq, Repr

/-- Local tags that wait for the partner's (R33 to R35). -/
structure TagWait where
  item : PairItem
  frame : Word
  tags : List (Option Word)
  passed : BitVec 16
  since : DWord
  deriving DecidableEq, Repr

/-- The die-pair logic of one die (R23 to R50). -/
structure Pair where
  mode : BitVec 2
  role : Role
  degraded : Bool
  bridgeUp : Bool
  /-- The end of the bridge is in reset until the next package reset (R564). -/
  bridgeReset : Bool
  mirrorSync : Bool
  /-- The partner was declared lost (R41). -/
  lost : Bool
  lastAlive : DWord
  lastCtl : DWord
  /-- A toggle or a CTL slot has arrived since reset (PARTNER_OK of R50). -/
  heard : Bool
  /-- When the latest write of CMD_PAIR_CFG through die A's window reached this die (R26). -/
  cfgByA : Option DWord
  /-- CMD_PAIR_CFG as it was before a mode press that is in force and not yet acknowledged (R49). -/
  undo : Option Word
  /-- The check of R41 is suspended across HOLD (R570). -/
  suspended : Bool
  /-- When a takeover began (R42). -/
  takeover : Option DWord
  jobsRestarted : Bool
  /-- This die pulls PK_OUTPUT_OWNER low, since its latest refresh (R45). -/
  pulls : Option DWord
  /-- The initial copy into SPARE is running, from this die (R27). -/
  copying : Bool
  /-- Consecutive failed resends of the slot that each class, in the order of R18, waits for (R19). -/
  slotFails : Vector Nat 4
  /-- The partner confirmed the pair configuration of this epoch (R50). -/
  confirmed : Option Word
  /-- Messages this die sends. -/
  ctlOut : List CtlMsg
  cmpOut : List CmpMsg
  mirOut : List MirItem
  tags : List TagWait
  deriving DecidableEq, Repr

/-! ### DRAM, ownership, translation (16, 10) -/

/-- Work of the fill engine (R531). -/
inductive FillJob
  | full
  | granule (g : Nat)
  | frame (ctx : Nat) (page : Nat) (pa : Nat) (len : Nat)
  deriving DecidableEq, Repr

/-- The DRAM of one die and its controllers. -/
structure Dram where
  cells : List Host.Cell
  /-- 64-bit words, by PA / 8, whose stored parity is wrong (R234, R477). -/
  spoiled : List Nat
  trained : Bool
  ranks : Nat
  fittedGib : Nat
  selfRefresh : Bool
  /-- The channels' RESET_n are driven low, until training begins (R559). -/
  resetLow : Bool
  /-- The wipe of R567 has ended. -/
  wiped : Bool
  fill : List FillJob
  /-- Parity lines of the controllers' read caches (R529), by channel and group. -/
  parLines : List (Nat × Nat)
  deriving DecidableEq, Repr

/-- A cached translation: a TLB entry (R361, R362). -/
structure TlbEnt where
  ctx : Nat
  vmid : BitVec 8
  /-- First VA, bytes and first PA of the span. -/
  va : Nat
  len : Nat
  pa : Nat
  r : Bool
  w : Bool
  x : Bool
  /-- The last entry read by the walk that made it, and its level: DETAIL of R380. -/
  ta : Nat
  level : Nat
  /-- Rights of stage 1 and stage 2 apart, for FLAGS.STAGE2 (R359). -/
  s2r : Bool
  s2w : Bool
  s2x : Bool
  deriving DecidableEq, Repr

/-- The TLB of a core, under the name of its stream engine, or the micro-TLB of a master (R361). One that holds nothing is not
listed. -/
structure NearTlb where
  who : Master
  ents : List TlbEnt
  deriving DecidableEq, Repr

/-- A walk-cache entry (R361): a table entry read at an address by a walk of a stage, context or VM. -/
structure WalkEnt where
  stage : Nat
  ctx : Nat
  vmid : BitVec 8
  ta : Nat
  entry : DWord
  deriving DecidableEq, Repr

/-- A migration in progress (R383). -/
structure Migration where
  ctx : Nat
  page : Nat
  size : Nat
  /-- Address of the level-2 or level-3 entry, and its bits. -/
  entryPa : Nat
  entry : DWord
  /-- FRAME of the entry, an IPA. -/
  frameIpa : Nat
  /-- 1 ZERO, 2 HOST, 3 PEER. -/
  kind : Nat
  joined : List Master
  deriving DecidableEq, Repr

/-! ### Faults (14) -/

/-- A fault record (R379). -/
structure FaultRec where
  cls : Byte
  flags : Byte
  master : Byte
  clusters : Byte
  unit : BitVec 16
  count : BitVec 16
  id : Word
  epoch : Word
  addr : DWord
  detail : DWord
  deriving DecidableEq, Repr

/-- A report on its way to the darner (R482, R486). -/
structure Report where
  cls : Byte
  flags : Byte
  who : Master
  ctx : Nat
  vmid : BitVec 8
  va : BitVec 48
  detail : DWord
  epoch : Word
  /-- ORIGIN of the key (R486), as a number within its class. -/
  origin : Nat
  /-- The reporter is frozen, and waits for a place (R487). -/
  freezes : Bool
  /-- It waits for XLT_RESOLVE (R484). -/
  held : Bool
  /-- Its reporter no longer holds the unit, and a resolution passes it over (R74). -/
  gone : Bool
  deriving DecidableEq, Repr

/-- A place of the darner (R487, R488). -/
structure Place where
  origin : Nat
  who : Master
  record : FaultRec
  reporters : List Master
  opened : DWord
  /-- The window has passed and the record waits for a place in the full queue. -/
  held : Bool
  reserved : Bool
  deriving DecidableEq, Repr

/-- A fault that waits for XLT_RESOLVE (R377): its record's FAULT_ID, its context and its reporters. -/
structure HeldFault where
  fid : BitVec 20
  cls : Byte
  ctx : Nat
  reporters : List Master
  page : Nat
  deriving DecidableEq, Repr

/-! ### Jobs (09) -/

inductive JobState
  | waiting
  | released
  | running
  | ended
  deriving DecidableEq, Repr

inductive ShareState
  | live
  | folding
  | folded
  | unfolding
  | finished
  deriving DecidableEq, Repr

/-- A share of a job (R326): its cluster, its partition and how far a fold has come. -/
structure Share where
  /-- Directory entry (R342). -/
  index : Nat
  cl : Fin 6
  state : ShareState
  started : DWord
  /-- A fold image exists, and whether through the wringer (STATE 1 or 2). -/
  image : Nat
  /-- Its fold passes through the wringer (R338). -/
  wring : Bool
  /-- Group records saved for each core, to be restored at unfold (R330). -/
  cores : List Nat
  /-- Groups dispatched to the share since its image, and groups of it that have ended since (R341). -/
  fresh : List Nat
  ended : Nat
  deriving DecidableEq, Repr

/-- A wringer job's parameter block as read, and its counts (R440, R441). -/
structure WrgRun where
  par : List Byte
  blocks : Nat
  inDone : Nat
  outDone : Nat
  result : Nat
  deriving DecidableEq, Repr

/-- A job slot in use (R317 to R323). -/
structure Job where
  slot : Nat
  id : Word
  ctx : Nat
  /-- The copied descriptor; of a kid, with the fields it keeps of the original (R349). -/
  desc : List Byte
  state : JobState
  /-- Copy order (R327). -/
  order : Nat
  released : DWord
  start : DWord
  endTime : DWord
  status : Option Byte
  flags : Byte
  folds : Nat
  /-- Groups dispatched and ended, tiles rendered, or bytes moved. -/
  dispatched : Nat
  done : Nat
  shares : List Share
  preemptSince : Option DWord
  /-- Deadline monitor: next checkpoint, last evaluated, D and F of the deciding evaluation (R345 to R348). -/
  nextChk : Nat
  lastChk : Byte
  deadline : DWord
  projected : DWord
  isKid : Bool
  kidAt : DWord
  /-- A kid switch decided for the next checkpoint of a paired job (R32). -/
  kidDue : Bool
  restarts : Nat
  paired : Bool
  /-- What a paired or mirrored job is known by on both dies: the copies of one submission and of its chain. -/
  key : Nat
  /-- A wringer job's counts. -/
  wrg : WrgRun
  /-- Projections of a paired job whose checkpoints are not yet decided, this die's and its partner's: checkpoint and F
  (R32). -/
  mine : List (Nat × Nat)
  theirs : List (Nat × Nat)
  /-- The partner's tags, when they came first (R34). -/
  theirTags : Option (List Word)
  /-- The local tags (R33). -/
  myTags : List Word
  /-- Tags formed and sent; the partner's verdict (R33, R34). -/
  tagged : Bool
  /-- This die's comparison and the partner's vote (R34). -/
  myVote : Option Vote
  theirVote : Option Vote
  /-- Paired jobs: none undecided, some true released, some false failed. -/
  pairOk : Option Bool
  /-- The evaluation at D + MARGIN has been taken (R347). -/
  expired : Bool
  /-- First groups of workgroups to be dispatched again after a restart of their share (R341). -/
  again : List Nat
  /-- Clusters freed for the job, which no later job may take (R327). -/
  claims : List (Fin 6)
  /-- A remote transaction of its context timed out while a share was folded: firmware has not decided yet (R339). -/
  timedOut : Bool
  /-- Next step of the end sequence (R321). -/
  endStep : Nat
  held : Option Byte
  deriving DecidableEq, Repr

/-- A copy engine (R331). -/
structure CopyEng where
  job : Option Nat
  taken : DWord
  frozen : Option Byte
  deriving DecidableEq, Repr

/-- A partition of a cluster (R201 to R206). -/
structure Partition where
  cl : Fin 6
  slot : Fin 4
  job : Nat
  ctx : Nat
  kind : Nat
  mask : BitVec 16
  deriving DecidableEq, Repr

/-! ### Groups (04, 05) -/

/-- A group register or accumulator register: one 32-bit value per thread (R133, R177). -/
abbrev Lanes := Vector Word 64

/-- An entry of the reconvergence stack (R146). -/
structure StackEnt where
  reconv : BitVec 48
  pendPc : BitVec 48
  pendMask : BitVec 64
  outer : BitVec 64
  deriving DecidableEq, Repr

/-- Arrivals at a barrier (R148, R151): the mask, and the address of the BAR when all used one. -/
structure Arrival where
  mask : BitVec 64
  pc : BitVec 48
  /-- Threads parked at different addresses (R150). -/
  mixed : Bool
  deriving DecidableEq, Repr

/-- Stage of a group: compute, or vertex or fragment shading of a pass (R249, R250, R269). -/
inductive Stage
  | compute
  | vertex (pass : Fin 4) (first : Nat) (inst : Nat) (count : Nat)
  | fragment (pass : Fin 4) (tile : Nat) (sub : Nat) (drawNo : Nat)
  deriving DecidableEq, Repr

/-- A quad pixel of a fragment thread: pixel, coverage, primitive order in the tile, depth plane values (R250). -/
structure FragThread where
  x : Nat
  y : Nat
  cover : BitVec 4
  order : Nat
  front : Bool
  helper : Bool
  depth : List Word
  deriving DecidableEq, Repr

/-- A load whose sectors have not all arrived (R139, R215): destination registers and the sectors awaited. -/
structure PendLoad where
  dst : Nat
  size : Nat
  signed : Bool
  mask : BitVec 64
  vas : List Nat
  pas : List Nat
  /-- Sectors of 32 bytes, by PA, still awaited (R215). -/
  sectors : List Nat
  /-- Bytes already received, by PA. -/
  got : List Host.Cell
  deriving DecidableEq, Repr

/-- Values of an atomic that return with the L2 reply (R214). -/
structure PendAtomic where
  dst : Nat
  wide : Bool
  mask : BitVec 64
  values : List DWord
  deriving DecidableEq, Repr

/-- A FENCE that has not completed (R160). -/
structure FenceReq where
  kind : Nat
  scope : Nat
  /-- Its release has reached the slices. -/
  sent : Bool
  deriving DecidableEq, Repr

/-- Outputs of a shader thread (R269): per thread, position or colours by attachment or slot. -/
structure ShaderOut where
  pos : Option (List Word)
  vars : List (Nat × List Word)
  cols : List (Nat × List Word)
  depth : Option Word
  deriving DecidableEq, Repr

/-- A resident group (R131 to R136, R179, R194). -/
structure Group where
  loc : GrpLoc
  job : Nat
  ctx : Nat
  idx : Nat
  wg : Nat
  rank : Nat
  /-- Dispatch stamp: the age of R141. -/
  stamp : Nat
  /-- The wait counter of R142, in ACLK cycles. -/
  wait : Nat
  pc : BitVec 48
  active : BitVec 64
  exited : BitVec 64
  regs : List Lanes
  accs : List Lanes
  /-- p0 to p6. -/
  preds : Vector (BitVec 64) 7
  /-- Barriers 0 to 7, then BARW. -/
  arrivals : Vector Arrival 9
  stack : List StackEnt
  /-- sc0 to sc7, 64 bytes each. -/
  scales : Vector (Vector Byte 64) 8
  /-- GSTAT and the three counters (R194). -/
  gstat : BitVec 3
  ovf : Word
  sat : Word
  nan : Word
  /-- TIME_HI as captured by the latest read of TIME_LO (R136). -/
  timeHi : Word
  frozen : Option Byte
  /-- Stopped at a fold point, waiting to be saved (R332). -/
  stopped : Bool
  /-- How far FP_LIMIT has run for the group, in 64ths of a local µs (R336, R579). -/
  foldTime : Nat
  fence : Option FenceReq
  loads : List PendLoad
  atomics : List PendAtomic
  stage : Stage
  frags : List FragThread
  out : List ShaderOut
  /-- ILK.ACQ (R270): 0 not granted, 1 granted, 2 released. -/
  ilk : Nat
  /-- ILK.ACQ has been tried and waits. The model's own field. -/
  ilkWait : Bool
  deriving DecidableEq, Repr

/-! ### L1 and L2 (06) -/

/-- A line of an L1 or of its side buffer (R199, R212). -/
structure L1Line where
  pa : Nat
  way : Nat
  ctx : Nat
  vmid : BitVec 8
  stale : Bool
  data : List Byte
  deriving DecidableEq, Repr

/-- A sector request that waits on a miss register (R215): the group, the load by its destination, and the sector by its
PA. -/
structure MissReq where
  grp : GrpLoc
  dst : Nat
  sector : Nat
  deriving DecidableEq, Repr

/-- A miss register (R215, R217). -/
structure MissReg where
  pa : Nat
  ctx : Nat
  vmid : BitVec 8
  reqs : List MissReq
  /-- The line as L2 answered it. -/
  answer : Option (List Byte)
  /-- An acquire fence completed after the request (R217). -/
  fenced : Bool
  deriving DecidableEq, Repr

/-- An entry of a merging buffer (R218, R229). -/
structure MergeEnt where
  pa : Nat
  /-- The bytes stored, by offset in the line. -/
  bytes : List (Nat × Byte)
  closed : Bool
  /-- Allocated at this time, in SCLK cycles. -/
  born : DWord
  /-- A fence or request asks for its drain (R219). -/
  asked : Bool
  ctx : Nat
  /-- Slots of the jobs whose stores the entry holds (R320). -/
  jobs : List Nat
  /-- 64-bit words of the line, by bit, that a parity error spoiled (R234). -/
  spoil : BitVec 16
  deriving DecidableEq, Repr

/-- One core's L1 (R199, R212 to R225). -/
structure L1 where
  loc : CoreLoc
  /-- Lines held, those used last at the end (R212). -/
  lines : List L1Line
  miss : List MissReg
  merge : List MergeEnt
  side : List L1Line
  /-- Prefetches on their way (R221): line, context, VMID. -/
  fetching : List (Nat × Nat × BitVec 8)
  /-- Carve code 0 to 3, the job that holds it, and its bytes (R223). A carve that no job holds any more stands until no group
  is resident on the core. -/
  carve : Nat
  carveJob : Option Nat
  carveMem : List Host.Cell
  /-- (way, set) with one parity error, and those retired (R235). -/
  errs : List (Nat × Nat)
  retired : List (Nat × Nat)
  deriving DecidableEq, Repr

/-- A line present in an L2 slice. It is clean (R227), so its bytes are those of the slice's view of memory. -/
structure L2Line where
  pa : Nat
  way : Nat
  deriving DecidableEq, Repr

/-- Who waits on an L2 miss register. -/
inductive L2Waiter
  | core (c : CoreLoc)
  | prefetch (c : CoreLoc)
  | sidePrefetch
  deriving DecidableEq, Repr

structure L2Miss where
  pa : Nat
  waiters : List L2Waiter
  deriving DecidableEq, Repr

/-- One L2 slice (R199, R226 to R233). -/
structure L2 where
  slice : Fin 16
  lines : List L2Line
  miss : List L2Miss
  merge : List MergeEnt
  side : List L2Line
  errs : List (Nat × Nat)
  retired : List (Nat × Nat)
  /-- Carve steps whose zeroing runs: the target of a pressed increase (R233). -/
  zeroing : Option Nat
  deriving DecidableEq, Repr

/-! ### Rendering (07) -/

/-- Phases of a pass, as GFX_FE_SLOT codes them, with idle between rinse and binning decisions. -/
inductive PassPhase
  | binning
  | rinse
  | tile
  | direct
  | folding
  | frozen
  deriving DecidableEq, Repr

/-- A shaded vertex (R249, R262): position and varyings. -/
structure Vert where
  index : Nat
  inst : Nat
  pos : List Word
  vars : List (List Word)
  deriving DecidableEq, Repr

/-- A primitive as its record holds it (R254), for direct mode and for tiles being drawn. -/
structure Prim where
  drawNo : Nat
  id : Nat
  front : Bool
  verts : List (List Word × List (List Word))
  deriving DecidableEq, Repr

/-- A quad that waits for a fragment group (R250): its sub-tile and its four threads. -/
structure Quad where
  sub : Nat
  drawNo : Nat
  prim : Prim
  threads : List FragThread
  /-- Early testing has been done, or does not apply (R266). -/
  tested : Bool
  deriving DecidableEq, Repr

/-- Shaded fragments whose outputs wait for their turn in submission order (R267). -/
structure FragDone where
  order : Nat
  drawNo : Nat
  thread : FragThread
  out : ShaderOut
  deriving DecidableEq, Repr

/-- A tile in flight on a cluster (R244 to R246). -/
structure TileFlight where
  cl : Fin 6
  tile : Nat
  slot : Nat
  /-- Next list entry to draw, and whether the list has ended. -/
  segVa : Nat
  entry : Nat
  drawn : Nat
  listDone : Bool
  /-- Draw of the latest triangle: earlier draws have no further quads here. -/
  upTo : Nat
  quads : List Quad
  /-- Fragments in groups that have not ended, by order. -/
  pendingFrags : List Nat
  done : List FragDone
  nextOrder : Nat
  deriving DecidableEq, Repr

/-- A pass slot of the geometry front end (R239). -/
structure Pass where
  job : Nat
  ctx : Nat
  desc : List Byte
  phase : PassPhase
  /-- The phase to which a frozen or folded pass returns. -/
  resume : PassPhase
  segment : Nat
  /-- The draw in hand: its VA (0 none), number, bytes, whether checked. -/
  drawVa : Nat
  drawNo : Nat
  draw : List Byte
  checked : Bool
  inst : Nat
  /-- Next index position to shade, and next triangle. -/
  position : Nat
  tri : Nat
  /-- Position at which the strip or fan in hand began, its next triangle, and the restart positions seen (R262). -/
  stripStart : Nat
  stripTri : Nat
  cuts : List Nat
  verts : List Vert
  /-- Draws bound so far, for fragment shading: number and bytes. -/
  draws : List (Nat × List Byte)
  /-- Clip fans still to bin. -/
  fan : List Prim
  nextChunk : Nat
  vChunk : Nat
  vOfs : Nat
  lChunk : Nat
  lSeg : Nat
  chunksUsed : Nat
  exts : List Nat
  /-- BASE_VA of the reserve as read with the latest grant (R257). -/
  extBase : Nat
  /-- Tiles listed in the segment: tile, entries and last list segment. The front end's own record of the heads. -/
  tails : List (Nat × Nat × Nat)
  /-- When the front end last served the pass, by count of services (R239). The model's own field. -/
  served : Nat
  /-- An extension request waits for firmware since this time (R258). -/
  extWait : Option DWord
  /-- Tile phase: next tile and tiles in flight. -/
  nextTile : Nat
  tiles : List TileFlight
  /-- The front end is frozen for the pass (R276). -/
  frozen : Option Byte
  /-- Clusters whose raster unit or back end is frozen for the pass, each with its class (R276). -/
  halted : List (Fin 6 × Byte)
  primsIn : Nat
  primsBinned : Nat
  primsCulled : Nat
  tilesRendered : Nat
  rinses : Nat
  extGranted : Nat
  extRefused : Nat
  peak : Nat
  samplesPassed : Nat
  deriving DecidableEq, Repr

/-! ### Display (08) -/

/-- A pixel, 12 bits a component as composed. -/
structure Pix where
  r : Nat
  g : Nat
  b : Nat
  deriving DecidableEq, Repr

/-- A layer's configuration words, as active or pending (R288): its 12 RWP registers, in address order. -/
abbrev LayerCfg := List Word

structure Layer where
  active : LayerCfg
  pending : Option LayerCfg
  /-- Source rows fetched in this frame (R603), with their bytes: luma or graphic row r as 2r, chroma row r as 2r + 1. -/
  lines : List (Nat × List Byte)
  /-- The layer is replaced by the SAFE colour for the rest of this line (R293). -/
  underrun : Option Nat
  deriving DecidableEq, Repr

/-- A display pipe (R280 to R316). -/
structure Pipe where
  en : Bool
  frame : Word
  layers : Vector Layer 8
  frozen : Option Byte
  /-- REPLAY named the freeze: the pipe resumes at its next boundary (R314). -/
  resumeDue : Bool
  mmRun : Nat
  /-- Boundaries still in the relock period (R287); the PLL is relocking. -/
  relocking : Bool
  vblank : Bool
  line : Nat
  /-- Running CRC of each formed region (R304, R305). -/
  crc : List Word
  /-- Causes of R308 in the frame: underrun, frozen, relock. -/
  underrun : Bool
  wasFrozen : Bool
  relockFrame : Bool
  /-- Frames of the relock period still to come, this one included (R287). -/
  relockLeft : Nat
  /-- Step 4 of R282 has begun: fences wait to be read. -/
  fixDue : Bool
  /-- The frame whose verdict is due, its tags and the pair's result (R307, R311). -/
  verdictDue : Option Word
  /-- Causes of R308 in that frame: bit 0 underrun, 1 frozen, 2 relock; and the regions that differed from EXPECT. -/
  dueCauses : Nat
  dueMiss : BitVec 16
  tagsOf : List (Option Word)
  pairResult : Option Bool
  wbLines : Nat
  /-- A frame written whole, whose fence waits to be signalled: frame, fence VA and context (R303). -/
  wbDue : Option (Word × Nat × Nat)
  lastBoundary : DWord
  /-- The paired pipe's press waits for die B's acknowledgement over CTL (R310). -/
  pairAckDue : Option Word
  /-- Die A's press for the paired pipe, which die B's applies at its own boundary: epoch and words (R310). -/
  pairPress : Option (Word × WordMap)
  pairLocked : Bool
  trained : Bool
  rate : Nat
  hpd : Bool
  /-- A frame-locked pipe waits for its leader's frame-start message (R310). -/
  startDue : Bool
  /-- The lines sent on the port in the frame in progress, newest first, at the panel's depth (R301, R302). -/
  out : List (Nat × List Pix)
  deriving DecidableEq, Repr

/-! ### Links (11) -/

inductive LinkState
  | disabled
  | signal
  | align
  | exchange
  | up
  | down
  deriving DecidableEq, Repr

/-- A lane's lock (R391): consecutive valid headers, and the validity of the last 64 headers. -/
structure Lane where
  run : Nat
  window : List Bool
  locked : Bool
  deriving DecidableEq, Repr

/-- A packet (R395, R396): its head CONTENT, its extension and its data. -/
structure Packet where
  head : List Byte
  ext : List Byte
  data : List Byte
  deriving DecidableEq, Repr

/-- A Dorkar link (R388 to R406). -/
structure Link where
  state : LinkState
  cause : BitVec 3
  reversed : Bool
  pol : BitVec 8
  partnerLink : BitVec 3
  partnerNode : BitVec 14
  lanes : Vector Lane 8
  since : DWord
  /-- Consecutive valid training blocks that passed R404. -/
  goodBlocks : Nat
  /-- Receiver: expected SEQ, discarding after an error, flits of the packet in progress. -/
  rxE : BitVec 15
  rxNak : Bool
  rxPart : List (List Byte)
  /-- Flits each of the four buffers has freed (R398), and received packets that wait. -/
  freed : Vector (BitVec 16) 4
  rxQ : List Packet
  /-- Transmitter: next SEQ, replay buffer, packets queued, flits sent and CRD per class and channel. -/
  txSeq : BitVec 15
  replay : List (BitVec 15 × List Byte)
  txQ : List Packet
  sent : Vector (BitVec 16) 4
  crd : Vector (BitVec 16) 4
  /-- NAK handled for this E, and resends from it (R399). -/
  nakFor : Option (BitVec 15)
  resends : Nat
  /-- When the latest resend ends. -/
  resendEnd : DWord
  lastCb : DWord
  deriving DecidableEq, Repr

/-- A transaction of the requester (R416, R423). -/
structure Trans where
  tag : Nat
  ctx : Nat
  recNum : Nat
  /-- Index in the record, byte offset and bytes. -/
  index : Nat
  ofs : Nat
  len : Nat
  op : Nat
  target : BitVec 16
  sent : DWord
  deriving DecidableEq, Repr

/-- A remote record being served (R415 to R421). -/
structure RemRec where
  ctx : Nat
  num : Nat
  bytes : List Byte
  total : Nat
  sent : Nat
  /-- Answered transactions: index, status, fault class, bytes. -/
  results : List (Nat × Nat × Nat × Nat)
  complete : Bool
  deriving DecidableEq, Repr

/-- A context's remote ring (R413, R414): the active, shadow and pressed words of TOR_RING_LO and TOR_RING_HI, and the records
issued. -/
structure Ring where
  ctx : Nat
  lo : Word
  hi : Word
  shLo : Word
  shHi : Word
  /-- The shadows as the pending press found them (R16). -/
  prLo : Word
  prHi : Word
  prod : Nat
  cons : Nat
  /-- CONS is the die's own; until then the next poll takes it from the ring's memory (log 157). The model's own field. -/
  known : Bool
  deriving DecidableEq, Repr

/-- Links, router, requester and target engine of a die. -/
structure Torus where
  links : Vector Link 3
  /-- Packets the die injects, and packets that reached it over the bridge. -/
  localQ : List Packet
  /-- Over the bridge, each with whether it was injected on the other die of this node. -/
  bridgeQ : List (Packet × Bool)
  /-- Requests for the target engine with the port they arrived on, and replies for the requester. -/
  targetQ : List (Fin 7 × Packet)
  replyQ : List Packet
  rings : List Ring
  recs : List RemRec
  trans : List Trans
  /-- Slot generations in use (R423), by slot; unlisted: 0. -/
  gens : List (Nat × BitVec 4)
  frozenReq : Option Byte
  frozenTgt : Option Byte
  deriving DecidableEq, Repr

/-! ### Wringer (12), arbiters (13) -/

/-- A wringer engine (R430, R441). -/
structure Wringer where
  job : Option Nat
  frozen : Option Byte
  /-- The block in progress when a unit stopped the engine (R444): input bytes that have come in, and writes that were made. -/
  got : List Byte
  put : Nat
  /-- 0 idle, 1 compress, 2 decompress, 3 fold, 4 unfold, 5 image load. -/
  use : Nat
  ctx : Nat
  taken : DWord
  deriving DecidableEq, Repr

/-- An arbiter (R460 to R465): pointers, grants used in the window per requester, the holder and an abandoned transfer. -/
structure Arb where
  id : ArbId
  highPtr : Nat
  normPtr : Nat
  used : List (Nat × Nat)
  /-- The settings of the window that runs (R466): ARB_HIGH, quota and cycles. -/
  high : Word
  quota : Nat
  window : Nat
  emergency : Bool
  abandoned : Option Master
  /-- Turn hints of the latest cycle, by requester that was ready and not granted (R464). -/
  hints : List (Nat × BitVec 3)
  deriving DecidableEq, Repr

/-! ### Security (15) -/

structure FuseOp where
  target : Byte
  value : Word
  done : Bool
  deriving DecidableEq, Repr

/-- The fuses of a die (R501, R515 to R520). Reset leaves them. -/
structure Fuses where
  dieSecret : List Byte
  romDigest : List Byte
  fwKeys : Vector (List Byte) 4
  modelKeys : Vector (List Byte) 4
  lcAuth : List Byte
  debugKey : List Byte
  revoke : Byte
  svn : Nat
  lc : Nat
  toggles : Nat
  ops : List FuseOp
  deriving DecidableEq, Repr

/-- A LOAD_IMAGE in progress (R508 to R510). `entry` is its place in the list; 256 for one that found none (R511), of which
LIST_FULL is still to be written. -/
structure LoadReq where
  ctx : Nat
  lba : Nat
  dest : Nat
  fence : Nat
  value : DWord
  entry : Nat
  frozen : Option Byte
  deriving DecidableEq, Repr

structure Security where
  fuses : Fuses
  romMeas : List Byte
  fwMeas : List Byte
  fwSvn : Word
  idKey : Option (List Byte)
  idPub : List Byte
  bootSrc : BitVec 2
  recovery : Bool
  lastImage : Word
  models : List (Option ModelEnt)
  loads : List LoadReq
  challenge : Option (List Byte × DWord)
  dbgLevel : Nat
  dbgFails : Nat
  dbgEver : Bool
  heldSince : Bool
  /-- The firmware image has been verified and waits for READY (R568). -/
  bootDone : Bool
  deriving DecidableEq, Repr

/-! ### Interfaces (16) and power (17) -/

/-- What the port's device descriptor says of the die (R533). -/
structure UsbDesc where
  vendor : BitVec 16
  product : BitVec 16
  bcd : BitVec 16
  /-- The serial-number string: 16 characters. -/
  serial : List Byte
  deriving DecidableEq, Repr

structure Usb where
  connected : Bool
  desc : UsbDesc
  speed : UsbSpeed
  lowPower : Option UsbPower
  /-- Disconnected by a MAX_SPEED press since this time (R535). -/
  reconnect : Option DWord
  /-- Endpoints, by address, that sent NRDY and owe an ERDY, and those whose ERDY has been sent (R56). -/
  owed : List Byte
  erdy : List Byte
  deriving DecidableEq, Repr

structure CsiPort where
  frame : DWord
  frameHi : Word
  inFrame : Bool
  dropping : Bool
  frozen : Option Byte
  lost : Bool
  locked : Bool
  lineNo : Nat
  written : Nat
  status : BitVec 5
  startTime : DWord
  lastStart : DWord
  lastLine : DWord
  /-- The latest header selected a line of the port's stream (R540). -/
  selected : Bool
  /-- A press was refused (R557): the port's own flag. -/
  refused : Bool
  deriving DecidableEq, Repr

structure TdmPort where
  block : DWord
  frozen : Option Byte
  clockOk : Bool
  resumed : Bool
  startTime : DWord
  /-- The port froze within the block in progress: its frames are discarded up to the block's end (R548). -/
  lost : Bool
  /-- A press was refused (R557): the port's own flag. -/
  refused : Bool
  deriving DecidableEq, Repr

structure UfsXfer where
  write : Bool
  lu : Nat
  ctx : Nat
  lba : Nat
  va : Nat
  count : Nat
  fence : Nat
  value : DWord
  frozen : Option Byte
  /-- Image loads that started before the transfer and come first at the one loader (R550). -/
  ahead : Nat
  deriving DecidableEq, Repr

structure Ufs where
  linkUp : Bool
  gear : Nat
  xfer : Option UfsXfer
  deriving DecidableEq, Repr

/-- The boot flash (R551, R552): its bytes, and the command in progress. -/
structure Flash where
  cells : List Host.Cell
  cmd : Option (Nat × Nat × List Byte)
  since : DWord
  deriving DecidableEq, Repr

structure I3c where
  dyn : Option (BitVec 7)
  index : Byte
  /-- The latest snapshot, by index (R554). -/
  snap : List (Nat × Word)
  answer : List Word
  deriving DecidableEq, Repr

/-- A thermal sensor (R494). -/
structure Sensor where
  /-- The latest reading, in 1/16 °C; none before the first. -/
  last : Option Int
  excluded : Bool
  run : Nat
  deriving DecidableEq, Repr

structure Power where
  gate : Nat
  mw : Word
  /-- 0 normal, 1 limit, 2 critical. -/
  therm : Nat
  cool : Nat
  coolCrit : Nat
  sensors : List Sensor
  tmax : Int
  slots : DWord
  gated : DWord
  slotsHi : Word
  gatedHi : Word
  resetCause : Nat
  /-- Reset sources that still hold the die in reset (R562). -/
  inReset : Bool
  tripped : Bool
  pllLock : Bool
  refOk : Bool
  holdover : Bool
  sramDone : Bool
  healthy : Bool
  healthyAt : DWord
  /-- RESET_DEVICE was answered: scope, and when its reply was queued (R75). -/
  resetDue : Option (Nat × DWord × List Byte)
  /-- Before HOLD: the state to return to, local time at entry and reference cycles counted (R454). -/
  heldState : DevState
  holdTime : DWord
  /-- Fifths of the reference cycles counted in HOLD (R454): 192 in a local µs. -/
  holdCycles : Nat
  holdMaster : Bool
  deriving DecidableEq, Repr

/-- What HOLD saved (R571): the ownership table, share groups and configuration words. -/
structure HoldSave where
  own : List (Nat × BitVec 24)
  share : WordMap
  regs : WordMap
  shadow : WordMap
  deriving DecidableEq, Repr

/-- The command processor of a die (02_command_packets.md). -/
structure Cmd where
  fifo : List (List Byte)
  replies : List (List Byte)
  /-- The pending pool, oldest first (R57). -/
  pool : List PendCmd
  /-- What the USB port answered to the latest packet or token. The model's own output. -/
  answer : UsbAnswer
  stream0 : Stream
  /-- Open contexts, 1 to 1,023. -/
  ctxs : List Ctx
  xfers : Vector (Option Xfer) 4
  /-- Word returned by the latest direct register read. The model's own output. -/
  cfgData : Word
  deriving DecidableEq, Repr

/-- Translation, ownership and migration (10_translation_and_ownership.md). -/
structure Xlt where
  /-- Ownership entries by granule; unlisted: the reset entry. -/
  own : List (Nat × BitVec 24)
  fwGranules : Nat
  /-- Share group words, by group × 32 + word; unlisted: 0. -/
  share : WordMap
  /-- Stage-2 roots by VM; unlisted: 0. -/
  vms : List (Nat × DWord)
  tlb : List TlbEnt
  near : List NearTlb
  walk : List WalkEnt
  migs : List Migration
  deriving DecidableEq, Repr

/-- Reports, darner, fault queue and held faults (14_faults_and_redundancy.md). -/
structure Flt where
  reports : List Report
  darner : List Place
  queue : List FaultRec
  faults : List HeldFault
  serial : BitVec 20
  deriving DecidableEq, Repr

/-- Job slots and copy engines (09_jobs_and_folding.md). -/
structure Jobs where
  list : List Job
  /-- What the front end kept of folded passes beside their images (R340), by job slot, as long as the images stand (R341).
  The model's own field. -/
  parked : List (Nat × Pass)
  serial : BitVec 20
  order : Nat
  copies : Vector CopyEng 4
  deriving DecidableEq, Repr

/-- The shader cores: partitions, tile memory, resident groups and port scheduling (04 to 06). -/
structure Shader where
  parts : List Partition
  /-- Steps of a cluster whose zeroing runs (R206). -/
  zeroing : Vector (BitVec 16) 6
  /-- Tile memory of all clusters: cluster × 2^23 + byte. -/
  tlm : List Host.Cell
  groups : List Group
  stamp : Nat
  /-- Slot that last issued on each port of a pipe, by pipe index × 3 + port; rotation in progress (R142). -/
  lastIssue : List (Nat × Nat)
  rotation : List (Nat × Nat)
  kmac : DWord
  kmacHi : Word
  deriving DecidableEq, Repr

/-- L1s and L2 slices that are not as at reset (06). -/
structure Caches where
  l1s : List L1
  l2s : List L2
  /-- Bytes of the L2 window of carved ways. -/
  l2carve : List Host.Cell
  carveActive : Nat
  deriving DecidableEq, Repr

/-- External interfaces (16). -/
structure Io where
  usb : Usb
  csi : Vector CsiPort 4
  tdm : Vector TdmPort 4
  ufs : Ufs
  flash : Flash
  i3c : I3c
  deriving DecidableEq, Repr

/-- One die. -/
structure Die where
  id : DieId
  dev : DevState
  /-- Local time in SCLK cycles (R454). -/
  time : DWord
  /-- Configuration registers: active words and shadows (R13). -/
  regs : WordMap
  shadow : WordMap
  cmd : Cmd
  press : Press
  pair : Pair
  dram : Dram
  xlt : Xlt
  flt : Flt
  jobs : Jobs
  sh : Shader
  cache : Caches
  passes : Vector (Option Pass) 4
  pipes : Vector Pipe 4
  torus : Torus
  wringers : Vector Wringer 8
  arbs : List Arb
  sec : Security
  io : Io
  power : Power
  saved : Option HoldSave
  /-- Free values used so far: the argument of the next one. The model's own field. -/
  free : Nat
  deriving DecidableEq, Repr

/-- The IEEE 1149.1 TAP of the package (R521): the instruction and what it shifts out. -/
structure Tap where
  ir : Byte
  /-- The die that DBG_ACCESS addresses: that of the latest challenge or response. -/
  sel : DieId
  out : List Byte
  deriving DecidableEq, Repr

/-- The package. -/
structure State where
  a : Die
  b : Die
  tap : Tap
  /-- Commands that wait, first in, first out. -/
  pending : List Instr
  deriving DecidableEq, Repr

/-- Reasons to stop with a fault. No command of this model raises one: every misuse the spec describes is reported by
the device itself (a status, a record, a frozen master). -/
inductive Fault
  /-- Raised by no command. Safe. -/
  | none
  deriving DecidableEq, Repr

/-- Reasons to refuse a command. -/
inductive Refusal
  /-- Raised only by an arm of Machine/Dispatch.lean whose command has no meaning yet. Safe. -/
  | notModelled (mnemonic : String)
  deriving DecidableEq, Repr

/-! ### Reset (R566, R568): power-on of both dies, PK_RESET_N released, root PLLs not yet locked -/

def Stream.reset : Stream := { expected := 1, hist := [] }

def Cmd.reset : Cmd :=
  { fifo := [], replies := [], pool := [], answer := .none, stream0 := Stream.reset, ctxs := [],
    xfers := Vector.replicate 4 none, cfgData := 0 }

def Press.reset : Press :=
  { epoch := 0, activeEpoch := 0, behind := 0, applied := 0, dirty := 0, late := 0, issued := 0, pressed := [],
    cfgBad := [], shadowBad := [], ioDone := 0, unitEpoch := List.replicate 44 0 }

def Pair.reset : Pair :=
  { mode := 0, role := .independent, degraded := false, bridgeUp := false, bridgeReset := false, mirrorSync := false,
    lost := false, lastAlive := 0, lastCtl := 0, heard := false, cfgByA := none, undo := none, suspended := false, takeover := none, jobsRestarted := false,
    pulls := none, copying := false, slotFails := Vector.replicate 4 0, confirmed := none, ctlOut := [], cmpOut := [], mirOut := [],
    tags := [] }

def Dram.reset : Dram :=
  { cells := [], spoiled := [], trained := false, ranks := 0, fittedGib := 0, selfRefresh := false, resetLow := true, wiped := false,
    fill := [], parLines := [] }

def Xlt.reset : Xlt :=
  { own := [], fwGranules := 0, share := [], vms := [], tlb := [], near := [], walk := [], migs := [] }

def Flt.reset : Flt := { reports := [], darner := [], queue := [], faults := [], serial := 0 }

def CopyEng.reset : CopyEng := { job := none, taken := 0, frozen := none }

def Jobs.reset : Jobs := { list := [], parked := [], serial := 0, order := 0, copies := Vector.replicate 4 CopyEng.reset }

def Shader.reset : Shader :=
  { parts := [], zeroing := Vector.replicate 6 0, tlm := [], groups := [], stamp := 0, lastIssue := [],
    rotation := [], kmac := 0, kmacHi := 0 }

def Caches.reset : Caches := { l1s := [], l2s := [], l2carve := [], carveActive := 0 }

def Layer.reset : Layer :=
  { active := 0xFF00000 :: List.replicate 11 0, pending := none, lines := [], underrun := none }

def Pipe.reset : Pipe :=
  { en := false, frame := 0, layers := Vector.replicate 8 Layer.reset, frozen := none, resumeDue := false, mmRun := 0,
    relocking := false, vblank := false, line := 0, crc := List.replicate 16 0xFFFFFFFF, underrun := false, wasFrozen := false,
    relockFrame := false, relockLeft := 0, fixDue := false, verdictDue := none, dueCauses := 0, dueMiss := 0, tagsOf := [], pairResult := none, wbLines := 0,
    wbDue := none, lastBoundary := 0, pairAckDue := none, pairPress := none, pairLocked := false, trained := false, rate := 0,
    hpd := false, startDue := false, out := [] }

def Lane.reset : Lane := { run := 0, window := [], locked := false }

def Link.reset : Link :=
  { state := .disabled, cause := 0, reversed := false, pol := 0, partnerLink := 0, partnerNode := 0,
    lanes := Vector.replicate 8 Lane.reset, since := 0, goodBlocks := 0, rxE := 0, rxNak := false, rxPart := [],
    freed := Vector.replicate 4 0, rxQ := [], txSeq := 0, replay := [], txQ := [], sent := Vector.replicate 4 0,
    crd := Vector.replicate 4 0, nakFor := none, resends := 0, resendEnd := 0, lastCb := 0 }

def Torus.reset : Torus :=
  { links := Vector.replicate 3 Link.reset, localQ := [], bridgeQ := [], targetQ := [], replyQ := [], rings := [],
    recs := [], trans := [], gens := [], frozenReq := none, frozenTgt := none }

def Wringer.reset : Wringer := { job := none, frozen := none, got := [], put := 0, use := 0, ctx := 0, taken := 0 }

/-- Fuses as delivered blank: no reset changes them (R515). -/
def Fuses.blank : Fuses :=
  { dieSecret := List.replicate 32 0, romDigest := List.replicate 64 0, fwKeys := Vector.replicate 4 (List.replicate 64 0),
    modelKeys := Vector.replicate 4 (List.replicate 64 0), lcAuth := List.replicate 64 0,
    debugKey := List.replicate 64 0, revoke := 0, svn := 0, lc := 0, toggles := 0, ops := [] }

def Security.reset (f : Fuses) : Security :=
  { fuses := f, romMeas := [], fwMeas := [], fwSvn := 0, idKey := none, idPub := [], bootSrc := 0, recovery := false,
    lastImage := 0, models := [], loads := [], challenge := none, dbgLevel := 0, dbgFails := 0, dbgEver := false,
    heldSince := false, bootDone := false }

def UsbDesc.reset : UsbDesc := { vendor := 0, product := 0, bcd := 0, serial := [] }

def Usb.reset : Usb := { connected := false, desc := UsbDesc.reset, speed := .highSpeed, lowPower := none, reconnect := none, owed := [], erdy := [] }

def CsiPort.reset : CsiPort :=
  { frame := 0, frameHi := 0, inFrame := false, dropping := false, frozen := none, lost := false, locked := false,
    lineNo := 0, written := 0, status := 0, startTime := 0, lastStart := 0, lastLine := 0, selected := false,
    refused := false }

def TdmPort.reset : TdmPort := { block := 0, frozen := none, clockOk := false, resumed := false, startTime := 0, lost := false, refused := false }

def Ufs.reset : Ufs := { linkUp := false, gear := 0, xfer := none }

def I3c.reset : I3c := { dyn := none, index := 0, snap := [], answer := [] }

/-- The interfaces after reset. The boot flash is outside the die and keeps its contents. -/
def Io.reset (cells : List Host.Cell) : Io :=
  { usb := Usb.reset, csi := Vector.replicate 4 CsiPort.reset, tdm := Vector.replicate 4 TdmPort.reset,
    ufs := Ufs.reset, flash := { cells := cells, cmd := none, since := 0 }, i3c := I3c.reset }

def Sensor.reset : Sensor := { last := none, excluded := false, run := 0 }

def Power.reset (cause : Nat) : Power :=
  { gate := 0, mw := 0, therm := 0, cool := 0, coolCrit := 0, sensors := List.replicate 16 Sensor.reset, tmax := 0,
    slots := 0, gated := 0, slotsHi := 0, gatedHi := 0, resetCause := cause, inReset := false, tripped := false,
    pllLock := false, refOk := false, holdover := false, sramDone := false, healthy := false, healthyAt := 0,
    resetDue := none, heldState := .ready, holdTime := 0, holdCycles := 0, holdMaster := false }

/-- A die as it leaves reset (R566): `f` are its fuses, `cells` its boot flash, `cause` the code of R562. -/
def Die.reset (d : DieId) (f : Fuses) (cells : List Host.Cell) (cause : Nat) : Die :=
  { id := d, dev := .rom, time := 0, regs := [], shadow := [], cmd := Cmd.reset, press := Press.reset,
    pair := Pair.reset, dram := Dram.reset, xlt := Xlt.reset, flt := Flt.reset, jobs := Jobs.reset, sh := Shader.reset,
    cache := Caches.reset, passes := Vector.replicate 4 none, pipes := Vector.replicate 4 Pipe.reset,
    torus := Torus.reset, wringers := Vector.replicate 8 Wringer.reset, arbs := [], sec := Security.reset f,
    io := Io.reset cells, power := Power.reset cause, saved := none, free := 0 }

/-- A die whose core domains wait for both root PLLs (R563). -/
def Die.hold (x : Die) : Die := { x with power.inReset := true }

/-- The package right after the power-on reset of both dies, which PK_RESET_N prolonged (R562, R563): code 1, blank fuses,
empty boot flash. -/
def State.reset : State :=
  { a := (Die.reset .a Fuses.blank [] 1).hold, b := (Die.reset .b Fuses.blank [] 1).hold, tap := { ir := 0x01, sel := .a, out := [] },
    pending := [] }

end Sys2Proof.Machine
end

