-- ==== Sys2Proof/Machine/Sparse.lean ====
section
/-! DEFINITION. Sys2Proof/Machine/Sparse.lean: sparse maps from numbers to values, in one canonical form: keys strictly
rising, and no entry equal to what an unlisted key holds. Registers, memories and the ownership table are kept so. -/
namespace Sys2Proof.Machine

/-- The value at a key; `dflt` is what an unlisted key holds. -/
def spGet {α : Type} (dflt : Nat → α) : List (Nat × α) → Nat → α
  | [], k => dflt k
  | (k', v) :: m, k => if k = k' then v else if k < k' then dflt k else spGet dflt m k

/-- The map with a value at a key; a value that an unlisted key holds anyway removes the entry (and, in a list that is not
in the canonical form, whatever the key would be found in instead). -/
def spSet {α : Type} [DecidableEq α] (dflt : Nat → α) : List (Nat × α) → Nat → α → List (Nat × α)
  | [], k, v => if v = dflt k then [] else [(k, v)]
  | (k', v') :: m, k, v =>
    if k < k' then (if v = dflt k then (k', v') :: m else (k, v) :: (k', v') :: m)
    else if k = k' then (if v = dflt k then m.dropWhile (fun e => decide (e.1 ≤ k)) else (k, v) :: m)
    else (k', v') :: spSet dflt m k v

/-- The keys of a map all lie above a bound and rise, and no entry is redundant. -/
def spWfFrom {α : Type} [DecidableEq α] (dflt : Nat → α) : Nat → List (Nat × α) → Bool
  | _, [] => true
  | lo, (k, v) :: m => decide (lo ≤ k) && decide (v ≠ dflt k) && spWfFrom dflt (k + 1) m

/-- The canonical form. -/
def spWf {α : Type} [DecidableEq α] (dflt : Nat → α) (m : List (Nat × α)) : Bool :=
  spWfFrom dflt 0 m

/-- Drops every entry whose key is in `[lo, hi)`; `floor` lies above the keys dropped so far (in a list that is not in the
canonical form, a key below it would never have been found behind them). -/
def spClearFrom {α : Type} (lo hi : Nat) : Nat → List (Nat × α) → List (Nat × α)
  | _, [] => []
  | floor, e :: m =>
    if e.1 < floor then spClearFrom lo hi floor m
    else if lo ≤ e.1 ∧ e.1 < hi then spClearFrom lo hi (e.1 + 1) m
    else e :: spClearFrom lo hi floor m

/-- Every key in `[lo, hi)` holds what an unlisted key holds. -/
def spClear {α : Type} (lo hi : Nat) (m : List (Nat × α)) : List (Nat × α) := spClearFrom lo hi 0 m

/-! ### Byte memories: an unlisted address reads 0 (R567) -/

/-- What an unlisted address of any memory of a die reads as. -/
def zeroByte : Nat → Byte := fun _ => 0

abbrev Mem := List Host.Cell

def Mem.byte (m : Mem) (a : Nat) : Byte := spGet zeroByte m a

def Mem.setByte (m : Mem) (a : Nat) (b : Byte) : Mem := spSet zeroByte m a b

/-- `n` bytes from an address. -/
def Mem.bytes (m : Mem) (a n : Nat) : List Byte := (List.range n).map (fun i => Mem.byte m (a + i))

/-- Bytes written from an address upwards. -/
def Mem.setBytes (m : Mem) (a : Nat) : List Byte → Mem
  | [] => m
  | b :: bs => Mem.setBytes (Mem.setByte m a b) (a + 1) bs

/-- The canonical form of a memory. -/
abbrev Mem.wf (m : Mem) : Bool := spWf zeroByte m

end Sys2Proof.Machine
end

