-- ==== Sys2Proof/Machine/Bits.lean ====
section
/-! DEFINITION. Sys2Proof/Machine/Bits.lean: bytes and words (R11: little-endian), CRC-32C (R60), CRC-32 (R304) and
small list operations. -/
namespace Sys2Proof.Machine

/-- A number's `n` low bytes, little-endian (R11). -/
def leBytes : Nat → Nat → List Byte
  | 0, _ => []
  | n + 1, v => BitVec.ofNat 8 v :: leBytes n (v / 256)

/-- The number that little-endian bytes spell (R11). -/
def ofLe : List Byte → Nat
  | [] => 0
  | b :: bs => b.toNat + 256 * ofLe bs

/-- `n` bytes of a structure from offset `o`; bytes beyond its end read 0. -/
def field (bs : List Byte) (o n : Nat) : List Byte :=
  (List.range n).map (fun i => bs.getD (o + i) 0)

/-- A little-endian field of a structure as a number. -/
def fieldNat (bs : List Byte) (o n : Nat) : Nat := ofLe (field bs o n)

/-- The bytes of a structure with a field replaced. -/
def putField (bs : List Byte) (o : Nat) (v : List Byte) : List Byte :=
  bs.take o ++ v ++ bs.drop (o + v.length)

/-- Bits `hi` down to `lo` of a number. -/
def bitsOf (v hi lo : Nat) : Nat := (v / 2 ^ lo) % 2 ^ (hi + 1 - lo)

def bitOf (v i : Nat) : Bool := (v / 2 ^ i) % 2 == 1

/-- Bits `hi` down to `lo` of a word, as a number. -/
def wbits (w : Word) (hi lo : Nat) : Nat := bitsOf w.toNat hi lo

def b2n (b : Bool) : Nat := if b then 1 else 0

/-- One bit of a reflected CRC. -/
def crcBit (poly r : Word) : Word := if r.getLsbD 0 then (r >>> 1) ^^^ poly else r >>> 1

/-- One byte of a reflected CRC. -/
def crcByte (poly : Word) (r : Word) (b : Byte) : Word :=
  let r0 := r ^^^ b.setWidth 32
  crcBit poly (crcBit poly (crcBit poly (crcBit poly (crcBit poly (crcBit poly (crcBit poly (crcBit poly r0)))))))

/-- CRC-32C (R60): polynomial 0x1EDC_6F41, reflected. -/
def crc32c (bs : List Byte) : Word :=
  bs.foldl (crcByte 0x82F63B78) 0xFFFFFFFF ^^^ 0xFFFFFFFF

/-- The running form of the CRC-32 of R304: polynomial 0x04C1_1DB7, reflected. -/
def crc32Run (r : Word) (bs : List Byte) : Word := bs.foldl (crcByte 0xEDB88320) r

def crc32 (bs : List Byte) : Word := crc32Run 0xFFFFFFFF bs ^^^ 0xFFFFFFFF

/-- Bytes followed by their CRC-32C, little-endian (R59, R61). -/
def withCrc (bs : List Byte) : List Byte := bs ++ leBytes 4 (crc32c bs).toNat

/-- `v` is a multiple of `n`. -/
def aligned (v n : Nat) : Bool := v % n == 0

def ceilDiv (a b : Nat) : Nat := (a + b - 1) / b

/-- A list with an element replaced where a test holds. -/
def updWhere {α : Type} (p : α → Bool) (f : α → α) (l : List α) : List α :=
  l.map (fun x => if p x then f x else x)

/-- A list with its first element that passes a test replaced. -/
def updFirst {α : Type} (p : α → Bool) (f : α → α) : List α → List α
  | [] => []
  | x :: xs => if p x then f x :: xs else x :: updFirst p f xs

/-- A list without its first element that passes a test. -/
def dropFirst {α : Type} (p : α → Bool) : List α → List α
  | [] => []
  | x :: xs => if p x then xs else x :: dropFirst p xs

/-- The lowest value of a list of numbers. -/
def listMin : List Nat → Nat
  | [] => 0
  | [x] => x
  | x :: y :: ys => min x (listMin (y :: ys))

/-- Values that a list of places asks for, in order, with a default for places outside. -/
def pick {α : Type} (l : List α) (d : α) (is : List Nat) : List α := is.map (fun i => l.getD i d)

end Sys2Proof.Machine
end

