-- ==== Sys2Proof/Machine/RegMap.lean ====
section
/-! DEFINITION. Sys2Proof/Machine/RegMap.lean: the field maps of the spec's register tables: every register's address,
instances, reset value and the bits of each access code (R13, R96). -/
namespace Sys2Proof.Machine

/-- The registers of the configuration space, by name. -/
inductive Reg
  | cmdQueueStatus
  | cmdDataCfg
  | cmdLastReject
  | cmdRxCnt
  | cmdRejectCnt
  | cmdNakCnt
  | cmdReplyCnt
  | cmdRepeatCnt
  | cmdUsbResetCnt
  | cmdDataTimeoutCnt
  | cmdPairCfg
  | cmdPairStatus
  | cmdPairFlags
  | cmdPairMismatchCnt
  | cmdPairTimeoutCnt
  | cmdPartnerLostCnt
  | cmdFailoverCnt
  | cmdBridgeReplayCnt
  | clkStatus
  | clkFlags
  | clkPressCfg
  | clkPressActive
  | clkPressPending
  | clkPressBehindLo
  | clkPressBehindHi
  | clkRefLostCnt
  | clkPressCnt
  | clkPressTimeoutCnt
  | arbHigh
  | arbQuotaFabric
  | arbQuotaDram
  | arbQuotaLink
  | arbWdog
  | arbMaskCnt
  | arbIdleFillCnt
  | arbEmergCnt
  | arbWdogCnt
  | pwrCap
  | pwrTherm
  | pwrStatus
  | pwrPower
  | pwrResetCause
  | pwrFlags
  | pwrSlotLo
  | pwrSlotHi
  | pwrGatedLo
  | pwrGatedHi
  | pwrCapLimitedCnt
  | pwrThermLimitCnt
  | pwrThermCritCnt
  | pwrHoldCnt
  | secStatus
  | secFuse
  | secFwSvn
  | secLastImage
  | secFlags
  | secOps
  | secRomMeas
  | secFwMeas
  | secIdDigest
  | secVerifyCnt
  | secVerifyFailCnt
  | secImageCnt
  | secAttestCnt
  | secLcCnt
  | secDbgUnlockCnt
  | secDbgFailCnt
  | fltQueueStatus
  | fltCfg
  | fltDarnerStatus
  | fltFlags
  | fltRecordCnt
  | fltOvfCnt
  | fltReportCnt
  | fltSuppressCnt
  | fltDramRereadCnt
  | fltDramParityCnt
  | fltSiblingReadCnt
  | fltPoisonCnt
  | fltRegParityCnt
  | fltCtrlParityCnt
  | fltCfgParityCnt
  | fltOwnParityCnt
  | fltXlateParityCnt
  | fltSensorExclCnt
  | jobCfg
  | jobQueueStatus
  | jobFoldStatus
  | jobFlags
  | jobClusterStatus
  | jobCopyCnt
  | jobEndCnt
  | jobPreemptCnt
  | jobFoldCnt
  | jobUnfoldCnt
  | jobKidCnt
  | jobMissedCnt
  | jobLateCnt
  | jobFoldLateCnt
  | jobBadDescCnt
  | jobRestartCnt
  | xltInvVaLo
  | xltInvVaHi
  | xltInvCtrl
  | xltResolve
  | xltFlags
  | xltWalkCnt
  | xltFaultCnt
  | xltMigZeroCnt
  | xltMigHostCnt
  | xltMigPeerCnt
  | xltMigFailCnt
  | xltWrungFailCnt
  | xltReplayCnt
  | xltKillCnt
  | xltInvCnt
  | ownQueryIdx
  | ownQueryEntry
  | ownFwGranules
  | ownShareSel
  | ownShareWord
  | ownTagCnt
  | ownRightsCnt
  | ownKindCnt
  | ownPoisonCnt
  | ownMigratingCnt
  | ownGrantCnt
  | ownReclaimCnt
  | ownWipeCnt
  | wrgCfg
  | wrgFlags
  | wrgEngineStatus
  | wrgLzwCnt
  | wrgStoredCnt
  | wrgZeroCnt
  | wrgDecodeCnt
  | wrgDataErrCnt
  | wrgStopCnt
  | wrgYieldCnt
  | wrgFallbackCnt
  | wrgUnitCnt
  | l2cCfg
  | l2cStatus
  | l2cFlags
  | l2cSliceStatus
  | l2cHitCnt
  | l2cMissCnt
  | l2cMergeCnt
  | l2cMrFullCnt
  | l2cDrainCnt
  | l2cPfUseCnt
  | l2cPfDropCnt
  | l2cParityCnt
  | l2cWayRetireCnt
  | l2cCarveRefusedCnt
  | gfxCfg
  | gfxFlags
  | gfxFeSlot
  | gfxPrimInCnt
  | gfxPrimBinnedCnt
  | gfxPrimCulledCnt
  | gfxTileCnt
  | gfxRinseCnt
  | gfxExtGrantCnt
  | gfxExtRefusedCnt
  | gfxExhaustedCnt
  | gfxBadDescCnt
  | gfxIlkWaitCnt
  | gfxDirectPassCnt
  | drcStatus
  | drcCfg
  | drcRefreshCnt
  | drcRmwCnt
  | drcFillCnt
  | drcParMissCnt
  | grpSchedCfg
  | grpPipeStatus
  | grpRrRotationCnt
  | grpBarDivergedCnt
  | grpFreezeCnt
  | grpAtomicCnt
  | mtxOvfCnt
  | mtxSatCnt
  | mtxNanCnt
  | mtxMmaCnt
  | mtxQuantCnt
  | mtxKmacLo
  | mtxKmacHi
  | tlmCfg
  | tlmPart
  | tlmClusterStatus
  | tlmRangeCnt
  | tlmStarveCnt
  | tlmZeroCnt
  | tlmParityCnt
  | locCfg
  | locCoreStatus
  | locHitCnt
  | locMissCnt
  | locMergeCnt
  | locMrFullCnt
  | locPfUseCnt
  | locPfDropCnt
  | locParityCnt
  | locWayRetireCnt
  | locRangeCnt
  | dspPipeCtrl
  | dspPipeHtiming
  | dspPipeVtiming
  | dspPipeSync
  | dspPipePclk
  | dspPipeBg
  | dspPipeSafe
  | dspTagCtrl
  | dspPipeWbLo
  | dspPipeWbHi
  | dspPipeWbCfg
  | dspPipeWbfLo
  | dspPipeWbfHi
  | dspLayerCtrl
  | dspLayerVaLo
  | dspLayerVaHi
  | dspLayerUvOfs
  | dspLayerPitch
  | dspLayerSrc
  | dspLayerDst
  | dspLayerPos
  | dspLayerFenceLo
  | dspLayerFenceHi
  | dspLayerValueLo
  | dspLayerValueHi
  | dspLayerStatus
  | dspLayerLateCnt
  | dspLayerSkipCnt
  | dspTagX
  | dspTagY
  | dspTagExpect
  | dspTagLast
  | dspPipeStatus
  | dspPipeFrame
  | dspPipeFlags
  | dspTagMismatch
  | dspTagMmFrame
  | dspTagMmCnt
  | dspPairMmCnt
  | dspPairTimeoutCnt
  | dspUnverifiedCnt
  | dspUnderrunCnt
  | dspCfgRefusedCnt
  | dspFreezeCnt
  | dspWbCnt
  | dspPortCtrl
  | dspPortDsc
  | dspPortStatus
  | dspLinkTrainCnt
  | dspLinkLossCnt
  | dspHpdIrqCnt
  | torNode
  | torDim
  | torLinkCtrl
  | torDownX
  | torDownY
  | torDownZ
  | torFlags
  | torLinkStatus
  | torRingSel
  | torRingLo
  | torRingHi
  | torReqCnt
  | torRspCnt
  | torTimeoutCnt
  | torLateCnt
  | torTgtCnt
  | torTgtFaultCnt
  | torNoRouteCnt
  | torBadRecordCnt
  | torCrcErrCnt
  | torReplayCnt
  | torDownCnt
  | torFwdPktCnt
  | torDropCnt
  | torCbErrCnt
  | usbCfg
  | usbSuspendCnt
  | usbSpeedCnt
  | csiCtrl
  | csiCropXy
  | csiCropWh
  | csiBlack
  | csiWdog
  | csiBufLo
  | csiBufHi
  | csiFenceLo
  | csiFenceHi
  | csiReleaseLo
  | csiReleaseHi
  | csiGeom
  | csiStatus
  | csiFrameLo
  | csiFrameHi
  | csiFlags
  | csiFrameCnt
  | csiDropCnt
  | csiIncompleteCnt
  | csiCrcErrCnt
  | csiEccCorrCnt
  | csiEccUncorrCnt
  | csiOtherCnt
  | csiWdogCnt
  | csiDiscardCnt
  | csiRefusedCnt
  | tdmCtrl
  | tdmSlotMask
  | tdmBlock
  | tdmBufLo
  | tdmBufHi
  | tdmFenceLo
  | tdmFenceHi
  | tdmStride
  | tdmStatus
  | tdmBlockCnt
  | tdmClockLossCnt
  | tdmDiscardCnt
  | tdmRefusedCnt
  | ufsCfg
  | ufsLuOwner
  | ufsXferLbaLo
  | ufsXferLbaHi
  | ufsXferVaLo
  | ufsXferVaHi
  | ufsXferCount
  | ufsXferFenceLo
  | ufsXferFenceHi
  | ufsXferValueLo
  | ufsXferValueHi
  | ufsXferGo
  | ufsStatus
  | ufsXferCnt
  | ufsErrCnt
  | xspAddr
  | xspCmd
  | xspStatus
  | xspBuf
  | xspErrCnt
  | i3tStatus
  | i3tGlitchCnt
  | i3tReadCnt
  deriving DecidableEq, Repr

/-- A register's map: address of its first instance, instances as (count, stride) pairs, outermost first, reset value
and the bits of each access code (R13). Bits of no code are RSV. -/
structure RegInfo where
  base : Nat
  dims : List (Nat × Nat)
  reset : Word
  ro : Word
  rw : Word
  rwp : Word
  w1c : Word
  wo : Word
  deriving DecidableEq, Repr

/-- The field map of each register. No register of the spec has an RC field. -/
def Reg.info : Reg → RegInfo
  | .cmdQueueStatus => ⟨0x100, [], 0, 0x3ff3ffff, 0, 0, 0, 0⟩
  | .cmdDataCfg => ⟨0x104, [], 0x64, 0, 0, 0xffff, 0, 0⟩
  | .cmdLastReject => ⟨0x108, [], 0, 0xffff03ff, 0, 0, 0, 0⟩
  | .cmdRxCnt => ⟨0x110, [], 0, 0xffffffff, 0, 0, 0, 0⟩
  | .cmdRejectCnt => ⟨0x114, [], 0, 0xffffffff, 0, 0, 0, 0⟩
  | .cmdNakCnt => ⟨0x118, [], 0, 0xffffffff, 0, 0, 0, 0⟩
  | .cmdReplyCnt => ⟨0x11C, [], 0, 0xffffffff, 0, 0, 0, 0⟩
  | .cmdRepeatCnt => ⟨0x120, [], 0, 0xffffffff, 0, 0, 0, 0⟩
  | .cmdUsbResetCnt => ⟨0x124, [], 0, 0xffffffff, 0, 0, 0, 0⟩
  | .cmdDataTimeoutCnt => ⟨0x128, [], 0, 0xffffffff, 0, 0, 0, 0⟩
  | .cmdPairCfg => ⟨0x300, [], 0x19a010, 0, 0, 0xffff17, 0, 0⟩
  | .cmdPairStatus => ⟨0x304, [], 0, 0xf3b, 0, 0, 0, 0⟩
  | .cmdPairFlags => ⟨0x308, [], 0, 0, 0, 0, 0xf, 0⟩
  | .cmdPairMismatchCnt => ⟨0x30C, [], 0, 0xffffffff, 0, 0, 0, 0⟩
  | .cmdPairTimeoutCnt => ⟨0x310, [], 0, 0xffffffff, 0, 0, 0, 0⟩
  | .cmdPartnerLostCnt => ⟨0x314, [], 0, 0xffffffff, 0, 0, 0, 0⟩
  | .cmdFailoverCnt => ⟨0x318, [], 0, 0xffffffff, 0, 0, 0, 0⟩
  | .cmdBridgeReplayCnt => ⟨0x31C, [], 0, 0xffffffff, 0, 0, 0, 0⟩
  | .clkStatus => ⟨0x10000, [], 0, 0x7, 0, 0, 0, 0⟩
  | .clkFlags => ⟨0x10008, [], 0, 0, 0, 0, 0x3, 0⟩
  | .clkPressCfg => ⟨0x10100, [], 0x32, 0, 0, 0x3ff, 0, 0⟩
  | .clkPressActive => ⟨0x10104, [], 0, 0xffffffff, 0, 0, 0, 0⟩
  | .clkPressPending => ⟨0x10108, [], 0, 0xffffffff, 0, 0, 0, 0⟩
  | .clkPressBehindLo => ⟨0x1010C, [], 0, 0xffffffff, 0, 0, 0, 0⟩
  | .clkPressBehindHi => ⟨0x10110, [], 0, 0xfff, 0, 0, 0, 0⟩
  | .clkRefLostCnt => ⟨0x10200, [], 0, 0xffffffff, 0, 0, 0, 0⟩
  | .clkPressCnt => ⟨0x10204, [], 0, 0xffffffff, 0, 0, 0, 0⟩
  | .clkPressTimeoutCnt => ⟨0x10208, [], 0, 0xffffffff, 0, 0, 0, 0⟩
  | .arbHigh => ⟨0x20000, [], 0x6, 0, 0, 0x70ffe, 0, 0⟩
  | .arbQuotaFabric => ⟨0x20004, [], 0x3002, 0, 0, 0xff03, 0, 0⟩
  | .arbQuotaDram => ⟨0x20008, [], 0x3002, 0, 0, 0xff03, 0, 0⟩
  | .arbQuotaLink => ⟨0x2000C, [], 0x3002, 0, 0, 0xff03, 0, 0⟩
  | .arbWdog => ⟨0x20010, [], 0x100, 0, 0, 0x1ff, 0, 0⟩
  | .arbMaskCnt => ⟨0x20100, [], 0, 0xffffffff, 0, 0, 0, 0⟩
  | .arbIdleFillCnt => ⟨0x20104, [], 0, 0xffffffff, 0, 0, 0, 0⟩
  | .arbEmergCnt => ⟨0x20108, [], 0, 0xffffffff, 0, 0, 0, 0⟩
  | .arbWdogCnt => ⟨0x2010C, [], 0, 0xffffffff, 0, 0, 0, 0⟩
  | .pwrCap => ⟨0x30000, [], 0xc0, 0, 0, 0xff, 0, 0⟩
  | .pwrTherm => ⟨0x30004, [], 0x73, 0, 0, 0xff, 0, 0⟩
  | .pwrStatus => ⟨0x30008, [], 0, 0xc07fffff, 0, 0, 0, 0⟩
  | .pwrPower => ⟨0x3000C, [], 0, 0xffffffff, 0, 0, 0, 0⟩
  | .pwrResetCause => ⟨0x30010, [], 0, 0xf, 0, 0, 0, 0⟩
  | .pwrFlags => ⟨0x30014, [], 0, 0, 0, 0, 0x7, 0⟩
  | .pwrSlotLo => ⟨0x30100, [], 0, 0xffffffff, 0, 0, 0, 0⟩
  | .pwrSlotHi => ⟨0x30104, [], 0, 0xffffffff, 0, 0, 0, 0⟩
  | .pwrGatedLo => ⟨0x30108, [], 0, 0xffffffff, 0, 0, 0, 0⟩
  | .pwrGatedHi => ⟨0x3010C, [], 0, 0xffffffff, 0, 0, 0, 0⟩
  | .pwrCapLimitedCnt => ⟨0x30110, [], 0, 0xffffffff, 0, 0, 0, 0⟩
  | .pwrThermLimitCnt => ⟨0x30114, [], 0, 0xffffffff, 0, 0, 0, 0⟩
  | .pwrThermCritCnt => ⟨0x30118, [], 0, 0xffffffff, 0, 0, 0, 0⟩
  | .pwrHoldCnt => ⟨0x3011C, [], 0, 0xffffffff, 0, 0, 0, 0⟩
  | .secStatus => ⟨0x40000, [], 0, 0xf33007, 0, 0, 0, 0⟩
  | .secFuse => ⟨0x40004, [], 0, 0x3fffffff, 0, 0, 0, 0⟩
  | .secFwSvn => ⟨0x40008, [], 0, 0xffffffff, 0, 0, 0, 0⟩
  | .secLastImage => ⟨0x4000C, [], 0, 0x300ff, 0, 0, 0, 0⟩
  | .secFlags => ⟨0x40010, [], 0, 0x8, 0, 0, 0x7, 0⟩
  | .secOps => ⟨0x40014, [], 0, 0x7f, 0, 0, 0, 0⟩
  | .secRomMeas => ⟨0x40100, [(16, 0x4)], 0, 0xffffffff, 0, 0, 0, 0⟩
  | .secFwMeas => ⟨0x40140, [(16, 0x4)], 0, 0xffffffff, 0, 0, 0, 0⟩
  | .secIdDigest => ⟨0x40180, [(16, 0x4)], 0, 0xffffffff, 0, 0, 0, 0⟩
  | .secVerifyCnt => ⟨0x40200, [], 0, 0xffffffff, 0, 0, 0, 0⟩
  | .secVerifyFailCnt => ⟨0x40204, [], 0, 0xffffffff, 0, 0, 0, 0⟩
  | .secImageCnt => ⟨0x40208, [], 0, 0xffffffff, 0, 0, 0, 0⟩
  | .secAttestCnt => ⟨0x4020C, [], 0, 0xffffffff, 0, 0, 0, 0⟩
  | .secLcCnt => ⟨0x40210, [], 0, 0xffffffff, 0, 0, 0, 0⟩
  | .secDbgUnlockCnt => ⟨0x40214, [], 0, 0xffffffff, 0, 0, 0, 0⟩
  | .secDbgFailCnt => ⟨0x40218, [], 0, 0xffffffff, 0, 0, 0, 0⟩
  | .fltQueueStatus => ⟨0x50000, [], 0, 0x7ffffff, 0, 0, 0x80000000, 0⟩
  | .fltCfg => ⟨0x50004, [], 0x40, 0, 0, 0xff, 0, 0⟩
  | .fltDarnerStatus => ⟨0x50008, [], 0, 0x7f1f7f, 0, 0, 0, 0⟩
  | .fltFlags => ⟨0x5000C, [], 0, 0, 0, 0, 0x1f, 0⟩
  | .fltRecordCnt => ⟨0x50080, [], 0, 0xffffffff, 0, 0, 0, 0⟩
  | .fltOvfCnt => ⟨0x50100, [(64, 0x4)], 0, 0xffffffff, 0, 0, 0, 0⟩
  | .fltReportCnt => ⟨0x50200, [(64, 0x4)], 0, 0xffffffff, 0, 0, 0, 0⟩
  | .fltSuppressCnt => ⟨0x50300, [], 0, 0xffffffff, 0, 0, 0, 0⟩
  | .fltDramRereadCnt => ⟨0x50304, [], 0, 0xffffffff, 0, 0, 0, 0⟩
  | .fltDramParityCnt => ⟨0x50308, [], 0, 0xffffffff, 0, 0, 0, 0⟩
  | .fltSiblingReadCnt => ⟨0x5030C, [], 0, 0xffffffff, 0, 0, 0, 0⟩
  | .fltPoisonCnt => ⟨0x50310, [], 0, 0xffffffff, 0, 0, 0, 0⟩
  | .fltRegParityCnt => ⟨0x50314, [], 0, 0xffffffff, 0, 0, 0, 0⟩
  | .fltCtrlParityCnt => ⟨0x50318, [], 0, 0xffffffff, 0, 0, 0, 0⟩
  | .fltCfgParityCnt => ⟨0x5031C, [], 0, 0xffffffff, 0, 0, 0, 0⟩
  | .fltOwnParityCnt => ⟨0x50320, [], 0, 0xffffffff, 0, 0, 0, 0⟩
  | .fltXlateParityCnt => ⟨0x50324, [], 0, 0xffffffff, 0, 0, 0, 0⟩
  | .fltSensorExclCnt => ⟨0x50328, [], 0, 0xffffffff, 0, 0, 0, 0⟩
  | .jobCfg => ⟨0x60000, [], 0x814, 0, 0, 0xff1f, 0, 0⟩
  | .jobQueueStatus => ⟨0x60004, [], 0, 0x1fff1fff, 0, 0, 0, 0⟩
  | .jobFoldStatus => ⟨0x60008, [], 0, 0x1fff001f, 0, 0, 0, 0⟩
  | .jobFlags => ⟨0x60010, [], 0, 0, 0, 0, 0x1f, 0⟩
  | .jobClusterStatus => ⟨0x60100, [(6, 0x4)], 0, 0x7007f, 0, 0, 0, 0⟩
  | .jobCopyCnt => ⟨0x60200, [], 0, 0xffffffff, 0, 0, 0, 0⟩
  | .jobEndCnt => ⟨0x60204, [], 0, 0xffffffff, 0, 0, 0, 0⟩
  | .jobPreemptCnt => ⟨0x60208, [], 0, 0xffffffff, 0, 0, 0, 0⟩
  | .jobFoldCnt => ⟨0x6020C, [], 0, 0xffffffff, 0, 0, 0, 0⟩
  | .jobUnfoldCnt => ⟨0x60210, [], 0, 0xffffffff, 0, 0, 0, 0⟩
  | .jobKidCnt => ⟨0x60214, [], 0, 0xffffffff, 0, 0, 0, 0⟩
  | .jobMissedCnt => ⟨0x60218, [], 0, 0xffffffff, 0, 0, 0, 0⟩
  | .jobLateCnt => ⟨0x6021C, [], 0, 0xffffffff, 0, 0, 0, 0⟩
  | .jobFoldLateCnt => ⟨0x60220, [], 0, 0xffffffff, 0, 0, 0, 0⟩
  | .jobBadDescCnt => ⟨0x60224, [], 0, 0xffffffff, 0, 0, 0, 0⟩
  | .jobRestartCnt => ⟨0x60228, [], 0, 0xffffffff, 0, 0, 0, 0⟩
  | .xltInvVaLo => ⟨0x70000, [], 0, 0, 0xfffff000, 0, 0, 0⟩
  | .xltInvVaHi => ⟨0x70004, [], 0, 0, 0xffff, 0, 0, 0⟩
  | .xltInvCtrl => ⟨0x70008, [], 0, 0, 0, 0, 0, 0xffffffff⟩
  | .xltResolve => ⟨0x70010, [], 0, 0, 0, 0, 0, 0xc00fffff⟩
  | .xltFlags => ⟨0x70020, [], 0, 0, 0, 0, 0x3, 0⟩
  | .xltWalkCnt => ⟨0x70100, [], 0, 0xffffffff, 0, 0, 0, 0⟩
  | .xltFaultCnt => ⟨0x70104, [], 0, 0xffffffff, 0, 0, 0, 0⟩
  | .xltMigZeroCnt => ⟨0x70108, [], 0, 0xffffffff, 0, 0, 0, 0⟩
  | .xltMigHostCnt => ⟨0x7010C, [], 0, 0xffffffff, 0, 0, 0, 0⟩
  | .xltMigPeerCnt => ⟨0x70110, [], 0, 0xffffffff, 0, 0, 0, 0⟩
  | .xltMigFailCnt => ⟨0x70114, [], 0, 0xffffffff, 0, 0, 0, 0⟩
  | .xltWrungFailCnt => ⟨0x70118, [], 0, 0xffffffff, 0, 0, 0, 0⟩
  | .xltReplayCnt => ⟨0x7011C, [], 0, 0xffffffff, 0, 0, 0, 0⟩
  | .xltKillCnt => ⟨0x70120, [], 0, 0xffffffff, 0, 0, 0, 0⟩
  | .xltInvCnt => ⟨0x70124, [], 0, 0xffffffff, 0, 0, 0, 0⟩
  | .ownQueryIdx => ⟨0x80000, [], 0, 0, 0x7ffff, 0, 0, 0⟩
  | .ownQueryEntry => ⟨0x80004, [], 0xfff000, 0xffffc0, 0, 0, 0, 0⟩
  | .ownFwGranules => ⟨0x80008, [], 0, 0x7ff, 0, 0, 0, 0⟩
  | .ownShareSel => ⟨0x80010, [], 0, 0, 0x7ff, 0, 0, 0⟩
  | .ownShareWord => ⟨0x80100, [(32, 0x4)], 0, 0, 0xffffffff, 0, 0, 0⟩
  | .ownTagCnt => ⟨0x80200, [], 0, 0xffffffff, 0, 0, 0, 0⟩
  | .ownRightsCnt => ⟨0x80204, [], 0, 0xffffffff, 0, 0, 0, 0⟩
  | .ownKindCnt => ⟨0x80208, [], 0, 0xffffffff, 0, 0, 0, 0⟩
  | .ownPoisonCnt => ⟨0x8020C, [], 0, 0xffffffff, 0, 0, 0, 0⟩
  | .ownMigratingCnt => ⟨0x80210, [], 0, 0xffffffff, 0, 0, 0, 0⟩
  | .ownGrantCnt => ⟨0x80214, [], 0, 0xffffffff, 0, 0, 0, 0⟩
  | .ownReclaimCnt => ⟨0x80218, [], 0, 0xffffffff, 0, 0, 0, 0⟩
  | .ownWipeCnt => ⟨0x8021C, [], 0, 0xffffffff, 0, 0, 0, 0⟩
  | .wrgCfg => ⟨0x90000, [], 0xff, 0, 0, 0xff, 0, 0⟩
  | .wrgFlags => ⟨0x90008, [], 0, 0, 0, 0, 0x3, 0⟩
  | .wrgEngineStatus => ⟨0x90100, [(8, 0x4)], 0, 0xe3ff0000, 0, 0, 0, 0⟩
  | .wrgLzwCnt => ⟨0x90200, [], 0, 0xffffffff, 0, 0, 0, 0⟩
  | .wrgStoredCnt => ⟨0x90204, [], 0, 0xffffffff, 0, 0, 0, 0⟩
  | .wrgZeroCnt => ⟨0x90208, [], 0, 0xffffffff, 0, 0, 0, 0⟩
  | .wrgDecodeCnt => ⟨0x9020C, [], 0, 0xffffffff, 0, 0, 0, 0⟩
  | .wrgDataErrCnt => ⟨0x90210, [], 0, 0xffffffff, 0, 0, 0, 0⟩
  | .wrgStopCnt => ⟨0x90214, [], 0, 0xffffffff, 0, 0, 0, 0⟩
  | .wrgYieldCnt => ⟨0x90218, [], 0, 0xffffffff, 0, 0, 0, 0⟩
  | .wrgFallbackCnt => ⟨0x9021C, [], 0, 0xffffffff, 0, 0, 0, 0⟩
  | .wrgUnitCnt => ⟨0x90220, [], 0, 0xffffffff, 0, 0, 0, 0⟩
  | .l2cCfg => ⟨0xA0000, [], 0x181000, 0, 0, 0x1fff07, 0, 0⟩
  | .l2cStatus => ⟨0xA0004, [], 0, 0x7, 0, 0, 0, 0⟩
  | .l2cFlags => ⟨0xA0008, [], 0, 0, 0, 0, 0x3, 0⟩
  | .l2cSliceStatus => ⟨0xA0100, [(16, 0x4)], 0, 0xfffff00, 0, 0, 0, 0⟩
  | .l2cHitCnt => ⟨0xA0200, [], 0, 0xffffffff, 0, 0, 0, 0⟩
  | .l2cMissCnt => ⟨0xA0204, [], 0, 0xffffffff, 0, 0, 0, 0⟩
  | .l2cMergeCnt => ⟨0xA0208, [], 0, 0xffffffff, 0, 0, 0, 0⟩
  | .l2cMrFullCnt => ⟨0xA020C, [], 0, 0xffffffff, 0, 0, 0, 0⟩
  | .l2cDrainCnt => ⟨0xA0210, [], 0, 0xffffffff, 0, 0, 0, 0⟩
  | .l2cPfUseCnt => ⟨0xA0214, [], 0, 0xffffffff, 0, 0, 0, 0⟩
  | .l2cPfDropCnt => ⟨0xA0218, [], 0, 0xffffffff, 0, 0, 0, 0⟩
  | .l2cParityCnt => ⟨0xA021C, [], 0, 0xffffffff, 0, 0, 0, 0⟩
  | .l2cWayRetireCnt => ⟨0xA0220, [], 0, 0xffffffff, 0, 0, 0, 0⟩
  | .l2cCarveRefusedCnt => ⟨0xA0224, [], 0, 0xffffffff, 0, 0, 0, 0⟩
  | .gfxCfg => ⟨0xB0000, [], 0x1900, 0, 0, 0xff00, 0, 0⟩
  | .gfxFlags => ⟨0xB0008, [], 0, 0, 0, 0, 0x3, 0⟩
  | .gfxFeSlot => ⟨0xB0100, [(4, 0x4)], 0, 0xfff003ff, 0, 0, 0, 0⟩
  | .gfxPrimInCnt => ⟨0xB0200, [], 0, 0xffffffff, 0, 0, 0, 0⟩
  | .gfxPrimBinnedCnt => ⟨0xB0204, [], 0, 0xffffffff, 0, 0, 0, 0⟩
  | .gfxPrimCulledCnt => ⟨0xB0208, [], 0, 0xffffffff, 0, 0, 0, 0⟩
  | .gfxTileCnt => ⟨0xB020C, [], 0, 0xffffffff, 0, 0, 0, 0⟩
  | .gfxRinseCnt => ⟨0xB0210, [], 0, 0xffffffff, 0, 0, 0, 0⟩
  | .gfxExtGrantCnt => ⟨0xB0214, [], 0, 0xffffffff, 0, 0, 0, 0⟩
  | .gfxExtRefusedCnt => ⟨0xB0218, [], 0, 0xffffffff, 0, 0, 0, 0⟩
  | .gfxExhaustedCnt => ⟨0xB021C, [], 0, 0xffffffff, 0, 0, 0, 0⟩
  | .gfxBadDescCnt => ⟨0xB0220, [], 0, 0xffffffff, 0, 0, 0, 0⟩
  | .gfxIlkWaitCnt => ⟨0xB0224, [], 0, 0xffffffff, 0, 0, 0, 0⟩
  | .gfxDirectPassCnt => ⟨0xB0228, [], 0, 0xffffffff, 0, 0, 0, 0⟩
  | .drcStatus => ⟨0xC0000, [], 0, 0xc00003ff, 0, 0, 0, 0⟩
  | .drcCfg => ⟨0xC0004, [], 0xf, 0, 0, 0xf, 0, 0⟩
  | .drcRefreshCnt => ⟨0xC0100, [], 0, 0xffffffff, 0, 0, 0, 0⟩
  | .drcRmwCnt => ⟨0xC0104, [], 0, 0xffffffff, 0, 0, 0, 0⟩
  | .drcFillCnt => ⟨0xC0108, [], 0, 0xffffffff, 0, 0, 0, 0⟩
  | .drcParMissCnt => ⟨0xC010C, [], 0, 0xffffffff, 0, 0, 0, 0⟩
  | .grpSchedCfg => ⟨0x100000, [], 0x100, 0, 0, 0x3ff, 0, 0⟩
  | .grpPipeStatus => ⟨0x101000, [(6, 0x100), (16, 0x10), (4, 0x4)], 0x800200, 0x1fff03ff, 0, 0, 0, 0⟩
  | .grpRrRotationCnt => ⟨0x100100, [], 0, 0xffffffff, 0, 0, 0, 0⟩
  | .grpBarDivergedCnt => ⟨0x100104, [], 0, 0xffffffff, 0, 0, 0, 0⟩
  | .grpFreezeCnt => ⟨0x100108, [], 0, 0xffffffff, 0, 0, 0, 0⟩
  | .grpAtomicCnt => ⟨0x10010C, [], 0, 0xffffffff, 0, 0, 0, 0⟩
  | .mtxOvfCnt => ⟨0x200000, [], 0, 0xffffffff, 0, 0, 0, 0⟩
  | .mtxSatCnt => ⟨0x200004, [], 0, 0xffffffff, 0, 0, 0, 0⟩
  | .mtxNanCnt => ⟨0x200008, [], 0, 0xffffffff, 0, 0, 0, 0⟩
  | .mtxMmaCnt => ⟨0x20000C, [], 0, 0xffffffff, 0, 0, 0, 0⟩
  | .mtxQuantCnt => ⟨0x200010, [], 0, 0xffffffff, 0, 0, 0, 0⟩
  | .mtxKmacLo => ⟨0x200018, [], 0, 0xffffffff, 0, 0, 0, 0⟩
  | .mtxKmacHi => ⟨0x20001C, [], 0, 0xffffffff, 0, 0, 0, 0⟩
  | .tlmCfg => ⟨0x300000, [], 0x40, 0, 0, 0x3ff, 0, 0⟩
  | .tlmPart => ⟨0x301000, [(6, 0x10), (4, 0x4)], 0, 0xffffe3ff, 0, 0, 0, 0⟩
  | .tlmClusterStatus => ⟨0x301100, [(6, 0x4)], 0xffff, 0xffffffff, 0, 0, 0, 0⟩
  | .tlmRangeCnt => ⟨0x300100, [], 0, 0xffffffff, 0, 0, 0, 0⟩
  | .tlmStarveCnt => ⟨0x300104, [], 0, 0xffffffff, 0, 0, 0, 0⟩
  | .tlmZeroCnt => ⟨0x300108, [], 0, 0xffffffff, 0, 0, 0, 0⟩
  | .tlmParityCnt => ⟨0x30010C, [], 0, 0xffffffff, 0, 0, 0, 0⟩
  | .locCfg => ⟨0x400000, [], 0xc4000, 0, 0, 0x1fff00, 0, 0⟩
  | .locCoreStatus => ⟨0x401000, [(6, 0x40), (16, 0x4)], 0, 0xfff1ffdf, 0, 0, 0, 0⟩
  | .locHitCnt => ⟨0x400100, [], 0, 0xffffffff, 0, 0, 0, 0⟩
  | .locMissCnt => ⟨0x400104, [], 0, 0xffffffff, 0, 0, 0, 0⟩
  | .locMergeCnt => ⟨0x400108, [], 0, 0xffffffff, 0, 0, 0, 0⟩
  | .locMrFullCnt => ⟨0x40010C, [], 0, 0xffffffff, 0, 0, 0, 0⟩
  | .locPfUseCnt => ⟨0x400110, [], 0, 0xffffffff, 0, 0, 0, 0⟩
  | .locPfDropCnt => ⟨0x400114, [], 0, 0xffffffff, 0, 0, 0, 0⟩
  | .locParityCnt => ⟨0x400118, [], 0, 0xffffffff, 0, 0, 0, 0⟩
  | .locWayRetireCnt => ⟨0x40011C, [], 0, 0xffffffff, 0, 0, 0, 0⟩
  | .locRangeCnt => ⟨0x400120, [], 0, 0xffffffff, 0, 0, 0, 0⟩
  | .dspPipeCtrl => ⟨0x500000, [(4, 0x10000)], 0x8, 0, 0, 0xf07f, 0, 0⟩
  | .dspPipeHtiming => ⟨0x500004, [(4, 0x10000)], 0, 0, 0, 0xffffffff, 0, 0⟩
  | .dspPipeVtiming => ⟨0x500008, [(4, 0x10000)], 0, 0, 0, 0xffffffff, 0, 0⟩
  | .dspPipeSync => ⟨0x50000C, [(4, 0x10000)], 0, 0, 0, 0xffffffff, 0, 0⟩
  | .dspPipePclk => ⟨0x500010, [(4, 0x10000)], 0, 0, 0, 0x1fffff, 0, 0⟩
  | .dspPipeBg => ⟨0x500014, [(4, 0x10000)], 0, 0, 0, 0x3fffffff, 0, 0⟩
  | .dspPipeSafe => ⟨0x500018, [(4, 0x10000)], 0, 0, 0, 0x3fffffff, 0, 0⟩
  | .dspTagCtrl => ⟨0x50001C, [(4, 0x10000)], 0, 0, 0, 0xffffffff, 0, 0⟩
  | .dspPipeWbLo => ⟨0x500020, [(4, 0x10000)], 0, 0, 0, 0xffffffff, 0, 0⟩
  | .dspPipeWbHi => ⟨0x500024, [(4, 0x10000)], 0, 0, 0, 0x3ffffff, 0, 0⟩
  | .dspPipeWbCfg => ⟨0x500028, [(4, 0x10000)], 0, 0, 0, 0xffffff00, 0, 0⟩
  | .dspPipeWbfLo => ⟨0x50002C, [(4, 0x10000)], 0, 0, 0, 0xffffffff, 0, 0⟩
  | .dspPipeWbfHi => ⟨0x500030, [(4, 0x10000)], 0, 0, 0, 0xffff, 0, 0⟩
  | .dspLayerCtrl => ⟨0x500100, [(4, 0x10000), (8, 0x40)], 0xff00000, 0, 0, 0xffffff00, 0, 0⟩
  | .dspLayerVaLo => ⟨0x500104, [(4, 0x10000), (8, 0x40)], 0, 0, 0, 0xffffffff, 0, 0⟩
  | .dspLayerVaHi => ⟨0x500108, [(4, 0x10000), (8, 0x40)], 0, 0, 0, 0x3ffffff, 0, 0⟩
  | .dspLayerUvOfs => ⟨0x50010C, [(4, 0x10000), (8, 0x40)], 0, 0, 0, 0xffffffff, 0, 0⟩
  | .dspLayerPitch => ⟨0x500110, [(4, 0x10000), (8, 0x40)], 0, 0, 0, 0xffffffff, 0, 0⟩
  | .dspLayerSrc => ⟨0x500114, [(4, 0x10000), (8, 0x40)], 0, 0, 0, 0xffffffff, 0, 0⟩
  | .dspLayerDst => ⟨0x500118, [(4, 0x10000), (8, 0x40)], 0, 0, 0, 0xffffffff, 0, 0⟩
  | .dspLayerPos => ⟨0x50011C, [(4, 0x10000), (8, 0x40)], 0, 0, 0, 0xffffffff, 0, 0⟩
  | .dspLayerFenceLo => ⟨0x500120, [(4, 0x10000), (8, 0x40)], 0, 0, 0, 0xffffffff, 0, 0⟩
  | .dspLayerFenceHi => ⟨0x500124, [(4, 0x10000), (8, 0x40)], 0, 0, 0, 0xffff, 0, 0⟩
  | .dspLayerValueLo => ⟨0x500128, [(4, 0x10000), (8, 0x40)], 0, 0, 0, 0xffffffff, 0, 0⟩
  | .dspLayerValueHi => ⟨0x50012C, [(4, 0x10000), (8, 0x40)], 0, 0, 0, 0xffffffff, 0, 0⟩
  | .dspLayerStatus => ⟨0x500130, [(4, 0x10000), (8, 0x40)], 0, 0x3, 0, 0, 0, 0⟩
  | .dspLayerLateCnt => ⟨0x500134, [(4, 0x10000), (8, 0x40)], 0, 0xffffffff, 0, 0, 0, 0⟩
  | .dspLayerSkipCnt => ⟨0x500138, [(4, 0x10000), (8, 0x40)], 0, 0xffffffff, 0, 0, 0, 0⟩
  | .dspTagX => ⟨0x500400, [(4, 0x10000), (16, 0x10)], 0, 0, 0, 0xffffffff, 0, 0⟩
  | .dspTagY => ⟨0x500404, [(4, 0x10000), (16, 0x10)], 0, 0, 0, 0xffffffff, 0, 0⟩
  | .dspTagExpect => ⟨0x500408, [(4, 0x10000), (16, 0x10)], 0, 0, 0, 0xffffffff, 0, 0⟩
  | .dspTagLast => ⟨0x50040C, [(4, 0x10000), (16, 0x10)], 0, 0xffffffff, 0, 0, 0, 0⟩
  | .dspPipeStatus => ⟨0x500800, [(4, 0x10000)], 0, 0xfff000ff, 0, 0, 0, 0⟩
  | .dspPipeFrame => ⟨0x500804, [(4, 0x10000)], 0, 0xffffffff, 0, 0, 0, 0⟩
  | .dspPipeFlags => ⟨0x500808, [(4, 0x10000)], 0, 0, 0, 0, 0x7f, 0⟩
  | .dspTagMismatch => ⟨0x50080C, [(4, 0x10000)], 0, 0, 0, 0, 0xffffffff, 0⟩
  | .dspTagMmFrame => ⟨0x500810, [(4, 0x10000)], 0, 0xffffffff, 0, 0, 0, 0⟩
  | .dspTagMmCnt => ⟨0x500820, [(4, 0x10000)], 0, 0xffffffff, 0, 0, 0, 0⟩
  | .dspPairMmCnt => ⟨0x500824, [(4, 0x10000)], 0, 0xffffffff, 0, 0, 0, 0⟩
  | .dspPairTimeoutCnt => ⟨0x500828, [(4, 0x10000)], 0, 0xffffffff, 0, 0, 0, 0⟩
  | .dspUnverifiedCnt => ⟨0x50082C, [(4, 0x10000)], 0, 0xffffffff, 0, 0, 0, 0⟩
  | .dspUnderrunCnt => ⟨0x500830, [(4, 0x10000)], 0, 0xffffffff, 0, 0, 0, 0⟩
  | .dspCfgRefusedCnt => ⟨0x500834, [(4, 0x10000)], 0, 0xffffffff, 0, 0, 0, 0⟩
  | .dspFreezeCnt => ⟨0x500838, [(4, 0x10000)], 0, 0xffffffff, 0, 0, 0, 0⟩
  | .dspWbCnt => ⟨0x50083C, [(4, 0x10000)], 0, 0xffffffff, 0, 0, 0, 0⟩
  | .dspPortCtrl => ⟨0x500C00, [(4, 0x10000)], 0x27000000, 0, 0, 0xbf110000, 0, 0⟩
  | .dspPortDsc => ⟨0x500C04, [(4, 0x10000)], 0x800c0, 0, 0, 0xffff33ff, 0, 0⟩
  | .dspPortStatus => ⟨0x500C08, [(4, 0x10000)], 0, 0xff800000, 0, 0, 0, 0⟩
  | .dspLinkTrainCnt => ⟨0x500C20, [(4, 0x10000)], 0, 0xffffffff, 0, 0, 0, 0⟩
  | .dspLinkLossCnt => ⟨0x500C24, [(4, 0x10000)], 0, 0xffffffff, 0, 0, 0, 0⟩
  | .dspHpdIrqCnt => ⟨0x500C28, [(4, 0x10000)], 0, 0xffffffff, 0, 0, 0, 0⟩
  | .torNode => ⟨0x540000, [], 0, 0, 0, 0x3fff, 0, 0⟩
  | .torDim => ⟨0x540004, [], 0, 0, 0, 0x3fff, 0, 0⟩
  | .torLinkCtrl => ⟨0x540008, [], 0x100, 0, 0, 0x107, 0, 0⟩
  | .torDownX => ⟨0x540010, [], 0, 0, 0, 0xffffffff, 0, 0⟩
  | .torDownY => ⟨0x540014, [], 0, 0, 0, 0xffffffff, 0, 0⟩
  | .torDownZ => ⟨0x540018, [], 0, 0, 0, 0xffffffff, 0, 0⟩
  | .torFlags => ⟨0x540020, [], 0, 0, 0, 0, 0x1f, 0⟩
  | .torLinkStatus => ⟨0x540100, [(6, 0x4)], 0, 0xffffffff, 0, 0, 0, 0⟩
  | .torRingSel => ⟨0x540200, [], 0, 0, 0x3ff, 0, 0, 0⟩
  | .torRingLo => ⟨0x540204, [], 0, 0, 0, 0xffffffc0, 0, 0⟩
  | .torRingHi => ⟨0x540208, [], 0, 0, 0, 0x9f00ffff, 0, 0⟩
  | .torReqCnt => ⟨0x540300, [], 0, 0xffffffff, 0, 0, 0, 0⟩
  | .torRspCnt => ⟨0x540304, [], 0, 0xffffffff, 0, 0, 0, 0⟩
  | .torTimeoutCnt => ⟨0x540308, [], 0, 0xffffffff, 0, 0, 0, 0⟩
  | .torLateCnt => ⟨0x54030C, [], 0, 0xffffffff, 0, 0, 0, 0⟩
  | .torTgtCnt => ⟨0x540310, [], 0, 0xffffffff, 0, 0, 0, 0⟩
  | .torTgtFaultCnt => ⟨0x540314, [], 0, 0xffffffff, 0, 0, 0, 0⟩
  | .torNoRouteCnt => ⟨0x540318, [], 0, 0xffffffff, 0, 0, 0, 0⟩
  | .torBadRecordCnt => ⟨0x54031C, [], 0, 0xffffffff, 0, 0, 0, 0⟩
  | .torCrcErrCnt => ⟨0x540400, [(6, 0x20)], 0, 0xffffffff, 0, 0, 0, 0⟩
  | .torReplayCnt => ⟨0x540404, [(6, 0x20)], 0, 0xffffffff, 0, 0, 0, 0⟩
  | .torDownCnt => ⟨0x540408, [(6, 0x20)], 0, 0xffffffff, 0, 0, 0, 0⟩
  | .torFwdPktCnt => ⟨0x54040C, [(6, 0x20)], 0, 0xffffffff, 0, 0, 0, 0⟩
  | .torDropCnt => ⟨0x540410, [(6, 0x20)], 0, 0xffffffff, 0, 0, 0, 0⟩
  | .torCbErrCnt => ⟨0x540414, [(6, 0x20)], 0, 0xffffffff, 0, 0, 0, 0⟩
  | .usbCfg => ⟨0x580000, [], 0x3, 0, 0, 0x13, 0, 0⟩
  | .usbSuspendCnt => ⟨0x580100, [], 0, 0xffffffff, 0, 0, 0, 0⟩
  | .usbSpeedCnt => ⟨0x580104, [], 0, 0xffffffff, 0, 0, 0, 0⟩
  | .csiCtrl => ⟨0x590000, [(4, 0x1000)], 0x2a1000, 0, 0, 0xef3ff3ff, 0, 0⟩
  | .csiCropXy => ⟨0x590004, [(4, 0x1000)], 0, 0, 0, 0xffffffff, 0, 0⟩
  | .csiCropWh => ⟨0x590008, [(4, 0x1000)], 0, 0, 0, 0xffffffff, 0, 0⟩
  | .csiBlack => ⟨0x59000C, [(4, 0x1000)], 0, 0, 0, 0xffff, 0, 0⟩
  | .csiWdog => ⟨0x590010, [(4, 0x1000)], 0x640064, 0, 0, 0xffffffff, 0, 0⟩
  | .csiBufLo => ⟨0x590014, [(4, 0x1000)], 0, 0, 0, 0xffffffff, 0, 0⟩
  | .csiBufHi => ⟨0x590018, [(4, 0x1000)], 0, 0, 0, 0xffff, 0, 0⟩
  | .csiFenceLo => ⟨0x59001C, [(4, 0x1000)], 0, 0, 0, 0xffffffff, 0, 0⟩
  | .csiFenceHi => ⟨0x590020, [(4, 0x1000)], 0, 0, 0, 0xffff, 0, 0⟩
  | .csiReleaseLo => ⟨0x590024, [(4, 0x1000)], 0, 0, 0, 0xffffffff, 0, 0⟩
  | .csiReleaseHi => ⟨0x590028, [(4, 0x1000)], 0, 0, 0, 0xffff, 0, 0⟩
  | .csiGeom => ⟨0x59002C, [(4, 0x1000)], 0, 0, 0, 0xffffffff, 0, 0⟩
  | .csiStatus => ⟨0x590040, [(4, 0x1000)], 0, 0xe0000000, 0, 0, 0, 0⟩
  | .csiFrameLo => ⟨0x590044, [(4, 0x1000)], 0, 0xffffffff, 0, 0, 0, 0⟩
  | .csiFrameHi => ⟨0x590048, [(4, 0x1000)], 0, 0xffffffff, 0, 0, 0, 0⟩
  | .csiFlags => ⟨0x59004C, [(4, 0x1000)], 0, 0, 0, 0, 0x3f, 0⟩
  | .csiFrameCnt => ⟨0x590080, [(4, 0x1000)], 0, 0xffffffff, 0, 0, 0, 0⟩
  | .csiDropCnt => ⟨0x590084, [(4, 0x1000)], 0, 0xffffffff, 0, 0, 0, 0⟩
  | .csiIncompleteCnt => ⟨0x590088, [(4, 0x1000)], 0, 0xffffffff, 0, 0, 0, 0⟩
  | .csiCrcErrCnt => ⟨0x59008C, [(4, 0x1000)], 0, 0xffffffff, 0, 0, 0, 0⟩
  | .csiEccCorrCnt => ⟨0x590090, [(4, 0x1000)], 0, 0xffffffff, 0, 0, 0, 0⟩
  | .csiEccUncorrCnt => ⟨0x590094, [(4, 0x1000)], 0, 0xffffffff, 0, 0, 0, 0⟩
  | .csiOtherCnt => ⟨0x590098, [(4, 0x1000)], 0, 0xffffffff, 0, 0, 0, 0⟩
  | .csiWdogCnt => ⟨0x59009C, [(4, 0x1000)], 0, 0xffffffff, 0, 0, 0, 0⟩
  | .csiDiscardCnt => ⟨0x5900A0, [(4, 0x1000)], 0, 0xffffffff, 0, 0, 0, 0⟩
  | .csiRefusedCnt => ⟨0x590100, [], 0, 0xffffffff, 0, 0, 0, 0⟩
  | .tdmCtrl => ⟨0x5A0000, [(4, 0x1000)], 0x10120000, 0, 0, 0xfcf303ff, 0, 0⟩
  | .tdmSlotMask => ⟨0x5A0004, [(4, 0x1000)], 0x3, 0, 0, 0xffff, 0, 0⟩
  | .tdmBlock => ⟨0x5A0008, [(4, 0x1000)], 0x10030, 0, 0, 0xff1fff, 0, 0⟩
  | .tdmBufLo => ⟨0x5A000C, [(4, 0x1000)], 0, 0, 0, 0xffffffff, 0, 0⟩
  | .tdmBufHi => ⟨0x5A0010, [(4, 0x1000)], 0, 0, 0, 0xffff, 0, 0⟩
  | .tdmFenceLo => ⟨0x5A0014, [(4, 0x1000)], 0, 0, 0, 0xffffffff, 0, 0⟩
  | .tdmFenceHi => ⟨0x5A0018, [(4, 0x1000)], 0, 0, 0, 0xffff, 0, 0⟩
  | .tdmStride => ⟨0x5A001C, [(4, 0x1000)], 0, 0, 0, 0xffff, 0, 0⟩
  | .tdmStatus => ⟨0x5A0040, [(4, 0x1000)], 0, 0xc0000000, 0, 0, 0, 0⟩
  | .tdmBlockCnt => ⟨0x5A0080, [(4, 0x1000)], 0, 0xffffffff, 0, 0, 0, 0⟩
  | .tdmClockLossCnt => ⟨0x5A0084, [(4, 0x1000)], 0, 0xffffffff, 0, 0, 0, 0⟩
  | .tdmDiscardCnt => ⟨0x5A0088, [(4, 0x1000)], 0, 0xffffffff, 0, 0, 0, 0⟩
  | .tdmRefusedCnt => ⟨0x5A0100, [], 0, 0xffffffff, 0, 0, 0, 0⟩
  | .ufsCfg => ⟨0x5B0000, [], 0, 0, 0, 0x107, 0, 0⟩
  | .ufsLuOwner => ⟨0x5B0010, [(8, 0x4)], 0, 0, 0, 0x3ff, 0, 0⟩
  | .ufsXferLbaLo => ⟨0x5B0100, [], 0, 0, 0xffffffff, 0, 0, 0⟩
  | .ufsXferLbaHi => ⟨0x5B0104, [], 0, 0, 0xffffffff, 0, 0, 0⟩
  | .ufsXferVaLo => ⟨0x5B0108, [], 0, 0, 0xffffffff, 0, 0, 0⟩
  | .ufsXferVaHi => ⟨0x5B010C, [], 0, 0, 0xffffffff, 0, 0, 0⟩
  | .ufsXferCount => ⟨0x5B0110, [], 0, 0, 0xffffffff, 0, 0, 0⟩
  | .ufsXferFenceLo => ⟨0x5B0114, [], 0, 0, 0xffffffff, 0, 0, 0⟩
  | .ufsXferFenceHi => ⟨0x5B0118, [], 0, 0, 0xffffffff, 0, 0, 0⟩
  | .ufsXferValueLo => ⟨0x5B011C, [], 0, 0, 0xffffffff, 0, 0, 0⟩
  | .ufsXferValueHi => ⟨0x5B0120, [], 0, 0, 0xffffffff, 0, 0, 0⟩
  | .ufsXferGo => ⟨0x5B0124, [], 0, 0, 0, 0, 0, 0x80000007⟩
  | .ufsStatus => ⟨0x5B0200, [], 0, 0xf8000000, 0, 0, 0, 0⟩
  | .ufsXferCnt => ⟨0x5B0300, [], 0, 0xffffffff, 0, 0, 0, 0⟩
  | .ufsErrCnt => ⟨0x5B0304, [], 0, 0xffffffff, 0, 0, 0, 0⟩
  | .xspAddr => ⟨0x5C0000, [], 0, 0, 0xfffffff, 0, 0, 0⟩
  | .xspCmd => ⟨0x5C0004, [], 0, 0, 0, 0, 0, 0x3⟩
  | .xspStatus => ⟨0x5C0008, [], 0, 0x1, 0, 0, 0x2, 0⟩
  | .xspBuf => ⟨0x5C0100, [(64, 0x4)], 0, 0, 0xffffffff, 0, 0, 0⟩
  | .xspErrCnt => ⟨0x5C0200, [], 0, 0xffffffff, 0, 0, 0, 0⟩
  | .i3tStatus => ⟨0x5D0000, [], 0, 0xff, 0, 0, 0, 0⟩
  | .i3tGlitchCnt => ⟨0x5D0100, [], 0, 0xffffffff, 0, 0, 0, 0⟩
  | .i3tReadCnt => ⟨0x5D0104, [], 0, 0xffffffff, 0, 0, 0, 0⟩

/-- Part 0 of the list of registers. -/
def regList0 : List Reg :=
  [.cmdQueueStatus, .cmdDataCfg, .cmdLastReject, .cmdRxCnt, .cmdRejectCnt, .cmdNakCnt, .cmdReplyCnt, .cmdRepeatCnt, .cmdUsbResetCnt, .cmdDataTimeoutCnt, .cmdPairCfg, .cmdPairStatus, .cmdPairFlags, .cmdPairMismatchCnt, .cmdPairTimeoutCnt, .cmdPartnerLostCnt, .cmdFailoverCnt, .cmdBridgeReplayCnt, .clkStatus, .clkFlags, .clkPressCfg, .clkPressActive, .clkPressPending, .clkPressBehindLo]

/-- Part 1 of the list of registers. -/
def regList1 : List Reg :=
  [.clkPressBehindHi, .clkRefLostCnt, .clkPressCnt, .clkPressTimeoutCnt, .arbHigh, .arbQuotaFabric, .arbQuotaDram, .arbQuotaLink, .arbWdog, .arbMaskCnt, .arbIdleFillCnt, .arbEmergCnt, .arbWdogCnt, .pwrCap, .pwrTherm, .pwrStatus, .pwrPower, .pwrResetCause, .pwrFlags, .pwrSlotLo, .pwrSlotHi, .pwrGatedLo, .pwrGatedHi, .pwrCapLimitedCnt]

/-- Part 2 of the list of registers. -/
def regList2 : List Reg :=
  [.pwrThermLimitCnt, .pwrThermCritCnt, .pwrHoldCnt, .secStatus, .secFuse, .secFwSvn, .secLastImage, .secFlags, .secOps, .secRomMeas, .secFwMeas, .secIdDigest, .secVerifyCnt, .secVerifyFailCnt, .secImageCnt, .secAttestCnt, .secLcCnt, .secDbgUnlockCnt, .secDbgFailCnt, .fltQueueStatus, .fltCfg, .fltDarnerStatus, .fltFlags, .fltRecordCnt]

/-- Part 3 of the list of registers. -/
def regList3 : List Reg :=
  [.fltOvfCnt, .fltReportCnt, .fltSuppressCnt, .fltDramRereadCnt, .fltDramParityCnt, .fltSiblingReadCnt, .fltPoisonCnt, .fltRegParityCnt, .fltCtrlParityCnt, .fltCfgParityCnt, .fltOwnParityCnt, .fltXlateParityCnt, .fltSensorExclCnt, .jobCfg, .jobQueueStatus, .jobFoldStatus, .jobFlags, .jobClusterStatus, .jobCopyCnt, .jobEndCnt, .jobPreemptCnt, .jobFoldCnt, .jobUnfoldCnt, .jobKidCnt]

/-- Part 4 of the list of registers. -/
def regList4 : List Reg :=
  [.jobMissedCnt, .jobLateCnt, .jobFoldLateCnt, .jobBadDescCnt, .jobRestartCnt, .xltInvVaLo, .xltInvVaHi, .xltInvCtrl, .xltResolve, .xltFlags, .xltWalkCnt, .xltFaultCnt, .xltMigZeroCnt, .xltMigHostCnt, .xltMigPeerCnt, .xltMigFailCnt, .xltWrungFailCnt, .xltReplayCnt, .xltKillCnt, .xltInvCnt, .ownQueryIdx, .ownQueryEntry, .ownFwGranules, .ownShareSel]

/-- Part 5 of the list of registers. -/
def regList5 : List Reg :=
  [.ownShareWord, .ownTagCnt, .ownRightsCnt, .ownKindCnt, .ownPoisonCnt, .ownMigratingCnt, .ownGrantCnt, .ownReclaimCnt, .ownWipeCnt, .wrgCfg, .wrgFlags, .wrgEngineStatus, .wrgLzwCnt, .wrgStoredCnt, .wrgZeroCnt, .wrgDecodeCnt, .wrgDataErrCnt, .wrgStopCnt, .wrgYieldCnt, .wrgFallbackCnt, .wrgUnitCnt, .l2cCfg, .l2cStatus, .l2cFlags]

/-- Part 6 of the list of registers. -/
def regList6 : List Reg :=
  [.l2cSliceStatus, .l2cHitCnt, .l2cMissCnt, .l2cMergeCnt, .l2cMrFullCnt, .l2cDrainCnt, .l2cPfUseCnt, .l2cPfDropCnt, .l2cParityCnt, .l2cWayRetireCnt, .l2cCarveRefusedCnt, .gfxCfg, .gfxFlags, .gfxFeSlot, .gfxPrimInCnt, .gfxPrimBinnedCnt, .gfxPrimCulledCnt, .gfxTileCnt, .gfxRinseCnt, .gfxExtGrantCnt, .gfxExtRefusedCnt, .gfxExhaustedCnt, .gfxBadDescCnt, .gfxIlkWaitCnt]

/-- Part 7 of the list of registers. -/
def regList7 : List Reg :=
  [.gfxDirectPassCnt, .drcStatus, .drcCfg, .drcRefreshCnt, .drcRmwCnt, .drcFillCnt, .drcParMissCnt, .grpSchedCfg, .grpPipeStatus, .grpRrRotationCnt, .grpBarDivergedCnt, .grpFreezeCnt, .grpAtomicCnt, .mtxOvfCnt, .mtxSatCnt, .mtxNanCnt, .mtxMmaCnt, .mtxQuantCnt, .mtxKmacLo, .mtxKmacHi, .tlmCfg, .tlmPart, .tlmClusterStatus, .tlmRangeCnt]

/-- Part 8 of the list of registers. -/
def regList8 : List Reg :=
  [.tlmStarveCnt, .tlmZeroCnt, .tlmParityCnt, .locCfg, .locCoreStatus, .locHitCnt, .locMissCnt, .locMergeCnt, .locMrFullCnt, .locPfUseCnt, .locPfDropCnt, .locParityCnt, .locWayRetireCnt, .locRangeCnt, .dspPipeCtrl, .dspPipeHtiming, .dspPipeVtiming, .dspPipeSync, .dspPipePclk, .dspPipeBg, .dspPipeSafe, .dspTagCtrl, .dspPipeWbLo, .dspPipeWbHi]

/-- Part 9 of the list of registers. -/
def regList9 : List Reg :=
  [.dspPipeWbCfg, .dspPipeWbfLo, .dspPipeWbfHi, .dspLayerCtrl, .dspLayerVaLo, .dspLayerVaHi, .dspLayerUvOfs, .dspLayerPitch, .dspLayerSrc, .dspLayerDst, .dspLayerPos, .dspLayerFenceLo, .dspLayerFenceHi, .dspLayerValueLo, .dspLayerValueHi, .dspLayerStatus, .dspLayerLateCnt, .dspLayerSkipCnt, .dspTagX, .dspTagY, .dspTagExpect, .dspTagLast, .dspPipeStatus, .dspPipeFrame]

/-- Part 10 of the list of registers. -/
def regList10 : List Reg :=
  [.dspPipeFlags, .dspTagMismatch, .dspTagMmFrame, .dspTagMmCnt, .dspPairMmCnt, .dspPairTimeoutCnt, .dspUnverifiedCnt, .dspUnderrunCnt, .dspCfgRefusedCnt, .dspFreezeCnt, .dspWbCnt, .dspPortCtrl, .dspPortDsc, .dspPortStatus, .dspLinkTrainCnt, .dspLinkLossCnt, .dspHpdIrqCnt, .torNode, .torDim, .torLinkCtrl, .torDownX, .torDownY, .torDownZ, .torFlags]

/-- Part 11 of the list of registers. -/
def regList11 : List Reg :=
  [.torLinkStatus, .torRingSel, .torRingLo, .torRingHi, .torReqCnt, .torRspCnt, .torTimeoutCnt, .torLateCnt, .torTgtCnt, .torTgtFaultCnt, .torNoRouteCnt, .torBadRecordCnt, .torCrcErrCnt, .torReplayCnt, .torDownCnt, .torFwdPktCnt, .torDropCnt, .torCbErrCnt, .usbCfg, .usbSuspendCnt, .usbSpeedCnt, .csiCtrl, .csiCropXy, .csiCropWh]

/-- Part 12 of the list of registers. -/
def regList12 : List Reg :=
  [.csiBlack, .csiWdog, .csiBufLo, .csiBufHi, .csiFenceLo, .csiFenceHi, .csiReleaseLo, .csiReleaseHi, .csiGeom, .csiStatus, .csiFrameLo, .csiFrameHi, .csiFlags, .csiFrameCnt, .csiDropCnt, .csiIncompleteCnt, .csiCrcErrCnt, .csiEccCorrCnt, .csiEccUncorrCnt, .csiOtherCnt, .csiWdogCnt, .csiDiscardCnt, .csiRefusedCnt, .tdmCtrl]

/-- Part 13 of the list of registers. -/
def regList13 : List Reg :=
  [.tdmSlotMask, .tdmBlock, .tdmBufLo, .tdmBufHi, .tdmFenceLo, .tdmFenceHi, .tdmStride, .tdmStatus, .tdmBlockCnt, .tdmClockLossCnt, .tdmDiscardCnt, .tdmRefusedCnt, .ufsCfg, .ufsLuOwner, .ufsXferLbaLo, .ufsXferLbaHi, .ufsXferVaLo, .ufsXferVaHi, .ufsXferCount, .ufsXferFenceLo, .ufsXferFenceHi, .ufsXferValueLo, .ufsXferValueHi, .ufsXferGo]

/-- Part 14 of the list of registers. -/
def regList14 : List Reg :=
  [.ufsStatus, .ufsXferCnt, .ufsErrCnt, .xspAddr, .xspCmd, .xspStatus, .xspBuf, .xspErrCnt, .i3tStatus, .i3tGlitchCnt, .i3tReadCnt]

/-- Every register. -/
def allRegs : List Reg :=
  regList0 ++ regList1 ++ regList2 ++ regList3 ++ regList4 ++ regList5 ++ regList6 ++ regList7 ++ regList8 ++ regList9 ++ regList10 ++ regList11 ++ regList12 ++ regList13 ++ regList14

end Sys2Proof.Machine
end

