-- ==== Sys2Proof/Machine/Regs.lean ====
section
/-! DEFINITION. Sys2Proof/Machine/Regs.lean: the words of the configuration registers: finding a register by its address,
reading and changing its active word and its shadow (R13, R98, R101). -/
namespace Sys2Proof.Machine

/-- The address of an instance: base plus index × stride for each dimension. -/
def instOffset : List (Nat × Nat) → List Nat → Nat
  | (_, s) :: ds, i :: is => i * s + instOffset ds is
  | _, _ => 0

def Reg.addr (r : Reg) (is : List Nat) : Nat := r.info.base + instOffset r.info.dims is

/-- The instance that an offset from the first one names. -/
def instOf : List (Nat × Nat) → Nat → Option (List Nat)
  | [], ofs => if ofs = 0 then some [] else none
  | (c, s) :: ds, ofs => if ofs / s < c then (instOf ds (ofs % s)).map (fun is => (ofs / s) :: is) else none

/-- The register at a configuration address and its instance. -/
def findReg : List Reg → Nat → Option (Reg × List Nat)
  | [], _ => none
  | r :: rs, a =>
    if r.info.base ≤ a then
      match instOf r.info.dims (a - r.info.base) with
      | some is => some (r, is)
      | none => findReg rs a
    else findReg rs a

def regAt (a : Nat) : Option (Reg × List Nat) := findReg allRegs a

/-- The reset value of the register at an address; an address without a register holds 0 (R98). -/
def regReset (a : Nat) : Word :=
  match regAt a with
  | some (r, _) => r.info.reset
  | none => 0

/-- The active word of a register. -/
def Die.regI (x : Die) (r : Reg) (is : List Nat) : Word := spGet (fun _ => r.info.reset) x.regs (r.addr is)

def Die.reg (x : Die) (r : Reg) : Word := x.regI r []

/-- The shadow word of a register (R13, RWP). -/
def Die.shadowI (x : Die) (r : Reg) (is : List Nat) : Word := spGet (fun _ => r.info.reset) x.shadow (r.addr is)

def Die.setRegI (x : Die) (r : Reg) (is : List Nat) (v : Word) : Die :=
  { x with regs := spSet (fun _ => r.info.reset) x.regs (r.addr is) v }

def Die.setReg (x : Die) (r : Reg) (v : Word) : Die := x.setRegI r [] v

def Die.setShadowI (x : Die) (r : Reg) (is : List Nat) (v : Word) : Die :=
  { x with shadow := spSet (fun _ => r.info.reset) x.shadow (r.addr is) v }

/-- A counter advances, wrapping from 0xFFFF_FFFF to 0 (R101). -/
def Die.countI (x : Die) (r : Reg) (is : List Nat) (n : Nat) : Die :=
  x.setRegI r is (x.regI r is + BitVec.ofNat 32 n)

def Die.count (x : Die) (r : Reg) : Die := x.countI r [] 1

def Die.countN (x : Die) (r : Reg) (n : Nat) : Die := x.countI r [] n

/-- A flag sets (R14). -/
def Die.flagI (x : Die) (r : Reg) (is : List Nat) (bit : Nat) : Die :=
  x.setRegI r is (x.regI r is ||| ((1 : Word) <<< bit))

def Die.flag (x : Die) (r : Reg) (bit : Nat) : Die := x.flagI r [] bit

/-- A field of a register's active word, as a number. -/
def Die.fld (x : Die) (r : Reg) (is : List Nat) (hi lo : Nat) : Nat := wbits (x.regI r is) hi lo

def Die.fldBit (x : Die) (r : Reg) (is : List Nat) (i : Nat) : Bool := (x.regI r is).getLsbD i

end Sys2Proof.Machine
end

