-- ==== Sys2Proof/Machine/Ops.lean ====
section
/-! DEFINITION. Sys2Proof/Machine/Ops.lean: the named operations that every family of commands uses: the dies of the
package, local time, free values and the answer of a command. -/
namespace Sys2Proof.Machine

/-- What a command answers. -/
abbrev Out := Host.Outcome State Fault Refusal

def State.die (s : State) : DieId → Die
  | .a => s.a
  | .b => s.b

/-- A die takes a new state; which die of the package it is stays wired (DIE of R85). -/
def State.setDie (s : State) (d : DieId) (x : Die) : State :=
  match d with
  | .a => { s with a := { x with id := .a } }
  | .b => { s with b := { x with id := .b } }

/-- A change of one die. -/
def State.onDie (s : State) (d : DieId) (f : Die → Die) : State := s.setDie d (f (s.die d))

/-- A change of both dies. -/
def State.onBoth (s : State) (f : Die → Die) : State := (s.setDie .a (f s.a)).setDie .b (f s.b)

/-- The work that follows a unit that passed; a unit that is held ends it. -/
def thenOk {α : Type} (r : α × Bool) (f : α → α) : α := if r.2 then f r.1 else r.1

/-- The next state of a command that changes one die. -/
def nextOn (d : DieId) (f : Die → Die) (s : State) : Out := .next (s.onDie d f)

/-- An event whose condition does not hold changes nothing. -/
def guardDie (c : Die → Bool) (f : Die → Die) (x : Die) : Die := if c x then f x else x

/-- A local µs in SCLK cycles ("Terms" of spec/00_scope.md). -/
def localUs : Nat := 400

/-- Local time that has passed since a moment, in SCLK cycles. -/
def Die.since (x : Die) (t : DWord) : Nat := (x.time - t).toNat

/-- A number of local µs has passed since a moment. -/
def Die.passed (x : Die) (t : DWord) (us : Nat) : Bool := decide (us * localUs ≤ x.since t)

/-- A message over CTL reaches the die: its partner is alive (R41). -/
def Die.heardCtl (x : Die) : Die := { x with pair.lastCtl := x.time, pair.heard := true }

/-- The core domains run: the root PLL has locked after the reset (R453), the die is not held in reset or off. -/
def Die.running (x : Die) : Bool := x.power.pllLock && !x.power.inReset && decide (x.dev ≠ .off)

def DevState.code : DevState → Nat
  | .off => 0
  | .rom => 1
  | .ready => 2
  | .active => 3
  | .hold => 4
  | .safe => 5
  | .locked => 6

def CtxState.code : CtxState → Nat
  | .free => 0
  | .opened => 1
  | .running => 2
  | .suspended => 3
  | .faulted => 4

def Role.code : Role → Nat
  | .independent => 0
  | .primary => 1
  | .secondary => 2
  | .standby => 3

/-! ### The USB endpoints (R52 to R56) -/

/-- The USB port exchanges packets: it is connected and neither suspended nor in U3 (R534). -/
def Die.usbLive (x : Die) : Bool :=
  x.io.usb.connected && decide (x.dev ≠ .off) && decide (x.io.usb.lowPower ≠ some .u3) && decide (x.io.usb.lowPower ≠ some .suspend)

/-- The transfer takes an OUT packet, or has one to send. -/
def Xfer.takesOut (t : Xfer) : Bool := decide (t.kind ≠ .readMem) && decide (t.kind ≠ .attest) && t.frozen.isNone
def Xfer.takesIn (t : Xfer) : Bool := (decide (t.kind = .readMem) || decide (t.kind = .attest)) && t.frozen.isNone

/-- An endpoint refuses: NAK, and in SuperSpeed operation NRDY, after which an ERDY is owed (R56). -/
def Die.epBusy (x : Die) (ep : Byte) : Die :=
  if x.io.usb.speed = .highSpeed then { x with cmd.answer := .nak }
  else { x with cmd.answer := .nrdy, io.usb.owed := ep :: x.io.usb.owed.filter (fun e => e != ep),
                io.usb.erdy := x.io.usb.erdy.filter (fun e => e != ep) }

/-- An endpoint takes or delivers a packet: it owes no ERDY any more. -/
def Die.epServed (x : Die) (ep : Byte) (a : UsbAnswer) : Die :=
  { x with cmd.answer := a, io.usb.owed := x.io.usb.owed.filter (fun e => e != ep),
           io.usb.erdy := x.io.usb.erdy.filter (fun e => e != ep) }

/-- An endpoint can take or deliver a packet. -/
def Die.epReady (x : Die) (ep : Byte) : Bool :=
  let ch : Fin 4 := Fin.ofNat 4 (ep.toNat % 16 - 2)
  let on := decide (x.dev ≠ .hold) && !x.power.inReset
  if ep = 0x01 then decide (x.cmd.fifo.length < 256)
  else if ep = 0x81 then !x.cmd.replies.isEmpty
  else match x.cmd.xfers[ch] with
    | some t => on && (if ep.toNat < 0x80 then t.takesOut else t.takesIn)
    | none => false

/-- The ERDYs that are owed are sent for the endpoints that are ready (R56). -/
def Die.sendErdy (x : Die) : Die :=
  if !x.usbLive || x.io.usb.owed.isEmpty then x else
  { x with io.usb.owed := x.io.usb.owed.filter (fun e => !x.epReady e),
           io.usb.erdy := x.io.usb.erdy ++ x.io.usb.owed.filter x.epReady }

/-! ### Contexts -/

def Die.ctx? (x : Die) (c : Nat) : Option Ctx := x.cmd.ctxs.find? (fun t => t.num == c)

def Die.updCtx (x : Die) (c : Nat) (f : Ctx → Ctx) : Die :=
  { x with cmd.ctxs := updWhere (fun t => t.num == c) f x.cmd.ctxs }

/-- The state of a context (R63): context 0 always reports OPEN. -/
def Die.ctxState (x : Die) (c : Nat) : CtxState :=
  if c = 0 then .opened else
  match x.ctx? c with
  | some t => t.state
  | none => .free

/-- The VMID of a context; firmware's context 0 uses VM 0. -/
def Die.vmidOf (x : Die) (c : Nat) : BitVec 8 :=
  match x.ctx? c with
  | some t => t.vmid
  | none => 0

/-! ### Units of R469 -/

/-- The epoch in force at a unit. -/
def Die.unitEpoch (x : Die) (u : Nat) : Word := x.press.unitEpoch.getD u 0

def Die.lateUnit (x : Die) (u : Nat) : Bool := x.press.late.getLsbD u

/-- The next free value's argument; a free value is an opaque constant of Config applied to it. -/
def Die.tick (x : Die) : Die := { x with free := x.free + 1 }

/-! ### Time (R454) -/

/-- The share of a job on a cluster is folding. -/
def Die.folding (x : Die) (slot : Nat) (cl : Fin 6) : Bool :=
  x.jobs.list.any (fun j => j.slot == slot && j.shares.any (fun h => decide (h.cl = cl) && decide (h.state = .folding)))

/-- FP_LIMIT runs for the groups of folding shares that are neither frozen nor stopped, stretched by gating (R336,
R579). -/
def Die.runFoldTime (x : Die) : Die :=
  let step : Group → Group := fun t =>
    if t.frozen.isNone && !t.stopped && x.folding t.job t.loc.cl then { t with foldTime := t.foldTime + (64 - x.power.gate) }
    else t
  { x with sh.groups := x.sh.groups.map step }

/-- Local time: in HOLD, and in a SAFE entered from HOLD, it is the entry's value plus ⌊c × 125 / 12⌋ for c reference cycles
(R454). -/
def Die.localTime (x : Die) : DWord :=
  if x.dev = .hold ∨ (x.dev = .safe ∧ !x.power.pllLock) then
    x.power.holdTime + BitVec.ofNat 64 (x.power.holdCycles / 5 * 125 / 12)
  else x.time

/-- A number of local µs has passed since a moment of local time, in HOLD too: the timers of the command processor
(R454, R572). -/
def Die.passedLocal (x : Die) (t : DWord) (us : Nat) : Bool := decide (us * localUs ≤ (x.localTime - t).toNat)

/-- The command processor of die B refreshes PK_OUTPUT_OWNER while die B is the active die in SPARE mode (R45). -/
def Die.refreshOwner (x : Die) : Die :=
  if x.id = .b ∧ x.pair.mode = 2 ∧ x.pair.role = .primary ∧ (x.dev = .ready ∨ x.dev = .active) then
    { x with pair.pulls := x.pair.pulls.map (fun _ => x.time) }
  else x

/-- A local µs passes on a die: local time advances by 400 SCLK cycles where the core domains run; in HOLD the always-on
counter of reference cycles advances by 38.4 cycles, kept in fifths. -/
def Die.idle (x : Die) : Die :=
  if x.dev = .hold ∨ (x.dev = .safe ∧ !x.power.pllLock) then { x with power.holdCycles := x.power.holdCycles + 192 }
  else if x.running then ({ x.runFoldTime with time := x.time + BitVec.ofNat 64 localUs } : Die).refreshOwner
  else x

end Sys2Proof.Machine
end

