-- ==== Sys2Proof/Machine/Faults.lean ====
section
/-! DEFINITION. Sys2Proof/Machine/Faults.lean: freezing a master, its report, and the entry into SAFE
(14_faults_and_redundancy.md; R376 to R382). -/
namespace Sys2Proof.Machine

/-! ### Fault class codes (R380, R490) -/

def clsUnmapped : Byte := 0x01
def clsPerm : Byte := 0x02
def clsRange : Byte := 0x03
def clsBadEntry : Byte := 0x04
def clsBadTable : Byte := 0x05
def clsMigHost : Byte := 0x06
def clsMigFailed : Byte := 0x07
def clsOwnTag : Byte := 0x08
def clsOwnRights : Byte := 0x09
def clsOwnKind : Byte := 0x0A
def clsOwnPoisoned : Byte := 0x0B
def clsOwnMigrating : Byte := 0x0C
def clsBadInstruction : Byte := 0x10
def clsRegRange : Byte := 0x11
def clsStackOverflow : Byte := 0x12
def clsBadBranch : Byte := 0x13
def clsMisaligned : Byte := 0x14
def clsBarrierDiverged : Byte := 0x15
def clsLocalRange : Byte := 0x16
def clsBadDescriptor : Byte := 0x17
def clsFoldLate : Byte := 0x18
def clsTagLimit : Byte := 0x19
def clsArbWatchdog : Byte := 0x1A
def clsPressTimeout : Byte := 0x1B
def clsRemoteTimeout : Byte := 0x1C
def clsWrgData : Byte := 0x1D
def clsRefClock : Byte := 0x1E
def clsRegParity : Byte := 0x20
def clsAccParity : Byte := 0x21
def clsTlmParity : Byte := 0x22
def clsL2cParity : Byte := 0x23
def clsDramParity : Byte := 0x24
def clsWayRetired : Byte := 0x25
def clsCtrlParity : Byte := 0x26
def clsCfgParity : Byte := 0x27
def clsOwnTableParity : Byte := 0x28
def clsPairMismatch : Byte := 0x30
def clsPairTimeout : Byte := 0x31
def clsPartnerLost : Byte := 0x32
def clsFailover : Byte := 0x33
def clsBridgeDown : Byte := 0x34
def clsLinkDown : Byte := 0x35
def clsCsiWatchdog : Byte := 0x36
def clsTdmClock : Byte := 0x37
def clsSensorExcluded : Byte := 0x38

/-! ### Masters in records (R379, R489) -/

def masterCode : Master → Nat
  | .group _ => 0
  | .stream _ _ => 1
  | .texture _ => 2
  | .raster _ _ => 3
  | .frontEnd _ => 4
  | .layer _ _ => 5
  | .writeback _ => 5
  | .copy _ => 6
  | .wringer _ => 7
  | .usb _ => 8
  | .cmdProc _ _ => 9
  | .csi _ => 10
  | .tdm _ => 10
  | .ufs => 11
  | .linkTarget _ => 12
  | .requester => 12
  | .slice _ => 13
  | .dram _ => 14
  | .pairLogic => 15
  | .clockCtl => 16
  | .thermal _ => 17
  | .migration => 9

/-- LOCATION of R136, without the die bit. -/
def grpLocation (g : GrpLoc) : Nat := g.pipe.val + 8 * g.core.val + 128 * g.cl.val

/-- UNIT of a record without its die bit (R379, R489, R545). -/
def masterUnitBits : Master → Nat
  | .group g => grpLocation g
  | .stream c _ => 8 * c.core.val + 128 * c.cl.val
  | .texture g => 8 * g.core.val + 128 * g.cl.val
  | .raster cl _ => 128 * cl.val
  | .frontEnd p => p.val
  | .layer p l => p.val + 4 * l.val
  | .writeback p => p.val + 32
  | .copy e => e.val
  | .wringer e => e.val
  | .usb ch => ch.val
  | .cmdProc _ _ => 0
  | .csi p => p.val
  | .tdm p => p.val + 4
  | .ufs => 0
  | .linkTarget l => l.val
  | .requester => 7
  | .slice sl => sl.val
  | .dram ch => ch.val
  | .pairLogic => 0
  | .clockCtl => 0
  | .thermal s => s.val
  | .migration => 0

def masterUnit (d : DieId) (m : Master) : Nat := masterUnitBits m + 1024 * d.toNat

/-- The reporter's bit of CLUSTERS (R379). -/
def masterClusterBit : Master → Byte
  | .group g => 1 <<< g.cl.val
  | .stream c _ => 1 <<< c.cl.val
  | .texture g => 1 <<< g.cl.val
  | .raster cl _ => 1 <<< cl.val
  | _ => 0

/-- The unit of R469 whose epoch is in force at a master. Masters of no unit take the command processor's (DEDUCED, log 27). -/
def masterPressUnit : Master → Nat
  | .group g => g.cl.val
  | .stream c _ => c.cl.val
  | .texture g => g.cl.val
  | .raster cl _ => cl.val
  | .frontEnd _ => 34
  | .layer p _ => 22 + p.val
  | .writeback p => 22 + p.val
  | .wringer e => 26 + e.val
  | .usb _ => 41
  | .csi _ => 41
  | .tdm _ => 41
  | .ufs => 41
  | .linkTarget _ => 39
  | .requester => 40
  | .slice sl => 6 + sl.val
  | .dram _ => 38
  | .pairLogic => 43
  | .thermal _ => 42
  | _ => 36

/-- A number for a reporter, apart from every other (R486, "the reporter itself"). -/
def masterIdent (m : Master) : Nat :=
  masterCode m * 65536 + masterUnitBits m * 16 + (match m with | .group g => g.slot.val | .texture g => g.slot.val | _ => 0)

/-- Sources that own a reserved place (R488). -/
def reservedSource (m : Master) (cls : Byte) : Bool :=
  match m with
  | .linkTarget _ => true
  | .requester => true
  | .csi _ => true
  | .tdm _ => true
  | .thermal _ => true
  | .clockCtl => true
  | .pairLogic => decide (cls ≠ clsPairMismatch) && decide (cls ≠ clsPairTimeout)
  | _ => false

/-- ORIGIN of R486 from what the report concerns: page, granule, arbiter or item; every other class names its
reporter. -/
def originOf (cls : Byte) (m : Master) (va thing : Nat) : Nat :=
  if 0x01 ≤ cls.toNat ∧ cls.toNat ≤ 0x07 then va / 4096
  else if (0x08 ≤ cls.toNat ∧ cls.toNat ≤ 0x0C) ∨ cls = clsDramParity ∨ cls = clsL2cParity then thing
  else if cls = clsArbWatchdog ∨ cls = clsPairMismatch ∨ cls = clsPairTimeout then thing
  else if cls = clsPressTimeout then 0
  else masterIdent m

/-- Classes whose master waits for XLT_RESOLVE, on a master that can be held (R484). -/
def heldClass (cls : Byte) (m : Master) : Bool :=
  (decide (0x01 ≤ cls.toNat) && decide (cls.toNat ≤ 0x0B)) ||
  (decide (0x10 ≤ cls.toNat) && decide (cls.toNat ≤ 0x16)) ||
  (cls == clsBadDescriptor && (match m with | .cmdProc _ _ => false | _ => true)) ||
  cls == clsTagLimit || cls == clsArbWatchdog || cls == clsWrgData || cls == clsL2cParity || cls == clsDramParity ||
  cls == clsCfgParity

/-! ### Freezing (R482, R483) -/

/-- A vector with one element changed. -/
def vmod {α : Type} {n : Nat} (v : Vector α n) (i : Fin n) (f : α → α) : Vector α n := v.set i (f v[i])

def Die.updGroup (x : Die) (g : GrpLoc) (f : Group → Group) : Die :=
  { x with sh.groups := updWhere (fun t => decide (t.loc = g)) f x.sh.groups }

def Die.group? (x : Die) (g : GrpLoc) : Option Group := x.sh.groups.find? (fun t => decide (t.loc = g))

def Die.updJob (x : Die) (slot : Nat) (f : Job → Job) : Die :=
  { x with jobs.list := updWhere (fun j => j.slot == slot) f x.jobs.list }

def Die.job? (x : Die) (slot : Nat) : Option Job := x.jobs.list.find? (fun j => j.slot == slot)

/-- One more group of a job is dispatched. -/
def Job.oneMore (j : Job) : Job := { j with dispatched := j.dispatched + 1 }

def Die.updPass (x : Die) (p : Fin 4) (f : Pass → Pass) : Die :=
  { x with passes := vmod x.passes p (Option.map f) }

def Die.updPipe (x : Die) (p : Fin 4) (f : Pipe → Pipe) : Die := { x with pipes := vmod x.pipes p f }

/-- A pipe freezes (R314): the SAFE colour, timing kept; its counter counts the freeze. -/
def Die.freezePipe (x : Die) (p : Fin 4) (cls : Byte) : Die :=
  if (x.pipes[p]).frozen.isSome then x else
  ((x.updPipe p (fun q => { q with frozen := some cls, wasFrozen := true, resumeDue := false })).countI
    .dspFreezeCnt [p.val] 1)

/-- A group freezes where R164 stops it; GRP_FREEZE_CNT counts it. -/
def Die.freezeGroup (x : Die) (g : GrpLoc) (cls : Byte) : Die :=
  (x.updGroup g (fun t => { t with frozen := some cls })).count .grpFreezeCnt

/-- The class of the held fault of its own on which a command is frozen. -/
def PendCmd.frozenBy (c : PendCmd) : Option Byte :=
  match c.phase with
  | .frozen cls => some cls
  | .fenceWait _ held => held
  | .waiting => none
  | .transfer _ => none
  | .folding => none

def PendCmd.isFrozen (c : PendCmd) : Bool := c.frozenBy.isSome

/-- How a command freezes: a FENCE_WAIT goes on waiting (R74, R89). -/
def PendCmd.freeze (c : PendCmd) (cls : Byte) : PendCmd :=
  match c.phase with
  | .fenceWait t _ => { c with phase := .fenceWait t (some cls) }
  | _ => { c with phase := .frozen cls }

/-- How a command resumes. -/
def PendCmd.wake (c : PendCmd) : PendCmd :=
  match c.phase with
  | .fenceWait t _ => { c with phase := .fenceWait t none }
  | .frozen _ => { c with phase := .waiting }
  | _ => c

/-- The command of a context that executes freezes (R74). -/
def Die.freezeCmd (x : Die) (ctx : Nat) (cls : Byte) : Die :=
  { x with cmd.pool := updFirst (fun c => c.ctx == ctx && !c.isFrozen) (fun c => c.freeze cls) x.cmd.pool }

/-- Stops a master where its row of R483 gives. -/
def Die.freeze (x : Die) (m : Master) (cls : Byte) : Die :=
  match m with
  | .group g => x.freezeGroup g cls
  | .texture g => x.freezeGroup g cls
  | .stream _ j => x.updJob j (fun t => { t with held := some cls })
  | .raster cl p => x.updPass p (fun t => { t with halted := (cl, cls) :: t.halted.filter (fun h => decide (h.1 ≠ cl)) })
  | .frontEnd p => x.updPass p (fun t => { t with frozen := some cls })
  | .layer p _ => x.freezePipe p cls
  | .writeback p => x.freezePipe p cls
  | .copy e => { x with jobs.copies := vmod x.jobs.copies e (fun t => { t with frozen := some cls }) }
  | .wringer e => { x with wringers := vmod x.wringers e (fun t => { t with frozen := some cls }) }
  | .usb ch => { x with cmd.xfers := vmod x.cmd.xfers ch (Option.map (fun t => { t with frozen := some cls, heldAt := x.localTime })) }
  | .cmdProc _ (some j) => x.updJob j (fun t => { t with held := some cls })
  | .cmdProc c none => x.freezeCmd c cls
  | .csi p => { x with io.csi := vmod x.io.csi p (fun t => { t with frozen := some cls, lost := true }) }
  | .tdm p => { x with io.tdm := vmod x.io.tdm p (fun t => { t with frozen := some cls, lost := true }) }
  | .ufs =>
    if x.io.ufs.xfer.any (fun t => t.ahead == 0) then
      { x with io.ufs.xfer := x.io.ufs.xfer.map (fun t => { t with frozen := some cls }) }
    else { x with sec.loads := match x.sec.loads with
      | [] => []
      | l :: ls => { l with frozen := some cls } :: ls }
  | .linkTarget _ => { x with torus.frozenTgt := some cls }
  | .requester => { x with torus.frozenReq := some cls }
  | .slice _ => x
  | .dram _ => x
  | .pairLogic => x
  | .clockCtl => x
  | .thermal _ => x
  | .migration => x

/-- What a report says beside its class and its reporter. -/
structure FaultInfo where
  flags : Byte
  ctx : Nat
  va : Nat
  detail : Nat
  /-- Granule, arbiter or item, where ORIGIN names one (R486). -/
  thing : Nat
  deriving DecidableEq, Repr

/-- A report without an address: context and DETAIL. -/
def FaultInfo.plain (ctx detail : Nat) : FaultInfo := { flags := 0, ctx := ctx, va := 0, detail := detail, thing := 0 }

/-- A report on its way to the darner (R482, R486). -/
def Die.report (x : Die) (cls : Byte) (m : Master) (i : FaultInfo) (freezes : Bool) : Die :=
  let r : Report :=
    { cls := cls, flags := i.flags, who := m, ctx := i.ctx, vmid := x.vmidOf i.ctx, va := BitVec.ofNat 48 i.va,
      detail := BitVec.ofNat 64 i.detail,
      epoch := if cls = clsPressTimeout then x.press.epoch else x.unitEpoch (masterPressUnit m),
      origin := originOf cls m i.va i.thing + (if 1 ≤ cls.toNat ∧ cls.toNat ≤ 5 then 2 ^ 36 * (x.vmidOf i.ctx).toNat else 0), freezes := freezes, held := freezes && heldClass cls m,
      gone := false }
  { x with flt.reports := x.flt.reports ++ [r] }

/-- A master is frozen and sends one report to the darner (R482). -/
def Die.faultMaster (x : Die) (cls : Byte) (m : Master) (i : FaultInfo) : Die :=
  (x.freeze m cls).report cls m i true

/-- Masters that no longer hold a unit: the faults of their units stay held, and a resolution passes them over (R74,
R377). -/
def Die.forget (x : Die) (gone : Master → Bool) : Die :=
  let keep : List Master → List Master := fun ms => ms.filter (fun m => !gone m)
  { x with flt.reports := updWhere (fun r => gone r.who) (fun r => { r with gone := true }) x.flt.reports,
           flt.faults := x.flt.faults.map (fun h => { h with reporters := keep h.reporters }),
           xlt.migs := x.xlt.migs.map (fun g => { g with joined := keep g.joined }) }

/-- A record and counters only (R484, "All others"). -/
def Die.note (x : Die) (cls : Byte) (m : Master) (i : FaultInfo) : Die := x.report cls m i false

/-- Entering SAFE (R485): the partner is told over CTL, HEALTHY is released; a die in LOCKED, OFF or ROM does not
move (R76). -/
def Die.enterSafe (x : Die) : Die :=
  if x.dev = .ready ∨ x.dev = .active ∨ x.dev = .hold then
    { x with dev := .safe, power.healthy := false, pair.pulls := none, pair.ctlOut := x.pair.ctlOut ++ [.safeAnnounce] }
  else x

/-- Poisoning a granule (R479): STATE 3, POISONED and FLT_POISON_CNT; a granule of context 0 puts the die in SAFE. -/
def ownReset : Nat → BitVec 24 := fun _ => 0xFFF000

def Die.ownEntry (x : Die) (g : Nat) : BitVec 24 := spGet ownReset x.xlt.own g

def Die.setOwn (x : Die) (g : Nat) (e : BitVec 24) : Die := { x with xlt.own := spSet ownReset x.xlt.own g e }

def ownOwner (e : BitVec 24) : Nat := bitsOf e.toNat 23 12
def ownKind (e : BitVec 24) : Nat := bitsOf e.toNat 11 10
def ownRead (e : BitVec 24) : Bool := e.getLsbD 9
def ownWrite (e : BitVec 24) : Bool := e.getLsbD 8
def ownState (e : BitVec 24) : Nat := bitsOf e.toNat 7 6

def ownMake (owner kind : Nat) (r w : Bool) (st : Nat) : BitVec 24 :=
  BitVec.ofNat 24 (owner * 4096 + kind * 1024 + b2n r * 512 + b2n w * 256 + st * 64)

def ownWithState (e : BitVec 24) (st : Nat) : BitVec 24 :=
  ownMake (ownOwner e) (ownKind e) (ownRead e) (ownWrite e) st

/-- Every L1 line and side-buffer line of a granule is dropped (R213); a line of it that a miss register still fetches is
installed stale, as after a fence, and a prefetch of it is dropped. -/
def Die.dropL1Granule (x : Die) (g : Nat) : Die :=
  let keep : L1Line → Bool := fun l => decide (l.pa / 262144 ≠ g)
  let late : MissReg → MissReg := fun m => if m.pa / 262144 = g then { m with fenced := true } else m
  let n := (x.cache.l1s.map (fun t => (t.fetching.filter (fun f => f.1 / 262144 == g)).length)).sum
  let y : Die := { x with cache.l1s := x.cache.l1s.map (fun t =>
    { t with lines := t.lines.filter keep, side := t.side.filter keep, miss := t.miss.map late,
             fetching := t.fetching.filter (fun f => f.1 / 262144 != g) }) }
  y.countN .locPfDropCnt n

def Die.poison (x : Die) (g : Nat) : Die :=
  let e := x.ownEntry g
  let y := (((x.setOwn g (ownWithState e 3)).dropL1Granule g).flag .fltFlags 1).count .fltPoisonCnt
  if ownOwner e = 0 then y.enterSafe else y

end Sys2Proof.Machine
end

