-- ==== Sys2Proof/Machine/PressUnits.lean ====
section
/-! DEFINITION. Sys2Proof/Machine/PressUnits.lean: the units of R469, the RWP registers each applies, writes to shadows
(R13, R16, R468) and the application of a pressed shadow (R467 to R471). -/
namespace Sys2Proof.Machine

/-- A run of unit bits. -/
def unitRun (lo n : Nat) : List Nat := (List.range n).map (fun i => lo + i)

/-- The units that apply a register's RWP fields (R469). ARB_HIGH and ARB_WDOG go to the fabric arbiters; blocks that the
table does not list, to the command processor. -/
def Reg.units (r : Reg) (is : List Nat) : List Nat :=
  match r with
  | .cmdPairCfg => [43]
  | .arbQuotaDram => [38]
  | .arbQuotaLink => [39]
  | .torRingLo => [40]
  | .torRingHi => [40]
  | _ =>
    let b := r.info.base
    if b < 0x20000 then [36]
    else if b < 0x30000 then [37]
    else if b < 0x40000 then [42]
    else if b < 0x60000 then [36]
    else if b < 0x70000 then [35]
    else if b < 0x90000 then [36]
    else if b < 0xA0000 then unitRun 26 8
    else if b < 0xB0000 then unitRun 6 16
    else if b < 0xC0000 then [34]
    else if b < 0x100000 then [38]
    else if b < 0x500000 then unitRun 0 6
    else if b < 0x540000 then [22 + is.headD 0]
    else if b < 0x580000 then [39]
    else [41]

def ports4 (rs : List Reg) : List (Reg × List Nat) :=
  ([0, 1, 2, 3].map (fun i => rs.map (fun r => (r, [i])))).flatten

/-- The layer registers, in address order. -/
def layerRegs : List Reg :=
  [.dspLayerCtrl, .dspLayerVaLo, .dspLayerVaHi, .dspLayerUvOfs, .dspLayerPitch, .dspLayerSrc, .dspLayerDst, .dspLayerPos,
   .dspLayerFenceLo, .dspLayerFenceHi, .dspLayerValueLo, .dspLayerValueHi]

/-- The pipe's own RWP registers, its layers and its port apart. -/
def pipeRegs : List Reg :=
  [.dspPipeCtrl, .dspPipeHtiming, .dspPipeVtiming, .dspPipeSync, .dspPipePclk, .dspPipeBg, .dspPipeSafe, .dspTagCtrl,
   .dspPipeWbLo, .dspPipeWbHi, .dspPipeWbCfg, .dspPipeWbfLo, .dspPipeWbfHi, .dspPortCtrl, .dspPortDsc]

def tagRegs (p : Nat) : List (Reg × List Nat) :=
  ((List.range 16).map (fun r => [(Reg.dspTagX, [p, r]), (Reg.dspTagY, [p, r]), (Reg.dspTagExpect, [p, r])])).flatten

/-- The registers that a unit applies; the rings of the remote requester are kept apart, by context. -/
def unitRegs (u : Nat) : List (Reg × List Nat) :=
  if u < 6 then [(.grpSchedCfg, []), (.tlmCfg, []), (.locCfg, [])]
  else if u < 22 then [(.l2cCfg, [])]
  else if u < 26 then pipeRegs.map (fun r => (r, [u - 22])) ++ tagRegs (u - 22)
  else if u < 34 then [(.wrgCfg, [])]
  else match u with
  | 34 => [(.gfxCfg, [])]
  | 35 => [(.jobCfg, [])]
  | 36 => [(.cmdDataCfg, []), (.clkPressCfg, []), (.fltCfg, [])]
  | 37 => [(.arbHigh, []), (.arbQuotaFabric, []), (.arbWdog, [])]
  | 38 => [(.drcCfg, []), (.arbQuotaDram, [])]
  | 39 => [(.torNode, []), (.torDim, []), (.torLinkCtrl, []), (.torDownX, []), (.torDownY, []), (.torDownZ, []),
      (.arbQuotaLink, [])]
  | 41 => [(.usbCfg, [])] ++
      ports4 [.csiCtrl, .csiCropXy, .csiCropWh, .csiBlack, .csiWdog, .csiBufLo, .csiBufHi, .csiFenceLo, .csiFenceHi,
        .csiReleaseLo, .csiReleaseHi, .csiGeom] ++
      ports4 [.tdmCtrl, .tdmSlotMask, .tdmBlock, .tdmBufLo, .tdmBufHi, .tdmFenceLo, .tdmFenceHi, .tdmStride] ++
      [(.ufsCfg, [])] ++ (List.range 8).map (fun i => (Reg.ufsLuOwner, [i]))
  | 42 => [(.pwrCap, []), (.pwrTherm, [])]
  | 43 => [(.cmdPairCfg, [])]
  | _ => []

/-- Units that apply one register each for its own part: the register is one word to software, and every one of them
works under its own copy. -/
def unitGroup (u : Nat) : List Nat :=
  if u < 6 then unitRun 0 6 else if u < 22 then unitRun 6 16 else if 26 ≤ u ∧ u < 34 then unitRun 26 8 else [u]

def bit44 (u : Nat) : BitVec 44 := (1 : BitVec 44) <<< u

def bits44 (us : List Nat) : BitVec 44 := us.foldl (fun m u => m ||| bit44 u) 0

/-- The unit has applied the pending press, or was not concerned. -/
def Die.unitDone (x : Die) (u : Nat) : Bool := !x.press.behind.getLsbD u || x.press.applied.getLsbD u

/-- A unit that a configuration parity error or a late press has frozen (R473, R481). -/
def Die.unitFrozen (x : Die) (u : Nat) : Bool := x.lateUnit u || x.press.cfgBad.any (fun e => e.1 == u)

/-- The word of a register's shadow as the pending press found it (R16). -/
def Die.pressedI (x : Die) (r : Reg) (is : List Nat) : Word := spGet (fun _ => r.info.reset) x.press.pressed (r.addr is)

/-- The pending press carries another word for a register. -/
def Die.setPressedI (x : Die) (r : Reg) (is : List Nat) (v : Word) : Die :=
  { x with press.pressed := spSet (fun _ => r.info.reset) x.press.pressed (r.addr is) v }

/-- The active word of a register with its RWP bits replaced. -/
def rwpMerge (r : Reg) (old new : Word) : Word := (old &&& ~~~r.info.rwp) ||| (new &&& r.info.rwp)

/-- The active word under which one unit of a group works. -/
def Die.regU (x : Die) (r : Reg) (u : Nat) : Word :=
  if x.unitDone u && !((unitGroup u).all (fun v => x.unitDone v)) then rwpMerge r (x.reg r) (x.pressedI r []) else x.reg r

/-- A write to a register's RWP fields goes to its shadow and concerns its units at the next press (R13, R468). -/
def Die.writeShadow (x : Die) (r : Reg) (is : List Nat) (v : Word) : Die :=
  let a := r.addr is
  let y := x.setShadowI r is (rwpMerge r (x.shadowI r is) v)
  { y with press.dirty := y.press.dirty ||| bits44 (r.units is),
           press.shadowBad := y.press.shadowBad.filter (fun b => b != a) }

/-- The pressed words of registers become active. -/
def Die.activate (x : Die) (rs : List (Reg × List Nat)) : Die :=
  rs.foldl (fun (y : Die) q => y.setRegI q.1 q.2 (rwpMerge q.1 (y.regI q.1 q.2) (y.pressedI q.1 q.2))) x

def Die.setUnitEpoch (x : Die) (u : Nat) : Die :=
  { x with press.unitEpoch := x.press.unitEpoch.set u x.press.epoch }

/-- A unit has dealt with the pending press; its acknowledgement is on its way (R471). -/
def Die.unitAcks (x : Die) (u : Nat) : Die := { x with press.applied := x.press.applied ||| bit44 u }

/-- A unit refuses the pending press and acknowledges it (R470): it stays concerned. -/
def Die.unitRefuses (x : Die) (u : Nat) : Die :=
  let y := x.unitAcks u
  { y with press.dirty := y.press.dirty ||| bit44 u }

/-- A unit applies the pending press: its registers become active once every unit of its group has applied it. -/
def Die.unitApplies (x : Die) (u : Nat) : Die :=
  let y := (x.setUnitEpoch u).unitAcks u
  let y := { y with press.cfgBad := y.press.cfgBad.filter (fun e => e.1 != u) }
  if (unitGroup u).all (fun v => y.unitDone v) then y.activate (unitRegs u) else y

/-- An acknowledgement reaches the command processor; the last one makes the epoch active (R471). -/
def Die.unitAcked (x : Die) (u : Nat) : Die :=
  let b := x.press.behind &&& ~~~bit44 u
  let y := { x with press.behind := b, press.applied := x.press.applied &&& ~~~bit44 u }
  if b = 0 then { y with press.activeEpoch := y.press.epoch } else y

/-- The unit is behind a press that it has not applied, and is not late. -/
def Die.unitWaits (x : Die) (u : Nat) : Bool :=
  x.press.behind.getLsbD u && !x.press.applied.getLsbD u && !x.lateUnit u

/-- A shadow word of the unit failed parity and has not been written since (R481). -/
def Die.shadowFails (x : Die) (u : Nat) : Bool :=
  x.press.shadowBad.any (fun a => match regAt a with
    | some (r, is) => (r.units is).contains u
    | none => false)

end Sys2Proof.Machine
end

