-- ==== Sys2Proof/Config.lean ====
section
/-! DEFINITION. Sys2Proof/Config.lean: the free values: results that the spec leaves open. Each is a constant without a
body, applied to a plain number or to the operands, so that nothing in Lean can prove a value of it. -/
namespace Sys2Proof.Config

/-- idVendor, idProduct and bcdDevice, by number, of a firmware image by its measurement; in ROM, with no image, of the fuses
(R533). -/
opaque usbId : List (BitVec 8) → Nat → BitVec 16

/-- Which of `n` candidates pseudo-LRU replacement evicts (R212, R222): reduced modulo `n` where used. -/
opaque victim : Nat → Nat

/-- A word that the spec leaves open, by occurrence. -/
opaque word : Nat → BitVec 32

/-- A 64-bit value that the spec leaves open, by occurrence. -/
opaque dword : Nat → BitVec 64

/-- A byte that the spec leaves open, by occurrence and offset. -/
opaque byte : Nat → Nat → BitVec 8

/-- What a register of a new group holds before anything writes it: occurrence, register and thread. -/
opaque lane : Nat → Nat → Nat → BitVec 32

/-- A choice that the spec leaves open, by occurrence. -/
opaque choice : Nat → Nat

/-- Which of the results within the bound of R110 the device returns: function (0 RCP, 1 RSQ, 2 LG2, 3 EX2), bits of the
fraction of the format, and input. A fixed function of the input. -/
opaque approx : Nat → Nat → Nat → Nat

/-- TYPE and MODE of the I form of a class 0x1 to 0x3 instruction, whose format has no such fields (R165, R169): operation
and IMM; reduced to the values that the operation takes where used. -/
opaque immType : Nat → Nat → Nat
opaque immMode : Nat → Nat → Nat

/-- SHA3-512 of FIPS 202 (R502). -/
opaque sha3_512 : List (BitVec 8) → List (BitVec 8)

/-- ML-DSA-87 verification of FIPS 204 (R502): public key, message, signature. -/
opaque mlDsaVerify : List (BitVec 8) → List (BitVec 8) → List (BitVec 8) → Bool

/-- ML-DSA-87 signing (R502): secret key and message. -/
opaque mlDsaSign : List (BitVec 8) → List (BitVec 8) → List (BitVec 8)

/-- ML-DSA-87 key generation of FIPS 204 from a seed (R512): secret and public key. -/
opaque identityKey : List (BitVec 8) → List (BitVec 8) × List (BitVec 8)

/-- Granules that a firmware image claims with a capacity fitted (R374): reduced to 8 to 1,024 where used. -/
opaque firmwareGranules : List (BitVec 8) → Nat → Nat

/-- A texel of a compressed block (R274): format code, block bytes, x, y and component. -/
opaque compressedTexel : Nat → List (BitVec 8) → Nat → Nat → Nat → BitVec 32

/-- A quantity for which the spec states no value: its name and the words it depends on. -/
opaque quantity : Nat → List (BitVec 32) → BitVec 32

/-- The finite value, in 2^-16, by which an infinity or a NaN acts where a raster coordinate is expected (R263). -/
opaque coordinate : BitVec 32 → Int

/-- A component that an image format does not hold (R268, R272, R273): format code and component. -/
opaque missing : Nat → Nat → BitVec 32

end Sys2Proof.Config
end

