-- ==== Sys2Proof/Machine/Memory.lean ====
section
/-! DEFINITION. Sys2Proof/Machine/Memory.lean: the memory of a die behind its L2: reading and writing at physical
addresses, DRAM words with parity errors, the merging buffers of the slices and the SPARE mirror (R226 to R234, R355,
R477, R478, R528, R529, R38). A line that an L2 slice holds is clean, so its bytes are always those of the view
`Die.l2Byte`; only its presence is kept. Functions that may read the partner's copy take the partner die as `p`. -/
namespace Sys2Proof.Machine

/-! ### Address space (R355) -/

/-- Addressable bytes: 63/64 of the DRAM fitted (R5). -/
def Die.dramBytes (x : Die) : Nat := x.dram.fittedGib * 1073741824 / 64 * 63

def windowBase : Nat := 0x1FFF000000

/-- The PA lies in the window of the carved L2 (R231). -/
def inWindow (pa : Nat) : Bool := decide (windowBase ≤ pa) && decide (pa < 0x2000000000)

/-- Addresses that hold a byte: DRAM, or the active part of the window. -/
def Die.backed (x : Die) (pa : Nat) : Bool :=
  decide (pa < x.dramBytes) || (inWindow pa && decide (pa < windowBase + x.cache.carveActive * 4194304))

/-- The slice of a PA (R226, R231). -/
def sliceOf (pa : Nat) : Fin 16 :=
  if inWindow pa then Fin.ofNat 16 (pa / 128)
  else Fin.ofNat 16 (Nat.xor (Nat.xor (pa / 128 % 16) (pa / 2048 % 16)) (Nat.xor (pa / 32768 % 16) (pa / 524288 % 16)))

def lineOf (pa : Nat) : Nat := pa / 128 * 128

/-- The L2 set of a PA (R226) and the L1 set (R212). -/
def l2SetOf (pa : Nat) : Nat := pa / 2048 % 1024
def l1SetOf (pa : Nat) : Nat := pa / 128 % 128

/-- The DRAM channel of a PA, and its group and slot (R528). -/
def channelOf (pa : Nat) : Fin 24 := Fin.ofNat 24 (pa / 128)
def groupOf (pa : Nat) : Nat := pa / 128 / 24 / 63
def slotOf (pa : Nat) : Nat := pa / 128 / 24 % 63

/-- The channel byte addresses of R528: of the data byte, of the parity byte of its word, and the parity bit. -/
def dramDataAddr (pa : Nat) : Nat := 8192 * groupOf pa + 128 * slotOf pa + pa % 128
def dramParAddr (pa : Nat) : Nat := 8192 * groupOf pa + 8064 + 2 * slotOf pa + pa % 128 / 8 / 8
def dramParBit (pa : Nat) : Nat := pa % 128 / 8 % 8

/-! ### L2 slices -/

def L2.fresh (sl : Fin 16) : L2 :=
  { slice := sl, lines := [], miss := [], merge := [], side := [], errs := [], retired := [], zeroing := none }

/-- The slice; one that is not listed is as after reset. -/
def Die.l2 (x : Die) (sl : Fin 16) : L2 := (x.cache.l2s.find? (fun t => decide (t.slice = sl))).getD (L2.fresh sl)

def Die.setL2 (x : Die) (t : L2) : Die :=
  { x with cache.l2s :=
      if x.cache.l2s.any (fun u => decide (u.slice = t.slice)) then
        updWhere (fun u => decide (u.slice = t.slice)) (fun _ => t) x.cache.l2s
      else x.cache.l2s ++ [t] }

def Die.onL2 (x : Die) (sl : Fin 16) (f : L2 → L2) : Die := x.setL2 (f (x.l2 sl))

/-- Ways 16 − 2N to 15 of every set are carved (R231). -/
def l2Ways (carve : Nat) : Nat := 16 - 2 * carve

/-- Takes a line into a slice (R227): a free way of its set, or one that a free value chooses among the full ones (log 67).
Retired and carved ways take no fills (R235). -/
def Die.l2Install (x : Die) (pa : Nat) : Die :=
  let ln := lineOf pa
  let t := x.l2 (sliceOf pa)
  if t.lines.any (fun l => l.pa == ln) then x else
  let st := l2SetOf ln
  let ok := (List.range (l2Ways (max x.cache.carveActive (t.zeroing.getD 0)))).filter (fun w => !(t.retired.contains (w, st)))
  let used := (t.lines.filter (fun l => l2SetOf l.pa == st)).map (fun l => l.way)
  match ok.filter (fun w => !(used.contains w)) with
  | w :: _ => x.setL2 { t with lines := t.lines ++ [{ pa := ln, way := w }] }
  | [] =>
    if ok.isEmpty then x else
    let w := ok.getD (Config.victim x.free % ok.length) 0
    (x.setL2 { t with lines := t.lines.filter (fun l => !(l2SetOf l.pa == st && l.way == w)) ++
      [{ pa := ln, way := w }] }).tick

def Die.l2Has (x : Die) (pa : Nat) : Bool := (x.l2 (sliceOf pa)).lines.any (fun l => l.pa == lineOf pa)

/-- A byte as the slices hold it: the carved window, the newest merging-buffer entry that holds it, or DRAM. -/
def Die.l2Byte (x : Die) (pa : Nat) : Byte :=
  if inWindow pa then Mem.byte x.cache.l2carve (pa - windowBase) else
  let t := x.l2 (sliceOf pa)
  match t.merge.reverse.findSome? (fun e => if e.pa = lineOf pa then e.bytes.lookup (pa % 128) else none) with
  | some b => b
  | none => Mem.byte x.dram.cells pa

def Die.l2Bytes (x : Die) (pa n : Nat) : List Byte := (List.range n).map (fun i => x.l2Byte (pa + i))

/-! ### DRAM words (R477, R478) -/

/-- The context of an owner tag is a paired one (R36). -/
def Die.pairedOwner (x : Die) (g : Nat) : Bool :=
  match x.ctx? (ownOwner (x.ownEntry g)) with
  | some c => c.attr.getLsbD 0
  | none => false

/-- A sibling copy of a word exists (R478). -/
def siblingCopy (p x : Die) (pa : Nat) : Bool :=
  x.pair.bridgeUp && !x.pair.lost &&
  ((x.pair.mode == 1 && x.pairedOwner (pa / 262144)) ||
   (x.pair.mode == 2 && decide (x.pair.role = .primary) && (x.pair.mirrorSync || p.pair.mirrorSync)))

/-- The bytes of the partner's word, after every earlier mirror write to it; in PAIRED mode with what the partner's merging
buffers hold of it (R478; DEDUCED, log 172). -/
def siblingBytes (p x : Die) (pa n : Nat) : List Byte :=
  let overlay : Nat → Option Byte := fun a => x.pair.mirOut.reverse.findSome? (fun i => match i with
    | .write b bs => if b ≤ a ∧ a < b + bs.length then some (bs.getD (a - b) 0) else none
    | .wipe g => if a / 262144 = g then some 0 else none
    | .spoil _ => none
    | .command _ _ _ => none
    | .model _ _ => none)
  (List.range n).map (fun i => (overlay (pa + i)).getD
    (if x.pair.mode = 1 then p.l2Byte (pa + i) else Mem.byte p.dram.cells (pa + i)))

def Die.unspoil (x : Die) (w : Nat) : Die := { x with dram.spoiled := x.dram.spoiled.filter (fun v => v != w) }

def Die.spoilWord (x : Die) (w : Nat) : Die :=
  if x.dram.spoiled.contains w then x else { x with dram.spoiled := w :: x.dram.spoiled }

/-- The persistent error of a 64-bit word (R477): its sibling's copy repairs it, or its granule is poisoned and the read
fails. `stuck`: the word still fails parity after the repair is written. -/
def persistentError (p x : Die) (w : Nat) (stuck : Bool) : Die × Bool :=
  let x := x.count .fltDramParityCnt
  let pa := 8 * w
  if siblingCopy p x pa then
    let x := x.count .fltSiblingReadCnt
    if p.dram.spoiled.contains w then (x.poison (pa / 262144), false)
    else
      let y := ({ x with dram.cells := Mem.setBytes x.dram.cells pa (siblingBytes p x pa 8) }).unspoil w
      if stuck then (y.poison (pa / 262144), true) else (y, true)
  else (x.poison (pa / 262144), false)

/-- `read_word` of R477 for a word whose stored parity is wrong or right; `fails` reads of it in a row fail for another
cause. Answers whether the data is good. -/
def readWord (p x : Die) (w fails : Nat) : Die × Bool :=
  let bad := x.dram.spoiled.contains w
  if !bad && fails == 0 then (x, true)
  else if !bad && fails ≤ 2 then (x.countN .fltDramRereadCnt fails, true)
  else persistentError p (x.countN .fltDramRereadCnt 2) w (decide (3 < fails))

/-- Reads the 16 words of a line; `fails` lists (word, failing reads). -/
def readLine (p x : Die) (line : Nat) (fails : List (Nat × Nat)) : Die × Bool :=
  (List.range 16).foldl (fun (r : Die × Bool) i =>
    let (y, ok) := readWord p r.1 (line / 8 + i) ((fails.lookup i).getD 0)
    (y, r.2 && ok)) (x, true)

/-- The parity line of a PA's group enters the controller's read cache of 64 lines, oldest out (R529). -/
def Die.parityLine (x : Die) (pa : Nat) : Die :=
  let k := ((channelOf pa).val, groupOf pa)
  if x.dram.parLines.contains k then x else
  let own := x.dram.parLines.filter (fun q => q.1 == k.1)
  let l := if own.length < 64 then x.dram.parLines else dropFirst (fun q => q.1 == k.1) x.dram.parLines
  ({ x with dram.parLines := l ++ [k] }).count .drcParMissCnt

/-! ### Committing a merging-buffer entry (R229) -/

/-- Words of a line that an entry touches, and whether it covers them whole. -/
def entryWords (e : MergeEnt) : List (Nat × Bool) :=
  (List.range 16).filterMap (fun w =>
    let n := ((List.range 8).filter (fun i => (e.bytes.lookup (8 * w + i)).isSome)).length
    if n = 0 then none else some (w, n == 8))

/-- Mirrors to the standby (R38): a write of the active die in SPARE mode while the standby is mirrored, or while the
initial copy runs (R27). -/
def mirrors (p x : Die) : Bool :=
  x.pair.bridgeUp && !x.pair.lost && (x.pair.copying || (x.pair.mode == 2 && decide (x.pair.role = .primary) &&
    (x.pair.mirrorSync || p.pair.mirrorSync)))

/-- One word of an entry reaches DRAM: a partial word is read, merged and written back (R529); one that cannot be read
is written with wrong parity, poisons its granule and sends a record, and no master freezes (R477). -/
def commitWord (p x : Die) (e : MergeEnt) (w : Nat) (whole : Bool) (fails : List (Nat × Nat)) : Die :=
  let pa := e.pa + 8 * w
  let spoil := e.spoil.getLsbD w
  let (x, good) := if whole then (x, true) else readWord p (x.count .drcRmwCnt) (pa / 8) ((fails.lookup w).getD 0)
  let x := (List.range 8).foldl (fun (y : Die) i => match e.bytes.lookup (8 * w + i) with
    | some b => { y with dram.cells := Mem.setByte y.dram.cells (pa + i) b }
    | none => y) x
  let x := if spoil || !good then x.spoilWord (pa / 8) else x.unspoil (pa / 8)
  let x := if good then x else
    x.note clsDramParity (.dram (channelOf pa)) (FaultInfo.mk 0 e.ctx 0 pa (pa / 262144))
  if mirrors p x then
    { x with pair.mirOut := x.pair.mirOut ++ [.write pa ((List.range 8).map (fun i => Mem.byte x.dram.cells (pa + i)))] ++
        (if spoil || !good then [.spoil (pa / 8)] else []) }
  else x

/-- The DRAM controller commits an entry's write, and the entry frees (R229). -/
def commitEntry (p x : Die) (e : MergeEnt) (fails : List (Nat × Nat)) : Die :=
  let x := (entryWords e).foldl (fun y wp => commitWord p y e wp.1 wp.2 fails) (x.parityLine e.pa)
  (x.onL2 (sliceOf e.pa) (fun t => { t with merge := dropFirst (fun m => decide (m = e)) t.merge })).count
    .l2cDrainCnt

/-- Commits the oldest entry of a slice. -/
def commitOldest (p x : Die) (sl : Fin 16) : Die :=
  match (x.l2 sl).merge with
  | [] => x
  | e :: _ => commitEntry p x e []

/-- Every entry of every slice reaches DRAM. -/
def commitAll (p x : Die) : Die :=
  x.cache.l2s.foldl (fun (y : Die) t => t.merge.foldl (fun (z : Die) _ => commitOldest p z t.slice) y) x

/-- Every entry of the line's slice up to the newest one that holds the line reaches DRAM (R229, read miss). -/
def drainLine (p x : Die) (line : Nat) : Die :=
  let sl := sliceOf line
  let es := (x.l2 sl).merge
  let n := es.length - ((es.reverse.takeWhile (fun e => e.pa != line)).length)
  (es.take n).foldl (fun y e => commitEntry p y e []) x

/-! ### Reads and writes of masters at L2 -/

/-- A miss register of a slice is in use; a prefetch takes none (R221). -/
def realMiss (m : L2Miss) : Bool := m.waiters.any (fun w => match w with
  | .sidePrefetch => false
  | .core _ => true
  | .prefetch _ => true)

/-- A master reads a line at its slice: a hit, a line of the side buffer that moves into the cache (R230), or a miss that
fetches the line from DRAM at once (R227): its miss register is held within the command alone (DESIGN CHOICE, log 151). Answers whether the data is good. -/
def l2ReadLine (p x : Die) (pa : Nat) : Die × Bool :=
  let ln := lineOf pa
  let sl := sliceOf pa
  if inWindow pa || x.l2Has ln then (x.count .l2cHitCnt, true)
  else if (x.l2 sl).side.any (fun l => l.pa == ln) then
    let y := x.onL2 sl (fun t => { t with side := t.side.filter (fun l => l.pa != ln) })
    (((y.l2Install ln).count .l2cPfUseCnt).count .l2cHitCnt, true)
  else
    let x := if (x.l2 sl).miss.any (fun m => realMiss m && m.pa == ln) then x.count .l2cMergeCnt else x
    let y := drainLine p (x.count .l2cMissCnt) ln
    let (z, ok) := readLine p (y.parityLine ln) ln []
    if ok then (z.l2Install ln, true) else (z, false)

/-- The lines of `n` bytes from an address. -/
def linesOf (pa n : Nat) : List Nat :=
  if n = 0 then [] else
  (List.range ((pa + n - 1) / 128 + 1 - pa / 128)).map (fun i => (pa / 128 + i) * 128)

/-- The first word of a line that cannot be read (R477), by its PA: DETAIL of DRAM_PARITY (R490). The line has failed. -/
def failedWord (p x : Die) (ln : Nat) (fails : List (Nat × Nat)) : Nat :=
  match (List.range 16).find? (fun i => !(readWord p x (ln / 8 + i) ((fails.lookup i).getD 0)).2) with
  | some i => ln + 8 * i
  | none => ln

/-- Every line of a range is read; the first word that fails is named. -/
def l2ReadRange (p x : Die) (pa n : Nat) : Die × Option Nat :=
  (linesOf pa n).foldl (fun (r : Die × Option Nat) ln =>
    match r.2 with
    | some _ => r
    | none => let (y, ok) := l2ReadLine p r.1 ln; (y, if ok then none else some (failedWord p y ln []))) (x, none)

/-- Bytes of one line merge into the open entry for the line, or take a new one (R218, R229). `spoil` names words of the
line whose parity is written wrong (R234). -/
def l2MergeMask (p x : Die) (ctx : Nat) (ln : Nat) (new : List (Nat × Byte)) (spoil : BitVec 16) : Die :=
  let sl := sliceOf ln
  let t := x.l2 sl
  if t.merge.any (fun e => e.pa == ln && !e.closed) then
    let add : MergeEnt → MergeEnt := fun e =>
      { e with bytes := new ++ e.bytes.filter (fun q => !(new.any (fun r => r.1 == q.1))), spoil := e.spoil ||| spoil }
    x.setL2 { t with merge := updWhere (fun e => e.pa == ln && !e.closed) add t.merge }
  else
    let x := if t.merge.length < 32 then x else commitOldest p x sl
    let e : MergeEnt := { pa := ln, bytes := new, closed := false, born := x.time, asked := false, ctx := ctx,
                          jobs := [], spoil := spoil }
    x.onL2 sl (fun t => { t with merge := t.merge ++ [e] })

def l2Merge (p x : Die) (ctx : Nat) (pa : Nat) (bytes : List Byte) (spoil : BitVec 16) : Die :=
  l2MergeMask p x ctx (lineOf pa) ((List.range bytes.length).map (fun i => (pa % 128 + i, bytes.getD i 0))) spoil

/-- A write hits a line that the slice holds, in its ways, its side buffer or the window (R227, R237). -/
def l2CountWrite (x : Die) (pa : Nat) : Die :=
  if inWindow pa || x.l2Has pa || (x.l2 (sliceOf pa)).side.any (fun l => l.pa == lineOf pa) then x.count .l2cHitCnt
  else x.count .l2cMissCnt

/-- A write of bytes within one line at its slice: to the window, or into the merging buffer; a full line allocates
(R227, R232), unless it stands in the side buffer (R230). -/
def l2WriteLine (p x : Die) (ctx pa : Nat) (bytes : List Byte) : Die :=
  let x := l2CountWrite x pa
  if inWindow pa then { x with cache.l2carve := Mem.setBytes x.cache.l2carve (pa - windowBase) bytes } else
  let y := l2Merge p x ctx pa bytes 0
  if bytes.length = 128 && !(y.l2 (sliceOf pa)).side.any (fun l => l.pa == lineOf pa) then y.l2Install pa else y

/-- A write of bytes at consecutive PAs, line by line. `fuel` bounds the lines. -/
def l2WriteFrom (p : Die) : Nat → Die → Nat → Nat → List Byte → Die
  | 0, x, _, _, _ => x
  | _, x, _, _, [] => x
  | k + 1, x, ctx, pa, bs =>
    let n := 128 - pa % 128
    l2WriteFrom p k (l2WriteLine p x ctx pa (bs.take n)) ctx (pa + n) (bs.drop n)

def l2Write (p x : Die) (ctx pa : Nat) (bytes : List Byte) : Die :=
  l2WriteFrom p (bytes.length / 128 + 2) x ctx pa bytes

end Sys2Proof.Machine
end

