-- ==== Sys2Proof/Machine/Translate.lean ====
section
/-! DEFINITION. Sys2Proof/Machine/Translate.lean: the two guards on every byte: the walk of two stages of tables with its
caches, and the ownership check (10_translation_and_ownership.md, R352 to R370). -/
namespace Sys2Proof.Machine

/-- What an access needs (R359), with the FLAGS of its fault record (R379). -/
structure Access where
  r : Bool
  w : Bool
  x : Bool
  flags : Byte
  deriving DecidableEq, Repr

def accRead : Access := { r := true, w := false, x := false, flags := 0 }
def accWrite : Access := { r := false, w := true, x := false, flags := 1 }
def accFetch : Access := { r := false, w := false, x := true, flags := 2 }
def accAtomic : Access := { r := true, w := true, x := false, flags := 5 }

/-! ### Ownership (R367 to R370) -/

/-- A context is a member of a share group (R375); context 0 never is. -/
def Die.shareMember (x : Die) (grp c : Nat) : Bool :=
  decide (0 < c) && bitOf (spGet (fun _ => 0) x.xlt.share (grp * 32 + c / 32)).toNat (c % 32)

/-- R368. -/
def Die.tagMatches (x : Die) (tag c : Nat) (v : BitVec 8) : Bool :=
  if tag < 1024 then tag == c
  else if tag < 3072 then x.shareMember (tag - 1024) c
  else if tag < 3328 then decide (v.toNat = tag - 3072)
  else false

/-- Who asks a checker: the walker, the migration path, or a master. -/
inductive Asker
  | walker
  | migration
  | master (m : Master)
  deriving DecidableEq, Repr

/-- R369: the masters that a kind admits. -/
def kindAllows (kind : Nat) (who : Asker) (writes : Bool) : Bool :=
  match who with
  | .walker => kind == 2 && !writes
  | .migration => kind != 3 || !writes
  | .master (.linkTarget _) => kind == 1 || (kind == 3 && !writes)
  | .master (.usb _) => kind != 3 || !writes
  | .master .ufs => kind != 2
  | .master _ => kind == 0 || kind == 1 || (kind == 3 && !writes)

/-- The order of R370: the class of the first check that a request fails. -/
def Die.ownCheck (x : Die) (pa c : Nat) (v : BitVec 8) (a : Access) (who : Asker) : Option Byte :=
  let e := x.ownEntry (pa / 262144)
  if ownState e = 3 then some clsOwnPoisoned
  else if ownState e = 2 ∧ who ≠ .migration then some clsOwnMigrating
  else if !x.tagMatches (ownOwner e) c v then some clsOwnTag
  else if !kindAllows (ownKind e) who a.w then some clsOwnKind
  else if ((a.r || a.x) && !ownRead e) || (a.w && !ownWrite e) then some clsOwnRights
  else none

/-! ### Table entries (R356 to R358) -/

def entV (e : DWord) : Bool := e.getLsbD 0
def entType (e : DWord) : Nat := bitsOf e.toNat 2 1
def entR (e : DWord) : Bool := e.getLsbD 3
def entW (e : DWord) : Bool := e.getLsbD 4
def entX (e : DWord) : Bool := e.getLsbD 5
def entAddr (e : DWord) : Nat := bitsOf e.toNat 39 8 * 256
def entCont (e : DWord) : Nat := bitsOf e.toNat 42 40

/-- The index of an address at a level; `k64`: the table is a 64 KiB-page table. -/
def walkIndex (a level : Nat) (k64 : Bool) : Nat :=
  match level with
  | 0 => bitsOf a 47 39
  | 1 => bitsOf a 38 30
  | 2 => bitsOf a 29 21
  | _ => if k64 then bitsOf a 20 16 else bitsOf a 20 12

/-- Bytes of a page at a leaf level. -/
def leafSize (level : Nat) (k64 : Bool) : Nat :=
  if level = 2 then 2097152 else if k64 then 65536 else 4096

/-- An entry with V = 1 is legal at its level for the address walked (R356, R357). -/
def entLegal (e : DWord) (a level : Nat) (k64 : Bool) : Bool :=
  let noRights := !entR e && !entW e && !entX e && entCont e == 0
  bitsOf e.toNat 63 43 == 0 && bitsOf e.toNat 7 6 == 0 &&
  (match entType e with
   | 1 => decide (level < 3) && noRights && aligned (entAddr e) 4096
   | 2 => level == 2 && noRights && aligned (entAddr e) 256
   | 3 =>
     let sz := leafSize level k64
     decide (2 ≤ level) && decide (entCont e ≤ 4) && aligned (entAddr e) sz &&
     (a / sz % 2 ^ entCont e == entAddr e / sz % 2 ^ entCont e)
   | _ => false)

def entMig (e : DWord) : Nat := bitsOf e.toNat 2 1

/-- A V = 0 entry at a stage-1 leaf position with MIG ≠ 0 is well formed (R358). -/
def migLegal (e : DWord) (level : Nat) (k64 : Bool) : Bool :=
  bitsOf e.toNat 63 58 == 0 && bitsOf e.toNat 42 40 == 0 && bitsOf e.toNat 7 6 == 0 &&
  (entMig e == 3 || bitsOf e.toNat 57 43 == 0) && aligned (entAddr e) (leafSize level k64)

/-! ### The walk (R360) -/

/-- What a walk finds. `ta` and `level` name the last entry read, for DETAIL. -/
inductive WalkRes
  | ok (pa : Nat) (r w x : Bool) (span : Nat) (ta level : Nat)
  | bad (cls : Byte) (stage2 : Bool) (detail : Nat)
  | mig (ta : Nat) (e : DWord) (level : Nat) (k64 : Bool)
  deriving DecidableEq, Repr

/-- Entries read by a walk, newest first, with what the walk cache takes of them. -/
structure WalkLog where
  reads : List Nat
  ents : List WalkEnt
  deriving DecidableEq, Repr

/-- DETAIL of classes 0x01, 0x02, 0x04 and 0x05 (R380). -/
def walkDetail (ta level : Nat) : Nat := ta % 2 ^ 40 + level * 2 ^ 40

/-- An entry at a PA, from the walk cache or by a table read. -/
def Die.tableRead (x : Die) (stage c : Nat) (v : BitVec 8) (ta : Nat) (log : WalkLog) : Option DWord × WalkLog :=
  match (x.xlt.walk ++ log.ents).find? (fun t => t.stage == stage && t.ta == ta &&
      (if stage = 1 then t.ctx == c else t.vmid == v)) with
  | some t => (some t.entry, log)
  | none =>
    let (rc, rv) := if stage = 1 then (c, v) else (0, (0 : BitVec 8))
    if decide (0x2000000000 ≤ ta) || (x.ownCheck ta rc rv accRead .walker).isSome then (none, log) else
    let e : DWord := BitVec.ofNat 64 (ofLe (x.l2Bytes ta 8))
    let leaf := entType e == 3 || !entV e
    let keep := entV e && (decide (stage = 2) || !leaf)
    (some e, { reads := ta :: log.reads,
               ents := if keep then { stage := stage, ctx := c, vmid := v, ta := ta, entry := e } :: log.ents
                       else log.ents })

/-- A stage-2 walk from a level down (R360). -/
def Die.walk2 (x : Die) (c : Nat) (v : BitVec 8) (a : Nat) : Nat → Nat → Nat → Bool → WalkLog → WalkRes × WalkLog
  | 0, _, _, _, log => (.bad clsBadEntry true 0, log)
  | fuel + 1, level, t, k64, log =>
    let ta := t + 8 * walkIndex a level k64
    match x.tableRead 2 c v ta log with
    | (none, log) => (.bad clsBadTable true (walkDetail ta level), log)
    | (some e, log) =>
      if !entV e then (.bad clsUnmapped true (walkDetail ta level), log)
      else if !entLegal e a level k64 then (.bad clsBadEntry true (walkDetail ta level), log)
      else if entType e = 3 then
        let sz := leafSize level k64
        (.ok (entAddr e + a % sz) (entR e) (entW e) (entX e) (sz * 2 ^ entCont e) ta level, log)
      else x.walk2 c v a fuel (level + 1) (entAddr e) (entType e == 2) log

/-- The root of a VM's stage-2 tables (R354). -/
def Die.s2root (x : Die) (v : BitVec 8) : Nat := (spGet (fun _ => (0 : DWord)) x.xlt.vms v.toNat).toNat

/-- Stage 2 is identity: the VM's root is 0, or the context is firmware's (R353, R354). -/
def Die.s2off (x : Die) (c : Nat) (v : BitVec 8) : Bool := decide (c = 0) || decide (x.s2root v = 0)

/-- Stage 2 of an IPA, with no result at or above 0x20_0000_0000 (R354, R355). -/
def Die.stage2 (x : Die) (c : Nat) (v : BitVec 8) (ipa : Nat) (log : WalkLog) : WalkRes × WalkLog :=
  let res := if x.s2off c v then (WalkRes.ok ipa true true true (2 ^ 40) 0 0, log)
    else x.walk2 c v ipa 4 0 (x.s2root v) false log
  match res with
  | (.ok pa r w xx sp ta l, log) =>
    if 0x2000000000 ≤ pa then (.bad clsRange true pa, log) else (.ok pa r w xx sp ta l, log)
  | other => other

/-- A stage-1 walk: each table sits at an IPA, which stage 2 translates (R360). -/
def Die.walk1 (x : Die) (c : Nat) (v : BitVec 8) (va : Nat) : Nat → Nat → Nat → Bool → WalkLog → WalkRes × WalkLog
  | 0, _, _, _, log => (.bad clsBadEntry false 0, log)
  | fuel + 1, level, t, k64, log =>
    match x.stage2 c v (t + 8 * walkIndex va level k64) log with
    | (.bad cls s d, log) => (.bad cls s d, log)
    | (.mig ta e l k, log) => (.mig ta e l k, log)
    | (.ok ta _ _ _ _ _ _, log) =>
      match x.tableRead 1 c v ta log with
      | (none, log) => (.bad clsBadTable false (walkDetail ta level), log)
      | (some e, log) =>
        if !entV e then
          if level < 2 ∨ entMig e = 0 then (.bad clsUnmapped false (walkDetail ta level), log)
          else if !migLegal e level k64 then (.bad clsBadEntry false (walkDetail ta level), log)
          else (.mig ta e level k64, log)
        else if !entLegal e va level k64 then (.bad clsBadEntry false (walkDetail ta level), log)
        else if entType e = 3 then
          let sz := leafSize level k64
          (.ok (entAddr e + va % sz) (entR e) (entW e) (entX e) (sz * 2 ^ entCont e) ta level, log)
        else x.walk1 c v va fuel (level + 1) (entAddr e) (entType e == 2) log

def Die.s1root (x : Die) (c : Nat) : Nat :=
  match x.ctx? c with
  | some t => t.s1root.toNat
  | none => 0

/-- Both stages of a VA, without the TLBs: the PA with the rights of stage 1 and of stage 2 apart. -/
def Die.walkBoth (x : Die) (c : Nat) (va : Nat) : (WalkRes × WalkRes) × WalkLog :=
  let v := x.vmidOf c
  let log : WalkLog := { reads := [], ents := [] }
  let (r1, log) :=
    if x.s1root c = 0 then
      (if 2 ^ 40 ≤ va then (WalkRes.bad clsRange false va, log) else (WalkRes.ok va true true true (2 ^ 40) 0 0, log))
    else x.walk1 c v va 4 0 (x.s1root c) false log
  match r1 with
  | .ok ipa _ _ _ _ _ _ => let (r2, log) := x.stage2 c v ipa log; ((r1, r2), log)
  | other => ((other, other), log)

/-- The outcome of a translation. -/
inductive Xlated
  | ok (pa : Nat)
  | bad (cls : Byte) (stage2 : Bool) (detail : Nat)
  | mig (ta : Nat) (e : DWord) (level : Nat) (k64 : Bool)
  deriving DecidableEq, Repr

def tlbHit (t : TlbEnt) (c : Nat) (v : BitVec 8) (va : Nat) : Bool :=
  t.ctx == c && t.vmid == v && decide (t.va ≤ va) && decide (va < t.va + t.len)

/-- A cache with room for `n` entries takes one; the oldest leaves when it is full. -/
def cacheTake {α : Type} (n : Nat) (l : List α) (e : α) : List α :=
  (if l.length < n then l else l.drop 1) ++ [e]

/-- A missing right of either stage (R359): XL_PERM with the stage that lacked it, stage 1 first. -/
def permFault (a : Access) (r1 w1 x1 r2 w2 x2 : Bool) (ta level : Nat) : Option (Bool × Nat) :=
  let lacks := fun (r w x : Bool) => (a.r && !r) || (a.w && !w) || (a.x && !x)
  if lacks r1 w1 x1 then some (false, walkDetail ta level)
  else if lacks r2 w2 x2 then some (true, walkDetail ta level)
  else none

/-- The core of a group. -/
def coreOf (g : GrpLoc) : CoreLoc := { cl := g.cl, core := g.core }

/-- The TLB before the die's that serves a master, with its entries (R361): a core's, named by its stream engine, or a micro-TLB.
None: the die's TLB serves it. -/
def nearTlbOf (m : Master) : Option (Master × Nat) :=
  match m with
  | .group g => some (.stream (coreOf g) 0, 512)
  | .stream c _ => some (.stream c 0, 512)
  | .texture g => some (.stream (coreOf g) 0, 512)
  | .layer _ _ => some (m, 32)
  | .writeback _ => some (m, 32)
  | .copy _ => some (m, 32)
  | .wringer _ => some (m, 32)
  | .usb _ => some (m, 32)
  | .linkTarget _ => some (m, 32)
  | .ufs => some (m, 32)
  | .raster _ _ => none
  | .frontEnd _ => none
  | .cmdProc _ _ => none
  | .csi _ => none
  | .tdm _ => none
  | .requester => none
  | .slice _ => none
  | .dram _ => none
  | .pairLogic => none
  | .clockCtl => none
  | .thermal _ => none
  | .migration => none

def Die.nearEnts (x : Die) (m : Master) : List TlbEnt :=
  match nearTlbOf m with
  | some (k, _) => ((x.xlt.near.find? (fun t => decide (t.who = k))).map (fun t => t.ents)).getD []
  | none => []

/-- A translation that the master's near TLB does not hold enters it. -/
def Die.keepNear (x : Die) (m : Master) (e : TlbEnt) : Die :=
  match nearTlbOf m with
  | none => x
  | some (k, n) =>
    if (x.nearEnts m).contains e then x else
    { x with xlt.near := x.xlt.near.filter (fun t => decide (t.who ≠ k)) ++ [{ who := k, ents := cacheTake n (x.nearEnts m) e }] }

/-- Translates a VA for an access of a master (R360), through its near TLB, the die's TLB of 16,384 translations and the walk
cache of 1,024 entries (R361, R362). Every entry read is an L2 line read; a table word that fails parity answers DRAM_PARITY.
A walk that faults leaves nothing in a cache. -/
def translate (p x : Die) (m : Master) (c va : Nat) (a : Access) : Die × Xlated :=
  let v := x.vmidOf c
  match (x.nearEnts m ++ x.xlt.tlb).find? (fun t => tlbHit t c v va) with
  | some t =>
    let x := x.keepNear m t
    match permFault a t.r t.w t.x t.s2r t.s2w t.s2x t.ta t.level with
    | some (s, d) => (x, .bad clsPerm s d)
    | none => (x, .ok (t.pa + (va - t.va)))
  | none =>
    let (rs, log) := x.walkBoth c va
    let (x, bad) := log.reads.reverse.foldl (fun (r : Die × Option Nat) ta => match r.2 with
      | some _ => r
      | none => let (y, ok) := l2ReadLine p r.1 ta; (y, if ok then none else some (failedWord p y (lineOf ta) []))) (x, none)
    let x := if log.reads.isEmpty then x else x.count .xltWalkCnt
    match bad with
    | some w => (x, .bad clsDramParity false w)
    | none =>
      let kept : Die := { x with xlt.walk := log.ents.reverse.foldl (cacheTake 1024) x.xlt.walk }
      match rs with
      | (.ok _ r1 w1 x1 sp1 ta1 l1, .ok pa r2 w2 x2 sp2 ta2 l2) =>
        let (ta, l) := if x.s2off c v then (ta1, l1) else (ta2, l2)
        match permFault a r1 w1 x1 r2 w2 x2 ta l with
        | some (s, d) => (kept, .bad clsPerm s d)
        | none =>
          if x.s1root c = 0 ∧ x.s2off c v then (x, .ok pa) else
          let sp := min sp1 sp2
          let o := va % sp
          let e : TlbEnt := { ctx := c, vmid := v, va := va - o, len := sp, pa := pa - o, r := r1, w := w1, x := x1,
                              ta := ta, level := l, s2r := r2, s2w := w2, s2x := x2 }
          ({ kept with xlt.tlb := cacheTake 16384 x.xlt.tlb e }.keepNear m e, .ok pa)
      | (.bad cls s d, _) => (x, .bad cls s d)
      | (_, .bad cls s d) => (x, .bad cls s d)
      | (.mig ta e l k, _) => (kept, .mig ta e l k)
      | (_, .mig ta e l k) => (kept, .mig ta e l k)

/-! ### The pre-walk (R365, R366) -/

/-- Bytes that a unit touches, with the access made to them. -/
structure URange where
  va : Nat
  len : Nat
  acc : Access
  deriving DecidableEq, Repr

/-- Why a unit does not pass. -/
inductive Stop
  | fault (cls : Byte) (va : Nat) (flags : Byte) (detail thing : Nat)
  | mig (va ta : Nat) (e : DWord) (level : Nat) (k64 : Bool) (flags : Byte)
  deriving DecidableEq, Repr

/-- Pages of a unit: (page number, page of the PA). -/
abbrev PageMap := List (Nat × Nat)

/-- The PA of a VA in a unit that has passed. -/
def paOf (pm : PageMap) (va : Nat) : Nat := ((pm.lookup (va / 4096)).getD 0) * 4096 + va % 4096

/-- The first byte of each 4 KiB page that a range touches. -/
def rangePages (u : URange) : List (Nat × Access) :=
  if u.len = 0 then [] else
  (List.range ((u.va + u.len - 1) / 4096 + 1 - u.va / 4096)).map (fun i =>
    (if i = 0 then u.va else (u.va / 4096 + i) * 4096, u.acc))

/-- A page enters a list kept by rising page number; a page with the same access and a lower first byte stays once. -/
def insertPage (q : Nat × Access) : List (Nat × Access) → List (Nat × Access)
  | [] => [q]
  | h :: t =>
    if q.1 / 4096 = h.1 / 4096 ∧ q.2 = h.2 then (min q.1 h.1, q.2) :: t
    else if q.1 < h.1 then q :: h :: t
    else h :: insertPage q t

def unitPages (us : List URange) : List (Nat × Access) :=
  (us.map rangePages).flatten.foldl (fun l q => insertPage q l) []

/-- DETAIL of the ownership classes (R380). -/
def ownDetail (x : Die) (pa : Nat) : Nat := (x.ownEntry (pa / 262144)).toNat + pa / 262144 * 2 ^ 24

/-- The event counter of a class of this chapter (R387). -/
def Die.countFault (x : Die) (cls : Byte) : Die :=
  if 1 ≤ cls.toNat ∧ cls.toNat ≤ 5 then x.count .xltFaultCnt
  else if cls = clsOwnTag then x.count .ownTagCnt
  else if cls = clsOwnRights then x.count .ownRightsCnt
  else if cls = clsOwnKind then x.count .ownKindCnt
  else if cls = clsOwnPoisoned then x.count .ownPoisonCnt
  else if cls = clsOwnMigrating then x.count .ownMigratingCnt
  else x

/-- One page: translated, then its granule checked. A write of a USB data channel to a page with a HOST entry goes to its
frame (R384); a read of one, and any remote operation that meets a MIG entry, is unmapped (R384, R378). -/
def walkPage (p x : Die) (m : Master) (c va : Nat) (a : Access) : Die × Except Stop Nat :=
  let v := x.vmidOf c
  let check : Die → Nat → Asker → Die × Except Stop Nat := fun x pa who =>
    match x.ownCheck pa c v a who with
    | some cls => (x.countFault cls, .error (.fault cls va a.flags (ownDetail x pa) (pa / 262144)))
    | none => (x, .ok pa)
  match translate p x m c va a with
  | (x, .ok pa) => check x pa (.master m)
  | (x, .bad cls s d) =>
    (x.countFault cls, .error (.fault cls va (a.flags ||| (if s then 8 else 0)) d (d / 262144)))
  | (x, .mig ta e l k) =>
    let unmapped := (x.count .xltFaultCnt, Except.error (Stop.fault clsUnmapped va a.flags (walkDetail ta l) 0))
    match m with
    | .linkTarget _ => unmapped
    | .usb _ =>
      if entMig e ≠ 2 then (x, .error (.mig va ta e l k a.flags))
      else if a.r then unmapped
      else match (x.stage2 c v (entAddr e + va % leafSize l k) { reads := [], ents := [] }).1 with
        | .ok pa _ w2 _ _ ta2 l2 =>
          if !(entW e && w2) then
            (x.count .xltFaultCnt,
             .error (.fault clsPerm va (a.flags ||| (if entW e then 8 else 0)) (walkDetail ta2 l2) 0))
          else check x pa .migration
        | .bad cls s d =>
          (x.countFault cls, .error (.fault cls va (a.flags ||| (if s then 8 else 0)) d (d / 262144)))
        | .mig _ _ _ _ => unmapped
    | _ => (x, .error (.mig va ta e l k a.flags))

/-- Every page of a unit in rising VA; the first that fails stops it. -/
def walkPages (p : Die) (m : Master) (c : Nat) : List (Nat × Access) → Die → Die × Except Stop PageMap
  | [], x => (x, .ok [])
  | q :: qs, x =>
    match walkPage p x m c q.1 q.2 with
    | (x, .error e) => (x, .error e)
    | (x, .ok pa) =>
      match walkPages p m c qs x with
      | (x, .error e) => (x, .error e)
      | (x, .ok pm) => (x, .ok ((q.1 / 4096, pa / 4096) :: pm))

def tryUnit (p x : Die) (m : Master) (c : Nat) (us : List URange) : Die × Except Stop PageMap :=
  walkPages p m c (unitPages us) x

end Sys2Proof.Machine
end

