-- ==== Sys2Proof/Machine/Units.lean ====
section
/-! DEFINITION. Sys2Proof/Machine/Units.lean: access units of a master: pre-walked, then moved whole, or stopped with the
master frozen (R365, R366, R376), the start of a migration (R383) and the fence signal (R87). -/
namespace Sys2Proof.Machine

/-! ### Starting a migration (R383) -/

/-- The 256 KiB pieces of a frame: their PAs, or why one cannot hold the page (step 2, and the checks of its filling in
step 4). -/
def framePas (x : Die) (c : Nat) (ipa size : Nat) : Option (List Nat) :=
  let v := x.vmidOf c
  let step := min size 262144
  ((List.range (size / step)).foldl (fun (r : Option (List Nat)) i => match r with
    | none => none
    | some l =>
      match (x.stage2 c v (ipa + i * step) { reads := [], ents := [] }).1 with
      | .ok pa _ w _ _ _ _ =>
        if w && x.backed pa && (x.ownCheck pa c v accWrite .migration).isNone then some (l ++ [pa]) else none
      | .bad _ _ _ => none
      | .mig _ _ _ _ => none) (some []))

/-- DETAIL of MIG_HOST and MIG_FAILED (R380). -/
def migDetail (ipa size cause : Nat) : Nat :=
  ipa % 2 ^ 40 + (if size = 4096 then 0 else if size = 65536 then 1 else 2) * 2 ^ 40 + cause * 2 ^ 44

def Die.setOwnState (x : Die) (g st : Nat) : Die := x.setOwn g (ownWithState (x.ownEntry g) st)

/-- A failed migration queues one MIG_FAILED record for its joined faults (R385). -/
def migFail (x : Die) (m : Master) (c va ipa size cause : Nat) (flags : Byte) : Die :=
  ((x.flag .xltFlags 1).count .xltMigFailCnt).report clsMigFailed m
    { flags := flags, ctx := c, va := va, detail := migDetail ipa size cause, thing := 0 } true

/-- Steps 1 to 4 of R383 for a page whose entry at `ta` is `e`: the master is frozen; it joins the migration of its page,
or starts one. -/
def startMigration (x : Die) (m : Master) (c va ta : Nat) (e : DWord) (level : Nat) (k64 : Bool) (flags : Byte) : Die :=
  let size := leafSize level k64
  let page := va / size * size
  let ipa := entAddr e
  let x := x.freeze m clsMigHost
  match x.xlt.migs.find? (fun g => g.ctx == c && g.page == page) with
  | some _ =>
    let join : Migration → Migration := fun g => { g with joined := g.joined ++ [m] }
    { x with xlt.migs := updWhere (fun g => g.ctx == c && g.page == page) join x.xlt.migs }
  | none =>
    match framePas x c ipa size with
    | none => migFail x m c va ipa size 1 flags
    | some pas =>
      let x := if size = 2097152 then
          pas.foldl (fun y pa => (y.setOwnState (pa / 262144) 2).dropL1Granule (pa / 262144)) x else x
      let kind := entMig e
      let g : Migration := { ctx := c, page := page, size := size, entryPa := ta, entry := e, frameIpa := ipa,
                             kind := kind, joined := [m] }
      let x := { x with xlt.migs := x.xlt.migs ++ [g] }
      if kind = 1 then { x with dram.fill := x.dram.fill ++ [.frame c page ipa size] }
      else if kind = 2 then x.report clsMigHost m
        { flags := flags, ctx := c, va := va, detail := migDetail ipa size 0, thing := 0 } true
      else x.countN .torReqCnt (ceilDiv size 448)

/-- A unit that does not pass stops its master (R366): a hold on a migrating granule is counted and waits without a
record (R385); a V = 0 leaf starts or joins a migration; every other fault freezes it with one report. -/
def stopUnit (x : Die) (m : Master) (c : Nat) (s : Stop) : Die :=
  match s with
  | .mig va ta e l k fl => startMigration x m c va ta e l k fl
  | .fault cls va fl d th =>
    if cls = clsOwnMigrating then x.freeze m cls
    else x.faultMaster cls m { flags := fl, ctx := c, va := va, detail := d, thing := th }

/-- The unit is translated and checked before any byte moves; the master stops if it fails (R365). -/
def prewalk (p x : Die) (m : Master) (c : Nat) (us : List URange) : Die × Option PageMap :=
  match tryUnit p x m c us with
  | (x, .ok pm) => (x, some pm)
  | (x, .error e) => (stopUnit x m c e, none)

/-! ### Moving bytes -/

/-- Pieces of a range that lie in one 4 KiB page: (VA, bytes). `fuel` bounds the pages. -/
def pieces : Nat → Nat → Nat → List (Nat × Nat)
  | 0, _, _ => []
  | k + 1, va, n =>
    if n = 0 then [] else
    let h := min n (4096 - va % 4096)
    (va, h) :: pieces k (va + h) (n - h)

def piecesOf (va n : Nat) : List (Nat × Nat) := pieces (n / 4096 + 2) va n

/-- The first byte in the page of a VA of a unit that accesses these VAs: ADDR of a record (R379). -/
def firstInPage (vas : List Nat) (va : Nat) : Nat := (vas.filter (fun v => v / 4096 == va / 4096)).foldl min va

/-- A word that cannot be read freezes its requester with DRAM_PARITY (R477, R483). -/
def parityStop (x : Die) (m : Master) (c va pa : Nat) (flags : Byte) : Die :=
  x.faultMaster clsDramParity m { flags := flags, ctx := c, va := va, detail := pa, thing := pa / 262144 }

/-- Reads the lines of a range of a unit that has passed. -/
def fetchRange (p x : Die) (m : Master) (c : Nat) (pm : PageMap) (u : URange) : Die × Bool :=
  (piecesOf u.va u.len).foldl (fun (r : Die × Bool) q =>
    if r.2 then
      match l2ReadRange p r.1 (paOf pm q.1) q.2 with
      | (y, none) => (y, true)
      | (y, some ln) => (parityStop y m c q.1 ln u.acc.flags, false)
    else r) (x, true)

def viewBytes (x : Die) (pm : PageMap) (va n : Nat) : List Byte :=
  (List.range n).map (fun i => x.l2Byte (paOf pm (va + i)))

/-- Bytes written at a VA of a unit that has passed. -/
def storeBytes (p x : Die) (c : Nat) (pm : PageMap) (va : Nat) (bs : List Byte) : Die :=
  (piecesOf va bs.length).foldl (fun y q => l2Write p y c (paOf pm q.1) (bs.drop (q.1 - va) |>.take q.2)) x

/-- A read unit of a master: the bytes, or none when the master has stopped. -/
def readUnit (p x : Die) (m : Master) (c va n : Nat) (a : Access) : Die × Option (List Byte) :=
  let u : URange := { va := va, len := n, acc := a }
  match prewalk p x m c [u] with
  | (x, none) => (x, none)
  | (x, some pm) =>
    match fetchRange p x m c pm u with
    | (x, false) => (x, none)
    | (x, true) => (x, some (viewBytes x pm va n))

/-- A write unit of a master: whether it was performed. -/
def writeUnit (p x : Die) (m : Master) (c va : Nat) (bs : List Byte) (a : Access) : Die × Bool :=
  match prewalk p x m c [{ va := va, len := bs.length, acc := a }] with
  | (x, none) => (x, false)
  | (x, some pm) => (storeBytes p x c pm va bs, true)

/-- A unit of several writes, each at its VA. -/
def writesUnit (p x : Die) (m : Master) (c : Nat) (ws : List (Nat × List Byte)) : Die × Bool :=
  match prewalk p x m c (ws.map (fun q => { va := q.1, len := q.2.length, acc := accWrite })) with
  | (x, none) => (x, false)
  | (x, some pm) => (ws.foldl (fun y q => storeBytes p y c pm q.1 q.2) x, true)

/-- Reads at several VAs as one unit. -/
def readsUnit (p x : Die) (m : Master) (c : Nat) (us : List (Nat × Nat)) : Die × Option (List (List Byte)) :=
  let rs : List URange := us.map (fun q => { va := q.1, len := q.2, acc := accRead })
  match prewalk p x m c rs with
  | (x, none) => (x, none)
  | (x, some pm) =>
    let (x, ok) := rs.foldl (fun (r : Die × Bool) u => if r.2 then fetchRange p r.1 m c pm u else r) (x, true)
    if ok then (x, some (us.map (fun q => viewBytes x pm q.1 q.2))) else (x, none)

/-! ### Fences (R87 to R90) -/

/-- A fence signal: an atomic unsigned maximum at the L2 slice. Answers the value from before it. While the die is mirrored,
what was visible before it is committed first, so that the standby holds it before the fence value (R39). -/
def signalUnit (p x : Die) (m : Master) (c va : Nat) (v : DWord) : Die × Option DWord :=
  match prewalk p x m c [{ va := va, len := 8, acc := accAtomic }] with
  | (x, none) => (x, none)
  | (x, some pm) =>
    match fetchRange p x m c pm { va := va, len := 8, acc := accAtomic } with
    | (x, false) => (x, none)
    | (x, true) =>
      let old : DWord := BitVec.ofNat 64 (ofLe (viewBytes x pm va 8))
      let x := if mirrors p x then commitAll p x else x
      (if old.toNat < v.toNat then storeBytes p x c pm va (leBytes 8 v.toNat) else x, some old)

/-- A fence read. -/
def fenceUnit (p x : Die) (m : Master) (c va : Nat) : Die × Option DWord :=
  match readUnit p x m c va 8 accRead with
  | (x, some bs) => (x, some (BitVec.ofNat 64 (ofLe bs)))
  | (x, none) => (x, none)

end Sys2Proof.Machine
end

