-- ==== Sys2Proof/Machine/CmdCore.lean ====
section
/-! DEFINITION. Sys2Proof/Machine/CmdCore.lean: command packets, replies, validation and sequence numbers
(R52 to R74, R80 to R83, R95, R602). -/
namespace Sys2Proof.Machine

/-! ### Status codes (R95) -/

def stOk : Byte := 0x00
def stBadLength : Byte := 0x10
def stBadCrc : Byte := 0x11
def stBadField : Byte := 0x12
def stBadOpcode : Byte := 0x13
def stBadParam : Byte := 0x14
def stNoContext : Byte := 0x15
def stContextFaulted : Byte := 0x16
def stSeqGap : Byte := 0x17
def stSeqStale : Byte := 0x18
def stWrongState : Byte := 0x19
def stBusy : Byte := 0x1A
def stAlreadyOpen : Byte := 0x1B
def stPairRefused : Byte := 0x1C
def stWaitTimeout : Byte := 0x20
def stDataTimeout : Byte := 0x21
def stDataShort : Byte := 0x22
def stDataOverrun : Byte := 0x23
def stLinkLost : Byte := 0x24
def stXlateFault : Byte := 0x25
def stOwnFault : Byte := 0x26
def stKilled : Byte := 0x27
def stNoSpace : Byte := 0x28
def stSigFail : Byte := 0x29
def stDenied : Byte := 0x2A

/-! ### Opcodes (R80, R82) -/

inductive Op
  | ping | getStatus | cfgRead | cfgWrite | press | faultRead | openContext | closeContext | suspendContext
  | resumeContext | grantGranules | reclaimGranules | vmConfig | holdEnter | holdExit | failover | resetDevice
  | attest | loadImage | lcTransition | romLoad | writeMem | readMem | submit | cancelJob | fenceSignal | fenceRead
  | fenceWait | ctxStatus
  deriving DecidableEq, Repr

/-- The opcode tables of R80 and R82. -/
def opOf (code : Nat) : Option Op :=
  match code with
  | 0x01 => some .ping
  | 0x02 => some .getStatus
  | 0x03 => some .cfgRead
  | 0x04 => some .cfgWrite
  | 0x05 => some .press
  | 0x06 => some .faultRead
  | 0x08 => some .openContext
  | 0x09 => some .closeContext
  | 0x0A => some .suspendContext
  | 0x0B => some .resumeContext
  | 0x0C => some .grantGranules
  | 0x0D => some .reclaimGranules
  | 0x0E => some .vmConfig
  | 0x10 => some .holdEnter
  | 0x11 => some .holdExit
  | 0x12 => some .failover
  | 0x13 => some .resetDevice
  | 0x14 => some .attest
  | 0x15 => some .loadImage
  | 0x16 => some .lcTransition
  | 0x1E => some .romLoad
  | 0x20 => some .writeMem
  | 0x21 => some .readMem
  | 0x24 => some .submit
  | 0x25 => some .cancelJob
  | 0x28 => some .fenceSignal
  | 0x29 => some .fenceRead
  | 0x2A => some .fenceWait
  | 0x2C => some .ctxStatus
  | _ => none

/-- The context stream's opcodes (R82); the others belong to the device stream (R80). -/
def Op.ofContext : Op → Bool
  | .writeMem | .readMem | .submit | .cancelJob | .fenceSignal | .fenceRead | .fenceWait | .ctxStatus => true
  | _ => false

/-- The opcodes that R70 accepts with SEQ 0. -/
def Op.unsequenced : Op → Bool
  | .ping | .getStatus | .cfgRead | .ctxStatus | .fenceRead => true
  | _ => false

/-- Marked F in R82: allowed in context state FAULTED. -/
def Op.inFaulted : Op → Bool
  | .readMem | .fenceRead | .ctxStatus => true
  | op => !op.ofContext

/-- Parameter bytes of an opcode; CFG_WRITE's depend on COUNT (R59). -/
def Op.paramSize (op : Op) (count : Nat) : Nat :=
  match op with
  | .ping | .getStatus | .press | .holdEnter | .holdExit | .failover | .ctxStatus => 0
  | .cfgRead | .reclaimGranules | .romLoad | .submit | .fenceRead => 8
  | .cfgWrite => 8 + 4 * count
  | .faultRead | .closeContext | .suspendContext | .resumeContext | .resetDevice | .lcTransition | .cancelJob => 4
  | .openContext | .writeMem | .readMem | .fenceSignal => 16
  | .grantGranules | .vmConfig => 12
  | .attest => 68
  | .loadImage => 36
  | .fenceWait => 24

/-! ### Packet fields (R59) -/

def pktLength (k : List Byte) : Nat := fieldNat k 0 2
def pktOp (k : List Byte) : Nat := fieldNat k 2 1
def pktContext (k : List Byte) : Nat := fieldNat k 4 2
def pktSeq (k : List Byte) : Nat := fieldNat k 8 4

/-- A parameter: `n` bytes from offset `o` of PARAMS. -/
def par (k : List Byte) (o n : Nat) : Nat := fieldNat k (12 + o) n

/-- The configuration windows (R96): base and bytes. -/
def windows : List (Nat × Nat) :=
  (List.range 12).map (fun i => (i * 0x10000, 0x10000)) ++
  [(0xC0000, 0x40000), (0x100000, 0x100000), (0x200000, 0x100000), (0x300000, 0x100000), (0x400000, 0x100000),
   (0x500000, 0x40000), (0x540000, 0x40000), (0x580000, 0x10000), (0x590000, 0x10000), (0x5A0000, 0x10000),
   (0x5B0000, 0x10000), (0x5C0000, 0x10000), (0x5D0000, 0x10000)]

/-- The window that holds an address. -/
def windowOf (a : Nat) : Option (Nat × Nat) := windows.find? (fun w => decide (w.1 ≤ a) && decide (a < w.1 + w.2))

/-- R97: 0 for a bad ADDR, 1 for a bad COUNT or a range past the window. -/
def cfgRangeBad (addr count : Nat) : Option Nat :=
  match windowOf addr with
  | none => some 0
  | some w =>
    if addr % 4 ≠ 0 then some 0
    else if count = 0 ∨ 64 < count ∨ w.1 + w.2 < addr + 4 * count then some 1
    else none

/-- The first of the words whose check fails (R602). -/
def firstBad : List (Bool × Nat) → Option Nat
  | [] => none
  | (ok, i) :: l => if ok then firstBad l else some i

/-- An aligned 64-bit parameter below a power bound, at words `i` and `i + 1`. -/
def alignedBelow (v align bound i : Nat) : List (Bool × Nat) :=
  [(v % align == 0, i), (decide (v < bound), if bound ≤ v % 2 ^ 32 then i else i + 1)]

/-- Step 5 of R64 beyond LENGTH: the parameter word that breaks a check, as DETAIL names it (R602). -/
def paramBad (op : Op) (k : List Byte) : Option Nat :=
  let ctxOk := (decide (1 ≤ par k 0 2) && decide (par k 0 2 ≤ 1023), 0)
  let chanAt := fun (o i : Nat) => (decide (par k o 1 < 4), i)
  let zero := fun (o n i : Nat) => (par k o n == 0, i)
  match op with
  | .ping | .getStatus | .press | .holdEnter | .holdExit | .failover | .ctxStatus => none
  | .cfgRead | .cfgWrite =>
    match cfgRangeBad (par k 0 4) (par k 4 2) with
    | some i => some i
    | none => firstBad [zero 6 2 1]
  | .faultRead => firstBad [(decide (1 ≤ par k 0 4) && decide (par k 0 4 ≤ 14), 0)]
  | .openContext => firstBad ([ctxOk, (par k 3 1 / 2 == 0, 0)] ++ alignedBelow (par k 4 8) 4096 (2 ^ 40) 1)
  | .closeContext | .suspendContext | .resumeContext => firstBad [ctxOk, zero 2 2 0]
  | .grantGranules => firstBad [(decide (par k 10 2 < 16), 2)]
  | .reclaimGranules => none
  | .vmConfig => firstBad ([zero 1 3 0] ++ alignedBelow (par k 4 8) 4096 0x2000000000 1)
  | .resetDevice => firstBad [(decide (par k 0 4 < 2), 0)]
  | .attest => firstBad [chanAt 0 0, zero 1 3 0]
  | .loadImage =>
    firstBad ([ctxOk, zero 2 2 0] ++ alignedBelow (par k 12 8) 1 (2 ^ 48) 3 ++ alignedBelow (par k 20 8) 8 (2 ^ 48) 5)
  | .lcTransition =>
    let t := par k 0 1
    firstBad [((decide (1 ≤ t) && decide (t ≤ 5)) || (decide (0x10 ≤ t) && decide (t ≤ 0x17)) || t == 0x20, 0), chanAt 1 0, zero 2 2 0]
  | .romLoad =>
    firstBad [chanAt 0 0, zero 1 3 0, (decide (8196 ≤ par k 4 4) && decide (par k 4 4 ≤ 4202496) && par k 4 4 % 4 == 0, 1)]
  | .writeMem | .readMem =>
    firstBad (alignedBelow (par k 0 8) 4 (2 ^ 48) 0 ++ [(par k 8 4 % 4 == 0 && decide (4 ≤ par k 8 4), 2), chanAt 12 3,
      zero 13 3 3])
  | .submit => firstBad (alignedBelow (par k 0 8) 256 (2 ^ 48) 0 ++ [(par k 0 8 != 0, 0)])
  | .cancelJob => none
  | .fenceSignal | .fenceRead => firstBad (alignedBelow (par k 0 8) 8 (2 ^ 48) 0)
  | .fenceWait =>
    firstBad (alignedBelow (par k 0 8) 8 (2 ^ 48) 0 ++
      [(decide (1 ≤ par k 16 4) && decide (par k 16 4 ≤ 1000000), 4), zero 20 4 5])

/-! ### Replies (R61, R62) -/

/-- A reply to a packet. `cs` is CTX_STATE. -/
def formReply (k : List Byte) (status : Byte) (dev cs detail : Nat) (payload : List Byte) : List Byte :=
  withCrc (leBytes 2 (20 + payload.length) ++ leBytes 1 (pktOp k) ++ [status] ++ field k 4 8 ++ leBytes 1 dev ++
    leBytes 1 cs ++ [0] ++ leBytes 1 detail ++ payload)

/-- A stored reply sent again, with REPEAT set (R61, R68). -/
def repeatReply (r : List Byte) : List Byte := withCrc (r.take 14 ++ [1] ++ (r.drop 15).take (r.length - 19))

/-- A reply enters the queue; CMD_REPLY_CNT counts it. -/
def Die.queueReply (x : Die) (r : List Byte) : Die :=
  ({ x with cmd.replies := x.cmd.replies ++ [r] }).count .cmdReplyCnt

/-! ### Streams (R67 to R70) -/

/-- Positions from `e` ahead to `s` along 1, 2, …, 0xFFFF_FFFF, 1 (R68). -/
def seqAhead (e s : Nat) : Nat := (s + 0xFFFFFFFF - e) % 0xFFFFFFFF

def seqNext (e : Word) : Word := if e = 0xFFFFFFFF then 1 else e + 1

inductive SeqCheck
  | accept
  | gap
  | again (h : HistEnt)
  | stale
  deriving DecidableEq, Repr

/-- Step 8 for a sequenced packet (R68). -/
def seqCheck (t : Stream) (s : Nat) : SeqCheck :=
  let e := t.expected.toNat
  if s = e then .accept
  else if seqAhead e s ≤ 2 ^ 31 then .gap
  else
    let behind := seqAhead s e
    match t.hist.find? (fun h => h.seq.toNat == s) with
    | some h => if behind ≤ 32 then .again h else .stale
    | none => .stale

/-- What a history keeps (R69): the numbers not yet executed, and the last `n` executed. -/
def keepExecuted : Nat → List HistEnt → List HistEnt
  | _, [] => []
  | n, h :: l =>
    match h.reply, n with
    | none, n => h :: keepExecuted n l
    | some _, 0 => keepExecuted 0 l
    | some _, n + 1 => h :: keepExecuted n l

/-- A number is accepted: E advances (R68). -/
def Stream.take (t : Stream) (s : Word) : Stream :=
  { expected := seqNext s, hist := { seq := s, reply := none } :: t.hist }

/-- The reply of an accepted number is kept (R69). -/
def Stream.store (t : Stream) (s : Nat) (r : List Byte) : Stream :=
  { t with hist := keepExecuted 32 (updWhere (fun h => h.seq.toNat == s) (fun h => { h with reply := some r }) t.hist) }

/-- The stream as far as it has been executed, which is what a standby mirrors (R38). -/
def Stream.executed (t : Stream) : Stream :=
  { expected := match (t.hist.filter (fun h => h.reply.isNone)).getLast? with
      | some h => h.seq
      | none => t.expected,
    hist := t.hist.filter (fun h => h.reply.isSome) }

def Die.stream (x : Die) (c : Nat) : Stream :=
  if c = 0 then x.cmd.stream0 else
  match x.ctx? c with
  | some t => t.stream
  | none => Stream.reset

def Die.updStream (x : Die) (c : Nat) (f : Stream → Stream) : Die :=
  if c = 0 then { x with cmd.stream0 := f x.cmd.stream0 } else x.updCtx c (fun t => { t with stream := f t.stream })

/-- Replies queued or reserved (REPLY_LEVEL): each command of the pool has a slot, and so has each repeat that waits for its
reply. -/
def Die.replyLevel (x : Die) : Nat :=
  x.cmd.replies.length + x.cmd.pool.length + (x.cmd.pool.map (fun c => c.repeats)).sum

/-! ### Answering -/

/-- What a command answers: status, DETAIL and payload. -/
structure CmdRes where
  status : Byte
  detail : Nat
  payload : List Byte
  deriving DecidableEq, Repr

def resOk (payload : List Byte) : CmdRes := { status := stOk, detail := 0, payload := payload }
def resErr (st : Byte) : CmdRes := { status := st, detail := 0, payload := [] }
def resBad (detail : Nat) : CmdRes := { status := stBadParam, detail := detail, payload := [] }

def isPend (c : PendCmd) (d : PendCmd) : Bool :=
  decide (c.ctx = d.ctx) && decide (c.pkt = d.pkt) && decide (c.closed = d.closed)

/-- The active die of a SPARE pair mirrors its commands and replies to a standby that is in step (R38). -/
def Die.mirrorsCommands (x : Die) : Bool :=
  x.pair.mode == 2 && decide (x.pair.role = .primary) && x.pair.mirrorSync && x.pair.bridgeUp && !x.pair.lost

/-- A stored reply is sent again (R68). -/
def Die.sendAgain (x : Die) (r : List Byte) : Die := (x.queueReply (repeatReply r)).count .cmdRepeatCnt

/-- A command's reply is stored for its sequence number while its context is open (R69), mirrored (R38), queued, and queued
again for each repeat that waited (R68). -/
def Die.deliver (x : Die) (c : PendCmd) (r : List Byte) : Die :=
  let s := pktSeq c.pkt
  let x := x.queueReply r
  let x := if c.closed || s == 0 then x else
    let x := if x.mirrorsCommands then { x with pair.mirOut := x.pair.mirOut ++ [.command c.ctx c.pkt r] } else x
    x.updStream c.ctx (fun t => t.store s r)
  (List.range c.repeats).foldl (fun y _ => y.sendAgain r) x

/-- A command of the pending pool is answered: its reply is formed, stored and queued, and its place frees. -/
def Die.answerCmd (x : Die) (c : PendCmd) (res : CmdRes) : Die :=
  let cs := if c.closed then 0 else (x.ctxState c.ctx).code
  let r := formReply c.pkt res.status x.dev.code cs res.detail res.payload
  let again := ((x.cmd.pool.find? (isPend c)).map (fun q => q.repeats)).getD c.repeats
  { x with cmd.pool := dropFirst (isPend c) x.cmd.pool }.deliver { c with repeats := again } r

/-- The command of a context whose turn it is (R71). An unsequenced read that is frozen holds up no other command
(R70). -/
def Die.headCmd (x : Die) (c : Nat) : Option PendCmd :=
  x.cmd.pool.find? (fun q => q.ctx == c && !(pktSeq q.pkt == 0 && q.isFrozen))

def Die.setPhase (x : Die) (c : PendCmd) (ph : Phase) : Die :=
  { x with cmd.pool := updFirst (isPend c) (fun q => { q with phase := ph }) x.cmd.pool }

/-! ### Legality (step 9 of R64, R66, R81) -/

/-- A job is queued or running on the die. -/
def Die.anyJob (x : Die) : Bool := x.jobs.list.any (fun j => decide (j.state ≠ .ended))

/-- HOLD_ENTER is accepted (R570). -/
def holdEnterOk (p x : Die) : Bool :=
  !x.anyJob && (x.pair.mode == 0 || decide (x.pair.role = .primary)) &&
  (x.pair.mode == 0 || x.pair.lost || decide (p.dev ≠ .hold))

/-- FAILOVER is legal (R80, R43): READY on a standby die; READY or ACTIVE on any die that is PRIMARY in SPARE mode. -/
def failoverOk (x : Die) : Bool :=
  (decide (x.dev = .ready) && decide (x.pair.role = .standby)) ||
  ((decide (x.dev = .ready) || decide (x.dev = .active)) && x.pair.mode == 2 && decide (x.pair.role = .primary))

/-- The opcode is legal in the present device state, with the conditions of its table. -/
def opLegal (p x : Die) (op : Op) (k : List Byte) : Bool :=
  let dev := x.dev
  let ra := decide (dev = .ready) || decide (dev = .active)
  let ras := ra || decide (dev = .safe)
  let standby := decide (x.pair.role = .standby)
  let cmdPwrFlt := fun (a : Nat) => decide (a < 0x10000) || (decide (0x30000 ≤ a) && decide (a < 0x40000)) ||
    (decide (0x50000 ≤ a) && decide (a < 0x60000))
  let own := match op with
    | .ping | .getStatus | .resetDevice => true
    | .cfgRead => ras || (decide (dev = .hold) && cmdPwrFlt (par k 0 4))
    | .cfgWrite | .press | .grantGranules | .vmConfig | .attest => ra
    | .faultRead | .closeContext | .reclaimGranules => ras
    | .openContext =>
      ra && (par k 3 1 % 2 == 0 || (x.pair.mode == 1 && decide (x.id = .a)))
    | .suspendContext | .resumeContext | .loadImage => decide (dev = .active)
    | .holdEnter => ra && holdEnterOk p x
    | .holdExit => decide (dev = .hold) && (x.pair.mode == 0 || x.pair.lost || x.power.holdMaster)
    | .failover => failoverOk x
    | .lcTransition => decide (dev = .ready) && x.pair.mode == 0
    | .romLoad => decide (dev = .rom)
    | .readMem | .cancelJob => decide (dev = .active) || decide (dev = .safe)
    | .fenceRead | .ctxStatus =>
      decide (dev = .active) || decide (dev = .safe) || (standby && decide (dev = .ready))
    | .writeMem | .submit | .fenceSignal | .fenceWait => decide (dev = .active)
  own && (!standby || decide (dev = .off) || (match op with
    | .ping | .getStatus | .cfgRead | .ctxStatus | .fenceRead | .failover => true
    | _ => false))

/-- The opcode is legal in the state of its own context, or of the context it names (R77, R82). -/
def ctxLegal (x : Die) (op : Op) (c : Nat) (k : List Byte) : Bool :=
  match op with
  | .suspendContext => match x.ctxState (par k 0 2) with
    | .suspended | .faulted => false
    | _ => true
  | .resumeContext => match x.ctxState (par k 0 2) with
    | .suspended | .free => true
    | _ => false
  | _ => op.inFaulted || decide (x.ctxState c ≠ .faulted)

/-! ### Validation (R64) -/

/-- The outcome of validation. -/
inductive Verdict
  /-- Rejected: status, whether the context step was reached, DETAIL and payload. -/
  | reject (st : Byte) (ctxKnown : Bool) (detail : Nat) (payload : List Byte)
  | again (h : HistEnt)
  | pass (op : Op) (sequenced : Bool)
  deriving DecidableEq, Repr

/-- The nine steps of R64, in order. -/
def validate (p x : Die) (k : List Byte) : Verdict :=
  let n := pktLength k
  let rej := fun (st : Byte) (known : Bool) (d : Nat) => Verdict.reject st known d []
  if !(k.length == n && decide (16 ≤ n) && decide (n ≤ 512) && n % 4 == 0) then rej stBadLength false 0
  else if fieldNat k (n - 4) 4 ≠ (crc32c (k.take (n - 4))).toNat then rej stBadCrc false 0
  else if fieldNat k 3 1 ≠ 0 ∨ 1024 ≤ pktContext k then rej stBadField false 0
  else match opOf (pktOp k) with
  | none => rej stBadOpcode false 0
  | some op =>
    let want := op.paramSize (par k 4 2)
    if n ≠ 16 + want then rej stBadParam false (min (n - 16) want / 4)
    else match paramBad op k with
    | some i => rej stBadParam false i
    | none =>
      let c := pktContext k
      if op.ofContext ≠ decide (c ≠ 0) then rej stNoContext true 0
      else if x.ctxState c = .free then rej stNoContext true 0
      else if x.ctxState c = .faulted ∧ !op.inFaulted then rej stContextFaulted true 0
      else
        let legal := opLegal p x op k
        let s := pktSeq k
        if s = 0 then
          if !op.unsequenced then
            .reject stSeqGap true 0 (leBytes 4 (x.stream c).expected.toNat)
          else if legal then .pass op false else rej stWrongState true 0
        else match seqCheck (x.stream c) s with
          | .gap => .reject stSeqGap true 0 (leBytes 4 (x.stream c).expected.toNat)
          | .stale => rej stSeqStale true 0
          | .again h => .again h
          | .accept => if legal then .pass op true else rej stWrongState true 0

end Sys2Proof.Machine
end

