-- ==== Sys2Proof/Machine/Transfers.lean ====
section
/-! DEFINITION. Sys2Proof/Machine/Transfers.lean: the four USB data channels (R72, R91 to R94): assigning a channel, moving
the packets of WRITE_MEM and READ_MEM, and how a transfer ends. -/
namespace Sys2Proof.Machine

/-- Largest data packet at the present USB speed (R52): 512 bytes at high speed, otherwise 1,024. -/
def Die.usbMax (x : Die) : Nat := if x.io.usb.speed = .highSpeed then 512 else 1024

/-- The command whose transfer a channel carries. -/
def Die.xferCmd (x : Die) (ch : Fin 4) : Option PendCmd := x.cmd.pool.find? (fun c => decide (c.phase = .transfer ch))

def Die.updXfer (x : Die) (ch : Fin 4) (f : Xfer → Xfer) : Die :=
  { x with cmd.xfers := vmod x.cmd.xfers ch (Option.map f) }

/-- DONE: the bytes moved, of a transfer that ends under R93 (R58, R82). A transfer of the device stream that ends OK
answers with its opcode's own payload (R80). -/
def donePayload (t : Xfer) : List Byte := leBytes 4 t.moved

/-- A transfer ends: its channel is free and its command is answered. -/
def Die.endXferWith (x : Die) (ch : Fin 4) (res : CmdRes) : Die :=
  let y := { x with cmd.xfers := vmod x.cmd.xfers ch (fun _ => none) }
  match x.xferCmd ch with
  | some c => y.answerCmd c res
  | none => y

/-- A transfer ends with a status of R93 and the bytes moved. -/
def Die.endXfer (x : Die) (ch : Fin 4) (st : Byte) : Die :=
  match x.cmd.xfers[ch] with
  | some t => x.endXferWith ch { status := st, detail := 0, payload := donePayload t }
  | none => x

/-- A packet of a WRITE_MEM transfer: its bytes within LEN move as one access unit (R365); the transfer ends on a packet
that is short or carries more than remains, or when LEN bytes have moved (R93). A unit that does not pass freezes the
channel, which holds the packet. -/
def writePacket (p x : Die) (ch : Fin 4) (t : Xfer) (pkt : List Byte) : Die :=
  let n := min pkt.length (t.len - t.moved)
  let (y, ok) := if n = 0 then (x, true) else
    writeUnit p x (.usb ch) t.ctx (t.va + t.moved) (pkt.take n) accWrite
  if !ok then y.updXfer ch (fun u => { u with buf := pkt }) else
  let y := y.updXfer ch (fun u => { u with moved := u.moved + n, last := y.localTime, buf := [] })
  if t.len - t.moved < pkt.length then y.endXfer ch stDataOverrun
  else if t.moved + n = t.len then y.endXfer ch stOk
  else if pkt.length < x.usbMax then y.endXfer ch stDataShort
  else y

/-- The next packet of a READ_MEM transfer (R94), or none while its unit is held. -/
def readPacket (p x : Die) (ch : Fin 4) (t : Xfer) : Die × Option (List Byte) :=
  let n := min x.usbMax (t.len - t.moved)
  match readUnit p x (.usb ch) t.ctx (t.va + t.moved) n accRead with
  | (y, none) => (y, none)
  | (y, some bs) =>
    let y := y.updXfer ch (fun u => { u with moved := u.moved + n, last := y.localTime })
    (if t.moved + n = t.len then y.endXfer ch stOk else y, some bs)

/-- A channel resumes after REPLAY (R366, R377): a packet that it holds is written again from its first byte. Its timeout
counts on without the time for which it was held (R74, R93). -/
def replayXfer (p x : Die) (ch : Fin 4) : Die :=
  match x.cmd.xfers[ch] with
  | none => x
  | some t =>
    if t.frozen.isNone then x else
    let y := x.updXfer ch (fun u => { u with frozen := none, last := u.last + (x.localTime - u.heldAt) })
    if t.buf.isEmpty ∨ t.kind ≠ .writeMem then y else writePacket p y ch { t with frozen := none } t.buf

def channelIds : List (Fin 4) := [0, 1, 2, 3]

/-- The status of a command that a held fault had frozen, when its context is killed (R74, R93). -/
def heldStatus (cls : Byte) : Byte := if 0x01 ≤ cls.toNat ∧ cls.toNat ≤ 0x07 then stXlateFault else stOwnFault

/-- The commands of a context that execute when it is killed or closed (R74, R78, R93): a transfer or another command
frozen on a held fault of its own ends with its class's status when the context is killed; every other one with KILLED. -/
def Die.endCommands (x : Die) (c : Nat) (killed : Bool) : Die :=
  let x := channelIds.foldl (fun (y : Die) ch =>
    match y.cmd.xfers[ch] with
    | some t =>
      if t.ctx ≠ c then y else
      y.endXfer ch (match t.frozen with
        | some cls => if killed then heldStatus cls else stKilled
        | none => stKilled)
    | none => y) x
  (x.cmd.pool.filter (fun q => q.ctx == c)).foldl (fun (y : Die) q =>
    match q.phase with
    | .frozen cls => y.answerCmd q (resErr (if killed then heldStatus cls else stKilled))
    | .fenceWait _ held => y.answerCmd q (resErr (match held with
      | some cls => if killed then heldStatus cls else stKilled
      | none => stKilled))
    | .waiting => y
    | .transfer _ => y
    | .folding => y) x

end Sys2Proof.Machine
end

