-- ==== Sys2Proof/Machine/Darner.lean ====
section
/-! DEFINITION. Sys2Proof/Machine/Darner.lean: the darner and the fault queue (R379, R381, R382, R486 to R489). -/
namespace Sys2Proof.Machine

/-- The context a report's key and ID name (R379, R486). -/
def reportCtx (r : Report) : Nat := r.ctx

/-- The reserved place of a source (R488): the thermal monitor is one source, whatever sensor it names. -/
def sourceId (m : Master) : Nat :=
  match m with
  | .thermal _ => masterCode m * 65536
  | _ => masterIdent m

/-- Who of a report a resolution acts on. -/
def Report.holders (r : Report) : List Master := if r.gone then [] else [r.who]

/-- Two reports have equal keys (R486): a place keeps its key in its record. -/
def Place.matches (q : Place) (r : Report) : Bool :=
  q.origin == r.origin && q.record.cls == r.cls && q.record.epoch == r.epoch &&
  wbits q.record.id 29 20 == reportCtx r

/-- ADDR of a record: VA and VMID (R379). -/
def recordAddr (r : Report) : DWord := BitVec.ofNat 64 (r.va.toNat + r.vmid.toNat * 2 ^ 48)

/-- A reporter joins a place. At the same moment the lowest MASTER, then UNIT, is the first reporter (R487). -/
def Place.merge (q : Place) (d : DieId) (now : DWord) (r : Report) : Place :=
  let k := q.record
  let first := q.opened = now && !q.held &&
    (decide (masterCode r.who < k.master.toNat) ||
     (masterCode r.who == k.master.toNat && decide (masterUnit d r.who < k.unit.toNat)))
  let k := { k with count := if k.count = 0xFFFF then 0xFFFF else k.count + 1,
                    clusters := k.clusters ||| masterClusterBit r.who }
  let k := if first then
      { k with master := BitVec.ofNat 8 (masterCode r.who), unit := BitVec.ofNat 16 (masterUnit d r.who),
               addr := recordAddr r, flags := r.flags, detail := r.detail } else k
  { q with record := k, who := if first then r.who else q.who, reporters := q.reporters ++ r.holders }

def placeOf (d : DieId) (now : DWord) (fid : BitVec 20) (r : Report) (reserved : Bool) : Place :=
  { origin := r.origin, who := r.who,
    record := { cls := r.cls, flags := r.flags, master := BitVec.ofNat 8 (masterCode r.who),
                clusters := masterClusterBit r.who,
                unit := BitVec.ofNat 16 (if r.cls = clsPressTimeout then
                    masterUnit d r.who + lowestBit 44 r.detail.toNat else masterUnit d r.who),
                count := 1, id := BitVec.ofNat 32 (fid.toNat + reportCtx r * 2 ^ 20), epoch := r.epoch,
                addr := recordAddr r, detail := r.detail },
    reporters := r.holders, opened := now, held := false, reserved := reserved }
where
  /-- The lowest set bit: the lowest late unit of a PRESS_TIMEOUT (R489). -/
  lowestBit : Nat → Nat → Nat
    | 0, _ => 0
    | k + 1, v => if bitOf v (43 - k) then 43 - k else lowestBit k v

/-- A new place opens, with the next FAULT_ID. -/
def openPlace (x : Die) (r : Report) (reserved : Bool) : Die :=
  let fid := x.flt.serial
  let y := { x with flt.serial := fid + 1, flt.darner := x.flt.darner ++ [placeOf x.id x.time fid r reserved] }
  if r.held then
    { y with flt.faults := y.flt.faults ++
        [{ fid := fid, cls := r.cls, ctx := r.ctx, reporters := r.holders, page := r.va.toNat }] }
  else y

/-- A report merges into a place, and its reporter into the held fault of that record. -/
def mergePlace (x : Die) (r : Report) (sel : Place → Bool) : Die :=
  match x.flt.darner.find? sel with
  | none => x
  | some q =>
    let fid := q.record.id.setWidth 20
    let join : HeldFault → HeldFault := fun h => { h with reporters := h.reporters ++ r.holders }
    let faults := if !r.held then x.flt.faults
      else if x.flt.faults.any (fun h => h.fid == fid) then updWhere (fun h => h.fid == fid) join x.flt.faults
      else x.flt.faults ++ [{ fid := fid, cls := r.cls, ctx := r.ctx, reporters := r.holders, page := r.va.toNat }]
    { x with flt.darner := updFirst sel (fun t => t.merge x.id x.time r) x.flt.darner, flt.faults := faults }

def suppress (x : Die) : Die := (x.flag .fltFlags 0).count .fltSuppressCnt

def Die.sharedBusy (x : Die) : Nat := (x.flt.darner.filter (fun q => !q.reserved)).length

/-- One report at the darner; none: it waits for a place (R487). Every report received is counted, and a report of a
tenant is charged to its context (R86). -/
def takeReport (x : Die) (r : Report) : Option Die :=
  let y := x.countI .fltReportCnt [r.cls.toNat % 64] 1
  let y := if r.ctx = 0 then y else y.updCtx r.ctx (fun t => { t with faultCnt := t.faultCnt + 1 })
  if reservedSource r.who r.cls then
    let mine : Place → Bool := fun q => q.reserved && sourceId q.who == sourceId r.who
    if x.flt.darner.any mine then
      if x.flt.darner.any (fun q => mine q && q.matches r) then some (mergePlace y r (fun q => mine q && q.matches r))
      else some (suppress y)
    else some (openPlace y r true)
  else
    let same : Place → Bool := fun q => !q.reserved && !q.held && q.matches r
    if x.flt.darner.any same then some (mergePlace y r same)
    else if x.sharedBusy < 48 then some (openPlace y r false)
    else if r.cls = clsPairMismatch ∨ r.cls = clsPairTimeout then some (suppress y)
    else none

/-- The first report that can be processed reaches its place. -/
def darnerScan (x : Die) : List Report → List Report → Die
  | _, [] => x
  | before, r :: rs =>
    match takeReport { x with flt.reports := before ++ rs } r with
    | some y => y
    | none => darnerScan x (before ++ [r]) rs

/-- DARNER_REPORT (R487). -/
def execDarnerReport (d : DieId) (s : State) : Out := nextOn d (fun x => darnerScan x [] x.flt.reports) s

/-- A record enters the fault queue and its place frees (R381). -/
def queueRecord (x : Die) (i : Nat) (k : FaultRec) : Die :=
  ({ x with flt.queue := x.flt.queue ++ [k], flt.darner := x.flt.darner.eraseIdx i }).count .fltRecordCnt

/-- WINDOW × 4 FCLK cycles have passed: 5 SCLK cycles for two of its units. -/
def Die.windowPassed (x : Die) (q : Place) : Bool := decide (x.fld .fltCfg [] 7 0 * 5 ≤ x.since q.opened * 2)

/-- An open record's window expires: it goes to the fault queue, or is held in its place behind those already held
(R382, R487). -/
def closeRecord (x : Die) (i : Nat) : Die :=
  match x.flt.darner[i]? with
  | none => x
  | some q =>
    if q.held || !x.windowPassed q then x
    else if x.flt.queue.length < 1024 && !(x.flt.darner.any (fun t => t.held)) then queueRecord x i q.record
    else
      let y := { x with flt.darner := x.flt.darner.eraseIdx i ++ [{ q with held := true, opened := x.time }] }
      (y.flag .fltQueueStatus 31).countI .fltOvfCnt [q.record.cls.toNat % 64] 1

/-- DARNER_RECORD_CLOSE (R487). -/
def execDarnerRecordClose (d : DieId) (place : Nat) (s : State) : Out := nextOn d (fun x => closeRecord x place) s

/-- A held record goes before another (R382): earlier held, then lower MASTER, then lower UNIT. -/
def heldBefore (a b : Place) : Bool :=
  decide (a.opened.toNat < b.opened.toNat) || (a.opened == b.opened &&
    (decide (a.record.master.toNat < b.record.master.toNat) ||
     (a.record.master == b.record.master && decide (a.record.unit.toNat < b.record.unit.toNat))))

/-- The index of the held record that enters first. -/
def nextHeld : List Place → Nat → Option (Nat × Place) → Option (Nat × Place)
  | [], _, best => best
  | q :: qs, i, best =>
    nextHeld qs (i + 1) (if !q.held then best else match best with
      | none => some (i, q)
      | some (j, b) => if heldBefore q b then some (i, q) else some (j, b))

def enqueueHeld (x : Die) : Die :=
  if x.flt.queue.length < 1024 then
    match nextHeld x.flt.darner 0 none with
    | some (i, q) => queueRecord x i { q.record with flags := q.record.flags ||| 0x20 }
    | none => x
  else x

/-- HELD_RECORD_ENQUEUE (R382). -/
def execHeldRecordEnqueue (d : DieId) (s : State) : Out := nextOn d enqueueHeld s

/-- A fault record as FAULT_READ gives it (R379). -/
def FaultRec.bytes (k : FaultRec) : List Byte :=
  [k.cls, k.flags, k.master, k.clusters] ++ leBytes 2 k.unit.toNat ++ leBytes 2 k.count.toNat ++
  leBytes 4 k.id.toNat ++ leBytes 4 k.epoch.toNat ++ leBytes 8 k.addr.toNat ++ leBytes 8 k.detail.toNat

/-- FAULT_READ takes the oldest records (R381). -/
def takeRecords (x : Die) (n : Nat) : Die × List FaultRec :=
  ({ x with flt.queue := x.flt.queue.drop n }, x.flt.queue.take n)

end Sys2Proof.Machine
end

