-- ==== Sys2Proof/Machine/Desc.lean ====
section
/-! DEFINITION. Sys2Proof/Machine/Desc.lean: the job descriptor and its check (R324, R325, R344). -/
namespace Sys2Proof.Machine

def dKind (b : List Byte) : Nat := fieldNat b 0x00 1
def dClass (b : List Byte) : Nat := fieldNat b 0x01 1
def dFlags (b : List Byte) : Nat := fieldNat b 0x02 2
def dPair (b : List Byte) : Bool := bitOf (dFlags b) 0
def dRoundRobin (b : List Byte) : Bool := bitOf (dFlags b) 1
def dFoldWrg (b : List Byte) : Bool := bitOf (dFlags b) 2
def dOnMiss (b : List Byte) : Bool := bitOf (dFlags b) 3
def dFailChain (b : List Byte) : Bool := bitOf (dFlags b) 4
def dClMask (b : List Byte) : Nat := fieldNat b 0x04 1
def dClCount (b : List Byte) : Nat := fieldNat b 0x05 1
/-- Group registers and accumulator registers of a group (R134). -/
def dRegs (b : List Byte) : Nat := 8 * fieldNat b 0x06 1
def dAccs (b : List Byte) : Nat := 4 * fieldNat b 0x07 1
def dTlmKib (b : List Byte) : Nat := fieldNat b 0x08 4
/-- Steps of a partition (R202). -/
def dSteps (b : List Byte) : Nat := ceilDiv (dTlmKib b) 512
def dLive (b : List Byte) : Nat := fieldNat b 0x0C 1
def dCarve (b : List Byte) : Nat := fieldNat b 0x0D 1
def dWg (b : List Byte) : Nat := fieldNat b 0x0E 1
def dCmpCount (b : List Byte) : Nat := fieldNat b 0x0F 1
def dCount (b : List Byte) : Nat := fieldNat b 0x10 4
def dWorkVa (b : List Byte) : Nat := fieldNat b 0x18 8
def dArgVa (b : List Byte) : Nat := fieldNat b 0x20 8
def dWaitVa (b : List Byte) : Nat := fieldNat b 0x28 8
def dWaitValue (b : List Byte) : Nat := fieldNat b 0x30 8
def dSigVa (b : List Byte) : Nat := fieldNat b 0x38 8
def dSigValue (b : List Byte) : Nat := fieldNat b 0x40 8
def dNextVa (b : List Byte) : Nat := fieldNat b 0x48 8
def dStatusVa (b : List Byte) : Nat := fieldNat b 0x50 8
def dSaveVa (b : List Byte) : Nat := fieldNat b 0x58 8
def dSavePages (b : List Byte) : Nat := fieldNat b 0x60 4
def dDlMode (b : List Byte) : Nat := fieldNat b 0x64 1
def dDlPipe (b : List Byte) : Nat := fieldNat b 0x65 1
/-- MARGIN, signed, in local µs. -/
def dMargin (b : List Byte) : Int := (BitVec.ofNat 16 (fieldNat b 0x66 2)).toInt
def dDlValue (b : List Byte) : Nat := fieldNat b 0x68 4
def dProgSrc (b : List Byte) : Nat := fieldNat b 0x6C 1
def dChkCount (b : List Byte) : Nat := fieldNat b 0x6D 1
def dWorkTotal (b : List Byte) : Nat := fieldNat b 0x70 4
def dProgVa (b : List Byte) : Nat := fieldNat b 0x78 8
def dKidVa (b : List Byte) : Nat := fieldNat b 0x80 8
def dCmpVa (b : List Byte) : Nat := fieldNat b 0x88 8
def dChkTime (b : List Byte) (k : Nat) : Nat := fieldNat b (0x90 + 8 * k) 4
def dChkWork (b : List Byte) (k : Nat) : Nat := fieldNat b (0x94 + 8 * k) 4

/-- Group records of a core region, their size, and CORE_SIZE (R342 to R344). -/
def dQ (b : List Byte) : Nat :=
  let byRegs := min 16 (512 / dRegs b)
  4 * (if dAccs b = 0 then byRegs else min byRegs (128 / dAccs b))
def dGrec (b : List Byte) : Nat := if dKind b = 0 then 1536 + 256 * (dLive b + dAccs b) else 0
def dCoreSize (b : List Byte) : Nat := 32768 * dSteps b + (if dKind b = 0 then dQ b * dGrec b else 0)
def dSaveSize (b : List Byte) : Nat := 4096 + 16 * dClCount b * dCoreSize b

/-- Bits set of a number below 2^n. -/
def popCount (n v : Nat) : Nat := ((List.range n).filter (fun i => bitOf v i)).length

def allZero (b : List Byte) (o n : Nat) : Bool := fieldNat b o n == 0

/-- The context of a job has the paired attribute. -/
def Die.ctxPaired (x : Die) (c : Nat) : Bool :=
  match x.ctx? c with
  | some t => t.attr.getLsbD 0
  | none => false

/-- A job runs paired (R29). -/
def Die.runsPaired (x : Die) (c : Nat) (b : List Byte) : Bool :=
  x.ctxPaired c && (dPair b || (x.pair.mode == 1 && dClass b == 0))

/-- A virtual address of a descriptor: a multiple of `n` in the 48-bit space. -/
def vaOk (v n : Nat) : Bool := v % n == 0 && decide (v < 2 ^ 48)

/-- Fields of a share: kinds 0 and 1 have them, kinds 2 and 3 have 0 (R324). -/
def shareFieldsOk (b : List Byte) : Bool :=
  let compute := dKind b == 0
  if dKind b ≤ 1 then
    decide (dClMask b < 64) && decide (1 ≤ dClCount b) && decide (dClCount b ≤ 6) &&
    decide (dClCount b ≤ popCount 6 (dClMask b)) && decide (dTlmKib b ≤ 8192) && decide (dCarve b ≤ 3) &&
    (if compute then
      decide (8 ≤ dRegs b) && decide (dRegs b ≤ 256) && decide (dAccs b ≤ 128) && decide (dLive b ≤ min 32 (dRegs b)) &&
      decide (1 ≤ dWg b) && decide (dWg b ≤ 16)
     else allZero b 0x06 2 && allZero b 0x0C 1 && allZero b 0x0E 1) &&
    vaOk (dSaveVa b) 4096 && decide (dSaveSize b ≤ 4096 * dSavePages b)
  else
    allZero b 0x04 8 && allZero b 0x0C 3 && allZero b 0x58 12 && !dRoundRobin b && !dFoldWrg b

/-- COUNT, WORK_VA and ARG_VA by kind. -/
def workFieldsOk (b : List Byte) : Bool :=
  match dKind b with
  | 0 => decide (1 ≤ dCount b) && decide (dCount b ≤ 16777216) && dCount b % dWg b == 0 && vaOk (dWorkVa b) 8 &&
      decide (dArgVa b < 2 ^ 48)
  | 1 => dCount b == 0 && vaOk (dWorkVa b) 256 && dArgVa b == 0
  | 2 => decide (4 ≤ dCount b) && dCount b % 4 == 0 && vaOk (dWorkVa b) 4 && vaOk (dArgVa b) 4
  | _ => dCount b == 0 && vaOk (dWorkVa b) 64 && dArgVa b == 0

/-- PROG_SRC suits KIND (R325). -/
def progOk (b : List Byte) : Bool :=
  match dProgSrc b with
  | 0 => dKind b == 0 && dProgVa b == 0
  | 1 => dKind b == 1 && dProgVa b == 0
  | 2 => decide (2 ≤ dKind b) && dProgVa b == 0
  | 3 => vaOk (dProgVa b) 8 && dProgVa b != 0
  | _ => false

/-- Checkpoints: C_k strictly ascending from 1, E_k at most WORK_TOTAL. -/
def checkpointsOk (b : List Byte) : Bool :=
  decide (dChkCount b ≤ 8) &&
  (List.range (dChkCount b)).all (fun k =>
    decide ((if k = 0 then 0 else dChkTime b (k - 1)) < dChkTime b k) && decide (dChkWork b k ≤ dWorkTotal b))

/-- A descriptor passes R325; a kid's checkpoints need no DL_MODE. -/
def descOk (x : Die) (c : Nat) (kid : Bool) (b : List Byte) : Bool :=
  let paired := x.runsPaired c b
  decide (dKind b ≤ 3) && decide (dClass b ≤ 3) && decide (dFlags b < 32) && shareFieldsOk b && workFieldsOk b &&
  allZero b 0x14 4 && allZero b 0x6E 2 && allZero b 0x74 4 && allZero b 0xD0 48 &&
  vaOk (dWaitVa b) 8 && vaOk (dSigVa b) 8 && vaOk (dNextVa b) 256 && vaOk (dStatusVa b) 64 && vaOk (dKidVa b) 256 &&
  decide (dCmpVa b < 2 ^ 48) && decide (dCmpCount b ≤ 8) &&
  (!dPair b || x.ctxPaired c) && !(dRoundRobin b && paired) &&
  (if paired then dCmpCount b != 0 || dKind b == 1 else dCmpCount b == 0) &&
  progOk b && dWorkTotal b != 0 && decide (dDlMode b ≤ 2) && decide (dDlPipe b ≤ 3) &&
  (dDlMode b != 1 || (decide (1 ≤ dDlValue b) && decide (dDlValue b ≤ 60000000))) &&
  (kid || dDlMode b != 0 || dChkCount b == 0) && checkpointsOk b && (dKidVa b == 0 || dKind b == 0)

/-- A kid's descriptor suits its original (R349, step 2). -/
def kidOk (x : Die) (c : Nat) (orig b : List Byte) : Bool :=
  descOk x c true b && dKind b == 0 && dClass b == dClass orig && dDlMode b == 0 && dKidVa b == 0 &&
  (dPair b == dPair orig)

/-- The kid's descriptor with the fields it keeps of the original (R349, step 3). -/
def kidDesc (orig b : List Byte) : List Byte :=
  let keep := fun (o n : Nat) (t : List Byte) => putField t o (field orig o n)
  keep 0x02 2 (keep 0x28 0x30 (keep 0x64 8 b))

end Sys2Proof.Machine
end

