-- ==== Sys2Proof/Machine/GfxDesc.lean ====
section
/-! DEFINITION. Sys2Proof/Machine/GfxDesc.lean: the fields of pass, attachment and draw descriptors, formats, tiles and the
checks of R242, R245 and R248 (R240 to R248, R273). -/
namespace Sys2Proof.Machine

/-! ### Formats (R273) -/

/-- Bytes per sample of a format that an attachment may have; 0 for any other code. -/
def fmtBytes (f : Nat) : Nat :=
  match f with
  | 0x01 => 4
  | 0x02 => 2
  | 0x03 => 4
  | 0x04 => 8
  | 0x05 => 4
  | 0x06 => 1
  | 0x07 => 2
  | 0x08 => 4
  | 0x10 => 4
  | 0x11 => 4
  | 0x12 => 8
  | _ => 0

def fmtIsColour (f : Nat) : Bool := decide (1 ≤ f) && decide (f ≤ 8)
def fmtIsDepth (f : Nat) : Bool := decide (0x10 ≤ f) && decide (f ≤ 0x12)

/-! ### Attachments (R241) -/

structure Att where
  va : Nat
  resolveVa : Nat
  clear : List Byte
  pitch : Nat
  rpitch : Nat
  format : Nat
  load : Nat
  store : Nat
  pad : Nat
  deriving DecidableEq, Repr

/-- Attachment slot of a pass descriptor: 0 is the depth-stencil attachment, 1 to 4 colour attachments 0 to 3. -/
def attOf (b : List Byte) (i : Nat) : Att :=
  let o := 0x40 + 32 * i
  { va := fieldNat b o 8, resolveVa := fieldNat b (o + 8) 8, clear := field b (o + 16) 8, pitch := fieldNat b (o + 0x18) 2,
    rpitch := fieldNat b (o + 0x1A) 2, format := fieldNat b (o + 0x1C) 1, load := fieldNat b (o + 0x1D) 1,
    store := fieldNat b (o + 0x1E) 1, pad := fieldNat b (o + 0x1F) 1 }

def Att.present (t : Att) : Bool := t.format != 0
def Att.bpp (t : Att) : Nat := fmtBytes t.format
def Att.stores (t : Att) : Bool := t.store == 1 || t.store == 3
def Att.resolves (t : Att) : Bool := t.store == 2 || t.store == 3

/-- The attachments of a pass by slot, absent ones left out. -/
def pAtts (b : List Byte) : List (Nat × Att) :=
  ([0, 1, 2, 3, 4].map (fun i => (i, attOf b i))).filter (fun q => q.2.present)

/-! ### Pass descriptor (R240) -/

def pWidth (b : List Byte) : Nat := fieldNat b 0x00 2
def pHeight (b : List Byte) : Nat := fieldNat b 0x02 2
def pTileW (b : List Byte) : Nat := fieldNat b 0x04 1
def pTileH (b : List Byte) : Nat := fieldNat b 0x05 1
def pSamples (b : List Byte) : Nat := fieldNat b 0x06 1
def pMode (b : List Byte) : Nat := fieldNat b 0x07 1
def pDirect (b : List Byte) : Bool := bitOf (pMode b) 0
def pAllowExtend (b : List Byte) : Bool := bitOf (pMode b) 1
def pAllowRinse (b : List Byte) : Bool := bitOf (pMode b) 2
def pDrawVa (b : List Byte) : Nat := fieldNat b 0x08 8
def pHamperVa (b : List Byte) : Nat := fieldNat b 0x10 8
def pHamperChunks (b : List Byte) : Nat := fieldNat b 0x18 4
def pExtMax (b : List Byte) : Nat := fieldNat b 0x1C 2
def pReserveVa (b : List Byte) : Nat := fieldNat b 0x20 8
def pRinseVa (b : List Byte) : Nat := fieldNat b 0x28 8
def pViewportsVa (b : List Byte) : Nat := fieldNat b 0x30 8
def pStatVa (b : List Byte) : Nat := fieldNat b 0x38 8

/-! ### Tiles (R243 to R245) -/

/-- Width and height of a tile and of a sub-tile, in pixels. -/
def pTilePx (b : List Byte) : Nat := 16 * pTileW b
def pTilePy (b : List Byte) : Nat := 16 * pTileH b
def pSubW (b : List Byte) : Nat := 4 * pTileW b
def pSubH (b : List Byte) : Nat := 4 * pTileH b

def pTx (b : List Byte) : Nat := ceilDiv (pWidth b) (pTilePx b)
def pTy (b : List Byte) : Nat := ceilDiv (pHeight b) (pTilePy b)
def pTiles (b : List Byte) : Nat := pTx b * pTy b

/-- P of R245. -/
def pSubPixels (b : List Byte) : Nat := 16 * pTileW b * pTileH b

/-- Bytes of one attachment's region of a tile slot. -/
def regionSize (b : List Byte) (t : Att) : Nat := ceilDiv (pSubPixels b * pSamples b * t.bpp) 64 * 64

/-- Offset of an attachment's region in a tile slot: those of lower slots come first. -/
def regionBase (b : List Byte) (i : Nat) : Nat :=
  (((pAtts b).filter (fun q => decide (q.1 < i))).map (fun q => regionSize b q.2)).sum

/-- B of R245. -/
def pSlotBytes (b : List Byte) : Nat := ((pAtts b).map (fun q => regionSize b q.2)).sum

/-- Tile slots of a core with `n` steps. -/
def pSlots (b : List Byte) (n : Nat) : Nat := min 4 (32768 * n / pSlotBytes b)

/-- Chunks of the head table: 16 bytes a tile (R253). -/
def headChunks (b : List Byte) : Nat := ceilDiv (16 * pTiles b) 65536

/-! ### R242 -/

/-- One attachment of a pass. RPITCH is checked where the attachment names a resolved image (DEDUCED, log 141). -/
def attOk (b : List Byte) (i : Nat) (t : Att) : Bool :=
  let fit := fun (pitch row : Nat) => decide (row ≤ 64 * pitch)
  (if i = 0 then fmtIsDepth t.format else fmtIsColour t.format) &&
  vaOk t.va 64 && vaOk t.resolveVa 64 && decide (t.load ≤ 2) && decide (t.store ≤ 3) && t.pad == 0 &&
  !(t.resolves && (i == 0 || pSamples b == 1)) &&
  !(t.va == 0 && (t.load == 1 || t.stores)) && !(t.resolveVa == 0 && t.resolves) &&
  fit t.pitch (pSamples b * pWidth b * t.bpp) &&
  (!(t.resolves || t.resolveVa != 0) || fit t.rpitch (pWidth b * t.bpp)) && allZero t.clear t.bpp (8 - t.bpp)

/-- An absent attachment holds a FORMAT of 0; of its other fields only the reserved byte is checked (R12, R241). -/
def passOk (b : List Byte) (steps : Nat) : Bool :=
  let direct := pDirect b
  decide (1 ≤ pWidth b) && decide (pWidth b ≤ 16384) && decide (1 ≤ pHeight b) && decide (pHeight b ≤ 16384) &&
  decide (1 ≤ pTileW b) && decide (pTileW b ≤ 8) && decide (1 ≤ pTileH b) && decide (pTileH b ≤ 8) &&
  (pSamples b == 1 || pSamples b == 4) && decide (pMode b < 8) &&
  vaOk (pDrawVa b) 128 && vaOk (pHamperVa b) 65536 && decide (pHamperChunks b ≤ 65535) && decide (pExtMax b ≤ 4096) &&
  allZero b 0x1E 2 && decide (pReserveVa b < 2 ^ 48) && vaOk (pRinseVa b) 256 && decide (pViewportsVa b < 2 ^ 48) &&
  vaOk (pStatVa b) 64 && allZero b 0xE0 32 &&
  decide (pTiles b ≤ 65536) && !(pAtts b).isEmpty && (pAtts b).all (fun q => attOk b q.1 q.2) &&
  [0, 1, 2, 3, 4].all (fun i => (attOf b i).pad == 0) &&
  (direct || (decide (headChunks b + 1 + ceilDiv (pTiles b) 256 ≤ pHamperChunks b) && decide (2 ≤ pSlots b steps))) &&
  !(pAllowRinse b && pRinseVa b == 0) && !(pAllowExtend b && pReserveVa b == 0) &&
  !(direct && (pSamples b == 4 || pAllowRinse b || pAllowExtend b))

/-! ### Draw descriptor (R247, R248) -/

def wNextVa (b : List Byte) : Nat := fieldNat b 0x00 8
def wVsVa (b : List Byte) : Nat := fieldNat b 0x08 8
def wFsVa (b : List Byte) : Nat := fieldNat b 0x10 8
def wResVa (b : List Byte) : Nat := fieldNat b 0x18 8
def wConstVa (b : List Byte) : Nat := fieldNat b 0x20 8
def wIndexVa (b : List Byte) : Nat := fieldNat b 0x28 8
def wCount (b : List Byte) : Nat := fieldNat b 0x30 4
def wInstances (b : List Byte) : Nat := fieldNat b 0x34 4
def wBaseVertex (b : List Byte) : Nat := fieldNat b 0x38 4
def wFirstInstance (b : List Byte) : Nat := fieldNat b 0x3C 4
def wPrim (b : List Byte) : Nat := fieldNat b 0x40 4
def wFsRegs (b : List Byte) : Nat := 8 * bitsOf (wPrim b) 31 24
def wVsRegs (b : List Byte) : Nat := 8 * bitsOf (wPrim b) 23 16
def wLate (b : List Byte) : Bool := bitOf (wPrim b) 15
def wEarlyOk (b : List Byte) : Bool := bitOf (wPrim b) 14
def wOrdered (b : List Byte) : Bool := bitOf (wPrim b) 13
def wRestart (b : List Byte) : Bool := bitOf (wPrim b) 12
def wVaryings (b : List Byte) : Nat := bitsOf (wPrim b) 11 8
def wCcw (b : List Byte) : Bool := bitOf (wPrim b) 6
def wCull (b : List Byte) : Nat := bitsOf (wPrim b) 5 4
def wIndex (b : List Byte) : Nat := bitsOf (wPrim b) 3 2
def wTopology (b : List Byte) : Nat := bitsOf (wPrim b) 1 0
def wDepth (b : List Byte) : Nat := fieldNat b 0x44 4
def wDepthFunc (b : List Byte) : Nat := bitsOf (wDepth b) 2 0
def wDepthTest (b : List Byte) : Bool := bitOf (wDepth b) 3
def wDepthWrite (b : List Byte) : Bool := bitOf (wDepth b) 4
def wDepthClamp (b : List Byte) : Bool := bitOf (wDepth b) 5
def wStencilFront (b : List Byte) : Nat := fieldNat b 0x48 8
def wStencilBack (b : List Byte) : Nat := fieldNat b 0x50 8
def wBlend (b : List Byte) (a : Nat) : Nat := fieldNat b (0x58 + 2 * a) 2
def wBlendConst (b : List Byte) (i : Nat) : Nat := fieldNat b (0x60 + 2 * i) 2
/-- X0, Y0, X1, Y1. -/
def wScissor (b : List Byte) (i : Nat) : Nat := fieldNat b (0x68 + 2 * i) 2
def wViewport (b : List Byte) : Nat := bitsOf (fieldNat b 0x70 4) 3 0

/-! ### How far a pass has come (R244, R275, R277) -/

def Pass.direct (q : Pass) : Bool := pDirect q.desc

/-- A phase is entered; a pass that folds enters it when it is unfolded. -/
def Pass.enter (q : Pass) (ph : PassPhase) : Pass :=
  if q.phase = .folding then { q with resume := ph } else { q with phase := ph }

/-- The phase that the pass is in, folding apart. -/
def Pass.stage (q : Pass) : PassPhase := if q.phase = .folding then q.resume else q.phase

def TileFlight.settled (f : TileFlight) : Bool := f.quads.isEmpty && f.pendingFrags.isEmpty && f.done.isEmpty

/-- Everything of the pass has been drawn. -/
def Pass.drawn (q : Pass) : Bool :=
  if q.direct then decide (q.phase = .direct) && q.drawVa == 0 && q.fan.isEmpty && q.tiles.all TileFlight.settled
  else decide (q.phase = .tile) && decide (pTiles q.desc ≤ q.nextTile) && q.tiles.isEmpty

end Sys2Proof.Machine
end

