-- ==== Sys2Proof/Machine/Shares.lean ====
section
/-! DEFINITION. Sys2Proof/Machine/Shares.lean: what the cores of a die have room for: partitions of tile memory, pipes,
carves, and placing groups on them (R131 to R134, R201 to R206, R223, R326). -/
namespace Sys2Proof.Machine

/-! ### L1s -/

def L1.fresh (c : CoreLoc) : L1 :=
  { loc := c, lines := [], miss := [], merge := [], side := [], fetching := [], carve := 0, carveJob := none,
    carveMem := [], errs := [], retired := [] }

/-- A core's L1; one that is not listed is as after reset. -/
def Die.l1 (x : Die) (c : CoreLoc) : L1 := (x.cache.l1s.find? (fun t => decide (t.loc = c))).getD (L1.fresh c)

def Die.setL1 (x : Die) (t : L1) : Die :=
  { x with cache.l1s :=
      if x.cache.l1s.any (fun u => decide (u.loc = t.loc)) then
        updWhere (fun u => decide (u.loc = t.loc)) (fun _ => t) x.cache.l1s
      else x.cache.l1s ++ [t] }

def Die.onL1 (x : Die) (c : CoreLoc) (f : L1 → L1) : Die := x.setL1 (f (x.l1 c))

/-! ### Tile memory (R201 to R206) -/

def tlmSteps : List Nat := List.range 16

/-- Steps of a cluster that hold a partition or are being zeroed. -/
def Die.busySteps (x : Die) (cl : Fin 6) : BitVec 16 :=
  (x.sh.parts.filter (fun q => decide (q.cl = cl))).foldl (fun m q => m ||| q.mask) (x.sh.zeroing[cl])

def Die.freeSteps (x : Die) (cl : Fin 6) : List Nat := tlmSteps.filter (fun s => !(x.busySteps cl).getLsbD s)

def maskOf (steps : List Nat) : BitVec 16 := steps.foldl (fun m s => m ||| ((1 : BitVec 16) <<< s)) 0

/-- Partition slots of a cluster in use. -/
def Die.partSlots (x : Die) (cl : Fin 6) : List (Fin 4) :=
  (x.sh.parts.filter (fun q => decide (q.cl = cl))).map (fun q => q.slot)

/-- The partition of a job on a cluster. -/
def Die.part? (x : Die) (slot : Nat) (cl : Fin 6) : Option Partition :=
  x.sh.parts.find? (fun q => q.job == slot && decide (q.cl = cl))

/-- R205 lets a partition of `n` steps be given. -/
def Die.partFits (x : Die) (cl : Fin 6) (n : Nat) : Bool :=
  decide ((x.partSlots cl).length < 4) && decide (n ≤ (x.freeSteps cl).length)

/-- The lowest free steps and the lowest free partition slot (R205). -/
def Die.givePart (x : Die) (cl : Fin 6) (slot ctx kind n : Nat) : Die :=
  let used := x.partSlots cl
  let k := (([0, 1, 2, 3] : List (Fin 4)).find? (fun k => !used.contains k)).getD 0
  let q : Partition := { cl := cl, slot := k, job := slot, ctx := ctx, kind := kind,
                         mask := maskOf ((x.freeSteps cl).take n) }
  { x with sh.parts := x.sh.parts ++ [q] }

/-- The byte of a cluster's tile memory at a physical offset of a core's slice. -/
def tlmAddr (c : CoreLoc) (ofs : Nat) : Nat := c.cl.val * 2 ^ 23 + c.core.val * 2 ^ 19 + ofs

/-- The physical offset of a logical one (R203), if the partition reaches it. -/
def tlmPhys (mask : BitVec 16) (ofs : Nat) : Option Nat :=
  ((tlmSteps.filter (fun s => mask.getLsbD s))[ofs / 32768]?).map (fun s => s * 32768 + ofs % 32768)

/-- A partition is taken back: its steps are zeroed before they become free (R206). -/
def Die.takePart (x : Die) (slot : Nat) (cl : Fin 6) : Die :=
  match x.part? slot cl with
  | none => x
  | some q =>
    { x with sh.parts := x.sh.parts.filter (fun r => !(r.job == slot && decide (r.cl = cl))),
             sh.zeroing := vmod x.sh.zeroing cl (fun m => m ||| q.mask) }

/-! ### Pipes (R133, R134) -/

def pipeIds : List (Fin 4) := [0, 1, 2, 3]
def clusterIds : List (Fin 6) := [0, 1, 2, 3, 4, 5]
def coreIds : List (Fin 16) := [0, 1, 2, 3, 4, 5, 6, 7, 8, 9, 10, 11, 12, 13, 14, 15]

def Die.onPipe (x : Die) (c : CoreLoc) (p : Fin 4) : List Group :=
  x.sh.groups.filter (fun t => decide (coreOf t.loc = c) && decide (t.loc.pipe = p))

def Die.onCore (x : Die) (c : CoreLoc) : List Group := x.sh.groups.filter (fun t => decide (coreOf t.loc = c))

def regsUsed (gs : List Group) : Nat := (gs.map (fun t => t.regs.length)).sum
def accsUsed (gs : List Group) : Nat := (gs.map (fun t => t.accs.length)).sum

/-- Groups of `g` registers and `a` accumulators that a pipe has room for. -/
def Die.pipeRoom (x : Die) (c : CoreLoc) (p : Fin 4) (g a : Nat) : Nat :=
  let gs := x.onPipe c p
  let n := min (16 - gs.length) ((512 - regsUsed gs) / g)
  if a = 0 then n else min n ((128 - accsUsed gs) / a)

/-- R223: a carve has room on an empty core, or on a core that is already carved for the job. -/
def Die.carveFits (x : Die) (c : CoreLoc) (slot carve : Nat) : Bool :=
  carve == 0 || (x.onCore c).isEmpty || ((x.l1 c).carve == carve && (x.l1 c).carveJob == some slot)

def Die.coreRoom (x : Die) (c : CoreLoc) (g a : Nat) : Nat := (pipeIds.map (fun p => x.pipeRoom c p g a)).sum

/-- A core takes `n` groups of a job together. -/
def Die.coreFits (x : Die) (c : CoreLoc) (slot carve g a n : Nat) : Bool :=
  x.carveFits c slot carve && decide (n ≤ x.coreRoom c g a)

/-- The pipe of a core that R132 chooses: the most free group slots among those with room, lowest index first. -/
def Die.bestPipe (x : Die) (c : CoreLoc) (g a : Nat) : Option (Fin 4 × Nat) :=
  pipeIds.foldl (fun (r : Option (Fin 4 × Nat)) p =>
    if x.pipeRoom c p g a = 0 then r else
    let free := 16 - (x.onPipe c p).length
    match r with
    | some (_, n) => if n < free then some (p, free) else r
    | none => some (p, free)) none

/-- The core that R132 chooses among some clusters for `n` groups placed together. -/
def Die.bestCore (x : Die) (cls : List (Fin 6)) (slot carve g a n : Nat) : Option CoreLoc :=
  (cls.foldl (fun r cl => coreIds.foldl (fun (r : Option (CoreLoc × Nat)) k =>
    let c : CoreLoc := { cl := cl, core := k }
    if !x.coreFits c slot carve g a n then r else
    match x.bestPipe c g a, r with
    | some (_, m), some (_, b) => if b < m then some (c, m) else r
    | some (_, m), none => some (c, m)
    | none, _ => r) r) (none : Option (CoreLoc × Nat))).map (fun q => q.1)

/-- The lowest free slot of a pipe. -/
def Die.freeGroupSlot (x : Die) (c : CoreLoc) (p : Fin 4) : Fin 16 :=
  (coreIds.find? (fun k => !((x.onPipe c p).any (fun t => decide (t.loc.slot = k))))).getD 0

/-! ### New groups -/

/-- What a register of a new group holds before anything writes it: a free value of occurrence `n`. -/
def freshLanes (n i : Nat) : Lanes := Vector.ofFn (fun t : Fin 64 => Config.lane n i t.val)

def Arrival.empty : Arrival := { mask := 0, pc := 0, mixed := false }

/-- Numeric status 0 (R194), scale registers 0x7F (R179), nobody arrived; registers, accumulators and predicates are free
values until written. -/
def newGroup (n : Nat) (l : GrpLoc) (job ctx stamp g a : Nat) (pc : BitVec 48) (active : BitVec 64) (st : Stage) : Group :=
  { loc := l, job := job, ctx := ctx, idx := 0, wg := 0, rank := 0, stamp := stamp, wait := 0, pc := pc, active := active,
    exited := ~~~active, regs := (List.range g).map (freshLanes n), accs := (List.range a).map (fun i => freshLanes n (256 + i)),
    preds := Vector.ofFn (fun i : Fin 7 => Config.dword (8 * n + i.val)), arrivals := Vector.replicate 9 Arrival.empty,
    stack := [], scales := Vector.replicate 8 (Vector.replicate 64 0x7F), gstat := 0, ovf := 0, sat := 0, nan := 0,
    timeHi := 0, frozen := none, stopped := false, foldTime := 0, fence := none, loads := [], atomics := [], stage := st, frags := [],
    out := [], ilk := 0, ilkWait := false }

/-- A group of a pass is its own workgroup, and counts in its job in the order of dispatch, which R136 does not spell out for a
pass (DEDUCED, log 150). -/
def Group.numbered (n : Nat) (t : Group) : Group := { t with idx := n, wg := n }

/-- A register of a group holds one value in every thread. -/
def Group.fillReg (t : Group) (i : Nat) (v : Nat → Word) : Group :=
  { t with regs := t.regs.set i (Vector.ofFn (fun k : Fin 64 => v k.val)) }

/-- Carves a core for a job before its first group there (R223): the carved ways are invalidated and zeroed. -/
def Die.carveCore (x : Die) (c : CoreLoc) (slot carve : Nat) : Die :=
  if carve = 0 then x else
  let t := x.l1 c
  if t.carveJob = some slot then x else
  x.setL1 { t with carve := carve, carveJob := some slot, carveMem := [],
                   lines := t.lines.filter (fun l => decide (l.way < 8 - 2 * carve)) }

/-- Places one group on a core (R132). -/
def Die.placeGroup (x : Die) (c : CoreLoc) (g a : Nat) (mk : Nat → GrpLoc → Nat → Group) : Die :=
  match x.bestPipe c g a with
  | none => x
  | some (p, _) =>
    let l : GrpLoc := { cl := c.cl, core := c.core, pipe := p, slot := x.freeGroupSlot c p }
    { x with sh.groups := x.sh.groups ++ [mk x.free l (x.sh.stamp + 1)], sh.stamp := x.sh.stamp + 1 }.tick

/-! ### Taking a share's resources back -/

/-- A carve that no job holds any more goes once no group is resident on its core (R223): the ways serve as cache again. -/
def Die.settleCarves (x : Die) : Die :=
  { x with cache.l1s := x.cache.l1s.map (fun t =>
      if t.carve ≠ 0 ∧ t.carveJob = none ∧ (x.onCore t.loc).isEmpty then { t with carve := 0, carveMem := [] } else t) }

/-- Groups leave their pipes; what waited for them in a miss register is dropped. -/
def Die.dropGroups (x : Die) (gone : Group → Bool) : Die :=
  let locs := (x.sh.groups.filter gone).map (fun t => t.loc)
  let clean : L1 → L1 := fun t =>
    { t with miss := t.miss.map (fun m => { m with reqs := m.reqs.filter (fun r => !locs.contains r.grp) }) }
  let x := x.forget (fun m => match m with
    | .group g => locs.contains g
    | .texture g => locs.contains g
    | _ => false)
  ({ x with sh.groups := x.sh.groups.filter (fun t => !gone t), cache.l1s := x.cache.l1s.map clean } : Die).settleCarves

/-- A job's carves on a cluster are held no longer. -/
def Die.dropCarve (x : Die) (slot : Nat) (cl : Fin 6) : Die :=
  ({ x with cache.l1s := x.cache.l1s.map (fun t =>
      if decide (t.loc.cl = cl) && t.carveJob == some slot then { t with carveJob := none, carveMem := [] } else t) } : Die).settleCarves

/-- A share's groups, partition and carve are taken back. -/
def Die.takeShare (x : Die) (slot : Nat) (cl : Fin 6) : Die :=
  ((x.dropGroups (fun t => t.job == slot && decide (t.loc.cl = cl))).takePart slot cl).dropCarve slot cl

def Die.takeAllShares (x : Die) (slot : Nat) : Die := clusterIds.foldl (fun y cl => y.takeShare slot cl) x

/-! ### Room for a share (R326, R328) -/

/-- A cluster has room for a share of a job. -/
def Die.shareFits (x : Die) (slot : Nat) (b : List Byte) (cl : Fin 6) : Bool :=
  x.partFits cl (dSteps b) &&
  (dKind b != 0 || coreIds.any (fun k => x.coreFits { cl := cl, core := k } slot (dCarve b) (dRegs b) (dAccs b) (dWg b)))

/-- The die as it will be once the shares of some jobs on a cluster have been folded and their steps zeroed. -/
def Die.without (x : Die) (cl : Fin 6) (slots : List Nat) : Die :=
  let y := slots.foldl (fun y s => y.takeShare s cl) x
  { y with sh.zeroing := vmod y.sh.zeroing cl (fun _ => 0) }

/-- Bytes that a fold of a job's share on a cluster saves (R343). -/
def Die.foldBytes (x : Die) (j : Job) (cl : Fin 6) : Nat :=
  16 * 32768 * dSteps j.desc +
  (x.sh.groups.filter (fun t => t.job == j.slot && decide (t.loc.cl = cl))).length * dGrec j.desc

end Sys2Proof.Machine
end

