-- ==== Sys2Proof/Machine/JobCore.lean ====
section
/-! DEFINITION. Sys2Proof/Machine/JobCore.lean: copying descriptors into slots, ending jobs, and their end sequence
(R317 to R323, R345, R346). -/
namespace Sys2Proof.Machine

/-! ### End statuses (R322) -/

def jsOk : Byte := 0x00
def jsKilled : Byte := 0x10
def jsCancelled : Byte := 0x11
def jsDeadlineMissed : Byte := 0x12
def jsPairMismatch : Byte := 0x13
def jsHamperExhausted : Byte := 0x14
def jsBadDescriptor : Byte := 0x15
def jsFoldLate : Byte := 0x16
def jsParity : Byte := 0x17

/-- Bits of FLAGS in an end record (R323). -/
def jfDegraded : Byte := 0x01
def jfUnchecked : Byte := 0x02
def jfLate : Byte := 0x04
def jfRestarted : Byte := 0x08
def jfPairTimeout : Byte := 0x10

def Job.live (j : Job) : Bool := decide (j.state ≠ .ended)

/-! ### Context state (R77) -/

/-- A context without jobs that are queued or running leaves RUNNING; one with such jobs leaves OPEN. -/
def Die.settleCtx (x : Die) (c : Nat) : Die :=
  let busy := x.jobs.list.any (fun j => j.ctx == c && j.live)
  x.updCtx c (fun t => match t.state with
    | .opened => if busy then { t with state := .running } else t
    | .running => if busy then t else { t with state := .opened }
    | .free => t
    | .suspended => t
    | .faulted => t)

/-! ### Writing a wringer job's counts (R440, R441) -/

def wrgCounts (j : Job) : List Byte :=
  let r := j.wrg
  putField (putField (putField (putField r.par 0x03 (leBytes 1 r.result)) 0x04 (leBytes 4 r.blocks)) 0x30
    (leBytes 8 r.inDone)) 0x38 (leBytes 8 r.outDone)

/-- The counts are written to the parameter block; a write that cannot be made leaves it. -/
def writeWrgCounts (p x : Die) (e : Fin 8) (slot : Nat) : Die :=
  match x.job? slot with
  | none => x
  | some j =>
    if j.wrg.par.isEmpty then x else
    let va := dWorkVa j.desc
    match tryUnit p x (.wringer e) j.ctx [{ va := va, len := 64, acc := accWrite }] with
    | (x, .ok pm) => storeBytes p x j.ctx pm va (wrgCounts j)
    | (x, .error _) => x

/-! ### Ending (R319, R322) -/

def wringerIds : List (Fin 8) := [0, 1, 2, 3, 4, 5, 6, 7]

/-- The engines of a job are released; a wringer job's counts are written first. -/
def releaseEngines (p x : Die) (slot : Nat) : Die :=
  let x := wringerIds.foldl (fun y e =>
    if (y.wringers[e]).job == some slot then
      let y := (writeWrgCounts p y e slot).forget (fun m => decide (m = .wringer e))
      { y with wringers := vmod y.wringers e (fun _ => Wringer.reset) }
    else y) x
  let x := x.forget (fun m => match m with
    | .copy e => (x.jobs.copies[e]).job == some slot
    | .frontEnd q => (x.passes[q]).any (fun t => t.job == slot)
    | .raster _ q => (x.passes[q]).any (fun t => t.job == slot)
    | _ => false)
  { x with jobs.copies := x.jobs.copies.map (fun c => if c.job == some slot then CopyEng.reset else c) }

/-- Extension chunks of a pass that ends early are handed back (R258): firmware clears their MAP bits where the context's
tables still reach them, and freezes nothing (DEDUCED, log 88). -/
def handBack (p x : Die) (q : Pass) (cs : List Nat) : Die :=
  cs.foldl (fun (y : Die) c =>
    let va := pReserveVa q.desc + 16 + c / 8
    match tryUnit p y (.frontEnd 0) q.ctx [{ va := va, len := 1, acc := accRead }, { va := va, len := 1, acc := accWrite }] with
    | (z, .ok pm) => storeBytes p z q.ctx pm va ((viewBytes z pm va 1).map (fun b => b &&& ~~~((1 : Byte) <<< (c % 8))))
    | (_, .error _) => y) x

/-- A job's pass, with its chunks but those that its image keeps, leaves its slot of the front end. -/
def Die.dropPass (x : Die) (p : Die) (slot : Nat) (kept : List Nat) : Die :=
  let mine := x.passes.toList.filterMap (fun o => o.filter (fun q => q.job == slot))
  let x := mine.foldl (fun y q => handBack p y q (q.exts.filter (fun c => !kept.contains c))) x
  { x with passes := x.passes.map (fun o => match o with
      | some q => if q.job = slot then none else some q
      | none => none) }

/-- A job gives back everything it holds: shares, pass slot, engines and fold images. -/
def dropJobWork (p x : Die) (slot : Nat) : Die :=
  let x := (releaseEngines p (x.takeAllShares slot) slot).dropPass p slot []
  let x := match x.jobs.parked.lookup slot with
    | some q => handBack p x q q.exts
    | none => x
  { x with jobs.parked := x.jobs.parked.filter (fun e => e.1 != slot) }

/-- A job stops for good: it leaves what it holds, and its context leaves RUNNING with its last live job (R77). -/
def stopJob (p x : Die) (slot ctx : Nat) (st : Option Byte) : Die :=
  let x := dropJobWork p x slot
  let now := x.time
  let fin : Job → Job := fun j => { j with state := .ended, status := st, endTime := now, endStep := 0, shares := [],
                                           claims := [], held := none, preemptSince := none }
  (x.updJob slot fin).settleCtx ctx

/-- No held fault waits for a job that has stopped (R377). -/
def forgetJob (slot : Nat) (x : Die) : Die :=
  x.forget (fun m => match m with
    | .cmdProc _ (some k) => k == slot
    | .stream _ k => k == slot
    | _ => false)

/-- CLOSE_CONTEXT discards a job that has not begun: it does not end with a status, and counts as no end (R78). -/
def discardJob (p x : Die) (slot : Nat) : Die :=
  match x.job? slot with
  | none => x
  | some j => forgetJob slot (stopJob p x slot j.ctx none)

/-- A job's end status is fixed (R319). -/
def endJob (p x : Die) (slot : Nat) (st : Byte) : Die :=
  match x.job? slot with
  | none => x
  | some j =>
    if j.state = .ended then x else
    let x := forgetJob slot ((stopJob p x slot j.ctx (some st)).count .jobEndCnt)
    if st = jsBadDescriptor then (x.flag .jobFlags 2).count .jobBadDescCnt
    else if st = jsFoldLate then (x.flag .jobFlags 3).count .jobFoldLateCnt
    else if st = jsDeadlineMissed then (x.flag .jobFlags 1).count .jobMissedCnt
    else x

/-- A descriptor that fails R325 ends its job, with a record (R325, R490). -/
def badDescriptor (p x : Die) (slot va : Nat) : Die :=
  match x.job? slot with
  | none => x
  | some j => (endJob p x slot jsBadDescriptor).note clsBadDescriptor (.cmdProc j.ctx (some slot)) (FaultInfo.plain j.ctx va)

/-! ### Copying (R317, R318) -/

def WrgRun.none : WrgRun := { par := [], blocks := 0, inDone := 0, outDone := 0, result := 0 }

def mkJob (slot : Nat) (id : Word) (ctx order key : Nat) (b : List Byte) (paired : Bool) : Job :=
  { slot := slot, id := id, ctx := ctx, desc := b, state := .waiting, order := order, released := 0, start := 0,
    endTime := 0, status := none, flags := 0, folds := 0, dispatched := 0, done := 0, shares := [], preemptSince := none,
    nextChk := 0, lastChk := 0xFF, deadline := 0, projected := 0, isKid := false, kidAt := 0, kidDue := false,
    restarts := 0, paired := paired, key := key, wrg := WrgRun.none, mine := [], theirs := [], theirTags := none, myTags := [],
    tagged := false, myVote := none, theirVote := none, pairOk := none, expired := false, again := [], claims := [], timedOut := false,
    endStep := 0, held := none }

/-- A job whose fence is reached, or that waits on none, is released unless its context is suspended (R319). -/
def Die.releaseJob (x : Die) (slot : Nat) : Die :=
  match x.job? slot with
  | none => x
  | some j =>
    if j.state = .waiting ∧ x.ctxState j.ctx ≠ .suspended then
      let now := x.time
      x.updJob slot (fun j => { j with state := .released, released := now })
    else x

/-- A descriptor is copied into a slot: the serial number advances first, and a bad descriptor ends its job at once. `id`
names the job on a die that copies it for its partner. -/
def copyJob (p x : Die) (ctx slot key : Nat) (id : Option Word) (va : Nat) (b : List Byte) : Die :=
  let serial := x.jobs.serial + 1
  let jid : Word := id.getD (BitVec.ofNat 32 (slot + 4096 * serial.toNat))
  let j := mkJob slot jid ctx (x.jobs.order + 1) key b (x.runsPaired ctx b)
  let l := x.jobs.list.filter (fun t => t.slot != slot) ++ [j]
  let x : Die := { x with jobs.serial := serial, jobs.order := x.jobs.order + 1, jobs.list := l }
  let x := x.count .jobCopyCnt
  if !descOk x ctx false b then badDescriptor p x slot va
  else
    let x := x.settleCtx ctx
    if dWaitVa b = 0 then x.releaseJob slot else x

/-- The free slot of lowest index. -/
def Die.freeJobSlot (x : Die) : Option Nat :=
  (List.range 4096).find? (fun k => !(x.jobs.list.any (fun j => j.slot == k)))

/-! ### Progress and deadlines (R345, R346) -/

/-- The die's own count for a job, by PROG_SRC. -/
def Job.count (j : Job) : Nat := if dKind j.desc = 2 then ceilDiv j.done 4096 else j.done

/-- The pass of a job. -/
def Die.passOf (x : Die) (slot : Nat) : Option (Fin 4 × Pass) :=
  pipeIds.findSome? (fun p => match x.passes[p] with
    | some q => if q.job = slot then some (p, q) else none
    | none => none)

/-- A job's pass is binning, in its slot or in its fold image. -/
def Die.binning (x : Die) (slot : Nat) : Bool :=
  match x.passOf slot with
  | some (_, q) => decide (q.stage = .binning)
  | none => (x.jobs.parked.lookup slot).any (fun q => decide (q.stage = .binning))

/-- The die's count for a job; a render pass that bins shows 0 (R346). -/
def Die.countOf (x : Die) (j : Job) : Nat := if dKind j.desc = 1 ∧ x.binning j.slot then 0 else j.count

/-- Progress w, or none while the read of the progress word is held. A descriptor refused for its PROG_VA names no
progress word: the die's own count stands (DEDUCED, log entry 79). -/
def readProgress (p x : Die) (j : Job) : Die × Option Nat :=
  let cap := dWorkTotal j.desc
  if dProgSrc j.desc = 3 ∧ progOk j.desc then
    match readUnit p x (.cmdProc j.ctx (some j.slot)) j.ctx (dProgVa j.desc) 8 accRead with
    | (x, some bs) => (x, some (min (ofLe bs) cap))
    | (x, none) => (x, none)
  else (x, some (min (x.countOf j) cap))

/-- The deadline D of R345 in SCLK cycles; none while a display pipe that D counts on is disabled, when D has passed. -/
def Die.deadlineOf (x : Die) (j : Job) : Option Int :=
  match dDlMode j.desc with
  | 1 => some (j.released.toNat + 400 * dDlValue j.desc : Nat)
  | 2 =>
    let pi := Fin.ofNat 4 (dDlPipe j.desc)
    let q := x.pipes[pi]
    if !q.en then none else
    let ht := x.fld .dspPipeHtiming [pi.val] 31 16
    let vt := x.fld .dspPipeVtiming [pi.val] 31 16
    let pclk := x.fld .dspPipePclk [pi.val] 20 0
    let m : Int := (BitVec.ofNat 32 (dDlValue j.desc) - q.frame).toInt
    some ((q.lastBoundary.toNat : Int) + m * ((ht * vt * 400000 : Nat) : Int) / ((if pclk = 0 then 1 else pclk : Nat) : Int))
  | _ => none

/-- MARGIN in SCLK cycles. -/
def marginCycles (j : Job) : Int := 400 * dMargin j.desc

/-- D has passed by a margin. -/
def Die.deadlinePassed (x : Die) (j : Job) (margin : Int) : Bool :=
  match x.deadlineOf j with
  | some d => decide (d + margin ≤ (x.time.toNat : Int))
  | none => true

def dwordOfInt (v : Int) : DWord := BitVec.ofInt 64 v

/-! ### The end sequence (R321, R323) -/

/-- The end record. -/
def endRecord (j : Job) (w : Nat) : List Byte :=
  [j.status.getD 0, j.flags] ++ leBytes 2 (min j.folds 65535) ++ leBytes 4 j.id.toNat ++ leBytes 8 j.released.toNat ++
    leBytes 8 j.start.toNat ++ leBytes 8 j.endTime.toNat ++
    leBytes 8 (if dDlMode j.desc = 0 then 0 else j.deadline.toNat) ++ leBytes 4 w ++ [j.lastChk] ++ leBytes 3 0 ++
    leBytes 8 j.projected.toNat ++ leBytes 8 0

/-- The job is released: an unpaired job that ended OK, or a paired one whose comparison passed (R33, R34). -/
def Job.passes (j : Job) : Bool := j.status == some jsOk && (!j.paired || j.pairOk == some true)

/-- Step 1: the end record. -/
def endStep1 (p x : Die) (slot : Nat) : Die :=
  match x.job? slot with
  | none => x
  | some j =>
    if j.endStep ≠ 0 ∨ j.held.isSome then x else
    let va := dStatusVa j.desc
    let next := fun (y : Die) => y.updJob slot (fun j => { j with endStep := 1 })
    if va = 0 ∨ va % 64 ≠ 0 then next x else
    match readProgress p x j with
    | (x, none) => x
    | (x, some w) =>
      match writeUnit p x (.cmdProc j.ctx (some slot)) j.ctx va (endRecord j w) accWrite with
      | (x, true) => next x
      | (x, false) => x

/-- Step 2: the fence. -/
def endStep2 (p x : Die) (slot : Nat) : Die :=
  match x.job? slot with
  | none => x
  | some j =>
    if j.endStep ≠ 1 ∨ j.held.isSome then x else
    let va := dSigVa j.desc
    let next := fun (y : Die) => y.updJob slot (fun j => { j with endStep := 2 })
    if !j.passes || va == 0 || va % 8 != 0 then next x else
    match signalUnit p x (.cmdProc j.ctx (some slot)) j.ctx va (BitVec.ofNat 64 (dSigValue j.desc)) with
    | (x, some _) => next x
    | (x, none) => x

/-- Step 3: the follow-on, or the slot frees. -/
def endStep3 (p x : Die) (slot : Nat) : Die :=
  match x.job? slot with
  | none => x
  | some j =>
    if j.endStep ≠ 2 ∨ j.held.isSome then x else
    let va := dNextVa j.desc
    let chains := j.passes || (dFailChain j.desc && !j.paired && j.status != some jsOk)
    if va ≠ 0 ∧ va % 256 = 0 ∧ x.ctxState j.ctx ≠ .faulted ∧ chains then
      match readUnit p x (.cmdProc j.ctx (some slot)) j.ctx va 256 accRead with
      | (x, some b) => (copyJob p x j.ctx slot (j.key + 1) none va b).settleCtx j.ctx
      | (x, none) => x
    else ({ x with jobs.list := x.jobs.list.filter (fun t => t.slot != slot) }).settleCtx j.ctx

/-- An ended job whose comparison is not owed runs its end sequence (R321). -/
def endSequence (p x : Die) (slot : Nat) : Die :=
  match x.job? slot with
  | none => x
  | some j =>
    if j.state ≠ .ended ∨ (j.paired ∧ j.status = some jsOk ∧ j.pairOk = none) then x
    else endStep3 p (endStep2 p (endStep1 p x slot) slot) slot

def execJobEndSequence (d : DieId) (slot : Nat) (s : State) : Out :=
  nextOn d (fun x => endSequence (s.die d.other) x slot) s

/-! ### Waiting jobs (R319) -/

/-- The command processor reads a waiting job's fence. -/
def jobWaitPollDie (p x : Die) (slot : Nat) : Die :=
  match x.job? slot with
  | none => x
  | some j =>
    if j.state ≠ .waiting ∨ j.held.isSome ∨ x.ctxState j.ctx = .suspended ∨ x.pair.role = .standby then x
    else if dWaitVa j.desc = 0 then x.releaseJob slot
    else match fenceUnit p x (.cmdProc j.ctx (some slot)) j.ctx (dWaitVa j.desc) with
      | (x, some v) => if dWaitValue j.desc ≤ v.toNat then x.releaseJob slot else x
      | (x, none) => x

def execJobWaitPoll (d : DieId) (slot : Nat) (s : State) : Out :=
  nextOn d (fun x => jobWaitPollDie (s.die d.other) x slot) s

/-! ### Work done (R320) -/

/-- Every store of a job has been performed at the L2 slices. -/
def Die.storesDone (x : Die) (slot : Nat) : Bool :=
  x.cache.l1s.all (fun t => t.merge.all (fun e => !e.jobs.contains slot))

/-- The condition of R320 for a job's kind, stores apart. A render pass completes by PASS_COMPLETE. -/
def Die.workDone (x : Die) (j : Job) : Bool :=
  match dKind j.desc with
  | 0 => j.done == dCount j.desc && x.sh.groups.all (fun t => t.job != j.slot)
  | 2 => j.done == dCount j.desc
  | 3 => decide (j.wrg.result ≠ 0)
  | _ => false

/-- Everything of a running job has been done, stores included (R320). -/
def Die.workOver (x : Die) (j : Job) : Bool :=
  x.storesDone j.slot &&
  (if dKind j.desc = 1 then (x.passOf j.slot).any (fun q => !q.2.desc.isEmpty && q.2.drawn) && x.sh.groups.all (fun t => t.job != j.slot)
   else x.workDone j)

/-- A job ends OK: DEGRADED for a kid, LATE when done after D (R323, R348). JOB_LATE_CNT counts a paired job when it is
released (R351). -/
def finishJob (p x : Die) (slot : Nat) : Die :=
  match x.job? slot with
  | none => x
  | some j =>
    let late := decide (dDlMode j.desc ≠ 0) && x.deadlinePassed j 1
    let fl := (if j.isKid then jfDegraded else 0) ||| (if late then jfLate else 0)
    let x := endJob p (x.updJob slot (fun j => { j with flags := j.flags ||| fl })) slot jsOk
    if late && !j.paired then x.count .jobLateCnt else x

def jobWorkDoneDie (p x : Die) (slot : Nat) : Die :=
  match x.job? slot with
  | none => x
  | some j => if j.state = .running ∧ x.workDone j ∧ x.storesDone slot then finishJob p x slot else x

def execJobWorkDone (d : DieId) (slot : Nat) (s : State) : Out :=
  nextOn d (fun x => jobWorkDoneDie (s.die d.other) x slot) s

end Sys2Proof.Machine
end

