-- ==== Sys2Proof/Machine/Sched.lean ====
section
/-! DEFINITION. Sys2Proof/Machine/Sched.lean: the scheduler: placing jobs, preemption, requests to fold, dispatching groups
and the copy engines (R326 to R332, R336, R341, R485). -/
namespace Sys2Proof.Machine

/-- The scheduler starts work: the die runs, is not in SAFE and is not a standby (R485, R38). -/
def Die.schedules (x : Die) : Bool :=
  x.running && decide (x.dev = .active) && decide (x.pair.role ≠ .standby) && !x.unitFrozen 35 &&
  (x.pair.takeover.isNone || x.pair.jobsRestarted)

/-- The unit set of a job on some clusters holds units of one epoch (R472). -/
def Die.epochsAgree (x : Die) (j : Job) (cls : List (Fin 6)) : Bool :=
  let us := cls.map (fun c => c.val) ++ (if dKind j.desc = 1 then [34] else [])
  us.all (fun u => x.unitEpoch u == x.unitEpoch (us.headD 0))

/-- The work of a context may start: it is neither suspended nor faulted. -/
def Die.ctxStarts (x : Die) (c : Nat) : Bool :=
  decide (x.ctxState c ≠ .suspended) && decide (x.ctxState c ≠ .faulted) && decide (x.ctxState c ≠ .free)

/-! ### Order (R327) -/

/-- The first job is served before the second. -/
def servedBefore (a b : Job) : Bool :=
  let ka := (dClass a.desc, a.released.toNat, a.order)
  let kb := (dClass b.desc, b.released.toNat, b.order)
  decide (ka.1 < kb.1) || (ka.1 == kb.1 && (decide (ka.2.1 < kb.2.1) || (ka.2.1 == kb.2.1 && decide (ka.2.2 < kb.2.2))))

/-- A cluster is held for a job that is served before another (R327). -/
def Die.heldFor (x : Die) (j : Job) (cl : Fin 6) : Bool :=
  x.jobs.list.any (fun t => t.slot != j.slot && servedBefore t j && t.claims.contains cl)

def Job.holds (j : Job) (cl : Fin 6) : Bool :=
  j.shares.any (fun h => decide (h.cl = cl) && decide (h.state ≠ .folded) && decide (h.state ≠ .finished))

/-- Clusters of CL_MASK with room that no earlier job holds, in ascending index. -/
def Die.clustersFor (x : Die) (j : Job) : List (Fin 6) :=
  clusterIds.filter (fun cl => bitOf (dClMask j.desc) cl.val && !j.holds cl && !x.heldFor j cl && !x.unitFrozen cl.val &&
    x.shareFits j.slot j.desc cl)

/-- The saved groups of a folded share fit on the cores of a cluster (R330). -/
def Die.coresFit (x : Die) (j : Job) (h : Share) (cl : Fin 6) : Bool :=
  coreIds.all (fun k => (h.cores.getD k.val 0 == 0) ||
    x.coreFits { cl := cl, core := k } j.slot (dCarve j.desc) (dRegs j.desc) (dAccs j.desc) (h.cores.getD k.val 0))

/-- Clusters on which a folded share can be restored: with room for a share (R326), and on the same cores (R330). -/
def Die.unfoldClusters (x : Die) (j : Job) (h : Share) : List (Fin 6) :=
  clusterIds.filter (fun cl => bitOf (dClMask j.desc) cl.val && !j.holds cl && !x.heldFor j cl && !x.unitFrozen cl.val &&
    x.shareFits j.slot j.desc cl && (dKind j.desc != 0 || x.coresFit j h cl))

def Job.foldedShare (j : Job) : Option Share := j.shares.find? (fun h => decide (h.state = .folded))

def Die.freePass (x : Die) : Option (Fin 4) := pipeIds.find? (fun p => (x.passes[p]).isNone)

/-- A job could start, or a share of it unfold, on resources that are free now. -/
def Die.canStart (x : Die) (j : Job) : Bool :=
  decide (dKind j.desc ≤ 1) && x.ctxStarts j.ctx && j.held.isNone &&
  (match j.state with
   | .released => decide (dClCount j.desc ≤ (x.clustersFor j).length) && (dKind j.desc == 0 || x.freePass.isSome)
   | .running => match j.foldedShare with
     | some h => !(x.unfoldClusters j h).isEmpty
     | none => false
   | .waiting => false
   | .ended => false)

/-- No job served earlier could take what is free now. -/
def Die.isNext (x : Die) (j : Job) : Bool :=
  x.jobs.list.all (fun t => t.slot == j.slot || !servedBefore t j || !x.canStart t)

/-! ### Requests to fold (R335, R340, R341) -/

/-- Every thread that has not exited is parked (R332). -/
def Group.allParked (t : Group) : Bool :=
  t.exited ||| (t.arrivals.toList.foldl (fun m a => m ||| a.mask) 0) == BitVec.allOnes 64

/-- Step 1 of R335 for one share: its parked groups stop at once; the others stop at their next fold point. -/
def foldShareNow (x : Die) (slot : Nat) (cl : Fin 6) : Die :=
  let mark : Share → Share := fun h => if h.cl = cl ∧ h.state = .live then { h with state := .folding } else h
  let stop : Group → Group := fun t =>
    if t.job == slot && decide (t.loc.cl = cl) then { t with foldTime := 0, stopped := t.allParked } else t
  let x := x.updJob slot (fun j => { j with shares := j.shares.map mark })
  { x with sh.parts := updWhere (fun q => q.job == slot && decide (q.cl = cl)) (fun q => { q with kind := 2 }) x.sh.parts,
           sh.groups := x.sh.groups.map stop }

/-- A pass whose shares fold stops at its next primitive boundary (R275, R340). -/
def foldPass (x : Die) (slot : Nat) : Die :=
  { x with passes := x.passes.map (fun o => match o with
      | some q => if q.job = slot ∧ q.phase ≠ .folding then some { q with resume := q.phase, phase := .folding } else some q
      | none => none) }

/-- A share that can be folded: it is live, with every share of its pass (R340). -/
def Job.foldable (j : Job) (h : Share) : Bool :=
  decide (h.state = .live) && (dKind j.desc != 1 || j.shares.all (fun t => decide (t.state = .live)))

/-- A fold of a job's share is requested. A render pass folds whole; a paired job folds on both dies, and the partner is
told over CTL (R340). -/
def requestFold (x : Die) (slot : Nat) (cl : Fin 6) : Die :=
  match x.job? slot with
  | none => x
  | some j =>
    match j.shares.find? (fun h => decide (h.cl = cl) && j.foldable h) with
    | none => x
    | some h =>
      let x := if dKind j.desc = 1 then foldPass (j.shares.foldl (fun y t => foldShareNow y slot t.cl) x) slot
        else foldShareNow x slot cl
      if j.paired ∧ x.pair.bridgeUp then
        { x with pair.ctlOut := x.pair.ctlOut ++ [.foldRequest j.ctx j.key h.index] }
      else x

/-! ### Victims (R328) -/

/-- A list kept in order by a test "comes first". -/
def insertBy {α : Type} (first : α → α → Bool) (v : α) : List α → List α
  | [] => [v]
  | w :: ws => if first v w then v :: w :: ws else w :: insertBy first v ws

def sortBy {α : Type} (first : α → α → Bool) (l : List α) : List α := l.foldr (insertBy first) []

/-- Live shares on a cluster of jobs with a higher CLASS number: highest CLASS first, then latest started. -/
def Die.victims (x : Die) (j : Job) (cl : Fin 6) : List (Job × Share) :=
  let all := (x.jobs.list.map (fun t => (t.shares.filter (fun h => decide (h.cl = cl) && t.foldable h)).map
    (fun h => (t, h)))).flatten
  sortBy (fun a b => decide (dClass b.1.desc < dClass a.1.desc) ||
      (dClass a.1.desc == dClass b.1.desc && decide (b.2.started.toNat ≤ a.2.started.toNat)))
    (all.filter (fun v => decide (dClass j.desc < dClass v.1.desc)))

/-- The fewest of these victims, taken in order, whose folding makes room on the cluster. -/
def Die.victimsFor (x : Die) (j : Job) (cl : Fin 6) : Option (List (Job × Share)) :=
  let vs := x.victims j cl
  ((List.range vs.length).find? (fun i =>
    (x.without cl ((vs.take (i + 1)).map (fun v => v.1.slot))).shareFits j.slot j.desc cl)).map (fun i => vs.take (i + 1))

/-- The clusters of step 2, in its order. -/
def Die.foldClusters (x : Die) (j : Job) : List (Fin 6 × List (Job × Share)) :=
  let cand := clusterIds.filterMap (fun cl =>
    if bitOf (dClMask j.desc) cl.val && !j.holds cl && !x.heldFor j cl && !x.shareFits j.slot j.desc cl then
      (x.victimsFor j cl).map (fun vs => (cl, vs))
    else none)
  let key := fun (q : Fin 6 × List (Job × Share)) =>
    (listMin (q.2.map (fun v => dClass v.1.desc)), (q.2.map (fun v => x.foldBytes v.1 q.1)).sum, q.1.val)
  sortBy (fun a b =>
    let ka := key a
    let kb := key b
    decide (ka.1 < kb.1) || (ka.1 == kb.1 && (decide (ka.2.1 < kb.2.1) || (ka.2.1 == kb.2.1 && decide (ka.2.2 < kb.2.2)))))
    cand

/-! ### Starting (R326, R328) -/

/-- A pass slot takes a pass; PASS_START checks its descriptor. -/
def Pass.fresh (slot ctx : Nat) : Pass :=
  { job := slot, ctx := ctx, desc := [], phase := .binning, resume := .binning, segment := 1, drawVa := 0, drawNo := 0,
    draw := [], checked := false, inst := 0, position := 0, tri := 0, stripStart := 0, stripTri := 0, cuts := [], verts := [], draws := [], fan := [],
    nextChunk := 0, vChunk := 0, vOfs := 0, lChunk := 0, lSeg := 0, chunksUsed := 0, exts := [], extBase := 0, tails := [], served := 0, extWait := none,
    nextTile := 0, tiles := [], frozen := none, primsIn := 0, primsBinned := 0, primsCulled := 0, tilesRendered := 0,
    rinses := 0, extGranted := 0, extRefused := 0, peak := 0, samplesPassed := 0, halted := [] }

/-- All shares of a job start together on the given clusters. -/
def startShares (x : Die) (j : Job) (cls : List (Fin 6)) : Die :=
  let n := dSteps j.desc
  let now := x.time
  let x := cls.foldl (fun y cl => y.givePart cl j.slot j.ctx (dKind j.desc) n) x
  let mk : Nat × Fin 6 → Share := fun q =>
    { index := q.1, cl := q.2, state := .live, started := now, image := 0, wring := false, cores := [], fresh := [], ended := 0 }
  let hs := ((List.range cls.length).zip cls).map mk
  let x := x.updJob j.slot (fun t => { t with state := .running, start := if t.start = 0 then now else t.start, shares := hs, claims := [] })
  if dKind j.desc = 1 then
    match x.freePass with
    | some p => { x with passes := vmod x.passes p (fun _ => some (Pass.fresh j.slot j.ctx)) }
    | none => x
  else x

/-- Clusters in ascending index. -/
def inOrder (cls : List (Fin 6)) : List (Fin 6) := clusterIds.filter (fun c => cls.contains c)

/-- A released compute job or pass is placed (R328). -/
def startClusterJob (x : Die) (j : Job) : Die :=
  let n := dClCount j.desc
  let ready := x.clustersFor j
  if dKind j.desc = 1 ∧ x.freePass = none then x
  else if n ≤ ready.length then
    let own := ready.filter (fun c => j.claims.contains c)
    let cls := if j.claims.isEmpty then ready.take n
      else inOrder ((own ++ ready.filter (fun c => !j.claims.contains c)).take n)
    if x.epochsAgree j cls then startShares x j cls else x
  else if j.claims.any (fun cl => x.jobs.list.any (fun t => t.shares.any (fun h => decide (h.cl = cl) && decide (h.state = .folding))) ||
      x.sh.zeroing[cl] != 0) then x
  else
    let extra := (x.foldClusters j).take (n - ready.length)
    if ready.length + extra.length < n then x else
    let x := extra.foldl (fun y q => q.2.foldl (fun z v => (requestFold z v.1.slot q.1).count .jobPreemptCnt) y) x
    x.updJob j.slot (fun t => { t with claims := inOrder (ready ++ extra.map (fun q => q.1)) })

/-- A share begins to unfold on a cluster: it takes a partition, and its groups issue once UNFOLD_DONE has read them. A share
of which nothing was saved is live at once (R341). -/
def beginUnfold (x : Die) (j : Job) (h : Share) (cl : Fin 6) : Die :=
  let blank := h.image == 0
  let x := x.givePart cl j.slot j.ctx (if blank then dKind j.desc else 2) (dSteps j.desc)
  let now := x.time
  let go : Share → Share := fun t =>
    if t.index = h.index then { t with cl := cl, state := if blank then .live else .unfolding, started := now } else t
  x.updJob j.slot (fun t => { t with shares := t.shares.map go })

/-- The shares that unfold together, with their clusters: one of a compute job, all of a render pass (R330, R340); none while
there is no room. -/
def unfoldPlan (x : Die) (j : Job) (h : Share) (want : Fin 6 → Bool) : Option (List (Share × Fin 6)) :=
  if dKind j.desc = 1 then
    let hs := j.shares.filter (fun h => decide (h.state = .folded))
    let cls := (x.unfoldClusters j h).take hs.length
    if hs.length < j.shares.length ∨ x.freePass = none ∨ cls.length < hs.length ∨ !x.epochsAgree j cls then none
    else some (hs.zip cls)
  else
    let others := (j.shares.filter (fun t => decide (t.state ≠ .folded) && decide (t.state ≠ .finished))).map (fun t => t.cl)
    match (x.unfoldClusters j h).find? want with
    | none => none
    | some cl => if x.epochsAgree j (cl :: others) then some [(h, cl)] else none

/-- The pass of a job that unfolds takes a slot of the front end, where it waits until all its shares are live. -/
def reservePass (x : Die) (j : Job) : Die :=
  if dKind j.desc ≠ 1 then x else
  match x.freePass, x.jobs.parked.lookup j.slot with
  | some p, some q => { x with passes := vmod x.passes p (fun _ => some { q with phase := .folding, tiles := [], fan := [] }) }
  | _, _ => x

/-- A planned unfold begins. -/
def beginUnfolds (x : Die) (j : Job) (l : List (Share × Fin 6)) : Die :=
  reservePass (l.foldl (fun y q => beginUnfold y j q.1 q.2) x) j

/-! #### Copy and wringer jobs (R331, R441) -/

/-- The engine of a copy job of a higher class number, of the highest such class, that took its engine latest. -/
def Die.copyVictim (x : Die) (j : Job) : Option (Fin 4) :=
  (pipeIds.foldl (fun (r : Option (Fin 4 × Nat × Nat)) e =>
    let c := x.jobs.copies[e]
    match c.job with
    | none => r
    | some s => match x.job? s with
      | none => r
      | some t =>
        let k := dClass t.desc
        if k ≤ dClass j.desc ∨ c.frozen.isSome then r else
        match r with
        | some (_, k', n) => if k' < k ∨ (k' = k ∧ n < c.taken.toNat) then some (e, k, c.taken.toNat) else r
        | none => some (e, k, c.taken.toNat)) none).map (fun q => q.1)

def takeCopy (x : Die) (slot : Nat) (e : Fin 4) : Die :=
  let now := x.time
  let x := { x with jobs.copies := vmod x.jobs.copies e (fun _ => { job := some slot, taken := now, frozen := none }) }
  x.updJob slot (fun t => { t with state := .running, start := if t.start = 0 then now else t.start })

def startCopy (x : Die) (j : Job) : Die :=
  if pipeIds.any (fun e => (x.jobs.copies[e]).job == some j.slot) || j.done == dCount j.desc then x else
  match pipeIds.find? (fun e => (x.jobs.copies[e]).job == none) with
  | some e => takeCopy x j.slot e
  | none => match x.copyVictim j with
    | some e => takeCopy x j.slot e
    | none => x

/-- A parameter block that keeps R440, for a job that has not run. -/
def wrgParOk (b : List Byte) : Bool :=
  let dir := fieldNat b 0 1
  let ovf := fieldNat b 1 1
  decide (dir ≤ 1) && decide (ovf ≤ 1) &&
  (if dir = 0 then decide (12 ≤ fieldNat b 2 1) && decide (fieldNat b 2 1 ≤ 20) else fieldNat b 2 1 == 0) &&
  (fieldNat b 3 1 == 0 || fieldNat b 3 1 == 2) && vaOk (fieldNat b 0x08 8) 8 &&
  decide (1 ≤ fieldNat b 0x10 8) && decide (fieldNat b 0x10 8 ≤ 2 ^ 40) && vaOk (fieldNat b 0x18 8) (if ovf = 0 then 8 else 16) &&
  (if ovf = 0 then decide (8 ≤ fieldNat b 0x20 8) else fieldNat b 0x20 8 == 0) &&
  (if dir = 0 then vaOk (fieldNat b 0x28 8) 8 else fieldNat b 0x28 8 == 0)

/-- A fold through the wringer takes every engine as it becomes free (R338). -/
def Die.foldsWrung (x : Die) : Bool :=
  x.jobs.list.any (fun j => j.shares.any (fun h => decide (h.state = .folding) && h.wring))

/-- The lowest engine of JOB_MASK that is idle (R441). -/
def Die.freeWringer (x : Die) : Option (Fin 8) :=
  if x.foldsWrung then none else wringerIds.find? (fun e => (x.reg .wrgCfg).getLsbD e.val && (x.wringers[e]).use == 0)

/-- A wringer job takes an engine; at its first engine its parameter block is read and checked. -/
def startWringer (p x : Die) (j : Job) (e : Fin 8) : Die :=
  let now := x.time
  let take := fun (x : Die) (b : List Byte) =>
    let w : Wringer := { Wringer.reset with job := some j.slot, use := 1 + fieldNat b 0 1, ctx := j.ctx, taken := now }
    let x := { x with wringers := vmod x.wringers e (fun _ => w) }
    x.updJob j.slot (fun t => { t with state := .running, start := if t.start = 0 then now else t.start })
  if !j.wrg.par.isEmpty then take x j.wrg.par else
  match readUnit p x (.cmdProc j.ctx (some j.slot)) j.ctx (dWorkVa j.desc) 64 accRead with
  | (x, none) => x
  | (x, some b) =>
    if !wrgParOk b then badDescriptor p x j.slot (dWorkVa j.desc) else
    let r : WrgRun := { par := b, blocks := fieldNat b 4 4, inDone := fieldNat b 0x30 8, outDone := fieldNat b 0x38 8,
                        result := 0 }
    take (x.updJob j.slot (fun t => { t with wrg := r })) b

def Die.onWringer (x : Die) (slot : Nat) : Bool := wringerIds.any (fun e => (x.wringers[e]).job == some slot)

/-- No earlier copy or wringer job waits for an engine (R327). -/
def Die.engineNext (x : Die) (j : Job) : Bool :=
  x.jobs.list.all (fun t => t.slot == j.slot || dKind t.desc != dKind j.desc || !servedBefore t j ||
    decide (t.state = .waiting) || decide (t.state = .ended) || t.held.isSome || !x.ctxStarts t.ctx ||
    pipeIds.any (fun e => (x.jobs.copies[e]).job == some t.slot) || x.onWringer t.slot || x.workDone t)

/-! ### JOB_START -/

/-- The scheduler places a job; the unfolds of a running one are placed apart. -/
def jobStartDie (p x : Die) (slot : Nat) : Die :=
  match x.job? slot with
  | none => x
  | some j =>
    if !x.schedules || !x.ctxStarts j.ctx || j.held.isSome then x else
    match j.state with
    | .waiting => x
    | .ended => x
    | .released =>
      match dKind j.desc with
      | 2 => if x.engineNext j then startCopy x j else x
      | 3 => if x.engineNext j then (match x.freeWringer with
          | some e => startWringer p x j e
          | none => x) else x
      | _ => if x.isNext j then startClusterJob x j else x
    | .running =>
      match dKind j.desc with
      | 2 => if x.engineNext j then startCopy x j else x
      | 3 => if x.onWringer slot || decide (j.wrg.result ≠ 0) || !x.engineNext j then x else (match x.freeWringer with
          | some e => startWringer p x j e
          | none => x)
      | _ => x

/-! ### PREEMPT_WAIT_EXPIRY (R329) -/

/-- One more workgroup of a job fits on a cluster. -/
def Die.wgFits (x : Die) (j : Job) (cl : Fin 6) : Bool :=
  coreIds.any (fun k => x.coreFits { cl := cl, core := k } j.slot (dCarve j.desc) (dRegs j.desc) (dAccs j.desc) (dWg j.desc))

def liveClusters (j : Job) : List (Fin 6) := (j.shares.filter (fun h => decide (h.state = .live))).map (fun h => h.cl)

/-- The victim folds, and the room that it leaves is held for the job (R327). -/
def preemptWaitDie (slot : Nat) (x : Die) : Die :=
  match x.job? slot with
  | none => x
  | some j =>
    match j.preemptSince with
    | none => x
    | some t =>
      if !x.schedules || !x.passed t (x.fld .jobCfg [] 15 8) then x else
      let tries := (inOrder (liveClusters j)).filterMap (fun cl =>
        ((x.victims j cl).find? (fun v => (x.without cl [v.1.slot]).wgFits j cl)).map (fun v => (cl, v.1.slot)))
      match tries with
      | [] => x
      | (cl, v) :: _ =>
        let now := x.time
        ((requestFold x v cl).count .jobPreemptCnt).updJob slot (fun j => { j with preemptSince := some now, claims := [cl] })

def execPreemptWaitExpiry (d : DieId) (slot : Nat) (s : State) : Out := nextOn d (preemptWaitDie slot) s

/-! ### SHARE_FOLD -/

/-- A request to fold a share. A request of the partner that waits on CTL for this job is taken (R340). -/
def execShareFold (d : DieId) (slot : Nat) (cl : Fin 6) (s : State) : Out :=
  let x := s.die d
  let p := s.die d.other
  match x.job? slot, p.pair.ctlOut with
  | some j, .foldRequest c k i :: rest =>
    if j.ctx = c ∧ j.key = k then
      let quiet := p.pair.bridgeUp
      let x := match j.shares.find? (fun h => h.index == i) with
        | some h =>
          let y := requestFold x slot h.cl
          if quiet then { y with pair.ctlOut := x.pair.ctlOut } else y
        | none => x
      .next ((s.setDie d x.heardCtl).onDie d.other (fun q => { q with pair.ctlOut := rest }))
    else nextOn d (fun x => requestFold x slot cl) s
  | _, _ => nextOn d (fun x => requestFold x slot cl) s

/-! ### FOLD_LATE (R336) -/

def foldLateDie (g : GrpLoc) (p x : Die) : Die :=
  match x.group? g with
  | none => x
  | some t =>
    if !x.folding t.job g.cl || t.stopped || t.frozen.isSome || decide (t.foldTime < 64 * x.fld .jobCfg [] 4 0) then x else
    match x.job? t.job with
    | none => x
    | some j =>
      (endJob p x t.job jsFoldLate).note clsFoldLate (.cmdProc j.ctx (some j.slot)) (FaultInfo.plain j.ctx j.id.toNat)

def execFoldLate (d : DieId) (g : GrpLoc) (s : State) : Out := nextOn d (foldLateDie g (s.die d.other)) s

/-! ### COPY_UNIT (R331, R365) -/

def copyUnitDie (e : Fin 4) (p x : Die) : Die :=
  let c := x.jobs.copies[e]
  match c.job with
  | none => x
  | some slot =>
    match x.job? slot with
    | none => x
    | some j =>
      if c.frozen.isSome || !x.schedules || !x.ctxStarts j.ctx || x.power.therm == 2 then x else
      let n := min 4096 (dCount j.desc - j.done)
      let src := dWorkVa j.desc + j.done
      let dst := dArgVa j.desc + j.done
      let m : Master := .copy e
      match prewalk p x m j.ctx [{ va := src, len := n, acc := accRead }, { va := dst, len := n, acc := accWrite }] with
      | (x, none) => x
      | (x, some pm) =>
        match fetchRange p x m j.ctx pm { va := src, len := n, acc := accRead } with
        | (x, false) => x
        | (x, true) =>
          let x := storeBytes p x j.ctx pm dst (viewBytes x pm src n)
          let x := x.updJob slot (fun j => { j with done := j.done + n })
          if j.done + n = dCount j.desc then { x with jobs.copies := vmod x.jobs.copies e (fun _ => CopyEng.reset) } else x

def execCopyUnit (d : DieId) (e : Fin 4) (s : State) : Out := nextOn d (copyUnitDie e (s.die d.other)) s

/-! ### GROUP_DISPATCH (R132, R326) -/

/-- The groups of one workgroup, from index `i`, are placed on a core. -/
def placeWorkgroup (x : Die) (j : Job) (c : CoreLoc) (i : Nat) : Nat → Die
  | 0 => x
  | n + 1 =>
    let y := placeWorkgroup x j c i n
    let b := j.desc
    y.placeGroup c (dRegs b) (dAccs b) (fun f l stamp =>
      let t := newGroup f l j.slot j.ctx stamp (dRegs b) (dAccs b) (BitVec.ofNat 48 (dWorkVa b)) (BitVec.allOnes 64) .compute
      let t := (t.fillReg 0 (fun _ => BitVec.ofNat 32 (dArgVa b))).fillReg 1 (fun _ => BitVec.ofNat 16 (dArgVa b / 2 ^ 32) |>.setWidth 32)
      { t with idx := i + n, wg := i / dWg b, rank := n })

def groupDispatchDie (slot : Nat) (x : Die) : Die :=
  match x.job? slot with
  | none => x
  | some j =>
    let b := j.desc
    if !x.schedules || decide (j.state ≠ .running) || dKind b != 0 || (decide (dCount b ≤ j.dispatched) && j.again.isEmpty) || j.held.isSome ||
      !x.ctxStarts j.ctx then x else
    match x.bestCore ((inOrder (liveClusters j)).filter (fun cl => !x.heldFor j cl)) slot (dCarve b) (dRegs b) (dAccs b) (dWg b) with
    | none =>
      let now := x.time
      x.updJob slot (fun j => { j with preemptSince := some (j.preemptSince.getD now) })
    | some c =>
      let i := j.again.getD 0 j.dispatched
      let x := placeWorkgroup (x.carveCore c slot (dCarve b)) j c i (dWg b)
      let took : Share → Share := fun h =>
        if h.cl = c.cl then { h with fresh := h.fresh ++ (List.range (dWg b)).map (fun k => i + k) } else h
      let more := if j.again.isEmpty then j.dispatched + dWg b else j.dispatched
      x.updJob slot (fun t => { t with dispatched := more, again := t.again.drop 1, preemptSince := none, claims := [], shares := t.shares.map took })

def execGroupDispatch (d : DieId) (slot : Nat) (s : State) : Out := nextOn d (groupDispatchDie slot) s

end Sys2Proof.Machine
end

