-- ==== Sys2Proof/Machine/Deadline.lean ====
section
/-! DEFINITION. Sys2Proof/Machine/Deadline.lean: cancelling and restarting jobs, the deadline monitor and kid models
(R32, R341, R345 to R349). -/
namespace Sys2Proof.Machine

/-! ### Restarts (R341, R42) -/

/-- A job begins again from its start. -/
def restartWhole (p x : Die) (slot : Nat) : Die :=
  (dropJobWork p x slot).updJob slot (fun j =>
    { j with state := .released, shares := [], dispatched := 0, done := 0, again := [], claims := [], held := none,
             wrg := WrgRun.none, preemptSince := none })

/-- A share goes back to its fold image: groups that ended since are not done, and groups dispatched since are dispatched
again. -/
def restartShare (x : Die) (slot : Nat) (h : Share) : Die :=
  (x.takeShare slot h.cl).updJob slot (fun j =>
    let firsts := h.fresh.filter (fun i => i % dWg j.desc == 0)
    let back : Share → Share := fun t =>
      if t.index = h.index then { t with state := .folded, fresh := [], ended := 0 } else t
    { j with done := j.done - h.ended, again := firsts ++ j.again, shares := j.shares.map back })

/-- A render pass goes back to its image whole: what its front end kept stands beside it (R340). -/
def restartPass (p x : Die) (slot : Nat) : Die :=
  let n := ((x.jobs.parked.lookup slot).map (fun q => q.tilesRendered)).getD 0
  let kept := ((x.jobs.parked.lookup slot).map (fun q => q.exts)).getD []
  ((releaseEngines p (x.takeAllShares slot) slot).dropPass p slot kept).updJob slot (fun j =>
    { j with done := n, claims := [], held := none, preemptSince := none,
             shares := j.shares.map (fun t => { t with state := .folded, fresh := [], ended := 0 }) })

/-- A restart of a job is counted, and goes back as `back` says; a fourth one ends the job with PARITY (R341). -/
def restarting (p x : Die) (slot : Nat) (back : Die → Job → Die) : Die :=
  match x.job? slot with
  | none => x
  | some j =>
    if 3 ≤ j.restarts then endJob p x slot jsParity else
    let x := x.updJob slot (fun j => { j with restarts := j.restarts + 1, flags := j.flags ||| jfRestarted })
    back ((x.flag .jobFlags 4).count .jobRestartCnt) j

/-- A share restarts from its last fold image, or the whole job when it has none. A render pass folds whole, so that it goes
back whole (R340). -/
def restartJob (p x : Die) (slot : Nat) (cl : Fin 6) : Die :=
  restarting p x slot (fun x j =>
    match j.shares.find? (fun h => decide (h.cl = cl) && decide (h.state ≠ .folded)) with
    | some h =>
      if h.image = 0 then restartWhole p x slot
      else if dKind j.desc = 1 then restartPass p x slot
      else restartShare x slot h
    | none => restartWhole p x slot)

/-- The class of a parity error, its DETAIL (R490) and its counter (R476). -/
def parityOf (x : Die) (what : ParityAt) : Byte × Nat × Reg :=
  match what with
  | .groupReg r => (clsRegParity, r.toNat, .fltRegParityCnt)
  | .scaleReg r => (clsRegParity, r.toNat + 256, .fltRegParityCnt)
  | .accumulator r => (clsAccParity, r.toNat, .fltRegParityCnt)
  | .tileMemory o => (clsTlmParity, o.toNat, .tlmParityCnt)
  | .carvedL1 o => (clsTlmParity, o.toNat + 2 ^ 19, .locParityCnt)
  | .streamRead _ o => (clsTlmParity, o.toNat, .tlmParityCnt)
  | .control => (clsRegParity, bitsOf (Config.word x.free).toNat 8 0, .fltRegParityCnt)

/-- A parity error in what a group reads: the group is frozen, and its share restarts without any resolution. -/
def parityRestartDie (g : GrpLoc) (what : ParityAt) (p x : Die) : Die :=
  match x.group? g with
  | none => x
  | some t =>
    let (cls, det, r) := parityOf x what
    let x := ((x.tick.count r).freezeGroup g cls).report cls (.group g) (FaultInfo.plain t.ctx det) true
    restartJob p x t.job g.cl

/-- A parity error in what a core's stream engine reads of tile memory (R211, R234): its job restarts likewise. -/
def streamRestartDie (c : CoreLoc) (slot : Nat) (what : ParityAt) (p x : Die) : Die :=
  match x.job? slot, x.part? slot c.cl with
  | some j, some _ =>
    let (cls, det, r) := parityOf x what
    restartJob p ((x.count r).report cls (.stream c slot) (FaultInfo.plain j.ctx det) true) slot c.cl
  | _, _ => x

/-- `g` names the reading group, or the core whose stream engine reads. -/
def execParityRestart (d : DieId) (g : GrpLoc) (what : ParityAt) (s : State) : Out :=
  match what with
  | .streamRead job _ => nextOn d (streamRestartDie (coreOf g) job.toNat what (s.die d.other)) s
  | .groupReg _ => nextOn d (parityRestartDie g what (s.die d.other)) s
  | .scaleReg _ => nextOn d (parityRestartDie g what (s.die d.other)) s
  | .accumulator _ => nextOn d (parityRestartDie g what (s.die d.other)) s
  | .tileMemory _ => nextOn d (parityRestartDie g what (s.die d.other)) s
  | .carvedL1 _ => nextOn d (parityRestartDie g what (s.die d.other)) s
  | .control => nextOn d (parityRestartDie g what (s.die d.other)) s

/-! ### The kid model (R349) -/

/-- A switch has begun: the original has stopped, and the kid's descriptor is read. -/
def Job.switching (j : Job) : Bool := j.kidDue && decide (j.kidAt ≠ 0)

/-- The original stops, and the kid's descriptor is copied into its slot; the read may be held, and is then made again. A job
that waits for its fence goes on waiting (R349). -/
def switchKid (p x : Die) (slot : Nat) : Die :=
  match x.job? slot with
  | none => x
  | some j =>
    let x := (dropJobWork p x slot).updJob slot (fun j => { j with shares := [], claims := [], again := [], kidDue := true, kidAt := 1 })
    let va := dKidVa j.desc
    match readUnit p x (.cmdProc j.ctx (some slot)) j.ctx va 256 accRead with
    | (x, none) => x
    | (x, some b) =>
      if !kidOk x j.ctx j.desc b then badDescriptor p x slot va else
      let now := x.time
      let x := x.updJob slot (fun j =>
        { j with desc := kidDesc j.desc b, state := if j.state = .waiting then .waiting else .released, start := 0, dispatched := 0,
                 done := 0, isKid := true, kidAt := now, kidDue := false, nextChk := 0, preemptSince := none })
      (x.flag .jobFlags 0).count .jobKidCnt

/-- The actions on a projected miss (R348). `now`: a kid switch is made at once, not at the next checkpoint. -/
def onMiss (p x : Die) (slot : Nat) (f : Nat) (now : Bool) : Die :=
  match x.job? slot with
  | none => x
  | some j =>
    let d := (x.deadlineOf j).getD (x.time.toNat : Int)
    let x := x.updJob slot (fun j => { j with projected := BitVec.ofNat 64 f, deadline := dwordOfInt d })
    if j.isKid then endJob p x slot jsDeadlineMissed
    else if dKidVa j.desc ≠ 0 then
      (if now then switchKid p x slot else x.updJob slot (fun j => { j with kidDue := true }))
    else if dOnMiss j.desc then endJob p x slot jsDeadlineMissed
    else x

/-! ### Checkpoints (R347) -/

/-- The time of checkpoint `k`. -/
def Job.checkpointAt (j : Job) (k : Nat) : Nat :=
  (if j.isKid then j.kidAt.toNat else j.released.toNat) + 400 * dChkTime j.desc k

def infinite : Nat := 2 ^ 64 - 1

/-- F from the progress w; all ones stands for infinity. -/
def projectedEnd (x : Die) (j : Job) (w : Nat) : Nat :=
  if w = 0 ∨ j.start = 0 then infinite
  else x.time.toNat + ceilDiv ((dWorkTotal j.desc - w) * (x.time - j.start).toNat) w

/-- F of an evaluation at a checkpoint; 0 on track. -/
def projection (x : Die) (j : Job) (k w : Nat) : Nat := if dChkWork j.desc k ≤ w then 0 else projectedEnd x j w

/-- F is past D + MARGIN. -/
def missed (x : Die) (j : Job) (f : Nat) : Bool :=
  decide (f ≠ 0) && (match x.deadlineOf j with
    | some d => f == infinite || decide (d + marginCycles j < (f : Int))
    | none => true)

/-- The partner takes part in a paired job's decisions (R32, R37). -/
def Die.pairWorks (x : Die) : Bool := x.pair.mode == 1 && !x.pair.lost && x.pair.bridgeUp

/-- A die's job by the context and key it has on both dies. -/
def Die.jobByKey (x : Die) (c k : Nat) : Option Job := x.jobs.list.find? (fun j => j.ctx == c && j.key == k)

/-- A checkpoint as the dies of a paired job name it: those of the kid follow those of the original. -/
def Job.chkName (j : Job) (k : Nat) : Nat := if j.isKid then 256 + k else k

/-- The partner has no more to say on a paired job: its copy has ended. -/
def pairSilent (p : Die) (j : Job) : Bool :=
  match p.jobByKey j.ctx j.key with
  | some t => decide (t.state = .ended)
  | none => true

/-- The later projection of the two governs a paired job, at each checkpoint once both are there (R32). -/
def decidePaired (p x : Die) (slot k : Nat) : Die :=
  match x.job? slot with
  | none => x
  | some j =>
    let theirs := match j.theirs.lookup k with
      | some f => some f
      | none => if pairSilent p j then some 0 else none
    match j.mine.lookup k, theirs with
    | some f, some g =>
      let other : Nat × Nat → Bool := fun e => e.1 != k
      let x := x.updJob slot (fun j => { j with mine := j.mine.filter other, theirs := j.theirs.filter other })
      if missed x j (max f g) then onMiss p x slot (max f g) false else x
    | _, _ => x

/-- A checkpoint is evaluated, unless the job's work is done; a paired job then still tells its partner that it is on
track. -/
def checkpointDie (slot : Nat) (p x : Die) : Die :=
  match x.job? slot with
  | none => x
  | some j =>
    if j.switching ∧ j.state ≠ .ended ∧ j.held.isNone then switchKid p x slot else
    let k := j.nextChk
    if !x.running || decide (x.dev = .safe) || dDlMode j.desc == 0 || decide (dChkCount j.desc ≤ k) ||
      decide (j.state = .waiting) || decide (j.state = .ended) || decide (x.time.toNat < j.checkpointAt k) || j.held.isSome
    then x
    else if j.kidDue then switchKid p (x.updJob slot (fun j => { j with nextChk := k + 1 })) slot
    else
      let tell := fun (x : Die) (f : Nat) =>
        let x := { x with pair.ctlOut := x.pair.ctlOut ++ [CtlMsg.progress j.ctx j.key (j.chkName k) f] }
        decidePaired p (x.updJob slot (fun j => { j with mine := j.mine ++ [(j.chkName k, f)] })) slot (j.chkName k)
      if x.workOver j then
        let x := x.updJob slot (fun j => { j with nextChk := k + 1 })
        if j.paired && x.pairWorks then tell x 0 else x
      else
      match readProgress p x j with
      | (x, none) => x
      | (x, some w) =>
        let f := projection x j k w
        let d := (x.deadlineOf j).getD (x.time.toNat : Int)
        let x := x.updJob slot (fun j =>
          { j with nextChk := k + 1, lastChk := BitVec.ofNat 8 k, deadline := dwordOfInt d })
        if j.paired && x.pairWorks then tell x f
        else if missed x j f then onMiss p x slot f (!j.paired) else x

def execDeadlineCheckpoint (d : DieId) (slot : Nat) (s : State) : Out := nextOn d (checkpointDie slot (s.die d.other)) s

/-- The partner's progress arrives over CTL (R32). -/
def takeProgress (p x : Die) (c k chk f : Nat) : Die :=
  match x.jobByKey c k with
  | none => x
  | some j => decidePaired p (x.updJob j.slot (fun j => { j with theirs := j.theirs ++ [(chk, f)] })) j.slot chk

def execDeadlineProgressExchange (d : DieId) (s : State) : Out :=
  match (s.die d.other).pair.ctlOut with
  | .progress c k chk f :: rest =>
    let s := s.onDie d.other (fun p => { p with pair.ctlOut := rest })
    .next (s.onDie d (fun x => takeProgress (s.die d.other) x.heardCtl c k chk f))
  | _ => .next s

/-! ### D + MARGIN (R347, R348) -/

/-- A kid switch decided now is made now, but of a paired job at its next checkpoint, if it has one left (R32, R348). -/
def switchesNow (x : Die) (j : Job) : Bool := !(j.paired && x.pairWorks) || decide (dChkCount j.desc ≤ j.nextChk)

/-- The evaluation at D + MARGIN: any job whose work is not done is a projected miss. Die A decides for a paired job and
tells die B over CTL. -/
def expiryDie (slot : Nat) (p x : Die) : Die :=
  match x.job? slot with
  | none => x
  | some j =>
    if !x.running || decide (x.dev = .safe) || dDlMode j.desc == 0 || decide (j.state = .ended) || j.expired ||
      (decide (j.state = .waiting) && dDlMode j.desc == 1) || !x.deadlinePassed j (marginCycles j) || j.held.isSome ||
      x.workOver j then x
    else if j.paired && x.pairWorks && decide (x.id = .b) then x
    else
      match readProgress p x j with
      | (x, none) => x
      | (x, some w) =>
      let f := projectedEnd x j w
      let x := x.updJob slot (fun j => { j with expired := true })
      let x := if j.paired && x.pairWorks then { x with pair.ctlOut := x.pair.ctlOut ++ [CtlMsg.deadline j.ctx j.key true] } else x
      onMiss p x slot f (switchesNow x j)

def execDeadlineExpiry (d : DieId) (slot : Nat) (s : State) : Out := nextOn d (expiryDie slot (s.die d.other)) s

/-- Die A's decision reaches die B, which acts on it for its copy of the job (R348). -/
def takeDecision (a b : Die) (slot c k : Nat) (miss : Bool) : Die :=
  match b.job? slot with
  | none => b
  | some j =>
    if j.ctx = c ∧ j.key = k ∧ j.state ≠ .ended then
      let b := b.updJob slot (fun j => { j with expired := true })
      if miss then onMiss a b slot infinite (switchesNow b j) else b
    else b

def execPairedDeadlineDecision (slot : Nat) (s : State) : Out :=
  match s.a.pair.ctlOut with
  | .deadline c k miss :: rest =>
    let a := { s.a with pair.ctlOut := rest }
    .next ((s.setDie .b (takeDecision a s.b.heardCtl slot c k miss)).setDie .a a)
  | _ => .next s

/-! ### CANCEL_JOB (R318) -/

/-- A live job of a context ends CANCELLED; any other JOB_ID changes nothing. -/
def cancelJob (p x : Die) (c : Nat) (pick : Job → Bool) : Die :=
  match x.jobs.list.find? (fun j => j.ctx == c && j.live && pick j) with
  | some j => endJob p x j.slot jsCancelled
  | none => x

end Sys2Proof.Machine
end

