-- ==== Sys2Proof/Machine/WrgCodec.lean ====
section
/-! DEFINITION. Sys2Proof/Machine/WrgCodec.lean: the block stream of the wringer and its LZW coder (R432 to R439). -/
namespace Sys2Proof.Machine

/-- The width of a code when `k` data codes have been written (R436). -/
def lzWidth (k : Nat) : Nat :=
  let n := 258 + k
  if n ≤ 512 then 9 else if n ≤ 1024 then 10 else if n ≤ 2048 then 11 else if n ≤ 4096 then 12
  else if n ≤ 8192 then 13 else if n ≤ 16384 then 14 else if n ≤ 32768 then 15 else 16

/-- The encoder: codes written with their widths, newest first; the dictionary maps (code, byte) to a code. -/
structure LzEnc where
  out : List (Nat × Nat)
  dict : List ((Nat × Byte) × Nat)
  next : Nat
  k : Nat
  cur : Option Nat
  deriving DecidableEq, Repr

def LzEnc.start : LzEnc := { out := [], dict := [], next := 258, k := 0, cur := none }

/-- A data code is written. -/
def LzEnc.data (e : LzEnc) (c : Nat) : LzEnc := { e with out := (c, lzWidth e.k) :: e.out, k := e.k + 1 }

/-- One input byte (R438). -/
def LzEnc.byte (e : LzEnc) (b : Byte) : LzEnc :=
  match e.cur with
  | none => { e with cur := some b.toNat }
  | some c =>
    match e.dict.lookup (c, b) with
    | some c' => { e with cur := some c' }
    | none =>
      let w := e.data c
      if e.next = 65535 then
        { w with out := (256, lzWidth w.k) :: w.out, dict := [], next := 258, k := 0, cur := some b.toNat }
      else { w with dict := ((c, b), e.next) :: e.dict, next := e.next + 1, cur := some b.toNat }

/-- The end of the input: the last string's code, then END. -/
def LzEnc.finish (e : LzEnc) : List (Nat × Nat) :=
  let w := match e.cur with
    | some c => e.data c
    | none => e
  ((257, lzWidth w.k) :: w.out).reverse

/-- Codes packed least significant bit first (R437): the number and its bits. -/
def lzPack (codes : List (Nat × Nat)) : Nat × Nat :=
  codes.foldl (fun r c => (r.1 + c.1 * 2 ^ r.2, r.2 + c.2)) (0, 0)

/-- The LZW payload of a block. -/
def lzEncode (bs : List Byte) : List Byte :=
  let (v, n) := lzPack ((bs.foldl LzEnc.byte LzEnc.start).finish)
  leBytes (ceilDiv n 8) v

/-- The decoder: bit position, data codes since CLEAR, strings assigned, the previous string and the output. -/
structure LzDec where
  pos : Nat
  k : Nat
  dict : List (Nat × List Byte)
  next : Nat
  prev : Option (List Byte)
  out : List Byte
  deriving DecidableEq, Repr

def LzDec.start : LzDec := { pos := 0, k := 0, dict := [], next := 258, prev := none, out := [] }

/-- The string of a data code, if it is legal (R439). -/
def LzDec.string (e : LzDec) (c : Nat) : Option (List Byte) :=
  match e.prev with
  | none => if c < 256 then some [BitVec.ofNat 8 c] else none
  | some q =>
    if c < 256 then some [BitVec.ofNat 8 c]
    else match e.dict.lookup c with
      | some t => some t
      | none => if c = e.next ∧ e.next < 65536 then some (q ++ q.take 1) else none

/-- A data code is taken. -/
def LzDec.take (e : LzDec) (t : List Byte) (w : Nat) : LzDec :=
  match e.prev with
  | none => { e with pos := e.pos + w, k := e.k + 1, prev := some t, out := e.out ++ t }
  | some q =>
    if e.next < 65536 then
      { e with pos := e.pos + w, k := e.k + 1, prev := some t, out := e.out ++ t,
               dict := (e.next, q ++ t.take 1) :: e.dict, next := e.next + 1 }
    else { e with pos := e.pos + w, k := e.k + 1, prev := some t, out := e.out ++ t }

/-- Decodes a payload `v` of `n` bits towards `ulen` bytes. Answers the bytes produced and whether the block passes. -/
def lzRun (v n ulen : Nat) : Nat → LzDec → List Byte × Bool
  | 0, e => (e.out, false)
  | fuel + 1, e =>
    let w := lzWidth e.k
    if n < e.pos + w then (e.out, false) else
    let c := v / 2 ^ e.pos % 2 ^ w
    if c = 257 then (e.out, decide (e.out.length = ulen) && v / 2 ^ (e.pos + w) == 0)
    else if c = 256 then
      lzRun v n ulen fuel { e with pos := e.pos + w, k := 0, dict := [], next := 258, prev := none }
    else match e.string c with
      | none => (e.out, false)
      | some t => if ulen < e.out.length + t.length then (e.out, false) else lzRun v n ulen fuel (e.take t w)

def lzDecode (payload : List Byte) (ulen : Nat) : List Byte × Bool :=
  lzRun (ofLe payload) (8 * payload.length) ulen (payload.length + 2) LzDec.start

/-! ### Blocks (R432 to R435) -/

inductive WrgKind
  | lzw
  | stored
  | zero
  deriving DecidableEq, Repr

def WrgKind.code : WrgKind → Nat
  | .lzw => 0
  | .stored => 1
  | .zero => 2

/-- A block: its kind and its bytes, header and padding included. -/
structure WrgBlock where
  kind : WrgKind
  bytes : List Byte
  deriving DecidableEq, Repr

def pad8 (bs : List Byte) : List Byte := bs ++ List.replicate ((8 - bs.length % 8) % 8) 0

def wrgHeader (k : WrgKind) (last : Bool) (bsize ulen clen : Nat) (crc : Word) : List Byte :=
  leBytes 2 0x57A7 ++ leBytes 1 (k.code + 128 * b2n last) ++ leBytes 1 bsize ++ leBytes 4 ulen ++ leBytes 4 clen ++
    leBytes 4 crc.toNat

/-- The encoder's choice of R434. -/
def wrgEncode (bsize : Nat) (last : Bool) (bs : List Byte) : WrgBlock :=
  let mk := fun (k : WrgKind) (p : List Byte) =>
    ({ kind := k, bytes := wrgHeader k last bsize bs.length p.length (crc32c bs) ++ pad8 p } : WrgBlock)
  if bs.all (fun b => b == 0) then mk .zero []
  else
    let p := lzEncode bs
    if ceilDiv p.length 8 * 8 < bs.length then mk .lzw p else mk .stored bs

/-- The blocks of a stream. `fuel` bounds them. -/
def wrgBlocks (bsize : Nat) : Nat → List Byte → List WrgBlock
  | 0, _ => []
  | fuel + 1, bs =>
    let rest := bs.drop (2 ^ bsize)
    if rest.isEmpty then [wrgEncode bsize true bs]
    else wrgEncode bsize false (bs.take (2 ^ bsize)) :: wrgBlocks bsize fuel rest

/-- A stream of some bytes. -/
def wrgStream (bsize : Nat) (bs : List Byte) : List WrgBlock := wrgBlocks bsize (bs.length / 2 ^ bsize + 1) bs

/-- What a block header says. -/
structure WrgHead where
  kind : WrgKind
  last : Bool
  bsize : Nat
  ulen : Nat
  clen : Nat
  crc : Nat
  deriving DecidableEq, Repr

/-- A header that keeps R433. -/
def wrgHead (h : List Byte) : Option WrgHead :=
  let t := fieldNat h 2 1
  let ulen := fieldNat h 4 4
  let clen := fieldNat h 8 4
  let bsize := fieldNat h 3 1
  let last := bitOf t 7
  let kind : Option WrgKind := match t % 128 with
    | 0 => some .lzw
    | 1 => some .stored
    | 2 => some .zero
    | _ => none
  match kind with
  | none => none
  | some k =>
    let clenOk : Bool := match k with
      | .zero => clen == 0
      | .stored => clen == ulen
      | .lzw => decide (2 ≤ clen) && decide (clen ≤ 2 * ulen + 4)
    if h.length = 16 ∧ fieldNat h 0 2 = 0x57A7 ∧ 12 ≤ bsize ∧ bsize ≤ 20 ∧ 1 ≤ ulen ∧ ulen ≤ 2 ^ bsize ∧
        (last ∨ ulen = 2 ^ bsize) ∧ clenOk then
      some { kind := k, last := last, bsize := bsize, ulen := ulen, clen := clen, crc := fieldNat h 12 4 }
    else none

/-- Bytes that a block takes in its stream. -/
def WrgHead.size (h : WrgHead) : Nat := 16 + ceilDiv h.clen 8 * 8

/-- Decodes a block's payload: the bytes produced, and whether the block passes R439. -/
def WrgHead.decode (h : WrgHead) (payload : List Byte) : List Byte × Bool :=
  let (out, ok) := match h.kind with
    | .zero => (List.replicate h.ulen 0, true)
    | .stored => (payload.take h.ulen, true)
    | .lzw => lzDecode payload h.ulen
  (out, ok && (crc32c out).toNat == h.crc)

/-- Decodes a whole stream held in memory: its bytes if every block passes. -/
def wrgUnstream : Nat → Option Nat → List Byte → Option (List Byte)
  | 0, _, _ => none
  | fuel + 1, bsize, bs =>
    match wrgHead (bs.take 16) with
    | none => none
    | some h =>
      if (match bsize with | some b => b != h.bsize | none => false) || decide (bs.length < h.size) then none else
      let (out, ok) := h.decode ((bs.drop 16).take h.clen)
      if !ok then none
      else if h.last then some out
      else (wrgUnstream fuel (some h.bsize) (bs.drop h.size)).map (fun r => out ++ r)

/-- The uncompressed bytes of each block of a stream that passes, up to the last or the first that fails. -/
def wrgPassed : Nat → Option Nat → List Byte → List Nat
  | 0, _, _ => []
  | fuel + 1, bsize, bs =>
    match wrgHead (bs.take 16) with
    | none => []
    | some h =>
      if (match bsize with | some b => b != h.bsize | none => false) || decide (bs.length < h.size) ||
          !(h.decode ((bs.drop 16).take h.clen)).2 then []
      else if h.last then [h.ulen]
      else h.ulen :: wrgPassed fuel (some h.bsize) (bs.drop h.size)

/-- Uncompressed bytes of a block that was written. -/
def WrgBlock.ulen (b : WrgBlock) : Nat := fieldNat b.bytes 4 4

end Sys2Proof.Machine
end

