-- ==== Sys2Proof/Machine/Resolve.lean ====
section
/-! DEFINITION. Sys2Proof/Machine/Resolve.lean: resolving held faults (XLT_RESOLVE, R377), the end of a migration (R383 to
R385), killing and closing a context (R77, R78, R294), invalidations (R364) and share groups (R375). -/
namespace Sys2Proof.Machine

/-! ### Masters resume -/

/-- A master continues from where it stopped and replays its held unit (R366, R482). One that no longer holds a unit is
passed over (R377). -/
def unfreeze (p x : Die) (m : Master) : Die :=
  match m with
  | .group g => x.updGroup g (fun t => { t with frozen := none })
  | .texture g => x.updGroup g (fun t => { t with frozen := none })
  | .stream _ j => x.updJob j (fun t => { t with held := none })
  | .raster cl q => x.updPass q (fun t => { t with halted := t.halted.filter (fun h => decide (h.1 ≠ cl)) })
  | .frontEnd q => x.updPass q (fun t => { t with frozen := none })
  | .layer q _ => x.updPipe q (fun t => { t with resumeDue := t.frozen.isSome })
  | .writeback q => x.updPipe q (fun t => { t with resumeDue := t.frozen.isSome })
  | .copy e => { x with jobs.copies := vmod x.jobs.copies e (fun t => { t with frozen := none }) }
  | .wringer e => { x with wringers := vmod x.wringers e (fun t => { t with frozen := none }) }
  | .usb ch => replayXfer p x ch
  | .cmdProc _ (some j) => x.updJob j (fun t => { t with held := none })
  | .cmdProc c none => { x with cmd.pool := updWhere (fun q => q.ctx == c) PendCmd.wake x.cmd.pool }
  | .csi q => { x with io.csi := vmod x.io.csi q (fun t => { t with frozen := none }) }
  | .tdm q => { x with io.tdm := vmod x.io.tdm q (fun t => { t with frozen := none }) }
  | .ufs =>
    { x with io.ufs.xfer := x.io.ufs.xfer.map (fun t => { t with frozen := none }),
             sec.loads := x.sec.loads.map (fun t => { t with frozen := none }) }
  | .linkTarget _ => { x with torus.frozenTgt := none }
  | .requester => { x with torus.frozenReq := none }
  | .slice _ => x
  | .dram _ => x
  | .pairLogic => x
  | .clockCtl => x
  | .thermal _ => x
  | .migration => x

def unfreezeAll (p x : Die) (ms : List Master) : Die := ms.foldl (fun y m => unfreeze p y m) x

/-- The masters that wait on a migrating granule (R385). -/
def Die.migratingHolds (x : Die) : List Master :=
  let c := clsOwnMigrating
  (x.sh.groups.filter (fun t => t.frozen == some c)).map (fun t => Master.group t.loc) ++
  (x.jobs.list.filter (fun j => j.held == some c)).map (fun j => Master.cmdProc j.ctx (some j.slot)) ++
  (pipeIds.filter (fun q => match x.passes[q] with
    | some t => t.frozen == some c
    | none => false)).map (fun q => Master.frontEnd q) ++
  (pipeIds.map (fun q => match x.passes[q] with
    | some t => (t.halted.filter (fun h => h.2 == c)).map (fun h => Master.raster h.1 q)
    | none => [])).flatten ++
  (pipeIds.filter (fun q => (x.pipes[q]).frozen == some c)).map (fun q => Master.writeback q) ++
  (pipeIds.filter (fun e => (x.jobs.copies[e]).frozen == some c)).map (fun e => Master.copy e) ++
  (wringerIds.filter (fun e => (x.wringers[e]).frozen == some c)).map (fun e => Master.wringer e) ++
  (channelIds.filter (fun ch => match x.cmd.xfers[ch] with
    | some t => t.frozen == some c
    | none => false)).map (fun ch => Master.usb ch) ++
  (x.cmd.pool.filter (fun q => q.frozenBy == some c)).map (fun q => Master.cmdProc q.ctx none) ++
  (pipeIds.filter (fun q => (x.io.csi[q]).frozen == some c)).map (fun q => Master.csi q) ++
  (pipeIds.filter (fun q => (x.io.tdm[q]).frozen == some c)).map (fun q => Master.tdm q) ++
  (if x.sec.loads.any (fun l => l.frozen == some c) ||
      (match x.io.ufs.xfer with
       | some t => t.frozen == some c
       | none => false) then [Master.ufs] else []) ++
  (if x.torus.frozenReq = some c then [.requester] else [])

/-! ### Migrations (R383) -/

/-- The granules of a frame. -/
def Migration.granules (g : Migration) (pas : List Nat) : List Nat :=
  if g.size = 2097152 then (pas.map (fun pa => pa / 262144)) else []

/-- Migrating granules return to live (step 5). -/
def endMigrating (x : Die) (g : Migration) : Die :=
  let pas := (List.range (g.size / 262144)).filterMap (fun i =>
    match (x.stage2 g.ctx (x.vmidOf g.ctx) (g.frameIpa + i * 262144) { reads := [], ents := [] }).1 with
    | .ok pa _ _ _ _ _ _ => some (pa / 262144)
    | .bad _ _ _ => none
    | .mig _ _ _ _ => none)
  pas.foldl (fun y q => if ownState (y.ownEntry q) = 2 then y.setOwnState q 1 else y) x

def isMig (g h : Migration) : Bool := g.ctx == h.ctx && g.page == h.page

/-- The fill engine's and firmware's work for a migration is dropped. -/
def dropMig (x : Die) (g : Migration) : Die :=
  { x with xlt.migs := dropFirst (isMig g) x.xlt.migs,
           dram.fill := x.dram.fill.filter (fun f => match f with
             | .frame c q _ _ => !(c == g.ctx && q == g.page)
             | .full => true
             | .granule _ => true) }

/-- The entry that step 6 writes: V 1, TYPE 3, CONT 0, with R, W, X and ADDR kept. -/
def validEntry (e : DWord) : Nat := 7 + bitsOf e.toNat 5 3 * 8 + bitsOf e.toNat 39 8 * 256

/-- A migration that cannot go on: one MIG_FAILED record for all its joined faults (R385). -/
def failMigration (p x : Die) (g : Migration) (cause : Nat) : Die :=
  let x := dropMig (endMigrating x g) g
  let x := unfreezeAll p ((x.flag .xltFlags 1).count .xltMigFailCnt) x.migratingHolds
  let n := x.flt.reports.length
  let e := match g.joined with
    | m :: _ => x.unitEpoch (masterPressUnit m)
    | [] => 0
  let x := g.joined.foldl (fun (y : Die) m => (y.freeze m clsMigFailed).report clsMigFailed m
    { flags := 0, ctx := g.ctx, va := g.page, detail := migDetail g.frameIpa g.size cause, thing := 0 } true) x
  { x with flt.reports := x.flt.reports.take n ++ (x.flt.reports.drop n).map (fun r => { r with epoch := e }) }

/-- Drops the translations and walk-cache entries of a scope, at every level (R364). -/
def dropXlates (x : Die) (tlb : TlbEnt → Bool) (walk : WalkEnt → Bool) : Die :=
  let near := x.xlt.near.map (fun t => { t with ents := t.ents.filter (fun e => !tlb e) })
  { x with xlt.tlb := x.xlt.tlb.filter (fun t => !tlb t), xlt.near := near.filter (fun t => !t.ents.isEmpty),
           xlt.walk := x.xlt.walk.filter (fun t => !walk t) }

/-- Steps 5 and 6 of R383. Firmware's write of the entry is checked at its slice as the migration path's (R369, R370), and what
a cache holds of the page goes (R363). DESIGN CHOICE (log 156): a write that fails its check ends the migration with MIG_FAILED,
cause 1. -/
def finishMigration (p x : Die) (g : Migration) : Die :=
  match x.ownCheck g.entryPa g.ctx (x.vmidOf g.ctx) accWrite .migration with
  | some cls => failMigration p (x.countFault cls) g 1
  | none =>
    let x := dropMig (endMigrating x g) g
    let x := l2Write p x g.ctx g.entryPa (leBytes 8 (validEntry g.entry))
    let x := dropXlates x (fun t => t.ctx == g.ctx && decide (t.va < g.page + g.size) && decide (g.page < t.va + t.len))
      (fun t => t.stage == 1 && t.ta == g.entryPa)
    let x := x.count (match g.kind with
      | 1 => .xltMigZeroCnt
      | 2 => .xltMigHostCnt
      | _ => .xltMigPeerCnt)
    let x := unfreezeAll p x g.joined
    unfreezeAll p x x.migratingHolds

/-- A migration ends without step 6, with its context: the granules return to live and the entry keeps V = 0. -/
def abandonMigration (p x : Die) (g : Migration) : Die :=
  let x := dropMig (endMigrating x g) g
  unfreezeAll p x x.migratingHolds

def abandonMigrations (p x : Die) (c : Nat) : Die :=
  (x.xlt.migs.filter (fun g => g.ctx == c)).foldl (fun y g => abandonMigration p y g) x

/-- Bytes are written over a frame at its PAs, piece by piece. -/
def fillFrame (p x : Die) (c : Nat) (step : Nat) (pas : List Nat) (bs : List Byte) : Die :=
  ((List.range pas.length).foldl (fun y i => l2Write p y c (pas.getD i 0) ((bs.drop (i * step)).take step)) x)

/-- Zeros over a stretch of memory, by the fill engine: earlier stores to it are overwritten (R531). -/
def zeroRange (x : Die) (pa n : Nat) : Die :=
  let keep : MergeEnt → Bool := fun e => !(decide (pa ≤ e.pa) && decide (e.pa < pa + n))
  { x with dram.cells := spClear pa (pa + n) x.dram.cells,
           dram.spoiled := x.dram.spoiled.filter (fun w => !(decide (pa ≤ 8 * w) && decide (8 * w < pa + n))),
           cache.l2s := x.cache.l2s.map (fun t => { t with merge := t.merge.filter keep }),
           cache.l2carve := if inWindow pa then spClear (pa - windowBase) (pa - windowBase + n) x.cache.l2carve
             else x.cache.l2carve }

def zeroFrame (p x : Die) (step : Nat) (pas : List Nat) : Die :=
  pas.foldl (fun (y : Die) pa =>
    let z := zeroRange y pa step
    if mirrors p z && !inWindow pa then { z with pair.mirOut := z.pair.mirOut ++
        [if step = 262144 then .wipe (pa / 262144) else .write pa (List.replicate step 0)] } else z) x

/-- MIGRATION_FILL_DONE (R383): step 4 ends. -/
def fillDoneDie (ctx page : Nat) (reply : MigReply) (p x : Die) : Die :=
  match x.xlt.migs.find? (fun g => g.ctx == ctx && g.page == page) with
  | none => x
  | some g =>
    let step := min g.size 262144
    match g.kind, reply with
    | 1, .zeroDone =>
      (match framePas x g.ctx g.frameIpa g.size with
       | some pas => finishMigration p (zeroFrame p x step pas) g
       | none => failMigration p x g 1)
    | 3, .peerData bs =>
      if bs.length ≠ g.size then x else
      (match framePas x g.ctx g.frameIpa g.size with
       | some pas => finishMigration p (fillFrame p x g.ctx step pas bs) g
       | none => failMigration p x g 1)
    | 3, .peerTimeout => failMigration p x g 2
    | 3, .peerFault => failMigration p x g 3
    | _, _ => x

def execMigrationFillDone (d : DieId) (ctx page : Nat) (reply : MigReply) (s : State) : Out :=
  nextOn d (fillDoneDie ctx page reply (s.die d.other)) s

/-! ### Killing and closing a context (R77, R78, R294, R377) -/

/-- A layer's words with EN cleared. -/
def layerOff (l : LayerCfg) : LayerCfg :=
  match l with
  | w :: ws => (w &&& 0x7FFFFFFF) :: ws
  | [] => []

def layerCtx (l : LayerCfg) : Nat := wbits (l.getD 2 0) 25 16

def layerIds : List (Fin 8) := [0, 1, 2, 3, 4, 5, 6, 7]

/-- R294 for one layer that names the context, in its active configuration or in a later one: EN is cleared in the active
configuration, in the shadow and in what a pending press took of it, and a pending configuration goes, whatever it names. -/
def dropLayer (c : Nat) (x : Die) (q : Fin 4) (l : Fin 8) : Die :=
  let is := [q.val, l.val]
  let lay := (x.pipes[q]).layers[l]
  let x := if wbits (x.shadowI .dspLayerVaHi is) 25 16 = c then
      x.setShadowI .dspLayerCtrl is (x.shadowI .dspLayerCtrl is &&& 0x7FFFFFFF) else x
  let x := if wbits (x.pressedI .dspLayerVaHi is) 25 16 = c then
      x.setPressedI .dspLayerCtrl is (x.pressedI .dspLayerCtrl is &&& 0x7FFFFFFF) else x
  let act := if layerCtx lay.active = c then layerOff lay.active else lay.active
  let names := layerCtx lay.active = c || (match lay.pending with
    | some k => layerCtx k = c
    | none => false)
  let pend := if names then none else lay.pending
  x.updPipe q (fun t => { t with layers := vmod t.layers l (fun u => { u with active := act, pending := pend }) })

/-- R294 for a pipe's writeback path: OUTPUT loses writeback. -/
def dropWriteback (c : Nat) (x : Die) (q : Fin 4) : Die :=
  let is := [q.val]
  let x := if wbits (x.shadowI .dspPipeWbHi is) 25 16 = c then
      x.setShadowI .dspPipeCtrl is (x.shadowI .dspPipeCtrl is &&& 0xFFFFFFFB) else x
  let x := if wbits (x.pressedI .dspPipeWbHi is) 25 16 = c then
      x.setPressedI .dspPipeCtrl is (x.pressedI .dspPipeCtrl is &&& 0xFFFFFFFB) else x
  if x.fld .dspPipeWbHi is 25 16 = c then
    (x.setRegI .dspPipeCtrl is (x.regI .dspPipeCtrl is &&& 0xFFFFFFFB)).updPipe q (fun t => { t with wbDue := none })
  else x

def dropLayers (c : Nat) (x : Die) : Die :=
  pipeIds.foldl (fun y q => dropWriteback c (layerIds.foldl (fun z l => dropLayer c z q l) y) q) x

/-- The loads of a context are abandoned and signal nothing (R510); the entries they reserved are free. -/
def dropLoads (c : Nat) (x : Die) : Die :=
  let gone := (x.sec.loads.filter (fun l => l.ctx == c)).map (fun l => l.entry)
  let past : UfsXfer → UfsXfer := fun t => { t with ahead := t.ahead - ((x.sec.loads.take t.ahead).filter (fun l => l.ctx == c)).length }
  { x with io.ufs.xfer := x.io.ufs.xfer.map past,
           sec.loads := x.sec.loads.filter (fun l => l.ctx != c),
           sec.models := (List.range x.sec.models.length).map (fun i =>
             if gone.contains i then none else x.sec.models.getD i none) }

/-- Masters that hold no job and no command resume once the context of their held faults has gone. -/
def endHolds (p x : Die) (c : Nat) : Die :=
  let ms := ((x.flt.faults.filter (fun h => h.ctx == c)).map (fun h => h.reporters)).flatten
  let x := { x with flt.faults := x.flt.faults.filter (fun h => h.ctx != c) }
  ms.foldl (fun (y : Die) m => match m with
    | .layer _ _ => unfreeze p y m
    | .writeback _ => unfreeze p y m
    | .csi _ => unfreeze p y m
    | .tdm _ => unfreeze p y m
    | .ufs => unfreeze p y m
    | .linkTarget _ => unfreeze p y m
    | .requester => unfreeze p y m
    | _ => y) x

/-- Work of a context that ends with it, whether killed or closed: jobs, of which CLOSE_CONTEXT discards those that have not
begun (R78, R377), executing commands, migrations, loads, layers. -/
def endContextWork (p x : Die) (c : Nat) (killed : Bool) : Die :=
  let x := (x.jobs.list.filter (fun j => j.ctx == c && j.live)).foldl (fun y j =>
    if killed || decide (j.state = .running) then endJob p y j.slot jsKilled else discardJob p y j.slot) x
  let x := x.endCommands c killed
  let x := abandonMigrations p x c
  let x := dropLayers c (dropLoads c x)
  let x := match x.io.ufs.xfer with
    | some t => if t.ctx = c ∧ t.frozen.isSome then { x with io.ufs.xfer := none } else x
    | none => x
  endHolds p x c

/-- Firmware kills a context (R77, R377): it becomes FAULTED and its work ends. -/
def killContext (p x : Die) (c : Nat) : Die :=
  if c = 0 then x else
  endContextWork p (x.updCtx c (fun t => { t with state := .faulted })) c true

/-! ### Resolutions (R377, R384) -/

def Die.heldFault (x : Die) (fid : BitVec 20) : Option HeldFault := x.flt.faults.find? (fun h => h.fid == fid)

def dropFault (x : Die) (fid : BitVec 20) : Die :=
  { x with flt.faults := x.flt.faults.filter (fun h => h.fid != fid) }

/-- The migration that a MIG_HOST fault names. -/
def Die.faultMig (x : Die) (h : HeldFault) : Option Migration :=
  if h.cls = clsMigHost then
    x.xlt.migs.find? (fun g => g.ctx == h.ctx && decide (g.page ≤ h.page) && decide (h.page < g.page + g.size))
  else none

def replayFault (p x : Die) (h : HeldFault) : Die :=
  let x := (dropFault x h.fid).count .xltReplayCnt
  match x.faultMig h with
  | some g => finishMigration p x g
  | none => unfreezeAll p x h.reporters

/-- REPLAY (R377). A FAULT_ID that names no held fault is refused (R99): nothing changes. -/
def replayDie (fid : BitVec 20) (p x : Die) : Die :=
  match x.heldFault fid with
  | some h => replayFault p x h
  | none => x

def execReplay (d : DieId) (fid : BitVec 20) (s : State) : Out := nextOn d (replayDie fid (s.die d.other)) s

/-- A page as one wringer block: its bytes, or none when the check fails (R384). -/
def unwringPage (bs : List Byte) (size : Nat) : Option (List Byte) :=
  match wrgHead (bs.take 16) with
  | none => none
  | some h =>
    let (out, ok) := h.decode ((bs.drop 16).take h.clen)
    if ok && out.length == size && decide (h.size ≤ size) then some out else none

/-- REPLAY_WRUNG may not name this fault: a 2 MiB page is refused (R384). -/
def wrungRefused (x : Die) (h : HeldFault) : Bool :=
  match x.faultMig h with
  | some g => g.size == 2097152
  | none => false

/-- REPLAY_WRUNG (R384): the frame is decompressed first; a failed check leaves the fault held. -/
def replayWrungDie (fid : BitVec 20) (p x : Die) : Die :=
  match x.heldFault fid with
  | none => x
  | some h =>
    match x.faultMig h with
    | none => replayFault p x h
    | some g =>
      if g.size = 2097152 then x else
      match framePas x g.ctx g.frameIpa g.size with
      | none => (x.flag .xltFlags 0).count .xltWrungFailCnt
      | some pas =>
        let (x, bad) := l2ReadRange p x (pas.getD 0 0) g.size
        match bad, unwringPage (x.l2Bytes (pas.getD 0 0) g.size) g.size with
        | none, some out => replayFault p (fillFrame p x g.ctx g.size pas out) h
        | _, _ => (x.flag .xltFlags 0).count .xltWrungFailCnt

def execReplayWrung (d : DieId) (fid : BitVec 20) (s : State) : Out := nextOn d (replayWrungDie fid (s.die d.other)) s

/-- KILL (R377). A record of context 0 is refused (R99). -/
def killDie (fid : BitVec 20) (p x : Die) : Die :=
  match x.heldFault fid with
  | none => x
  | some h => if h.ctx = 0 then x else (killContext p x h.ctx).count .xltKillCnt

def execKill (d : DieId) (fid : BitVec 20) (s : State) : Out := nextOn d (killDie fid (s.die d.other)) s

/-! ### Invalidations (R364): their commands stand in Performed.lean -/

/-- Drops the translations and walk-cache entries of a scope; the invalidation is counted. -/
def invalidate (x : Die) (tlb : TlbEnt → Bool) (walk : WalkEnt → Bool) : Die := (dropXlates x tlb walk).count .xltInvCnt

def invalidateVm (x : Die) (v : BitVec 8) : Die := invalidate x (fun t => t.vmid == v) (fun t => t.vmid == v)

/-- Scope 1; a CTX of 0 is refused. -/
def invContextDie (ctx : BitVec 10) (x : Die) : Die :=
  if ctx = 0 then x else invalidate x (fun t => t.ctx == ctx.toNat) (fun t => t.stage == 1 && t.ctx == ctx.toNat)

/-- VA of scope 3, from XLT_INV_VA_HI and XLT_INV_VA_LO. -/
def Die.invVa (x : Die) : Nat := (x.reg .xltInvVaHi).toNat % 2 ^ 16 * 2 ^ 32 + (x.reg .xltInvVaLo).toNat / 4096 * 4096

/-- Scope 3; walk-cache entries of the context do not keep their VAs and are all dropped. -/
def invRangeDie (ctx : BitVec 10) (pages : BitVec 12) (x : Die) : Die :=
  if ctx = 0 then x else
  let lo := x.invVa
  let hi := lo + 4096 * (pages.toNat + 1)
  invalidate x (fun t => t.ctx == ctx.toNat && decide (t.va < hi) && decide (lo < t.va + t.len))
    (fun t => t.stage == 1 && t.ctx == ctx.toNat)

/-! ### Share groups (R375) -/

/-- Every L1 drops the lines tagged with a context; one in flight is installed stale, and its prefetches are dropped. -/
def Die.dropL1Ctx (x : Die) (gone : Nat → Bool) : Die :=
  let keep : L1Line → Bool := fun l => !gone l.ctx
  let late : MissReg → MissReg := fun m => if gone m.ctx then { m with fenced := true } else m
  let n := (x.cache.l1s.map (fun t => (t.fetching.filter (fun f => gone f.2.1)).length)).sum
  let y : Die := { x with cache.l1s := x.cache.l1s.map (fun t =>
    { t with lines := t.lines.filter keep, side := t.side.filter keep, miss := t.miss.map late,
             fetching := t.fetching.filter (fun f => !gone f.2.1) }) }
  y.countN .locPfDropCnt n

/-- A word of the selected group's map takes a new value; removed members lose their L1 lines. Bit 0 of word 0 is
reserved. -/
def shareWordDie (i : Fin 32) (v : Word) (x : Die) : Die :=
  let grp := x.fld .ownShareSel [] 10 0
  let k := grp * 32 + i.val
  let v := if i = 0 then v &&& 0xFFFFFFFE else v
  let old := spGet (fun _ => (0 : Word)) x.xlt.share k
  let removed := old &&& ~~~v
  let x := { x with xlt.share := spSet (fun _ => (0 : Word)) x.xlt.share k v }
  if removed = 0 then x else x.dropL1Ctx (fun c => c / 32 == i.val && bitOf removed.toNat (c % 32))

/-- CLOSE_CONTEXT removes the context from every group. -/
def Die.leaveGroups (x : Die) (c : Nat) : Die :=
  let off : Nat × Word → Option (Nat × Word) := fun e =>
    if e.1 % 32 = c / 32 then
      let v := e.2 &&& ~~~((1 : Word) <<< (c % 32))
      if v = 0 then none else some (e.1, v)
    else some e
  ({ x with xlt.share := x.xlt.share.filterMap off }).dropL1Ctx (fun k => k == c)

/-! ### Parity of the ownership table (R479) -/

/-- Firmware rewrites an entry from its copy; when the copy fails too, a record is sent and the die enters SAFE. The
slice whose checker met the error is a free value. -/
def ownRepairDie (granule : Nat) (copyOk : Bool) (x : Die) : Die :=
  if copyOk then x.count .fltOwnParityCnt
  else ((x.tick).note clsOwnTableParity (.slice (Fin.ofNat 16 (Config.choice x.free)))
    (FaultInfo.mk 0 0 0 (granule % 524288) 0)).enterSafe

def execOwnEntryParityRepair (d : DieId) (granule : Nat) (copyOk : Bool) (s : State) : Out :=
  nextOn d (ownRepairDie granule copyOk) s

end Sys2Proof.Machine
end

