-- ==== Sys2Proof/Machine/Caches.lean ====
section
/-! DEFINITION. Sys2Proof/Machine/Caches.lean: the cores' L1s, their merging and side buffers, the slices' misses, merging
buffers and carve, and the zeroing of tile-memory steps (R206, R210 to R235). -/
namespace Sys2Proof.Machine

/-! ### L1 lines (R212, R222, R235) -/

/-- Ways of an L1 that are not carved (R223). -/
def l1Ways (carve : Nat) : List Nat := List.range (8 - 2 * carve)

def lineHits (c : Nat) (v : BitVec 8) (ln : Nat) (l : L1Line) : Bool := l.pa == ln && l.ctx == c && l.vmid == v && !l.stale

/-- The ways of a set that pseudo-LRU may give up: any but the one used last, where the set has another (R212). -/
def l1Victims (t : L1) (st : Nat) (ok : List Nat) : List Nat :=
  match (t.lines.filter (fun k => l1SetOf k.pa == st)).getLast? with
  | some k => if ok.all (fun w => w == k.way) then ok else ok.filter (fun w => w != k.way)
  | none => ok

/-- A line that is used becomes the last of its L1. -/
def L1.touch (t : L1) (ln : Nat) : L1 :=
  { t with lines := t.lines.filter (fun k => k.pa != ln) ++ t.lines.filter (fun k => k.pa == ln) }

/-- Takes a line into an L1: in place of a line of the same address, in a free way, or in the way that pseudo-LRU gives
up (a free value among those that it may give up, log 152). A retired way takes no fills; without a way the line is not kept.
Answers the way. -/
def l1Install (x : Die) (c : CoreLoc) (l : L1Line) : Die × Option Nat :=
  let t := x.l1 c
  let st := l1SetOf l.pa
  let ok := (l1Ways t.carve).filter (fun w => !(t.retired.contains (w, st)))
  let put := fun (x : Die) (w : Nat) => x.setL1 { t with
    lines := t.lines.filter (fun k => !(k.pa == l.pa || (l1SetOf k.pa == st && k.way == w))) ++ [{ l with way := w }] }
  match t.lines.find? (fun k => k.pa == l.pa) with
  | some k => if ok.contains k.way then (put x k.way, some k.way) else (x, none)
  | none =>
    let used := (t.lines.filter (fun k => l1SetOf k.pa == st)).map (fun k => k.way)
    match ok.filter (fun w => !(used.contains w)) with
    | w :: _ => (put x w, some w)
    | [] =>
      if ok.isEmpty then (x, none) else
      let vs := l1Victims t st ok
      let w := vs.getD (Config.victim x.free % vs.length) 0
      ((put x w).tick, some w)

/-- A parity error at a way and set of an L1: the second one retires the way, with a record (R235). -/
def l1Error (x : Die) (c : CoreLoc) (way st : Nat) : Die :=
  let t := x.l1 c
  let x := x.count .locParityCnt
  if t.errs.contains (way, st) then
    if t.retired.contains (way, st) then x else
    ((x.setL1 { t with retired := (way, st) :: t.retired }).count .locWayRetireCnt).note clsWayRetired (.stream c 0)
      (FaultInfo.plain 0 (way + 16 * st))
  else x.setL1 { t with errs := (way, st) :: t.errs }

/-! ### The L1 merging buffer (R218 to R220) -/

/-- An entry's write is performed at its slice; words that a parity error spoiled reach DRAM with wrong parity and leave
no copy in the slice (R234). The window has no DRAM behind it: its granule is poisoned at once (DEDUCED, log 161). -/
def l1EntryWrite (p x : Die) (e : MergeEnt) (par : BitVec 16) : Die :=
  let x := l2CountWrite x e.pa
  if inWindow e.pa then
    let y := e.bytes.foldl (fun (y : Die) b =>
      { y with cache.l2carve := Mem.setByte y.cache.l2carve (e.pa - windowBase + b.1) b.2 }) x
    if par = 0 then y else (y.count .locParityCnt).poison (e.pa / 262144)
  else
    let x := l2MergeMask p x e.ctx e.pa e.bytes par
    if par ≠ 0 then
      let drop : L2 → L2 := fun t =>
        { t with lines := t.lines.filter (fun l => l.pa != e.pa), side := t.side.filter (fun l => l.pa != e.pa) }
      (x.onL2 (sliceOf e.pa) drop).count .locParityCnt
    else if e.bytes.length = 128 && !(x.l2 (sliceOf e.pa)).side.any (fun l => l.pa == e.pa) then x.l2Install e.pa else x

/-- The oldest entry of a core's buffer is written and frees. -/
def l1WriteOldest (p x : Die) (c : CoreLoc) (par : BitVec 16) : Die :=
  match (x.l1 c).merge with
  | [] => x
  | e :: es => l1EntryWrite p (x.onL1 c (fun t => { t with merge := es })) e par

/-- A request that names a line held in an entry drains every entry up to and including it first (R219). -/
def l1DrainLine (p x : Die) (c : CoreLoc) (ln : Nat) : Die :=
  let es := (x.l1 c).merge
  let n := es.length - ((es.reverse.takeWhile (fun e => e.pa != ln)).length)
  (List.range n).foldl (fun y _ => l1WriteOldest p y c 0) x

/-- A part of a store enters the buffer; a full buffer gives up its oldest entry at once (R218, R220). -/
def l1Merge (p x : Die) (c : CoreLoc) (ctx job ln : Nat) (new : List (Nat × Byte)) : Die :=
  let t := x.l1 c
  if t.merge.any (fun e => e.pa == ln && !e.closed) then
    let add : MergeEnt → MergeEnt := fun e =>
      { e with bytes := new ++ e.bytes.filter (fun q => !(new.any (fun r => r.1 == q.1))),
               jobs := if e.jobs.contains job then e.jobs else job :: e.jobs }
    x.setL1 { t with merge := updWhere (fun e => e.pa == ln && !e.closed) add t.merge }
  else
    let x := if t.merge.length < 16 then x else l1WriteOldest p x c 0
    let e : MergeEnt := { pa := ln, bytes := new, closed := false, born := x.time, asked := false, ctx := ctx,
                          jobs := [job], spoil := 0 }
    x.onL1 c (fun t => { t with merge := t.merge ++ [e] })

/-- A store updates the line, or the side-buffer line, that it hits, and enters the merging buffer (R214, R222). -/
def l1Store (p x : Die) (c : CoreLoc) (ctx job ln : Nat) (new : List (Nat × Byte)) : Die :=
  let v := x.vmidOf ctx
  let put : L1Line → L1Line := fun l =>
    if lineHits ctx v ln l then { l with data := new.foldl (fun d q => d.set q.1 q.2) l.data } else l
  let x := x.onL1 c (fun t =>
    let u := if t.lines.any (lineHits ctx v ln) then t.touch ln else t
    { u with lines := u.lines.map put, side := u.side.map put })
  l1Merge p x c ctx job ln new

/-- ACLK cycles since a moment: 4 to 5 SCLK cycles. -/
def Die.aclkSince (x : Die) (t : DWord) : Nat := x.since t * 4 / 5

/-- L1_MERGE_DRAIN (R219). -/
def l1DrainDie (c : CoreLoc) (x : Die) : Die :=
  let t := x.l1 c
  match t.merge with
  | [] => x
  | e :: es =>
    let cfg := x.regU .locCfg c.cl.val
    if !e.closed && (decide (wbits cfg 20 16 ≤ t.merge.length) || decide (wbits cfg 15 8 ≤ x.aclkSince e.born) || e.asked)
    then x.setL1 { t with merge := { e with closed := true } :: es } else x

def execL1MergeDrain (d : DieId) (c : CoreLoc) (s : State) : Out := nextOn d (l1DrainDie c) s

/-- L1_MERGE_WRITE_DONE (R220): the entry that drains is written. -/
def l1WriteDoneDie (c : CoreLoc) (par : BitVec 16) (p x : Die) : Die :=
  match (x.l1 c).merge with
  | [] => x
  | e :: _ => if e.closed then l1WriteOldest p x c par else x

def execL1MergeWriteDone (d : DieId) (c : CoreLoc) (par : BitVec 16) (s : State) : Out :=
  nextOn d (l1WriteDoneDie c par (s.die d.other)) s

/-! ### L2 misses (R227, R228) -/

/-- The answer of a core's miss register. -/
def setAnswer (x : Die) (c : CoreLoc) (ln : Nat) (bs : List Byte) : Die :=
  x.onL1 c (fun t => { t with miss := updWhere (fun m => m.pa == ln && m.answer.isNone) (fun m => { m with answer := some bs }) t.miss })

/-- A core's miss reaches its slice: it hits, or joins or takes a miss register; a slice without a place keeps it
waiting at its input (R228). -/
def l2Request (x : Die) (c : CoreLoc) (ln : Nat) : Die :=
  let sl := sliceOf ln
  let t := x.l2 sl
  if inWindow ln || x.l2Has ln then setAnswer (x.count .l2cHitCnt) c ln (x.l2Bytes ln 128)
  else if t.side.any (fun l => l.pa == ln) then
    let y := x.onL2 sl (fun t => { t with side := t.side.filter (fun l => l.pa != ln) })
    let y := ((y.l2Install ln).count .l2cPfUseCnt).count .l2cHitCnt
    setAnswer y c ln (y.l2Bytes ln 128)
  else
    match t.miss.find? (fun m => realMiss m && m.pa == ln) with
    | some m =>
      if m.waiters.contains (.core c) ∨ 16 ≤ m.waiters.length then x else
      ((x.setL2 { t with miss := updWhere (fun m => realMiss m && m.pa == ln) (fun m => { m with waiters := m.waiters ++ [.core c] }) t.miss }).count
        .l2cMissCnt).count .l2cMergeCnt
    | none =>
      if 64 ≤ (t.miss.filter realMiss).length then x else
      (x.setL2 { t with miss := t.miss ++ [{ pa := ln, waiters := [.core c] }] }).count .l2cMissCnt

/-- Requests of the cores that wait on a line that cannot be read: each group stops with DRAM_PARITY (R477), or with the
carved L2's L2C_PARITY (R234). `word` is the PA in DETAIL (R490). -/
def failLine (cls : Byte) (x : Die) (ln word : Nat) (cores : List CoreLoc) : Die :=
  cores.foldl (fun (y : Die) c =>
    let grps := (((y.l1 c).miss.filter (fun m => m.pa == ln)).map (fun m => m.reqs.map (fun r => r.grp))).flatten
    let y := y.onL1 c (fun t => { t with miss := t.miss.filter (fun m => m.pa != ln) })
    grps.eraseDups.foldl (fun (z : Die) g => match z.group? g with
      | none => z
      | some u =>
        if u.frozen.isSome then z else
        let hits := (u.loads.map (fun l => ((l.vas.zip l.pas).filter (fun q => lineOf q.2 == ln)).map (fun q => firstInPage l.vas q.1))).flatten
        let va := hits.headD 0
        let z := z.updGroup g (fun t => { t with loads := t.loads.filter (fun l => !l.sectors.any (fun s => lineOf s == ln)) })
        z.faultMaster cls (.group g) { flags := 0, ctx := u.ctx, va := va, detail := word, thing := ln / 262144 }) y) x

/-- A parity error of a slice's way and set (R235). -/
def l2Error (x : Die) (sl : Fin 16) (way st : Nat) : Die :=
  let t := x.l2 sl
  let x := (x.count .l2cParityCnt).flag .l2cFlags 1
  if t.errs.contains (way, st) then
    if t.retired.contains (way, st) then x else
    ((x.setL2 { t with retired := (way, st) :: t.retired }).count .l2cWayRetireCnt).note clsWayRetired (.slice sl)
      (FaultInfo.plain 0 (way + 16 * st + 16384))
  else x.setL2 { t with errs := (way, st) :: t.errs }

/-- Drops a line that failed parity from its slice; its way and set take the error. -/
def l2LineError (x : Die) (sl : Fin 16) (ln : Nat) : Die :=
  match (x.l2 sl).lines.find? (fun l => l.pa == ln) with
  | some l => (l2Error x sl l.way (l2SetOf ln)).onL2 sl (fun t => { t with lines := t.lines.filter (fun k => k.pa != ln) })
  | none => x

def waiterCores (ws : List L2Waiter) : List CoreLoc := ws.filterMap (fun w => match w with
  | .core c => some c
  | .prefetch _ => none
  | .sidePrefetch => none)

/-- L2_LINE_FILL (R228): the line of a miss register arrives from DRAM. `fails` are failing reads of its words; `par`: the
installed line fails parity when it is read, and is fetched again (R234). -/
def l2FillDie (sl : Fin 16) (mr : Nat) (fails : List (Nat × Nat)) (par : Bool) (p x : Die) : Die :=
  match ((x.l2 sl).miss.filter realMiss)[mr]? with
  | none => x
  | some m =>
    let drop := fun (y : Die) => y.onL2 sl (fun t => { t with miss := t.miss.filter (fun k => !realMiss k || k.pa != m.pa) })
    let x := drainLine p x m.pa
    let (x, ok) := readLine p (x.parityLine m.pa) m.pa fails
    let cores := waiterCores m.waiters
    if !ok then failLine clsDramParity (drop x) m.pa (failedWord p x m.pa fails) cores else
    let x := x.l2Install m.pa
    if par then l2LineError x sl m.pa else
    let bs := x.l2Bytes m.pa 128
    cores.foldl (fun y c => setAnswer y c m.pa bs) (drop x)

def execL2LineFill (d : DieId) (sl : Fin 16) (mr : Nat) (fails : List (Nat × Nat)) (par : Bool) (s : State) : Out :=
  nextOn d (l2FillDie sl mr fails par (s.die d.other)) s

/-! ### L1 misses (R214 to R217) -/

/-- The bytes of a sector of a line, by PA. -/
def sectorBytes (ln : Nat) (bs : List Byte) (s : Nat) : List Host.Cell := (List.range 32).map (fun i => (s + i, bs.getD (s - ln + i) 0))

/-- Load registers are written once every sector has arrived: each thread's value, extended to a register, or a run of
registers for wider sizes. -/
def loadValue (l : PendLoad) (i : Nat) : List Byte :=
  (List.range l.size).map (fun k => (l.got.lookup (l.pas.getD i 0 + k)).getD 0)

def extend32 (signed : Bool) (size v : Nat) : Word :=
  if signed ∧ size < 4 ∧ bitOf v (8 * size - 1) then BitVec.ofNat 32 (v + (2 ^ 32 - 2 ^ (8 * size))) else BitVec.ofNat 32 v

/-- Threads of a mask, in lane order. -/
def threadsOf (m : BitVec 64) : List Nat := (List.range 64).filter (fun i => m.getLsbD i)

def setLane (ls : Lanes) (i : Nat) (v : Word) : Lanes := if h : i < 64 then ls.set i v h else ls

def Group.setReg (t : Group) (r i : Nat) (v : Word) : Group := { t with regs := t.regs.set r (setLane (t.regs.getD r (Vector.replicate 64 0)) i v) }

def Group.takeLoad (t : Group) (l : PendLoad) : Group :=
  let ths := threadsOf l.mask
  (List.range ths.length).foldl (fun (t : Group) k =>
    let bs := loadValue l k
    let i := ths.getD k 0
    if l.size ≤ 4 then t.setReg l.dst i (extend32 l.signed l.size (ofLe bs))
    else (List.range (l.size / 4)).foldl (fun (t : Group) j => t.setReg (l.dst + j) i (BitVec.ofNat 32 (fieldNat bs (4 * j) 4))) t) t

/-- A group's loads receive sectors of a line, each load those it asked for; loads that are complete write their registers. -/
def Group.receive (t : Group) (asked : List MissReq) (ln : Nat) (bs : List Byte) : Group :=
  let give : PendLoad → PendLoad := fun l =>
    let mine := l.sectors.filter (fun s => asked.any (fun r => r.dst == l.dst && r.sector == s))
    { l with sectors := l.sectors.filter (fun s => !mine.contains s), got := (mine.map (sectorBytes ln bs)).flatten ++ l.got }
  let ls := t.loads.map give
  let t := (ls.filter (fun l => l.sectors.isEmpty)).foldl Group.takeLoad t
  { t with loads := ls.filter (fun l => !l.sectors.isEmpty) }

/-- A sector request stands in a miss register of its core. -/
def L1.asks (u : L1) (r : MissReq) : Bool := u.miss.any (fun m => m.reqs.contains r)

/-- One sector request of a load at its L1: a hit, a side-buffer line that moves into the cache, a join of a miss
register, or a new one; without a place it waits, and holds its pipe's port (R215, R222). -/
def l1Request (p x : Die) (t : Group) (l : PendLoad) (s : Nat) : Die :=
  let c := coreOf t.loc
  let u := x.l1 c
  let v := x.vmidOf t.ctx
  let ln := lineOf s
  let r : MissReq := { grp := t.loc, dst := l.dst, sector := s }
  if u.asks r then x else
  match u.lines.find? (lineHits t.ctx v ln) with
  | some k => ((x.setL1 (u.touch ln)).count .locHitCnt).updGroup t.loc (fun g => g.receive [r] ln k.data)
  | none =>
    match u.side.find? (lineHits t.ctx v ln) with
    | some k =>
      let x := x.setL1 { u with side := u.side.filter (fun q => q.pa != ln) }
      let (x, _) := l1Install x c k
      ((x.count .locPfUseCnt).count .locHitCnt).updGroup t.loc (fun g => g.receive [r] ln k.data)
    | none =>
      match u.miss.find? (fun m => m.pa == ln) with
      | some m =>
        if m.ctx ≠ t.ctx ∨ m.vmid ≠ v ∨ m.fenced ∨ 8 ≤ m.reqs.length then x else
        ((x.setL1 { u with miss := updWhere (fun k => k.pa == ln) (fun k => { k with reqs := k.reqs ++ [r] }) u.miss }).count
          .locMissCnt).count .locMergeCnt
      | none =>
        if 32 ≤ u.miss.length then x else
        let x := l1DrainLine p x c ln
        let x := x.onL1 c (fun u => { u with miss := u.miss ++
          [{ pa := ln, ctx := t.ctx, vmid := v, reqs := [r], answer := none, fenced := false }] })
        l2Request (x.count .locMissCnt) c ln

/-- Every sector that loads of a core's groups still wait for is asked for, older groups first. -/
def serveCore (p x : Die) (c : CoreLoc) : Die :=
  (x.onCore c).foldl (fun (y : Die) t => t.loads.foldl (fun (z : Die) l =>
    l.sectors.foldl (fun (w : Die) s => l1Request p w t l s) z) y) x

/-- A line as its core sees it: the slice's bytes, under the stores that its merging buffer holds (R154). -/
def coreLine (x : Die) (c : CoreLoc) (ln : Nat) : List Byte :=
  (x.l1 c).merge.foldl (fun bs e => if e.pa = ln then e.bytes.foldl (fun d q => d.set q.1 q.2) bs else bs) (x.l2Bytes ln 128)

/-- The slice's copy of a line fails parity as a core's miss reads it (R234): the line leaves the slice and is fetched again; a
word of the carved L2 has no second copy, so its granule is poisoned and the requests stop. -/
def l2CopyFails (x : Die) (c : CoreLoc) (m : MissReg) : Die :=
  if inWindow m.pa then
    failLine clsL2cParity (((x.count .l2cParityCnt).flag .l2cFlags 1).poison (m.pa / 262144)) m.pa m.pa [c]
  else
    let x := l2LineError x (sliceOf m.pa) m.pa
    l2Request (x.onL1 c (fun t => { t with miss := updWhere (fun k => k.pa == m.pa) (fun k => { k with answer := none }) t.miss })) c m.pa

/-- A line as a unit that reads through a core's L1 sees it: the L1's line where it hits. -/
def l1View (x : Die) (c : CoreLoc) (ctx ln : Nat) : List Byte :=
  match (x.l1 c).lines.find? (lineHits ctx (x.vmidOf ctx) ln) with
  | some k => k.data
  | none => coreLine x c ln

/-- `n` sectors of a line through a core's L1, for a unit whose access is one command: a hit answers from the cache, or from the
side buffer, whose line moves into the cache; a miss brings the line in, and its further sectors join the fetch (R215, R222). -/
def l1ReadLine (p x : Die) (c : CoreLoc) (ctx ln n : Nat) : Die × Option (List Byte) :=
  let u := x.l1 c
  let v := x.vmidOf ctx
  match u.lines.find? (lineHits ctx v ln) with
  | some k => ((x.setL1 (u.touch ln)).countN .locHitCnt n, some k.data)
  | none =>
    match u.side.find? (lineHits ctx v ln) with
    | some k =>
      let (x, _) := l1Install (x.setL1 { u with side := u.side.filter (fun q => q.pa != ln) }) c k
      ((x.count .locPfUseCnt).countN .locHitCnt n, some k.data)
    | none =>
      match l2ReadLine p (l1DrainLine p x c ln) ln with
      | (x, false) => (x, none)
      | (x, true) =>
        let bs := coreLine x c ln
        let (x, _) := l1Install x c { pa := ln, way := 0, ctx := ctx, vmid := v, stale := false, data := bs }
        ((x.countN .locMissCnt n).countN .locMergeCnt (n - 1), some bs)

/-- L1_LINE_FILL (R216): the line of a miss register arrives; it is installed, stale after an acquire fence, and its
requests are answered. `par`: the slice's copy, or the installed line, fails parity as it is read, and is fetched again (R234).
A request that still waits at the slice's input is offered again. -/
def l1FillDie (c : CoreLoc) (mr : Nat) (par : FillParity) (p x : Die) : Die :=
  match (x.l1 c).miss[mr]? with
  | none => x
  | some m =>
    match m.answer with
    | none => l2Request x c m.pa
    | some _ =>
      if par = .slice then l2CopyFails x c m else
      let bs := coreLine x c m.pa
      let line : L1Line := { pa := m.pa, way := 0, ctx := m.ctx, vmid := m.vmid, stale := m.fenced, data := bs }
      let (x, w) := l1Install x c line
      if par = .core then
        let x := match w with
          | some w => l1Error x c w (l1SetOf m.pa)
          | none => x.count .locParityCnt
        let again : L1 → L1 := fun t =>
          { t with lines := t.lines.filter (fun k => k.pa != m.pa),
                   miss := updWhere (fun k => k.pa == m.pa) (fun k => { k with answer := none }) t.miss }
        l2Request (x.onL1 c again) c m.pa
      else
        let x := x.onL1 c (fun t => { t with miss := t.miss.filter (fun k => k.pa != m.pa) })
        let grps := (m.reqs.map (fun r => r.grp)).eraseDups
        let give : Die → GrpLoc → Die := fun y g =>
          y.updGroup g (fun t => t.receive (m.reqs.filter (fun r => decide (r.grp = g))) m.pa bs)
        serveCore p (grps.foldl give x) c

def execL1LineFill (d : DieId) (c : CoreLoc) (mr : Nat) (par : FillParity) (s : State) : Out :=
  nextOn d (l1FillDie c mr par (s.die d.other)) s

/-! ### Side buffers (R221, R222, R230) -/

/-- A core holds a line, or fetches it: a prefetch of it does nothing (R221). -/
def L1.knows (t : L1) (ln : Nat) : Bool :=
  t.lines.any (fun l => l.pa == ln) || t.side.any (fun l => l.pa == ln) || t.miss.any (fun m => m.pa == ln) ||
    t.fetching.any (fun f => f.1 == ln)

/-- A HINT 0 prefetch of a line. -/
def l1Prefetch (x : Die) (c : CoreLoc) (ctx ln : Nat) : Die :=
  let t := x.l1 c
  if t.knows ln then x else x.setL1 { t with fetching := t.fetching ++ [(ln, ctx, x.vmidOf ctx)] }

/-- A HINT 1 prefetch of a line: it drains the core's entries up to one that holds the line, and goes to the slice (R219). -/
def l2Prefetch (p x : Die) (c : CoreLoc) (ln : Nat) : Die :=
  if (x.l1 c).knows ln then x else
  let x := l1DrainLine p x c ln
  let t := x.l2 (sliceOf ln)
  if inWindow ln || x.l2Has ln || t.side.any (fun l => l.pa == ln) || t.miss.any (fun m => m.pa == ln) then x
  else x.setL2 { t with miss := t.miss ++ [{ pa := ln, waiters := [.sidePrefetch] }] }

/-- The first prefetch of a core arrives in its side buffer of 16 lines. -/
def sideL1 (c : CoreLoc) (p x : Die) : Die :=
  match (x.l1 c).fetching with
  | [] => x
  | (ln, ctx, v) :: fs =>
    let x := l1DrainLine p (x.onL1 c (fun t => { t with fetching := fs })) c ln
    let (x, ok) := l2ReadLine p x ln
    let t := x.l1 c
    if !ok || t.lines.any (fun l => l.pa == ln) || t.side.any (fun l => l.pa == ln) then x.count .locPfDropCnt else
    let l : L1Line := { pa := ln, way := 0, ctx := ctx, vmid := v, stale := false, data := x.l2Bytes ln 128 }
    if t.side.length < 16 then x.setL1 { t with side := t.side ++ [l] }
    else (x.setL1 { t with side := t.side.drop 1 ++ [l] }).count .locPfDropCnt

/-- The first prefetch of a slice arrives in its side buffer of 64 lines. -/
def sideL2 (sl : Fin 16) (p x : Die) : Die :=
  match (x.l2 sl).miss.find? (fun m => !realMiss m) with
  | none => x
  | some m =>
    let x := x.onL2 sl (fun t => { t with miss := t.miss.filter (fun k => realMiss k || k.pa != m.pa) })
    let (x, ok) := readLine p ((drainLine p x m.pa).parityLine m.pa) m.pa []
    let t := x.l2 sl
    if !ok || t.lines.any (fun l => l.pa == m.pa) then x else
    let l : L2Line := { pa := m.pa, way := 0 }
    if t.side.length < 64 then x.setL2 { t with side := t.side ++ [l] }
    else (x.setL2 { t with side := t.side.drop 1 ++ [l] }).count .l2cPfDropCnt

/-- SIDE_BUFFER_FILL (R222, R230). -/
def execSideBufferFill (d : DieId) (buf : SideLoc) (s : State) : Out :=
  match buf with
  | .l1 c => nextOn d (sideL1 c (s.die d.other)) s
  | .l2 sl => nextOn d (sideL2 sl (s.die d.other)) s

/-! ### The L2 merging buffer (R229) -/

/-- L2_MERGE_DRAIN: WB_AGE counts units of 16 FCLK cycles, 10 SCLK cycles. -/
def l2DrainDie (sl : Fin 16) (x : Die) : Die :=
  let t := x.l2 sl
  match t.merge with
  | [] => x
  | e :: es =>
    let cfg := x.regU .l2cCfg (6 + sl.val)
    if !e.closed && (decide (wbits cfg 20 16 ≤ t.merge.length) || decide (10 * wbits cfg 15 8 ≤ x.since e.born) || e.asked)
    then x.setL2 { t with merge := { e with closed := true } :: es } else x

def execL2MergeDrain (d : DieId) (sl : Fin 16) (s : State) : Out := nextOn d (l2DrainDie sl) s

/-- L2_MERGE_COMMIT: the entry that drains is committed; `par` are words that failed parity in the buffer (R234). -/
def l2CommitDie (sl : Fin 16) (par : BitVec 16) (fails : List (Nat × Nat)) (p x : Die) : Die :=
  match (x.l2 sl).merge with
  | [] => x
  | e :: es =>
    if !e.closed then x else
    let f := { e with spoil := e.spoil ||| par }
    let x := x.onL2 sl (fun t => { t with merge := f :: es })
    let x := if par = 0 then x else (x.count .l2cParityCnt).flag .l2cFlags 1
    commitEntry p x f fails

def execL2MergeCommit (d : DieId) (sl : Fin 16) (par : BitVec 16) (fails : List (Nat × Nat)) (s : State) : Out :=
  nextOn d (l2CommitDie sl par fails (s.die d.other)) s

/-! ### Cycles of waiting (R215, R228, R270) -/

/-- Pipes of a core whose L1 port a sector request without a miss register holds (R215). -/
def heldPorts (x : Die) (c : CoreLoc) : Nat :=
  let u := x.l1 c
  let waits : Group → Bool := fun t => t.loads.any (fun l => l.sectors.any (fun s => !u.asks { grp := t.loc, dst := l.dst, sector := s }))
  (pipeIds.filter (fun k => (x.onPipe c k).any waits)).length

/-- A miss of a core waits at the input of its slice (R228). -/
def inputWaits (x : Die) (sl : Fin 16) : Bool :=
  x.cache.l1s.any (fun u => u.miss.any (fun m => m.answer.isNone && decide (sliceOf m.pa = sl) &&
    !(x.l2 sl).miss.any (fun k => k.pa == m.pa && k.waiters.contains (.core u.loc))))

/-- A local µs of waiting: 320 ACLK cycles of each port held and of each group that ILK.ACQ keeps waiting, 640 FCLK cycles of
each slice input (R171, R237, R270, R279). -/
def Die.countWaits (x : Die) : Die :=
  if !x.running then x else
  let ports := (x.cache.l1s.map (fun u => heldPorts x u.loc)).sum
  let inputs := (coreIds.filter (inputWaits x)).length
  let ilks := (x.sh.groups.filter (fun t => t.ilkWait && t.frozen.isNone)).length
  ((x.countN .locMrFullCnt (320 * ports)).countN .l2cMrFullCnt (640 * inputs)).countN .gfxIlkWaitCnt (320 * ilks)

/-- The block idles on an empty queue: a local µs passes on both dies, and their USB ports send the ERDYs that are due. -/
def State.idle (s : State) : State := s.onBoth (fun x => x.countWaits.idle.sendErdy)

/-! ### Tile memory (R206, R210) -/

/-- STEP_ZERO_DONE: the lowest step that is being zeroed is free. -/
def stepZeroDie (cl : Fin 6) (x : Die) : Die :=
  match tlmSteps.find? (fun k => (x.sh.zeroing[cl]).getLsbD k) with
  | none => x
  | some k =>
    let clear := coreIds.foldl (fun (m : Mem) c =>
      let a := tlmAddr { cl := cl, core := c } (32768 * k)
      spClear a (a + 32768) m) x.sh.tlm
    ({ x with sh.tlm := clear, sh.zeroing := x.sh.zeroing.set cl (x.sh.zeroing[cl] &&& ~~~((1 : BitVec 16) <<< k)) }).count
      .tlmZeroCnt

def execStepZeroDone (d : DieId) (cl : Fin 6) (s : State) : Out := nextOn d (stepZeroDie cl) s

/-- TLM_STARVE_TAKE: a cycle taken is counted; the pipe's port is held a slot longer, which is timing. -/
def execTlmStarveTake (d : DieId) (_c : CoreLoc) (_who : BankUser) (_pipe : Fin 4) (s : State) : Out :=
  nextOn d (fun x => if x.running then x.count .tlmStarveCnt else x) s

/-! ### The carve (R231 to R233) -/

/-- The granules between two carves are all wiped. -/
def carveWiped (x : Die) (new old : Nat) : Bool :=
  (List.range (16 * (old - new))).all (fun i => ownState (x.ownEntry (524224 + 16 * new + i)) == 0)

/-- L2_CARVE_APPLY: a slice applies the pressed L2C_CFG. An increase is zeroed first; a decrease is decided for the die
by the first slice that applies it. -/
def carveApplyDie (sl : Fin 16) (x : Die) : Die :=
  let u := 6 + sl.val
  if !x.unitWaits u || (x.l2 sl).zeroing.isSome then x else
  if x.shadowFails u then x.unitRefuses u else
  let new := wbits (x.pressedI .l2cCfg []) 2 0
  let old := x.cache.carveActive
  if old < new then
    let cut := l2Ways new
    x.onL2 sl (fun t => { t with zeroing := some new, lines := t.lines.filter (fun l => decide (l.way < cut)) })
  else if new < old ∧ !carveWiped x new old then
    let y := (x.flag .l2cFlags 0).count .l2cCarveRefusedCnt
    (unitRun 6 16).foldl (fun (z : Die) v => if z.unitWaits v then z.unitRefuses v else z) y
  else
    let x := if new < old then
        { x with cache.carveActive := new,
                 cache.l2carve := spClear (4194304 * new) (4194304 * old) x.cache.l2carve } else x
    x.unitApplies u

def execL2CarveApply (d : DieId) (sl : Fin 16) (s : State) : Out := nextOn d (carveApplyDie sl) s

/-- L2_CARVE_ZERO_DONE: the added ways are zeroed and the slice acknowledges; the window grows when the last slice is
done, and reads 0 there. -/
def carveZeroDie (sl : Fin 16) (x : Die) : Die :=
  match (x.l2 sl).zeroing with
  | none => x
  | some new =>
    let u := 6 + sl.val
    let x := (x.onL2 sl (fun t => { t with zeroing := none })).unitApplies u
    if (unitGroup u).all (fun v => x.unitDone v) then { x with cache.carveActive := new } else x

def execL2CarveZeroDone (d : DieId) (sl : Fin 16) (s : State) : Out :=
  nextOn d (fun x => (carveZeroDie sl x)) s

end Sys2Proof.Machine
end

