-- ==== Sys2Proof/Machine/WrgJobs.lean ====
section
/-! DEFINITION. Sys2Proof/Machine/WrgJobs.lean: wringer jobs: one block, a yield, and where output lies
(R440 to R446, R450). -/
namespace Sys2Proof.Machine

/-- Units of 4 KiB of a range: (VA, bytes). -/
def unitsOf (va n : Nat) : List (Nat × Nat) :=
  (List.range (ceilDiv n 4096)).map (fun i => (va + 4096 * i, min 4096 (n - 4096 * i)))

/-- A range read unit by unit; none when the master has stopped. -/
def readUnits (p x : Die) (m : Master) (c va n : Nat) : Die × Option (List Byte) :=
  (unitsOf va n).foldl (fun (r : Die × Option (List Byte)) u => match r.2 with
    | none => r
    | some bs => match readUnit p r.1 m c u.1 u.2 accRead with
      | (x, some b) => (x, some (bs ++ b))
      | (x, none) => (x, none)) (x, some [])

/-! ### A block that a unit stopped goes on from that unit (R366, R444) -/

def Die.updWringer (x : Die) (e : Fin 8) (f : Wringer → Wringer) : Die := { x with wringers := vmod x.wringers e f }

/-- Reads that an engine makes for a block, one after the other: those made before it was stopped are not made again. `from0` is
how many bytes of the block's input came before them. -/
def wrgReads (p x : Die) (e : Fin 8) (c va n from0 : Nat) : Die × Option (List Byte) :=
  let done := (((x.wringers[e]).got).drop from0).take n
  (unitsOf (va + done.length) (n - done.length)).foldl (fun (r : Die × Option (List Byte)) u => match r.2 with
    | none => r
    | some bs => match readUnit p r.1 (.wringer e) c u.1 u.2 accRead with
      | (x, some b) => (x.updWringer e (fun w => { w with got := w.got ++ b }), some (bs ++ b))
      | (x, none) => (x, none)) (x, some done)

/-- Writes made in order, each its own unit; whether all were performed. -/
def writeList (p x : Die) (m : Master) (c : Nat) (ws : List (Nat × List Byte)) : Die × Bool :=
  ws.foldl (fun (r : Die × Bool) w => if r.2 then writeUnit p r.1 m c w.1 w.2 accWrite else r) (x, true)

/-- Writes that an engine makes for a block, those made before it was stopped left out; whether all were performed. -/
def wrgWrites (p x : Die) (e : Fin 8) (c : Nat) (ws : List (Nat × List Byte)) : Die × Bool :=
  (ws.drop (x.wringers[e]).put).foldl (fun (r : Die × Bool) w =>
    if r.2 then match writeUnit p r.1 (.wringer e) c w.1 w.2 accWrite with
      | (x, true) => (x.updWringer e (fun t => { t with put := t.put + 1 }), true)
      | (x, false) => (x, false)
    else r) (x, true)

/-! ### Where the output lies (R442, R443) -/

/-- An output place: a run of stream offsets at a VA. -/
structure OutRun where
  ofs : Nat
  va : Nat
  len : Nat
  deriving DecidableEq, Repr

/-- The list of R443 from an entry on, as far as an offset. An entry that breaks its layout ends the list. -/
def chainRuns (p : Die) (m : Master) (c stop : Nat) : Nat → Die → Nat → Nat → Die × Option (List OutRun)
  | 0, x, _, _ => (x, some [])
  | fuel + 1, x, va, ofs =>
    if stop ≤ ofs then (x, some []) else
    match readUnit p x m c va 16 accRead with
    | (x, none) => (x, none)
    | (x, some b) =>
      let len := fieldNat b 8 4
      if len = 0 ∨ len % 8 ≠ 0 ∨ fieldNat b 0 8 % 8 ≠ 0 ∨ fieldNat b 12 4 ≠ 0 then (x, some []) else
      match chainRuns p m c stop fuel x (va + 16) (ofs + len) with
      | (x, none) => (x, none)
      | (x, some rs) => (x, some ({ ofs := ofs, va := fieldNat b 0 8, len := len } :: rs))

/-- Places for the output as far as offset `stop`. -/
def outRuns (p x : Die) (m : Master) (j : Job) (stop : Nat) : Die × Option (List OutRun) :=
  let b := j.wrg.par
  if fieldNat b 1 1 = 0 then
    (x, some [{ ofs := 0, va := fieldNat b 0x18 8, len := fieldNat b 0x20 8 }])
  else chainRuns p m j.ctx stop (stop / 8 + 1) x (fieldNat b 0x18 8) 0

def runsEnd (rs : List OutRun) : Nat := (rs.map (fun r => r.ofs + r.len)).foldl max 0

/-- Writes of bytes at an output offset, in units of at most 4 KiB. -/
def outWrites (rs : List OutRun) (ofs : Nat) (bs : List Byte) : List (Nat × List Byte) :=
  (rs.map (fun r =>
    let lo := max r.ofs ofs
    let hi := min (r.ofs + r.len) (ofs + bs.length)
    if hi ≤ lo then [] else
    (unitsOf (r.va + (lo - r.ofs)) (hi - lo)).map (fun u =>
      let at0 := u.1 - (r.va + (lo - r.ofs)) + (lo - ofs)
      (u.1, (bs.drop at0).take u.2)))).flatten

/-! ### WRINGER_BLOCK (R441 to R446) -/

/-- The bytes from OUT_DONE to the end of the output are undefined when a job stops (R442): free values, where the job may write. -/
def wrgUndefined (p x : Die) (e : Fin 8) (c : Nat) (rs : List OutRun) (ofs : Nat) : Die :=
  let free := (List.range (runsEnd rs - ofs)).map (Config.byte x.free)
  (outWrites rs ofs free).foldl (fun (y : Die) w =>
    match tryUnit p y (.wringer e) c [{ va := w.1, len := w.2.length, acc := accWrite }] with
    | (z, .ok pm) => storeBytes p z c pm w.1 w.2
    | (_, .error _) => y) x.tick

/-- A job whose output does not fit stops (R442). -/
def wrgStop (p x : Die) (e : Fin 8) (slot c : Nat) (rs : List OutRun) (ofs : Nat) : Die :=
  let x := wrgUndefined p x e c rs ofs
  let x := x.updJob slot (fun j => { j with wrg := { j.wrg with result := 2 } })
  let x := (writeWrgCounts p x e slot).count .wrgStopCnt
  { x with wringers := vmod x.wringers e (fun _ => Wringer.reset) }

/-- A block is done: the counts advance; after the last one RESULT is written and the engine is released. -/
def wrgAdvance (p x : Die) (e : Fin 8) (slot inn out ulen : Nat) (last : Bool) : Die :=
  let x := x.countN .wrgUnitCnt (ceilDiv ulen 4096)
  let x := x.updJob slot (fun j =>
    let r := { j.wrg with blocks := j.wrg.blocks + 1, inDone := j.wrg.inDone + inn, outDone := j.wrg.outDone + out,
                          result := if last then 1 else 0 }
    { j with wrg := r, done := r.inDone / 4096 })
  if last then
    let x := writeWrgCounts p x e slot
    { x with wringers := vmod x.wringers e (fun _ => Wringer.reset) }
  else x.updWringer e (fun w => { w with got := [], put := 0 })

def kindCounter : WrgKind → Reg
  | .lzw => .wrgLzwCnt
  | .stored => .wrgStoredCnt
  | .zero => .wrgZeroCnt

/-- Blocks that were written, outside a wringer job (R450). -/
def countWritten (x : Die) (bs : List WrgBlock) : Die :=
  bs.foldl (fun (y : Die) b => (y.count (kindCounter b.kind)).countN .wrgUnitCnt (ceilDiv b.ulen 4096)) x

/-- Blocks of a stream that were decoded and passed, outside a wringer job. -/
def countDecoded (x : Die) (bsize : Option Nat) (bs : List Byte) : Die :=
  (wrgPassed (bs.length / 16 + 1) bsize bs).foldl (fun (y : Die) u => (y.count .wrgDecodeCnt).countN .wrgUnitCnt (ceilDiv u 4096)) x

/-- A unit has stopped the engine: the counts are written (R441). -/
def wrgFrozen (p x : Die) (e : Fin 8) (slot : Nat) : Die := writeWrgCounts p x e slot

/-- One block is compressed. -/
def compressBlock (p x : Die) (e : Fin 8) (j : Job) : Die :=
  let m : Master := .wringer e
  let b := j.wrg.par
  let bsize := fieldNat b 2 1
  let n := min (2 ^ bsize) (fieldNat b 0x10 8 - j.wrg.inDone)
  let last := j.wrg.inDone + n == fieldNat b 0x10 8
  match wrgReads p x e j.ctx (fieldNat b 0x08 8 + j.wrg.inDone) n 0 with
  | (x, none) => wrgFrozen p x e j.slot
  | (x, some bs) =>
    let k := wrgEncode bsize last bs
    let size := k.bytes.length
    match outRuns p x m j (j.wrg.outDone + size) with
    | (x, none) => wrgFrozen p x e j.slot
    | (x, some rs) =>
      if runsEnd rs < j.wrg.outDone + size then wrgStop p x e j.slot j.ctx rs j.wrg.outDone else
      let body := outWrites rs (j.wrg.outDone + 16) (k.bytes.drop 16)
      let head := outWrites rs j.wrg.outDone (k.bytes.take 16)
      let ix := fieldNat b 0x28 8
      let index := if ix = 0 then [] else [(ix + 8 * j.wrg.blocks, leBytes 8 j.wrg.outDone)]
      match wrgWrites p x e j.ctx (body ++ head ++ index) with
      | (x, false) => wrgFrozen p x e j.slot
      | (x, true) => wrgAdvance p (x.count (kindCounter k.kind)) e j.slot n size n last

/-- A block fails R439 (R445): the bytes of it already written, a free number of them, stay written. -/
def wrgDataError (p x : Die) (e : Fin 8) (j : Job) (rs : List OutRun) (part : List Byte) : Die :=
  let n := Config.choice x.free % (part.length + 1)
  let (x, _) := wrgWrites p x.tick e j.ctx (outWrites rs j.wrg.outDone (part.take n))
  let x := x.updWringer e (fun w => { w with got := [], put := 0 })
  let x := ((x.flag .wrgFlags 0).count .wrgDataErrCnt).faultMaster clsWrgData (.wringer e) (FaultInfo.plain j.ctx j.wrg.blocks)
  writeWrgCounts p x e j.slot

/-- One block is decompressed. -/
def decompressBlock (p x : Die) (e : Fin 8) (j : Job) : Die :=
  let m : Master := .wringer e
  let b := j.wrg.par
  let va := fieldNat b 0x08 8 + j.wrg.inDone
  let left := fieldNat b 0x10 8 - j.wrg.inDone
  match wrgReads p x e j.ctx va (min 16 left) 0 with
  | (x, none) => wrgFrozen p x e j.slot
  | (x, some hb) =>
    let first : Die × Option (Option Nat) := if j.wrg.blocks = 0 ∨ j.wrg.inDone = 0 then (x, some none) else
      match readUnit p x m j.ctx (fieldNat b 0x08 8) 16 accRead with
      | (x, some h) => (x, some ((wrgHead h).map (fun t => t.bsize)))
      | (x, none) => (x, none)
    match first with
    | (x, none) => wrgFrozen p x e j.slot
    | (x, some want) =>
      match wrgHead hb with
      | none => wrgDataError p x e j [] []
      | some h =>
        if decide (left < h.size) || (match want with | some w => w != h.bsize | none => false) then wrgDataError p x e j [] [] else
        match wrgReads p x e j.ctx (va + 16) h.clen 16 with
        | (x, none) => wrgFrozen p x e j.slot
        | (x, some payload) =>
          match outRuns p x m j (j.wrg.outDone + h.ulen) with
          | (x, none) => wrgFrozen p x e j.slot
          | (x, some rs) =>
            if runsEnd rs < j.wrg.outDone + h.ulen then wrgStop p x e j.slot j.ctx rs j.wrg.outDone else
            let (out, ok) := h.decode payload
            if !ok then wrgDataError p x e j rs out else
            match wrgWrites p x e j.ctx (outWrites rs j.wrg.outDone out) with
            | (x, false) => wrgFrozen p x e j.slot
            | (x, true) =>
              let last := h.last || j.wrg.inDone + h.size == fieldNat b 0x10 8
              wrgAdvance p (x.count .wrgDecodeCnt) e j.slot h.size h.ulen h.ulen last

def wringerBlockDie (e : Fin 8) (p x : Die) : Die :=
  let w := x.wringers[e]
  match w.job with
  | none => x
  | some slot =>
    match x.job? slot with
    | none => x
    | some j =>
      if w.frozen.isSome || !x.schedules || !x.ctxStarts j.ctx || x.power.therm == 2 || decide (w.use ≠ 1 ∧ w.use ≠ 2) then x
      else if w.use = 1 then compressBlock p x e j
      else decompressBlock p x e j

def execWringerBlock (d : DieId) (e : Fin 8) (s : State) : Out := nextOn d (wringerBlockDie e (s.die d.other)) s

/-! ### WRINGER_YIELD (R446) -/

/-- A wringer job of a higher class waits for an engine, or a fold of a suspended context does (R338). -/
def Die.wringerWanted (x : Die) (j : Job) : Bool :=
  x.freeWringer.isNone && x.jobs.list.any (fun t => dKind t.desc == 3 && decide (dClass t.desc < dClass j.desc) && x.ctxStarts t.ctx &&
    (decide (t.state = .released) || (decide (t.state = .running) && t.wrg.result == 0 && !x.onWringer t.slot))) ||
  x.jobs.list.any (fun t => t.shares.any (fun h => h.wring && decide (h.state = .folding)))

def wringerYieldDie (e : Fin 8) (p x : Die) : Die :=
  let w := x.wringers[e]
  match w.job with
  | none => x
  | some slot =>
    match x.job? slot with
    | none => x
    | some j =>
      if w.frozen.isSome || !x.running || !x.wringerWanted j then x else
      let x := (writeWrgCounts p x e slot).count .wrgYieldCnt
      { x with wringers := vmod x.wringers e (fun _ => Wringer.reset) }

def execWringerYield (d : DieId) (e : Fin 8) (s : State) : Out := nextOn d (wringerYieldDie e (s.die d.other)) s

end Sys2Proof.Machine
end

