-- ==== Sys2Proof/Machine/Folding.lean ====
section
/-! DEFINITION. Sys2Proof/Machine/Folding.lean: the save area, writing a fold and reading it back
(R225, R330, R332 to R335, R340 to R344, R447). -/
namespace Sys2Proof.Machine

/-! ### Records and regions (R343) -/

def lanesBytes (v : Lanes) : List Byte := (v.toList.map (fun w => leBytes 4 w.toNat)).flatten

def lanesOf (bs : List Byte) : Lanes := Vector.ofFn (fun t : Fin 64 => BitVec.ofNat 32 (fieldNat bs (4 * t.val) 4))

/-- The position of an instruction, counted from WORK_VA. -/
def posOf (work : Nat) (pc : BitVec 48) : Nat := (pc - BitVec.ofNat 48 work).toNat / 8 % 2 ^ 32

def pcAt (work pos : Nat) : BitVec 48 := BitVec.ofNat 48 (work + 8 * pos)

/-- A group record (R343). -/
def groupRecord (j : Job) (t : Group) : List Byte :=
  let work := dWorkVa j.desc
  let arr := t.arrivals.toList
  let st := t.stack.reverse
  let stackBytes := (st.map (fun e => leBytes 4 (posOf work e.reconv) ++ leBytes 4 (posOf work e.pendPc) ++
    leBytes 8 e.pendMask.toNat ++ leBytes 8 e.outer.toNat)).flatten
  leBytes 4 (if t.allParked then 0xFFFFFFFF else posOf work t.pc) ++ leBytes 4 t.idx ++ leBytes 8 t.active.toNat ++
    leBytes 8 t.exited.toNat ++ (t.preds.toList.map (fun p => leBytes 8 p.toNat)).flatten ++
    (arr.map (fun a => leBytes 8 a.mask.toNat)).flatten ++
    (arr.map (fun a => leBytes 4 (if a.mask = 0 then 0 else posOf work a.pc))).flatten ++
    leBytes 4 t.gstat.toNat ++ leBytes 4 t.ovf.toNat ++ leBytes 4 t.sat.toNat ++ leBytes 4 t.nan.toNat ++
    leBytes 1 st.length ++ List.replicate 51 0 ++
    (stackBytes ++ List.replicate (768 - stackBytes.length) 0) ++
    (t.scales.toList.map (fun v => v.toList)).flatten ++
    ((t.regs.take (dLive j.desc)).map lanesBytes).flatten ++ (t.accs.map lanesBytes).flatten

/-- The fields of a group that a record restores; other group registers read 0 (R333). -/
def restoreGroup (j : Job) (b : List Byte) (t : Group) : Group :=
  let work := dWorkVa j.desc
  let live := dLive j.desc
  let pc := fieldNat b 0 4
  let arrival : Fin 9 → Arrival := fun i =>
    { mask := BitVec.ofNat 64 (fieldNat b (0x50 + 8 * i.val) 8), pc := pcAt work (fieldNat b (0x98 + 4 * i.val) 4), mixed := false }
  let entry : Nat → StackEnt := fun i =>
    { reconv := pcAt work (fieldNat b (0x100 + 24 * i) 4), pendPc := pcAt work (fieldNat b (0x104 + 24 * i) 4),
      pendMask := BitVec.ofNat 64 (fieldNat b (0x108 + 24 * i) 8), outer := BitVec.ofNat 64 (fieldNat b (0x110 + 24 * i) 8) }
  let idx := fieldNat b 4 4
  let zero : Lanes := Vector.replicate 64 0
  { t with idx := idx, wg := idx / dWg j.desc, rank := idx % dWg j.desc,
           pc := if pc = 0xFFFFFFFF then t.pc else pcAt work pc,
           active := BitVec.ofNat 64 (fieldNat b 8 8), exited := BitVec.ofNat 64 (fieldNat b 0x10 8),
           preds := Vector.ofFn (fun i : Fin 7 => BitVec.ofNat 64 (fieldNat b (0x18 + 8 * i.val) 8)),
           arrivals := Vector.ofFn arrival, gstat := BitVec.ofNat 3 (fieldNat b 0xBC 4),
           ovf := BitVec.ofNat 32 (fieldNat b 0xC0 4), sat := BitVec.ofNat 32 (fieldNat b 0xC4 4),
           nan := BitVec.ofNat 32 (fieldNat b 0xC8 4),
           stack := ((List.range (fieldNat b 0xCC 1)).map entry).reverse,
           scales := Vector.ofFn (fun i : Fin 8 => Vector.ofFn (fun k : Fin 64 => b.getD (0x400 + 64 * i.val + k.val) 0)),
           regs := (List.range t.regs.length).map (fun i => if i < live then lanesOf (field b (0x600 + 256 * i) 256) else zero),
           accs := (List.range t.accs.length).map (fun i => lanesOf (field b (0x600 + 256 * (live + i)) 256)) }

/-- Groups of a share on a core, in ascending index. -/
def Die.coreGroups (x : Die) (slot : Nat) (c : CoreLoc) : List Group :=
  sortBy (fun a b => decide (a.idx ≤ b.idx)) ((x.onCore c).filter (fun t => t.job == slot))

/-- Logical bytes of a partition in a core's slice. -/
def partBytes (x : Die) (mask : BitVec 16) (c : CoreLoc) (ofs n : Nat) : List Byte :=
  (List.range n).map (fun i => match tlmPhys mask (ofs + i) with
    | some q => Mem.byte x.sh.tlm (tlmAddr c q)
    | none => 0)

def setPartBytes (x : Die) (mask : BitVec 16) (c : CoreLoc) (ofs : Nat) (bs : List Byte) : Die :=
  { x with sh.tlm := (List.range bs.length).foldl (fun m i => match tlmPhys mask (ofs + i) with
      | some q => Mem.setByte m (tlmAddr c q) (bs.getD i 0)
      | none => m) x.sh.tlm }

/-- The pieces of a core region: the partition in units of 32 KiB, then the group records. -/
def regionPieces (x : Die) (j : Job) (mask : BitVec 16) (c : CoreLoc) : List (List Byte) :=
  (List.range (dSteps j.desc)).map (fun i => partBytes x mask c (32768 * i) 32768) ++
  (if dKind j.desc = 0 then (x.coreGroups j.slot c).map (groupRecord j) else [])

/-- The VA of core region `k` of a share. -/
def regionVa (j : Job) (index k : Nat) : Nat := dSaveVa j.desc + 4096 + dCoreSize j.desc * (16 * index + k)

/-- The pieces at rising VAs. -/
def placePieces (va : Nat) : List (List Byte) → List (Nat × List Byte)
  | [] => []
  | b :: bs => (va, b) :: placePieces (va + b.length) bs

/-! ### The directory and the front-end state (R342) -/

def phaseCode : PassPhase → Nat
  | .binning => 0
  | .rinse => 1
  | .tile => 2
  | .direct => 3
  | .folding => 4
  | .frozen => 5

def phaseOf : Nat → PassPhase
  | 0 => .binning
  | 1 => .rinse
  | 2 => .tile
  | _ => .direct

/-- FE: the front end's position, and the reserve chunks that the pass holds. -/
def feBytes (q : Pass) : List Byte :=
  let head := leBytes 4 q.drawNo ++ leBytes 4 q.inst ++ leBytes 4 q.position ++ leBytes 4 q.segment ++
    leBytes 1 (phaseCode q.resume) ++ leBytes 3 0 ++ leBytes 4 q.nextTile ++ leBytes 4 q.nextChunk ++ leBytes 4 0 ++
    leBytes 8 q.vChunk ++ leBytes 4 q.vOfs ++ leBytes 4 0 ++ leBytes 8 q.lChunk ++ leBytes 4 q.lSeg
  let map := leBytes 512 (q.exts.foldl (fun m c => Nat.lor m (2 ^ c)) 0)
  putField (head ++ List.replicate (1024 - head.length) 0) 0x200 map

/-- The pass as its front-end state says. -/
def feRestore (b : List Byte) (q : Pass) : Pass :=
  { q with drawNo := fieldNat b 0 4, inst := fieldNat b 4 4, position := fieldNat b 8 4, segment := fieldNat b 0x0C 4,
           phase := phaseOf (fieldNat b 0x10 1), resume := phaseOf (fieldNat b 0x10 1), nextTile := fieldNat b 0x14 4,
           nextChunk := fieldNat b 0x18 4, vChunk := fieldNat b 0x20 8, vOfs := fieldNat b 0x28 4,
           lChunk := fieldNat b 0x30 8, lSeg := fieldNat b 0x38 4,
           exts :=
             let l := (List.range 4096).filter (fun c => bitOf (fieldNat b 0x200 512) c)
             if l.length = q.exts.length ∧ l.all (fun c => q.exts.contains c) then q.exts else l }

/-- Slot k of TILE_SLOTS: the tile in flight in it and its list entries drawn. -/
def tileSlots (q : Option Pass) (cl : Fin 6) : List Byte :=
  ((List.range 4).map (fun k =>
    match q.bind (fun t => t.tiles.find? (fun f => decide (f.cl = cl) && f.slot == k)) with
    | some f => leBytes 4 f.tile ++ leBytes 4 f.drawn
    | none => leBytes 4 0xFFFFFFFF ++ leBytes 4 0)).flatten

/-- A directory entry. -/
def dirEntry (x : Die) (j : Job) (h : Share) (state stored : Nat) (counts : List Nat) : List Byte :=
  leBytes 1 state ++ leBytes 1 (dSteps j.desc) ++ leBytes 2 0 ++ leBytes 4 (x.unitEpoch h.cl.val).toNat ++
    leBytes 4 stored ++ leBytes 4 0 ++ (counts.map (leBytes 1)).flatten ++
    (if dKind j.desc = 1 then tileSlots ((x.passOf j.slot).map (fun q => q.2)) h.cl else List.replicate 32 0) ++
    leBytes 8 x.time.toNat ++ List.replicate 56 0

/-- The header's fixed fields; bit s of SHARES: entry s is valid. -/
def saveHeader (j : Job) (valid : Nat) : List Byte :=
  leBytes 4 1 ++ leBytes 4 j.id.toNat ++ leBytes 1 (dKind j.desc) ++ leBytes 1 valid ++ leBytes 2 0 ++
    leBytes 4 (dGrec j.desc) ++ leBytes 4 (dCoreSize j.desc) ++ List.replicate 12 0

/-! ### FOLD_DONE (R335) -/

/-- Every group of the share has stopped with its loads returned; a pass has come to the point of R275. -/
def foldReady (x : Die) (j : Job) (h : Share) : Bool :=
  let gs := x.sh.groups.filter (fun t => t.job == j.slot && decide (t.loc.cl = h.cl))
  if dKind j.desc = 1 then
    (x.sh.groups.all (fun t => t.job != j.slot)) &&
    (match x.passOf j.slot with
     | some (_, q) => (q.fan.isEmpty || decide (q.resume = .rinse)) && q.frozen.isNone && q.halted.isEmpty && q.extWait.isNone &&
         q.tiles.all (fun f => f.quads.isEmpty && f.pendingFrags.isEmpty && f.done.isEmpty)
     | none => true)
  else gs.all (fun t => t.stopped && t.frozen.isNone && t.loads.isEmpty && t.atomics.isEmpty && t.fence.isNone)

/-- The uncompressed regions of a share. -/
def plainWrites (x : Die) (j : Job) (h : Share) (mask : BitVec 16) : List (Fin 16 × List (Nat × List Byte)) :=
  coreIds.map (fun k => (k, placePieces (regionVa j h.index k.val) (regionPieces x j mask { cl := h.cl, core := k })))

/-- The regions as block streams of BSIZE 16, or none when one would pass CORE_SIZE (R447). -/
def wrungWrites (x : Die) (j : Job) (h : Share) (mask : BitVec 16) : Option (List (Fin 16 × List (Nat × List Byte)) × List WrgBlock) :=
  let streams := coreIds.map (fun k => (k, wrgStream 16 (regionPieces x j mask { cl := h.cl, core := k }).flatten))
  let size := fun (bs : List WrgBlock) => (bs.map (fun b => b.bytes.length)).sum
  if streams.any (fun q => decide (dCoreSize j.desc < size q.2)) then none
  else some (streams.map (fun q => (q.1, placePieces (regionVa j h.index q.1.val) (q.2.map (fun b => b.bytes)))),
    (streams.map (fun q => q.2)).flatten)

/-- The writes of each region, made by its core's stream engine, or by a wringer engine. -/
def writeRegions (p x : Die) (j : Job) (cl : Fin 6) (wrung : Bool) (ws : List (Fin 16 × List (Nat × List Byte))) : Die × Bool :=
  ws.foldl (fun (r : Die × Bool) q =>
    if r.2 then
      let m : Master := if wrung then .wringer (Fin.ofNat 8 q.1.val) else .stream { cl := cl, core := q.1 } j.slot
      writeList p r.1 m j.ctx q.2
    else r) (x, true)

def writtenBytes (ws : List (Fin 16 × List (Nat × List Byte))) : Nat :=
  ((ws.map (fun q => (q.2.map (fun w => w.2.length)).sum))).sum

/-- Tiles in flight of a folded pass belong to its shares, by index, until the shares have clusters again. -/
def toShares (hs : List Share) (fs : List TileFlight) : List TileFlight :=
  fs.map (fun f => match hs.find? (fun h => decide (h.cl = f.cl)) with
    | some h => { f with cl := Fin.ofNat 6 h.index }
    | none => f)

def toClusters (hs : List Share) (fs : List TileFlight) : List TileFlight :=
  fs.map (fun f => match hs.find? (fun h => h.index == f.cl.val) with
    | some h => { f with cl := h.cl }
    | none => f)

/-- The share is folded: its image is valid, its resources are taken back, and JOB_FOLD_CNT counts it. -/
def shareFolded (x : Die) (j : Job) (h : Share) (image : Nat) (counts : List Nat) : Die :=
  let now : Share → Share := fun t =>
    if t.index = h.index then { t with state := .folded, image := image, cores := counts, fresh := [], ended := 0, wring := false } else t
  let x := (x.takeShare j.slot h.cl).updJob j.slot (fun t => { t with shares := t.shares.map now, folds := t.folds + 1 })
  let x := x.count .jobFoldCnt
  let allFolded : Bool := match x.job? j.slot with
    | some t => t.shares.all (fun u => decide (u.state = .folded))
    | none => false
  if dKind j.desc = 1 ∧ allFolded then
    match x.passOf j.slot with
    | some (p, q) =>
      let q := { q with tiles := toShares ((x.job? j.slot).map (fun t => t.shares) |>.getD []) q.tiles }
      { x with passes := vmod x.passes p (fun _ => none),
               jobs.parked := (j.slot, q) :: x.jobs.parked.filter (fun e => e.1 != j.slot) }
    | none => x
  else x

/-- The directory entry and the header, by a stream engine of the cluster; with a pass, its front-end state. The first fold of
a job writes the header's 4 KiB whole, so that the entries without an image read STATE 0 (R342). -/
def writeDirectory (p x : Die) (j : Job) (h : Share) (state stored : Nat) (counts : List Nat) : Die × Bool :=
  let va := dSaveVa j.desc
  let valid := (j.shares.filter (fun t => decide (t.image ≠ 0) || t.index == h.index)).foldl (fun m t => Nat.lor m (2 ^ t.index)) 0
  let fe := match x.passOf j.slot with
    | some (_, q) => [(va + 0x320, feBytes q)]
    | none => []
  let blank := if j.shares.all (fun t => t.image == 0) then [(va, List.replicate 4096 0)] else []
  writeList p x (.stream { cl := h.cl, core := 0 } j.slot) j.ctx
    (blank ++ [(va + 0x20 + 128 * h.index, dirEntry x j h state stored counts)] ++ fe ++ [(va, saveHeader j valid)])

/-- No group of a share is left: nothing is saved (R341). -/
def shareEmpty (x : Die) (j : Job) (h : Share) : Bool :=
  dKind j.desc == 0 && x.sh.groups.all (fun t => !(t.job == j.slot && decide (t.loc.cl = h.cl)))

/-- A share without groups ends, or is folded without an image while its job has groups to dispatch. -/
def shareEnds (x : Die) (j : Job) (h : Share) : Die :=
  let more := decide (j.dispatched < dCount j.desc) || !j.again.isEmpty
  let gone : Share → Share := fun u =>
    { u with state := (if more then .folded else .finished), image := 0, cores := [], fresh := [], ended := 0, wring := false }
  (x.takeShare j.slot h.cl).updJob j.slot (fun t => { t with shares := updWhere (fun u => u.index == h.index) gone t.shares })

def foldDoneDie (slot : Nat) (cl : Fin 6) (p x : Die) : Die :=
  match x.job? slot with
  | none => x
  | some j =>
    match j.shares.find? (fun h => decide (h.cl = cl) && decide (h.state = .folding)), x.part? slot cl with
    | some h, some q =>
      if j.held.isSome || !x.running || decide (x.dev = .safe) || !foldReady x j h then x
      else if shareEmpty x j h then
        shareEnds x j h
      else
        let counts := coreIds.map (fun k => if dKind j.desc = 0 then (x.coreGroups slot { cl := cl, core := k }).length else 0)
        let idle := wringerIds.all (fun e => (x.wringers[e]).use == 0 && (x.wringers[e]).frozen.isNone)
        if h.wring && !idle then x else
        let (wrung, ws, blocks) := if h.wring then
            match wrungWrites x j h q.mask with
            | some (ws, bs) => (true, ws, bs)
            | none => (false, plainWrites x j h q.mask, [])
          else (false, plainWrites x j h q.mask, [])
        let x := if h.wring && !wrung then (x.flag .wrgFlags 1).count .wrgFallbackCnt else x
        let x := if h.wring && !wrung then x.updJob slot (fun t =>
            { t with shares := updWhere (fun u => u.index == h.index) (fun u => { u with wring := false }) t.shares }) else x
        match writeRegions p x j cl wrung ws with
        | (x, false) => x
        | (x, true) =>
          let x := countWritten x blocks
          let image := if wrung then 2 else 1
          match writeDirectory p x j h image (writtenBytes ws) counts with
          | (x, false) => x
          | (x, true) => shareFolded x j h image counts
    | _, _ => x

def execFoldDone (d : DieId) (slot : Nat) (cl : Fin 6) (s : State) : Out :=
  nextOn d (foldDoneDie slot cl (s.die d.other)) s

/-! ### UNFOLD_DONE (R330, R333, R335) -/

/-- An acquire at die scope on one core: its L1 lines go stale, and its side-buffer lines are dropped (R161, R217). -/
def acquireCore (x : Die) (c : CoreLoc) : Die :=
  x.onL1 c (fun t => { t with lines := t.lines.map (fun l => { l with stale := true }), side := [],
                              miss := t.miss.map (fun m => { m with fenced := true }) })

/-- The bytes of a core region: `n` bytes as they stand, or a block stream to be decoded. -/
def readRegion (p x : Die) (j : Job) (index : Nat) (c : CoreLoc) (image n : Nat) : Die × Option (Option (List Byte)) :=
  let m : Master := if image = 2 then .wringer (Fin.ofNat 8 c.core.val) else .stream c j.slot
  let va := regionVa j index c.core.val
  if image = 2 then
    match readUnits p x m j.ctx va (dCoreSize j.desc) with
    | (x, none) => (x, none)
    | (x, some bs) => (countDecoded x (some 16) bs, some (wrgUnstream (bs.length / 16 + 1) (some 16) bs))
  else
    match readUnits p x m j.ctx va n with
    | (x, none) => (x, none)
    | (x, some bs) => (x, some (some bs))

/-- One core of a share is restored: its partition bytes and its groups, each with a new dispatch stamp. -/
def restoreCore (x : Die) (j : Job) (mask : BitVec 16) (c : CoreLoc) (n : Nat) (bs : List Byte) : Die :=
  let part := 32768 * dSteps j.desc
  let x := setPartBytes x mask c 0 (bs.take part)
  let x := if n = 0 then x else x.carveCore c j.slot (dCarve j.desc)
  let g := dRegs j.desc
  let a := dAccs j.desc
  let x := (List.range n).foldl (fun y i =>
    y.placeGroup c g a (fun f l stamp =>
      restoreGroup j (field bs (part + i * dGrec j.desc) (dGrec j.desc))
        (newGroup f l j.slot j.ctx stamp g a (BitVec.ofNat 48 (dWorkVa j.desc)) (BitVec.allOnes 64) .compute))) x
  acquireCore x c

/-- The core regions of a share whose directory entry is `dir`, in ascending core; none while one is held. -/
def readRegions (p x : Die) (j : Job) (cl : Fin 6) (index : Nat) (dir : List Byte) : Die × Option (List (Fin 16 × Option (List Byte))) :=
  coreIds.foldl (fun (r : Die × Option (List (Fin 16 × Option (List Byte)))) k => match r.2 with
    | none => r
    | some l =>
      match readRegion p r.1 j index { cl := cl, core := k } (fieldNat dir 0 1)
          (32768 * dSteps j.desc + fieldNat dir (0x10 + k.val) 1 * dGrec j.desc) with
      | (x, none) => (x, none)
      | (x, some b) => (x, some (l ++ [(k, b)]))) (x, some [])

/-- A pass goes on once all its shares are live, from its saved position. -/
def resumePass (x : Die) (slot : Nat) (fe : List Byte) : Die :=
  match x.job? slot, x.passOf slot, x.jobs.parked.lookup slot with
  | some j, some (pp, _), some old =>
    if dKind j.desc = 1 ∧ j.shares.all (fun h => decide (h.state = .live)) then
      let q := feRestore fe { old with tiles := toClusters j.shares old.tiles }
      ({ x with passes := vmod x.passes pp (fun _ => some q) }).updJob slot (fun t => { t with done := q.tilesRendered })
    else x
  | _, _, _ => x

def unfoldDoneDie (slot : Nat) (cl : Fin 6) (p x : Die) : Die :=
  match x.job? slot with
  | none => x
  | some j =>
    match j.shares.find? (fun h => decide (h.cl = cl) && decide (h.state = .unfolding)), x.part? slot cl with
    | some h, some q =>
      if j.held.isSome || !x.running || decide (x.dev = .safe) then x else
      let m : Master := .stream { cl := cl, core := 0 } slot
      match readUnit p x m j.ctx (dSaveVa j.desc + 0x20 + 128 * h.index) 128 accRead with
      | (x, none) => x
      | (x, some dir) =>
        let count := fun (k : Fin 16) => fieldNat dir (0x10 + k.val) 1
        match readRegions p x j cl h.index dir with
        | (x, none) => x
        | (x, some regs) =>
          if regs.any (fun r => r.2.isNone) then
            let x := x.count .wrgDataErrCnt
            restartJob p (x.updJob slot (fun t =>
              { t with shares := updWhere (fun u => u.index == h.index) (fun u => { u with image := 0 }) t.shares })) slot cl
          else
            let fe := if dKind j.desc = 1 then
                match readUnit p x m j.ctx (dSaveVa j.desc + 0x320) 1024 accRead with
                | (x, some b) => (x, some b)
                | (x, none) => (x, none)
              else (x, some [])
            match fe with
            | (x, none) => x
            | (x, some b) =>
              let x := regs.foldl (fun y r => restoreCore y j q.mask { cl := cl, core := r.1 } (count r.1) (r.2.getD [])) x
              let back : Share → Share := fun t => if t.index = h.index then { t with state := .live, fresh := [], ended := 0 } else t
              let x := (x.updJob slot (fun t => { t with shares := t.shares.map back })).count .jobUnfoldCnt
              let kind := dKind j.desc
              let x := { x with sh.parts := updWhere (fun r => r.job == slot && decide (r.cl = cl)) (fun r => { r with kind := kind }) x.sh.parts }
              resumePass x slot b
    | _, _ => x

def execUnfoldDone (d : DieId) (slot : Nat) (cl : Fin 6) (s : State) : Out :=
  nextOn d (unfoldDoneDie slot cl (s.die d.other)) s

end Sys2Proof.Machine
end

