-- ==== Sys2Proof/Machine/Numbers.lean ====
section
/-! DEFINITION. Sys2Proof/Machine/Numbers.lean: the number formats, exact arithmetic and the one rounding of each operation
(03_numbers.md, R102 to R128). A value is a sign, a whole number and a power of two, so that nothing is lost before the
rounding. -/
namespace Sys2Proof.Machine

/-! ### Float formats (R102, R106 to R108) -/

/-- Exponent and fraction bits of a float format. -/
structure FFmt where
  ebits : Nat
  fbits : Nat
  deriving DecidableEq, Repr

def fp32 : FFmt := { ebits := 8, fbits := 23 }
def fp16 : FFmt := { ebits := 5, fbits := 10 }

def FFmt.bias (f : FFmt) : Nat := 2 ^ (f.ebits - 1) - 1
def FFmt.sign (f : FFmt) (neg : Bool) : Nat := if neg then 2 ^ (f.ebits + f.fbits) else 0
/-- Magnitude patterns of infinity, of the default NaN and of the largest finite value. -/
def FFmt.infBits (f : FFmt) : Nat := (2 ^ f.ebits - 1) * 2 ^ f.fbits
def FFmt.nanBits (f : FFmt) : Nat := f.infBits + 2 ^ (f.fbits - 1)
def FFmt.maxBits (f : FFmt) : Nat := f.infBits - 1

/-- A number as it is read: ±m × 2^e where it is finite; a zero keeps its sign. -/
inductive FVal
  | nan
  | inf (neg : Bool)
  | fin (neg : Bool) (m : Nat) (e : Int)
  deriving DecidableEq, Repr

/-- A float read under R107: a subnormal is a zero of its sign. -/
def readFloat (f : FFmt) (w : Nat) : FVal :=
  let neg := bitOf w (f.ebits + f.fbits)
  let ex := w / 2 ^ f.fbits % 2 ^ f.ebits
  let fr := w % 2 ^ f.fbits
  if ex = 2 ^ f.ebits - 1 then (if fr = 0 then .inf neg else .nan)
  else if ex = 0 then .fin neg 0 0
  else .fin neg (2 ^ f.fbits + fr) ((ex : Int) - f.bias - f.fbits)

/-- m / 2^s rounded to nearest, ties to even. -/
def divRne (m s : Nat) : Nat :=
  let q := m / 2 ^ s
  let r := m % 2 ^ s
  if 2 ^ s < 2 * r ∨ (2 * r = 2 ^ s ∧ q % 2 = 1) then q + 1 else q

/-- The magnitude pattern to which m × 2^e rounds (R106, R107): 0 below the smallest normal value; a pattern of infBits or
above lies beyond the range. -/
def roundMag (f : FFmt) (m : Nat) (e : Int) : Nat :=
  if m = 0 then 0 else
  let s : Int := (Nat.log2 m : Int) - f.fbits
  let q := if s ≤ 0 then m * 2 ^ (-s).toNat else divRne m s.toNat
  let ex : Int := e + s + f.fbits + f.bias
  let pat : Int := ex * 2 ^ f.fbits + ((q : Int) - 2 ^ f.fbits)
  if pat < 2 ^ f.fbits then 0 else pat.toNat

/-- Shader arithmetic: beyond the range lies an infinity (R108). -/
def roundInf (f : FFmt) (neg : Bool) (m : Nat) (e : Int) : Nat := f.sign neg + min (roundMag f m e) f.infBits

/-- A sum that is not zero, or a zero of a given sign. -/
def roundInt (f : FFmt) (zeroNeg : Bool) (v e : Int) : Nat :=
  if v = 0 then f.sign zeroNeg else roundInf f (decide (v < 0)) v.natAbs e

/-- A signed whole number. -/
def signed (neg : Bool) (m : Nat) : Int := if neg then -(m : Int) else m

/-- Two values over a common power of two. -/
def alignPair (v1 e1 v2 e2 : Int) : Int × Int × Int :=
  let e := min e1 e2
  (v1 * 2 ^ (e1 - e).toNat, v2 * 2 ^ (e2 - e).toNat, e)

/-- The exact sum, rounded once (R109). -/
def faddBits (f : FFmt) (a b : FVal) : Nat :=
  match a, b with
  | .nan, _ => f.nanBits
  | _, .nan => f.nanBits
  | .inf n, .inf k => if n = k then f.sign n + f.infBits else f.nanBits
  | .inf n, .fin _ _ _ => f.sign n + f.infBits
  | .fin _ _ _, .inf n => f.sign n + f.infBits
  | .fin n m e, .fin k m2 e2 =>
    let (v1, v2, ee) := alignPair (signed n m) e (signed k m2) e2
    roundInt f (n && k) (v1 + v2) ee

def FVal.neg : FVal → FVal
  | .nan => .nan
  | .inf n => .inf !n
  | .fin n m e => .fin (!n) m e

/-- The exact product. -/
def FVal.times (a b : FVal) : FVal :=
  match a, b with
  | .nan, _ => .nan
  | _, .nan => .nan
  | .inf n, .inf k => .inf (n != k)
  | .inf n, .fin k m _ => if m = 0 then .nan else .inf (n != k)
  | .fin n m _, .inf k => if m = 0 then .nan else .inf (n != k)
  | .fin n m e, .fin k m2 e2 => .fin (n != k) (m * m2) (e + e2)

/-- A value rounded to a format. -/
def FVal.bits (f : FFmt) : FVal → Nat
  | .nan => f.nanBits
  | .inf n => f.sign n + f.infBits
  | .fin n m e => roundInf f n m e

def fmulBits (f : FFmt) (a b : FVal) : Nat := (a.times b).bits f

/-- a × b + c with one rounding (R109). -/
def ffmaBits (f : FFmt) (a b c : FVal) : Nat := faddBits f (a.times b) c

/-- The order of two values that are not NaN: whether the first is below the second, with -0 below +0 where `zeros`. -/
def FVal.below (zeros : Bool) (a b : FVal) : Bool :=
  match a, b with
  | .nan, _ => false
  | _, .nan => false
  | .inf n, .inf k => n && !k
  | .inf n, .fin _ _ _ => n
  | .fin _ _ _, .inf k => !k
  | .fin n m e, .fin k m2 e2 =>
    let (v1, v2, _) := alignPair (signed n m) e (signed k m2) e2
    decide (v1 < v2) || (zeros && v1 == 0 && v2 == 0 && n && !k)

def FVal.isNan : FVal → Bool
  | .nan => true
  | .inf _ => false
  | .fin _ _ _ => false

/-- FMIN and FMAX (R169). -/
def fminBits (f : FFmt) (isMax : Bool) (a b : FVal) : Nat :=
  match a, b with
  | .nan, _ => b.bits f
  | _, .nan => a.bits f
  | _, _ => if (if isMax then b.below true a else a.below true b) then a.bits f else b.bits f

/-- A float comparison under MODE 0 to 6 (R169). -/
def fcmp (mode : Nat) (a b : FVal) : Bool :=
  let un := a.isNan || b.isNan
  let lt := a.below false b
  let gt := b.below false a
  match mode with
  | 0 => !un && !lt && !gt
  | 1 => un || lt || gt
  | 2 => lt
  | 3 => !un && !gt
  | 4 => gt
  | 5 => !un && !lt
  | _ => un

/-! ### Approximations (R110) -/

/-- The whole part of a square root, by bits from `k` down. -/
def isqrtFrom : Nat → Nat → Nat → Nat
  | 0, _, r => r
  | k + 1, n, r => isqrtFrom k n (if (r + 2 ^ k) * (r + 2 ^ k) ≤ n then r + 2 ^ k else r)

def isqrt (n : Nat) : Nat := isqrtFrom (Nat.log2 n / 2 + 1) n 0

/-- Bits of a base-2 logarithm after the point: `y` in [1, 2) with 128 fraction bits. -/
def log2Bits : Nat → Nat → Nat → Nat
  | 0, _, acc => acc
  | k + 1, y, acc =>
    let z := y * y / 2 ^ 128
    if 2 ^ 129 ≤ z then log2Bits k (z / 2) (2 * acc + 1) else log2Bits k z (2 * acc)

/-- 2^(f / 2^64) with 128 fraction bits, from the fraction's bits, lowest first. -/
def exp2Bits : Nat → Nat → Nat → Nat
  | 0, _, r => r
  | k + 1, f, r => exp2Bits k (f / 2) (isqrt ((if f % 2 = 1 then 2 * r else r) * 2 ^ 128))

/-- Twice the distance of two magnitudes m × 2^e and n × 2^k, and a unit u × 2^k, over a common power: distance at most
`units` units. -/
def withinUlps (m : Nat) (e : Int) (n : Nat) (k : Int) (units : Nat) (ue : Int) : Bool :=
  let lo := min e (min k ue)
  let a : Int := (m : Int) * 2 ^ (e - lo).toNat
  let b : Int := (n : Int) * 2 ^ (k - lo).toNat
  decide ((a - b).natAbs ≤ units * 2 ^ (ue - lo).toNat)

/-- The magnitude that a pattern stands for; that of infinity continues the scale. -/
def patMag (f : FFmt) (pat : Nat) : Nat × Int :=
  (2 ^ f.fbits + pat % 2 ^ f.fbits, (pat / 2 ^ f.fbits : Nat) - (f.bias : Int) - f.fbits)

/-- Units in the last place of the bound: 2 in FP32, 1 in binary16. -/
def FFmt.ulps (f : FFmt) : Nat := if f.fbits = 23 then 2 else 1

/-- A result within the bound of R110 of the magnitude m × 2^e, m known to within 2^-40 of its size: the choice among the
candidates is a free value, fixed by the input `w`. A magnitude that rounds to zero is zero. -/
def approxMag (f : FFmt) (code w : Nat) (m : Nat) (e : Int) : Nat :=
  let near := min (roundMag f m e) f.infBits
  if near = 0 then 0 else
  let ue : Int := (Nat.log2 m : Int) + e - f.fbits
  let cand := [near - 2, near - 1, near, near + 1, near + 2].filter (fun c =>
    decide (2 ^ f.fbits ≤ c) && decide (c ≤ f.infBits) &&
    withinUlps (patMag f c).1 (patMag f c).2 m e f.ulps ue)
  cand.getD (Config.approx code f.fbits w % cand.length) near

/-- RCP, RSQ, LG2 and EX2, coded 0 to 3; infinities and NaNs are those of R108. -/
def approxBits (f : FFmt) (code w : Nat) : Nat :=
  match readFloat f w with
  | .nan => f.nanBits
  | .inf n =>
    match code with
    | 0 => f.sign n
    | 1 => if n then f.nanBits else 0
    | 2 => if n then f.nanBits else f.infBits
    | _ => if n then 0 else f.infBits
  | .fin n m e =>
    match code with
    | 0 => if m = 0 then f.sign n + f.infBits else f.sign n + approxMag f 0 w (2 ^ 128 / m) (-128 - e)
    | 1 =>
      if m = 0 then f.sign n + f.infBits
      else if n then f.nanBits
      else
        let (m2, e2) : Nat × Int := if e % 2 = 0 then (m, e) else (2 * m, e - 1)
        approxMag f 1 w (isqrt (2 ^ 256 / m2)) (-128 - e2 / 2)
    | 2 =>
      if m = 0 then f.sign true + f.infBits
      else if n then f.nanBits
      else
        let l := Nat.log2 m
        let v : Int := ((l : Int) + e) * 2 ^ 96 + log2Bits 96 (m * 2 ^ 128 / 2 ^ l) 0
        if v = 0 then 0 else f.sign (decide (v < 0)) + approxMag f 2 w v.natAbs (-96)
    | _ =>
      if m = 0 then roundInf f false 1 0
      else if 16 ≤ (Nat.log2 m : Int) + e then (if n then 0 else f.infBits)
      else
        let v : Int := signed n m
        let fx : Int := if -64 ≤ e then v * 2 ^ (e + 64).toNat else v / 2 ^ (-64 - e).toNat
        approxMag f 3 w (exp2Bits 64 (fx % 2 ^ 64).toNat (2 ^ 128)) (fx / 2 ^ 64 - 128)

/-! ### Filrus numbers (R111 to R114) -/

/-- T of R113. -/
def fnTable : List Nat := [0, 93, 194, 304, 424, 555, 698, 854]

/-- The linear magnitude of a log position. -/
def fnLinear (l : Int) : Nat × Int := (1024 + fnTable.getD (l % 8).toNat 0, l / 8 - 10)

/-- The element formats that carry a block exponent, as PACK codes them. -/
inductive Elem
  | int8
  | int4
  | fn8
  | fn4
  deriving DecidableEq, Repr

def elemOf (code : Nat) : Elem :=
  match code with
  | 0 => .int8
  | 1 => .int4
  | 2 => .fn8
  | _ => .fn4

def Elem.width : Elem → Nat
  | .int8 => 8
  | .int4 => 4
  | .fn8 => 8
  | .fn4 => 4

/-- The log position of a Filrus element's code; none for zero (R111, R112). -/
def fnLog (el : Elem) (v : Nat) : Option (Bool × Int) :=
  match el with
  | .fn8 => if v % 128 = 0 then none else some (bitOf v 7, ((v % 128 : Nat) : Int) - 64)
  | .fn4 => if v % 8 = 0 then none else some (bitOf v 3, 4 * (((v % 8 : Nat) : Int) - 4))
  | .int8 => none
  | .int4 => none

/-- Two's complement of some bits. -/
def signExtend (bits v : Nat) : Int := if 2 ^ (bits - 1) ≤ v then (v : Int) - 2 ^ bits else v

/-- The unscaled value of an element. -/
def elemVal (el : Elem) (v : Nat) : FVal :=
  match el with
  | .int8 => let i := signExtend 8 (v % 256); .fin (decide (i < 0)) i.natAbs 0
  | .int4 => let i := signExtend 4 (v % 16); .fin (decide (i < 0)) i.natAbs 0
  | _ =>
    match fnLog el v with
    | none => .fin false 0 0
    | some (n, l) => .fin n (fnLinear l).1 (fnLinear l).2

/-- A value × 2^k. -/
def FVal.scale (v : FVal) (k : Int) : FVal :=
  match v with
  | .nan => .nan
  | .inf n => .inf n
  | .fin n m e => .fin n m (e + k)

/-- A block exponent's code as a power (R115). -/
def expOf (code : Nat) : Int := (code : Int) - 127

/-! ### Conversions (R125 to R127) -/

/-- What a conversion gives: the bits, SAT events and NAN events. -/
structure Conv where
  bits : Nat
  sat : Nat
  nan : Nat
  deriving DecidableEq, Repr

/-- m × 2^e exceeds n × 2^k. -/
def magAbove (m : Nat) (e : Int) (n : Nat) (k : Int) : Bool :=
  let lo := min e k
  decide (n * 2 ^ (k - lo).toNat < m * 2 ^ (e - lo).toNat)

/-- A whole-number target with bounds; `trunc` rounds toward zero. -/
def convInt (bits : Nat) (lo hi : Int) (trunc : Bool) (v : FVal) : Conv :=
  let wrap := fun (i : Int) => (i % 2 ^ bits).toNat
  match v with
  | .nan => { bits := 0, sat := 0, nan := 1 }
  | .inf n => { bits := wrap (if n then lo else hi), sat := 1, nan := 0 }
  | .fin n m e =>
    let bound := if n then lo.natAbs else hi.natAbs
    if magAbove m e bound 0 then { bits := wrap (if n then lo else hi), sat := 1, nan := 0 }
    else
      let q := if 0 ≤ e then m * 2 ^ e.toNat else if trunc then m / 2 ^ (-e).toNat else divRne m (-e).toNat
      { bits := wrap (signed n q), sat := 0, nan := 0 }

/-- A float target: beyond the range it saturates (R126). -/
def convFloat (f : FFmt) (v : FVal) : Conv :=
  match v with
  | .nan => { bits := 0, sat := 0, nan := 1 }
  | .inf n => { bits := f.sign n + f.maxBits, sat := 1, nan := 0 }
  | .fin n m e =>
    let top := patMag f f.maxBits
    if magAbove m e top.1 top.2 then { bits := f.sign n + f.maxBits, sat := 1, nan := 0 }
    else { bits := f.sign n + min (roundMag f m e) f.maxBits, sat := 0, nan := 0 }

/-- The nearest code in the log domain (R127): 2 λ is log2 |y|^(2s) + 2c, with s steps in an octave and code c at 1. A
halfway case cannot arise. -/
def fnCode (steps centre : Nat) (m : Nat) (e : Int) : Nat :=
  (((Nat.log2 (m ^ (2 * steps)) : Int) + 2 * steps * e + 2 * centre + 1) / 2).toNat

/-- A Filrus target: Vmax is 2^(7 7/8) or 2^(3/2), Vmin its inverse. -/
def convFn (el : Elem) (v : FVal) : Conv :=
  let (steps, centre, top, sgn) : Nat × Nat × Nat × Nat := if el = .fn8 then (8, 64, 63, 128) else (2, 4, 3, 8)
  let s := fun (n : Bool) => if n then sgn else 0
  match v with
  | .nan => { bits := 0, sat := 0, nan := 1 }
  | .inf n => { bits := s n + (sgn - 1), sat := 1, nan := 0 }
  | .fin n m e =>
    if m = 0 then { bits := 0, sat := 0, nan := 0 }
    else if magAbove (m ^ steps) (steps * e) 1 top then { bits := s n + (sgn - 1), sat := 1, nan := 0 }
    else if magAbove 1 (-(top : Int)) (m ^ steps) (steps * e) then { bits := 0, sat := 0, nan := 0 }
    else { bits := s n + fnCode steps centre m e, sat := 0, nan := 0 }

/-- A value converted to an element with block exponent code E; E = 0xFF writes zero with one NAN event (R115, R169), also for
a NaN: the event is counted once per element, whatever its causes, which R129 does not spell out (DEDUCED, log 144). -/
def convElem (el : Elem) (code : Nat) (v : FVal) : Conv :=
  if code = 255 then { bits := 0, sat := 0, nan := 1 } else
  let y := v.scale (-(expOf code))
  match el with
  | .int8 => convInt 8 (-128) 127 false y
  | .int4 => convInt 4 (-8) 7 false y
  | .fn8 => convFn .fn8 y
  | .fn4 => convFn .fn4 y

/-- An FN8 element to FN4 by its exact log position, in quarters of a code (R127): halfway goes to the even code. Two codes of
0xFF make one event (log 144). -/
def fn8to4 (v e8 e4 : Nat) : Conv :=
  if e4 = 255 then { bits := 0, sat := 0, nan := 1 }
  else if e8 = 255 then { bits := 0, sat := 0, nan := 1 }
  else match fnLog .fn8 v with
    | none => { bits := 0, sat := 0, nan := 0 }
    | some (n, l) =>
      let q : Int := l + 16 + 8 * (expOf e8 - expOf e4)
      let s := if n then 8 else 0
      if 28 < q then { bits := s + 7, sat := 1, nan := 0 }
      else if q < 4 then { bits := 0, sat := 0, nan := 0 }
      else { bits := s + divRne q.toNat 2, sat := 0, nan := 0 }

/-! ### Accumulation (R122, R123) -/

/-- An exact sum added into an FP32 accumulator with one rounding: the bits and whether it saturated. A sum is never added
to an infinity or a NaN (R123); over such a word, which only MOVA.W.I32 or an INT32 accumulation leaves there (R178), an
infinity lies beyond the range, and the result over a NaN is the free value `opn`. -/
def accAdd (opn : Nat) (acc : Nat) (s : Int) (k : Int) : Nat × Bool :=
  match readFloat fp32 acc with
  | .fin n m e =>
    let (v1, v2, ee) := alignPair (signed n m) e s k
    let v := v1 + v2
    if v = 0 then (fp32.sign (n && m == 0 && s == 0), false)
    else
      let pat := roundMag fp32 v.natAbs ee
      if fp32.infBits ≤ pat then (fp32.sign (decide (v < 0)) + fp32.maxBits, true)
      else (fp32.sign (decide (v < 0)) + pat, false)
  | .inf n => (fp32.sign n + fp32.maxBits, true)
  | .nan => (opn, false)

/-- A saturating INT32 addition (R105). -/
def intAdd (acc : Nat) (s : Int) : Nat × Bool :=
  let v := signExtend 32 (acc % 2 ^ 32) + s
  if 2147483647 < v then (0x7FFFFFFF, true)
  else if v < -2147483648 then (0x80000000, true)
  else ((v % 2 ^ 32).toNat, false)

end Sys2Proof.Machine
end

