-- ==== Sys2Proof/Machine/Raster.lean ====
section
/-! DEFINITION. Sys2Proof/Machine/Raster.lean: the arithmetic of the raster path: clipping and the viewport (R263), coverage
and planes (R264, R250), depth and stencil (R265), formats and blending (R267, R268, R273). Quantities are exact fractions
until the one rounding that ends them. -/
namespace Sys2Proof.Machine

/-! ### Fractions -/

/-- A fraction with a denominator above 0. -/
structure Frac where
  n : Int
  d : Nat
  deriving DecidableEq, Repr

def Frac.ofInt (i : Int) : Frac := { n := i, d := 1 }
def Frac.add (a b : Frac) : Frac := if a.d = b.d then { n := a.n + b.n, d := a.d } else { n := a.n * b.d + b.n * a.d, d := a.d * b.d }
def Frac.neg (a : Frac) : Frac := { n := -a.n, d := a.d }
def Frac.sub (a b : Frac) : Frac := a.add b.neg
def Frac.mul (a b : Frac) : Frac := { n := a.n * b.n, d := a.d * b.d }
/-- A quotient; only asked for with a divisor that is not 0. -/
def Frac.div (a b : Frac) : Frac := { n := if b.n < 0 then -(a.n * b.d) else a.n * b.d, d := max 1 (a.d * b.n.natAbs) }
def Frac.le (a b : Frac) : Bool := decide (a.n * b.d ≤ b.n * a.d)
def Frac.lt (a b : Frac) : Bool := decide (a.n * b.d < b.n * a.d)
def Frac.isNeg (a : Frac) : Bool := decide (a.n < 0)

/-- m × 2^e. -/
def fracPow (m e : Int) : Frac := if 0 ≤ e then { n := m * 2 ^ e.toNat, d := 1 } else { n := m, d := 2 ^ (-e).toNat }

/-- The value of a float; an infinity or a NaN has no coordinate: it acts as a free finite value. -/
def fracOf (w : Word) : Frac :=
  match readFloat fp32 w.toNat with
  | .fin n m e => fracPow (signed n m) e
  | .inf _ => fracPow (Config.coordinate w) (-16)
  | .nan => fracPow (Config.coordinate w) (-16)

/-- A fraction rounded to a whole number, ties to even. -/
def Frac.rne (a : Frac) : Int :=
  let q := a.n.natAbs / a.d
  let r := a.n.natAbs % a.d
  let m := if a.d < 2 * r ∨ (2 * r = a.d ∧ q % 2 = 1) then q + 1 else q
  if a.n < 0 then -(m : Int) else m

/-- A magnitude as m × 2^-k with a sticky last bit, for one rounding. -/
def Frac.sticky (a : Frac) : Nat × Int :=
  let k := 64 + Nat.log2 a.d
  let v := a.n.natAbs * 2 ^ k
  (2 * (v / a.d) + (if v % a.d = 0 then 0 else 1), -((k : Int) + 1))

/-- A fraction rounded to FP32 under R106 and R107. -/
def Frac.fp32 (a : Frac) : Nat := roundInf Machine.fp32 (decide (a.n < 0)) a.sticky.1 a.sticky.2

/-- A quantity that the spec gives by a formula, in FP32: the formula's exact value rounded once, to nearest (R106; DEDUCED, log
82). -/
def Frac.word (a : Frac) : Word := BitVec.ofNat 32 a.fp32

/-! ### Clipping (R263) -/

/-- A point of a triangle by its weights on the three vertices. -/
structure Bary where
  a : Frac
  b : Frac
  c : Frac
  deriving DecidableEq, Repr

def Bary.mix (v : Bary) (x y z : Frac) : Frac := ((v.a.mul x).add (v.b.mul y)).add (v.c.mul z)

/-- A corner of the triangle: its words stand as they are. -/
def Bary.corner (v : Bary) : Option Nat :=
  if v.a.n = v.a.d ∧ v.b.n = 0 ∧ v.c.n = 0 then some 0
  else if v.a.n = 0 ∧ v.b.n = v.b.d ∧ v.c.n = 0 then some 1
  else if v.a.n = 0 ∧ v.b.n = 0 ∧ v.c.n = v.c.d then some 2
  else none

def bary3 : List Bary :=
  let o := Frac.ofInt 0
  let i := Frac.ofInt 1
  [{ a := i, b := o, c := o }, { a := o, b := i, c := o }, { a := o, b := o, c := i }]

/-- The point between two points where a plane's function, linear in the weights, is 0. -/
def crossing (f : Bary → Frac) (u v : Bary) : Bary :=
  let fu := f u
  let t := fu.div (fu.sub (f v))
  let go := fun (p q : Frac) => p.add (t.mul (q.sub p))
  { a := go u.a v.a, b := go u.b v.b, c := go u.c v.c }

/-- One plane: the side where its function is not negative is kept. -/
def clipPlane (f : Bary → Frac) (vs : List Bary) : List Bary :=
  let nexts := vs.drop 1 ++ vs.take 1
  ((vs.zip nexts).map (fun q =>
    let inU := !(f q.1).isNeg
    let inV := !(f q.2).isNeg
    (if inU then [q.1] else []) ++ (if inU != inV then [crossing f q.1 q.2] else []))).flatten

/-- A viewport: VX, VY, VW, VH, VN, VF. -/
structure Viewport where
  vx : Word
  vy : Word
  vw : Word
  vh : Word
  vn : Word
  vf : Word
  deriving DecidableEq, Repr

def word32 (b : List Byte) (o : Nat) : Word := BitVec.ofNat 32 (fieldNat b o 4)

def viewportOf (b : List Byte) : Viewport :=
  { vx := word32 b 0, vy := word32 b 4, vw := word32 b 8, vh := word32 b 12, vn := word32 b 16, vf := word32 b 20 }

/-- Clip-space coordinates of three vertices, x, y, z and w each. -/
def clipCoords (pos : List (List Word)) (i : Nat) : Frac × Frac × Frac :=
  let g := fun k => fracOf ((pos.getD k []).getD i 0)
  (g 0, g 1, g 2)

def mixOf (v : Bary) (q : Frac × Frac × Frac) : Frac := v.mix q.1 q.2.1 q.2.2

/-- Guard-band planes of one axis: 16,384 pixels beyond the viewport on each side, as functions of x and w. -/
def guardPlanes (size : Word) (x w : Bary → Frac) : List (Bary → Frac) :=
  let s := fracOf size
  let band := Frac.ofInt 16384
  let lo := (if s.isNeg then s else Frac.ofInt 0).sub band
  let hi := (if s.isNeg then Frac.ofInt 0 else s).add band
  let at2 := fun v => ((x v).add (w v)).mul (s.div (Frac.ofInt 2))
  [fun v => (at2 v).sub (lo.mul (w v)), fun v => (hi.mul (w v)).sub (at2 v)]

/-- The clipped polygon: near, far, then the guard band left, right, top and bottom. -/
def clipTriangle (vp : Viewport) (pos : List (List Word)) : List Bary :=
  let x := fun v => mixOf v (clipCoords pos 0)
  let y := fun v => mixOf v (clipCoords pos 1)
  let z := fun v => mixOf v (clipCoords pos 2)
  let w := fun v => mixOf v (clipCoords pos 3)
  let planes := [z, fun v => (w v).sub (z v)] ++ guardPlanes vp.vw x w ++ guardPlanes vp.vh y w
  planes.foldl (fun vs f => clipPlane f vs) bary3

/-- A position of a snapped coordinate in 1/256 pixel. -/
def subPixels (w : Word) : Int := ((fracOf w).mul (Frac.ofInt 256)).rne

/-- X or Y: the viewport's formula, snapped to 1/256 pixel, as FP32. -/
def snapped (org size : Word) (x w : Frac) : Word :=
  let v := (fracOf org).add (((x.div w).add (Frac.ofInt 1)).mul ((fracOf size).div (Frac.ofInt 2)))
  BitVec.ofNat 32 (Frac.fp32 { n := (v.mul (Frac.ofInt 256)).rne, d := 256 })

/-- POS of R254: X, Y, Z and 1/w of a clipped vertex. -/
def screenPos (vp : Viewport) (pos : List (List Word)) (v : Bary) : List Word :=
  let x := mixOf v (clipCoords pos 0)
  let y := mixOf v (clipCoords pos 1)
  let z := mixOf v (clipCoords pos 2)
  let w := mixOf v (clipCoords pos 3)
  let zz := (fracOf vp.vn).add ((z.div w).mul ((fracOf vp.vf).sub (fracOf vp.vn)))
  [snapped vp.vx vp.vw x w, snapped vp.vy vp.vh y w, zz.word, ((Frac.ofInt 1).div w).word]

/-- A varying slot of a clipped vertex: as written at a corner, and interpolated linearly elsewhere. -/
def clipVar (vars : List (List Word)) (v : Bary) : List Word :=
  match v.corner with
  | some k => vars.getD k [0, 0, 0, 0]
  | none => (List.range 4).map (fun i =>
      let ws := vars.map (fun s => s.getD i 0)
      (v.mix (fracOf (ws.getD 0 0)) (fracOf (ws.getD 1 0)) (fracOf (ws.getD 2 0))).word)

/-- A point whose w is not above 0 has no place on the screen. -/
def onScreen (pos : List (List Word)) (v : Bary) : Bool := (Frac.ofInt 0).lt (mixOf v (clipCoords pos 3))

/-- Twice the signed area, in (1/256 pixel)²; Y grows down, so that it is negative counter-clockwise. -/
def area2 (ps : List (List Word)) : Int :=
  let x := fun k => subPixels ((ps.getD k []).getD 0 0)
  let y := fun k => subPixels ((ps.getD k []).getD 1 0)
  (x 1 - x 0) * (y 2 - y 0) - (x 2 - x 0) * (y 1 - y 0)

/-! ### Coverage (R264) -/

/-- A rectangle of pixels: x0 ≤ x < x1, y0 ≤ y < y1. -/
structure Rect where
  x0 : Nat
  y0 : Nat
  x1 : Nat
  y1 : Nat
  deriving DecidableEq, Repr

def Rect.meet (a b : Rect) : Rect := { x0 := max a.x0 b.x0, y0 := max a.y0 b.y0, x1 := min a.x1 b.x1, y1 := min a.y1 b.y1 }
def Rect.holds (a : Rect) (x y : Nat) : Bool := decide (a.x0 ≤ x) && decide (x < a.x1) && decide (a.y0 ≤ y) && decide (y < a.y1)
def Rect.empty (a : Rect) : Bool := decide (a.x1 ≤ a.x0) || decide (a.y1 ≤ a.y0)

def scissorOf (w : List Byte) : Rect := { x0 := wScissor w 0, y0 := wScissor w 1, x1 := wScissor w 2, y1 := wScissor w 3 }
def renderArea (b : List Byte) : Rect := { x0 := 0, y0 := 0, x1 := pWidth b, y1 := pHeight b }

/-- Corners in 1/256 pixel, ordered so that twice the area is positive, with the index of each vertex. -/
structure Tri where
  xs : List Int
  ys : List Int
  area : Int
  order : List Nat
  deriving DecidableEq, Repr

def triOf (ps : List (List Word)) : Tri :=
  let o := if area2 ps < 0 then [0, 2, 1] else [0, 1, 2]
  { xs := o.map (fun k => subPixels ((ps.getD k []).getD 0 0)), ys := o.map (fun k => subPixels ((ps.getD k []).getD 1 0)),
    area := (area2 ps).natAbs, order := o }

/-- The function of the edge opposite corner `k`, at a point; it sums to the area over the three edges. -/
def Tri.edge (t : Tri) (k : Nat) (px py : Int) : Int :=
  let x := fun i => t.xs.getD (i % 3) 0
  let y := fun i => t.ys.getD (i % 3) 0
  (x (k + 2) - x (k + 1)) * (py - y (k + 1)) - (y (k + 2) - y (k + 1)) * (px - x (k + 1))

/-- The edge opposite corner `k` is a top edge or a left edge. -/
def Tri.topLeft (t : Tri) (k : Nat) : Bool :=
  let dx := t.xs.getD ((k + 2) % 3) 0 - t.xs.getD ((k + 1) % 3) 0
  let dy := t.ys.getD ((k + 2) % 3) 0 - t.ys.getD ((k + 1) % 3) 0
  decide (dy < 0) || (dy == 0 && decide (0 < dx))

def Tri.inside (t : Tri) (px py : Int) : Bool :=
  [0, 1, 2].all (fun k => let e := t.edge k px py; decide (0 < e) || (e == 0 && t.topLeft k))

/-- The place of a sample, in 1/256 pixel. -/
def samplePoint (n x y s : Nat) : Int × Int :=
  let o : Int × Int := if n = 1 then (0, 0) else ([(-96, -32), (32, -96), (-32, 96), (96, 32)] : List (Int × Int)).getD s (0, 0)
  (256 * (x : Int) + 128 + o.1, 256 * (y : Int) + 128 + o.2)

/-- The coverage mask of a pixel. -/
def coverage (t : Tri) (n : Nat) (r : Rect) (x y : Nat) : BitVec 4 :=
  if !r.holds x y then 0 else
  BitVec.ofNat 4 (((List.range n).map (fun s =>
    if t.inside (samplePoint n x y s).1 (samplePoint n x y s).2 then 2 ^ s else 0)).sum)

/-- Whether the triangle and a rectangle of pixels overlap, tested exactly on the rectangle's sides and the edges (R255). -/
def overlapsRect (t : Tri) (r : Rect) : Bool :=
  let x0 : Int := 256 * r.x0
  let x1 : Int := 256 * r.x1
  let y0 : Int := 256 * r.y0
  let y1 : Int := 256 * r.y1
  !r.empty && t.xs.any (fun v => decide (x0 < v)) && t.xs.any (fun v => decide (v < x1)) &&
  t.ys.any (fun v => decide (y0 < v)) && t.ys.any (fun v => decide (v < y1)) &&
  [0, 1, 2].all (fun k => [(x0, y0), (x1, y0), (x0, y1), (x1, y1)].any (fun q => decide (0 < t.edge k q.1 q.2)))

/-- The weight of a triangle's corner at a point. -/
def Tri.weight (t : Tri) (k : Nat) (px py : Int) : Frac := { n := t.edge k px py, d := max 1 t.area.natAbs }

/-- Depth at a sample, from the plane of the three vertices. -/
def depthAt (t : Tri) (ps : List (List Word)) (px py : Int) : Word :=
  let v := [0, 1, 2].foldl (fun (a : Frac) k =>
    a.add ((t.weight k px py).mul (fracOf ((ps.getD (t.order.getD k 0) []).getD 2 0)))) (Frac.ofInt 0)
  v.word

/-- A varying component at a pixel centre, perspective-correct (R250). -/
def varyingAt (t : Tri) (ps : List (List Word)) (vals : List Word) (px py : Int) : Word :=
  let term := fun (k : Nat) (v : Frac) =>
    ((t.weight k px py).mul (fracOf ((ps.getD (t.order.getD k 0) []).getD 3 0))).mul v
  let top := [0, 1, 2].foldl (fun (a : Frac) k => a.add (term k (fracOf (vals.getD (t.order.getD k 0) 0)))) (Frac.ofInt 0)
  let bot := [0, 1, 2].foldl (fun (a : Frac) k => a.add (term k (Frac.ofInt 1))) (Frac.ofInt 0)
  let key := BitVec.ofInt 32 px :: BitVec.ofInt 32 py :: (vals ++ ps.flatten)
  if bot.n = 0 then Config.quantity 4 key else (top.div bot).word

/-! ### Formats (R273) -/

/-- Components of a colour format in R, G, B, A order: lowest bit, bits, whether a float. -/
def fmtComps (f : Nat) : List (Nat × Nat × Bool) :=
  match f with
  | 0x01 => [(0, 8, false), (8, 8, false), (16, 8, false), (24, 8, false)]
  | 0x02 => [(0, 5, false), (5, 6, false), (11, 5, false)]
  | 0x03 => [(0, 10, false), (10, 10, false), (20, 10, false), (30, 2, false)]
  | 0x04 => [(0, 16, true), (16, 16, true), (32, 16, true), (48, 16, true)]
  | 0x05 => [(0, 16, true), (16, 16, true)]
  | 0x06 => [(0, 8, false)]
  | 0x07 => [(0, 16, true)]
  | 0x08 => [(0, 32, true)]
  | _ => []

/-- A component's field as FP32, exactly or, for UNORM, c / (2^n − 1) correctly rounded. -/
def compRead (q : Nat × Nat × Bool) (v : Nat) : Word :=
  let c := bitsOf v (q.1 + q.2.1 - 1) q.1
  BitVec.ofNat 32 (if !q.2.2 then Frac.fp32 { n := c, d := 2 ^ q.2.1 - 1 }
    else if q.2.1 = 16 then (readFloat fp16 c).bits fp32 else c)

/-- The four components of a sample or texel; one that the format does not hold is a free value. -/
def colourRead (f v : Nat) : List Word :=
  (List.range 4).map (fun i => match (fmtComps f)[i]? with
    | some q => compRead q v
    | none => Config.missing f i)

/-- A whole number of `n` bits from a value: clamped to 0 to 1, times 2^n − 1, to nearest with ties to even. -/
def unorm (n : Nat) (v : FVal) : Nat :=
  match v with
  | .nan => 0
  | .inf neg => if neg then 0 else 2 ^ n - 1
  | .fin neg m e =>
    if neg then 0
    else if magAbove m e 1 0 then 2 ^ n - 1
    else (Frac.rne ((fracPow m e).mul (Frac.ofInt ((2 : Int) ^ n - 1)))).toNat

/-- A component's field from FP32 (R268): a NaN becomes 0. -/
def compWrite (q : Nat × Nat × Bool) (w : Word) : Nat :=
  let v := readFloat fp32 w.toNat
  if !q.2.2 then unorm q.2.1 v
  else if v.isNan then 0
  else if q.2.1 = 16 then (convFloat fp16 v).bits
  else v.bits fp32

/-- A sample with the components of a mask replaced. -/
def colourWrite (f : Nat) (mask : Nat) (old : Nat) (c : List Word) : Nat :=
  let comps := fmtComps f
  (List.range comps.length).foldl (fun v i => match comps[i]? with
    | some q =>
      if bitOf mask i then v - bitsOf v (q.1 + q.2.1 - 1) q.1 * 2 ^ q.1 + compWrite q (c.getD i 0) * 2 ^ q.1 else v
    | none => v) old

/-- The FP32 mean of four samples, rounded once (R246). -/
def mean4 (ws : List Word) : Word :=
  let vs := ws.map (fun w => readFloat fp32 w.toNat)
  let infs := vs.filterMap (fun v => match v with
    | .inf n => some n
    | .nan => none
    | .fin _ _ _ => none)
  if vs.any FVal.isNan || (infs.contains true && infs.contains false) then BitVec.ofNat 32 fp32.nanBits
  else if !infs.isEmpty then BitVec.ofNat 32 (fp32.sign (infs.headD false) + fp32.infBits)
  else BitVec.ofNat 32 (Frac.fp32 ((ws.foldl (fun (a : Frac) w => a.add (fracOf w)) (Frac.ofInt 0)).mul { n := 1, d := 4 }))

/-! ### Blending (R267, R268) -/

def blendMask (f : Nat) : Nat := bitsOf f 14 11
def blendOn (f : Nat) : Bool := bitOf f 15
def blendOp (f : Nat) : Nat := bitsOf f 10 8
def blendDst (f : Nat) : Nat := bitsOf f 7 4
def blendSrc (f : Nat) : Nat := bitsOf f 3 0

def fpOne : FVal := .fin false 1 0
def fv (w : Word) : FVal := readFloat fp32 w.toNat

/-- The factor of a code for a component. -/
def blendFactor (code : Nat) (src dst const : List Word) (c : Nat) : FVal :=
  let pickv := match code / 2 with
    | 1 => fv (src.getD c 0)
    | 2 => fv (src.getD 3 0)
    | 3 => fv (dst.getD c 0)
    | 4 => fv (dst.getD 3 0)
    | _ => fv (const.getD c 0)
  if code = 0 then .fin false 0 0
  else if code = 1 then fpOne
  else if code % 2 = 0 then pickv
  else readFloat fp32 (faddBits fp32 fpOne pickv.neg)

/-- One component of the equation: both products are rounded, then their combination. -/
def blendComp (f : Nat) (src dst const : List Word) (c : Nat) : Word :=
  let a := readFloat fp32 (fmulBits fp32 (fv (src.getD c 0)) (blendFactor (blendSrc f) src dst const c))
  let b := readFloat fp32 (fmulBits fp32 (fv (dst.getD c 0)) (blendFactor (blendDst f) src dst const c))
  BitVec.ofNat 32 (match blendOp f with
    | 0 => faddBits fp32 a b
    | 1 => faddBits fp32 a b.neg
    | 2 => faddBits fp32 b a.neg
    | 3 => fminBits fp32 false a b
    | _ => fminBits fp32 true a b)

/-- BLEND_CONST as FP32. -/
def blendConst (w : List Byte) : List Word :=
  (List.range 4).map (fun i => BitVec.ofNat 32 ((readFloat fp16 (wBlendConst w i)).bits fp32))

/-- A colour attachment's sample after a source colour. -/
def blendSample (w : List Byte) (a fmt old : Nat) (src : List Word) : Nat :=
  let f := wBlend w a
  let c := if blendOn f then (List.range 4).map (blendComp f src (colourRead fmt old) (blendConst w)) else src
  colourWrite fmt (blendMask f) old c

/-! ### Depth and stencil (R265) -/

def stRef (v : Nat) : Nat := bitsOf v 7 0
def stRmask (v : Nat) : Nat := bitsOf v 15 8
def stWmask (v : Nat) : Nat := bitsOf v 23 16
def stFunc (v : Nat) : Nat := bitsOf v 26 24
def stFail (v : Nat) : Nat := bitsOf v 29 27
def stZfail (v : Nat) : Nat := bitsOf v 32 30
def stPass (v : Nat) : Nat := bitsOf v 35 33
def stEnable (v : Nat) : Bool := bitOf v 36

/-- A comparison by its code. -/
def funcHolds (code : Nat) (lt eq : Bool) (gt : Bool) : Bool :=
  match code with
  | 0 => false
  | 1 => lt
  | 2 => eq
  | 3 => lt || eq
  | 4 => gt
  | 5 => !eq
  | 6 => gt || eq
  | _ => true

def funcNat (code a b : Nat) : Bool := funcHolds code (decide (a < b)) (a == b) (decide (b < a))

/-- A stencil value after an operation. -/
def stencilOp (code ref v : Nat) : Nat :=
  match code with
  | 0 => v
  | 1 => 0
  | 2 => ref
  | 3 => min 255 (v + 1)
  | 4 => v - 1
  | 5 => 255 - v
  | 6 => (v + 1) % 256
  | _ => (v + 255) % 256

def stencilWrite (s code v : Nat) : Nat :=
  Nat.lor (Nat.land v (255 - stWmask s)) (Nat.land (stencilOp code (stRef s) v) (stWmask s))

def fmtHasStencil (f : Nat) : Bool := f == 0x10 || f == 0x12

/-- Stored depth and stencil of a depth sample. -/
def depthField (f v : Nat) : Nat := if f = 0x10 then v % 2 ^ 24 else v % 2 ^ 32
def stencilField (f v : Nat) : Nat := if f = 0x10 then v / 2 ^ 24 % 256 else if f = 0x12 then v / 2 ^ 32 % 256 else 0
def depthMake (f d s : Nat) : Nat := if f = 0x10 then d + 2 ^ 24 * s else if f = 0x12 then d + 2 ^ 32 * s else d

/-- CLAMP: depth between VN and VF. -/
def depthClamp (vp : Viewport) (z : Word) : Word :=
  let (lo, hi) := if (fv vp.vf).below false (fv vp.vn) then (vp.vf, vp.vn) else (vp.vn, vp.vf)
  if (fv z).below false (fv lo) then lo else if (fv hi).below false (fv z) then hi else z

/-- Depth as the format holds it; the conversion of a NaN to D24 is not stated. -/
def depthStored (f : Nat) (z : Word) : Nat :=
  if f = 0x10 then (if (fv z).isNan then (Config.quantity 5 [z]).toNat % 2 ^ 24 else unorm 24 (fv z))
  else (fv z).bits fp32

def depthHolds (f code new old : Nat) : Bool :=
  if f = 0x10 then funcNat code new old
  else
    let a := readFloat fp32 new
    let b := readFloat fp32 old
    funcHolds code (fcmp 2 a b) (fcmp 0 a b) (fcmp 4 a b)

/-- The test of one sample: whether it passes, and the depth attachment's sample after it. -/
def testSample (w : List Byte) (vp : Viewport) (fmt : Nat) (front : Bool) (z : Word) (old : Nat) : Bool × Nat :=
  if !fmtIsDepth fmt then (true, old) else
  let st := if front then wStencilFront w else wStencilBack w
  let sOn := stEnable st && fmtHasStencil fmt
  let sv := stencilField fmt old
  let dOld := depthField fmt old
  let dNew := depthStored fmt (if wDepthClamp w then depthClamp vp z else z)
  let sOk := !sOn || funcNat (stFunc st) (Nat.land (stRef st) (stRmask st)) (Nat.land sv (stRmask st))
  let dOk := !wDepthTest w || depthHolds fmt (wDepthFunc w) dNew dOld
  let put := fun (code : Nat) => if sOn then stencilWrite st code sv else sv
  if !sOk then (false, depthMake fmt dOld (put (stFail st)))
  else if !dOk then (false, depthMake fmt dOld (put (stZfail st)))
  else (true, depthMake fmt (if wDepthWrite w then dNew else dOld) (put (stPass st)))

/-! ### The checks of R248 -/

def stencilOk (v : Nat) : Bool := v / 2 ^ 37 == 0
def blendOk (f : Nat) : Bool := decide (blendOp f ≤ 4) && decide (blendDst f ≤ 11) && decide (blendSrc f ≤ 11)

def drawOk (b w : List Byte) : Bool :=
  vaOk (wNextVa w) 128 && vaOk (wVsVa w) 8 && vaOk (wFsVa w) 8 && vaOk (wResVa w) 1 && vaOk (wConstVa w) 1 &&
  vaOk (wIndexVa w) 1 && decide (wCount w ≤ 2 ^ 31) && decide (1 ≤ wInstances w) && decide (wInstances w ≤ 65536) &&
  !bitOf (wPrim w) 7 && decide (8 ≤ wVsRegs w) && decide (wVsRegs w ≤ 256) && decide (wFsRegs w ≤ 256) &&
  (wFsVa w == 0 || decide (7 + 4 * wVaryings w ≤ wFsRegs w)) &&
  wCull w != 3 && wIndex w != 3 && wTopology w != 3 && wDepth w / 64 == 0 && stencilOk (wStencilFront w) &&
  stencilOk (wStencilBack w) && [0, 1, 2, 3].all (fun a => blendOk (wBlend w a)) &&
  decide (wScissor w 0 ≤ wScissor w 2) && decide (wScissor w 1 ≤ wScissor w 3) && fieldNat w 0x70 4 / 16 == 0 &&
  allZero w 0x74 12 && !(wOrdered w && pDirect b)

/-- Early testing applies to a draw (R266). -/
def wEarly (w : List Byte) : Bool := wEarlyOk w && !wLate w

end Sys2Proof.Machine
end

