-- ==== Sys2Proof/Machine/Backend.lean ====
section
/-! DEFINITION. Sys2Proof/Machine/Backend.lean: quads of a triangle (R250), samples in tile memory and in images (R241, R245),
early tests (R266) and the raster back end, which applies fragments in submission order (R261, R267). -/
namespace Sys2Proof.Machine

/-! ### The geometry front end's turn (R239, R276) -/

/-- A pass that the graphics units may work for: not frozen, its job running, its epoch in force. -/
def frontPass (x : Die) (pp : Fin 4) : Option (Pass × Job) :=
  if !x.running || decide (x.dev ≠ .active) || x.unitFrozen 34 then none else
  match x.passes[pp] with
  | none => none
  | some q =>
    if q.frozen.isSome then none else
    match x.job? q.job with
    | some j => if j.state = .running ∧ j.held.isNone then some (q, j) else none
    | none => none

/-- The bytes of a draw bound earlier in the pass, followed by its viewport's 24. -/
def Pass.drawOf (q : Pass) (n : Nat) : List Byte := (q.draws.lookup n).getD []

def drawViewport (w : List Byte) : Viewport := viewportOf (w.drop 128)

/-! ### Quads (R250, R264) -/

def quadPixels (x y : Nat) : List (Nat × Nat) := [(x, y), (x + 1, y), (x, y + 1), (x + 1, y + 1)]

/-- The four threads of a quad; pixels without a covered sample are helpers. -/
def quadThreads (n : Nat) (t : Tri) (pr : Prim) (order : Nat) (r : Rect) (x y : Nat) : List FragThread :=
  let ps := pr.verts.map (fun v => v.1)
  (quadPixels x y).map (fun q =>
    let m := coverage t n r q.1 q.2
    { x := q.1, y := q.2, cover := m, order := order, front := pr.front, helper := m == 0,
      depth := (List.range n).map (fun s =>
        if m.getLsbD s then depthAt t ps (samplePoint n q.1 q.2 s).1 (samplePoint n q.1 q.2 s).2 else 0) })

/-- Pixel columns or rows of a span that a triangle's extent can reach, by pairs. -/
def pairSpan (vs : List Int) (lo hi : Nat) : List Nat :=
  let mn := (vs.foldl min (vs.headD 0)) / 256
  let mx := (vs.foldl max (vs.headD 0)) / 256 + 1
  let a := max lo mn.toNat / 2
  let b := (min hi mx.toNat + 1) / 2
  (List.range (b - a)).map (fun i => 2 * (a + i))

/-- The covered quads of a triangle in a region of whole quads, row by row. -/
def quadsIn (b w : List Byte) (pr : Prim) (order : Nat) (region : Rect) (subOf : Nat → Nat → Nat) : List Quad :=
  let t := triOf (pr.verts.map (fun v => v.1))
  let r := (region.meet (renderArea b)).meet (scissorOf w)
  if r.empty then [] else
  ((pairSpan t.ys r.y0 r.y1).map (fun y => (pairSpan t.xs r.x0 r.x1).filterMap (fun x =>
    let th := quadThreads (pSamples b) t pr order r x y
    if th.all (fun f => f.helper) then none
    else some { sub := subOf x y, drawNo := pr.drawNo, prim := pr, threads := th, tested := !wEarly w }))).flatten

def noOut : ShaderOut := { pos := none, vars := [], cols := [], depth := none }

/-- A flight takes a triangle's quads: fragments wait to be shaded, or, without a fragment shader, to be applied. -/
def TileFlight.takeQuads (f : TileFlight) (w : List Byte) (pr : Prim) (qs : List Quad) : TileFlight :=
  let frags := ((qs.map (fun q => q.threads)).flatten).filter (fun t => !t.helper)
  let g := { f with nextOrder := f.nextOrder + 1, upTo := pr.drawNo }
  if wFsVa w = 0 ∧ !wEarly w then
    { g with done := f.done ++ frags.map (fun t => { order := t.order, drawNo := pr.drawNo, thread := t, out := noOut }) }
  else { g with quads := f.quads ++ qs, pendingFrags := f.pendingFrags ++ frags.map (fun t => t.order) }

/-! ### Samples (R241, R245) -/

/-- A tile's pixels. -/
def tileRect (b : List Byte) (tile : Nat) : Rect :=
  let x := tile % pTx b * pTilePx b
  let y := tile / pTx b * pTilePy b
  { x0 := x, y0 := y, x1 := x + pTilePx b, y1 := y + pTilePy b }

/-- The sub-tile of a pixel, which is its core, and the pixel's number in it (R244, R245). -/
def subOfPixel (b : List Byte) (x y : Nat) : Nat := 4 * (y % pTilePy b / pSubH b) + x % pTilePx b / pSubW b
def pixelInSub (b : List Byte) (x y : Nat) : Nat := y % pTilePy b % pSubH b * pSubW b + x % pTilePx b % pSubW b

def coreFin (n : Nat) : Fin 16 := Fin.ofNat 16 n

/-- The place of a sample in the partition of its core. -/
def sampleOffset (b : List Byte) (slot i bpp x y s : Nat) : Nat :=
  slot * pSlotBytes b + regionBase b i + (pixelInSub b x y * pSamples b + s) * bpp

/-- A pixel of an image: the address of its first sample. -/
def pixelVa (b : List Byte) (t : Att) (x y : Nat) : Nat := t.va + 64 * t.pitch * y + x * pSamples b * t.bpp

/-- The core of a pixel's 16 × 16 block in direct mode (R261). -/
def blockCore (x y : Nat) : Nat := 4 * (y / 16 % 4) + x / 16 % 4

/-- Where the samples of a pass on a cluster lie: its partition, or in direct mode the pages of its images. -/
structure Store where
  mask : BitVec 16
  maps : List (Nat × PageMap)
  deriving DecidableEq, Repr

/-- The core through whose L1 the back end reaches a pixel in direct mode. -/
def directCore (f : TileFlight) (px py : Nat) : CoreLoc := { cl := f.cl, core := coreFin (blockCore px py) }

/-- A sample's bits: in tile memory, or in direct mode as the core's L1 sees them (R261). -/
def sampleGet (x : Die) (q : Pass) (f : TileFlight) (st : Store) (i : Nat) (t : Att) (px py s : Nat) : Nat :=
  if q.direct then
    let pa := paOf ((st.maps.lookup i).getD []) (pixelVa q.desc t px py)
    ofLe (((l1View x (directCore f px py) q.ctx (lineOf pa)).drop (pa % 128)).take t.bpp)
  else ofLe (partBytes x st.mask { cl := f.cl, core := coreFin (subOfPixel q.desc px py) } (sampleOffset q.desc f.slot i t.bpp px py s) t.bpp)

/-- A sample is written: in direct mode by a store through the core's L1, which enters its merging buffer (R214). -/
def samplePut (p x : Die) (q : Pass) (f : TileFlight) (st : Store) (i : Nat) (t : Att) (px py s v : Nat) : Die :=
  if q.direct then
    let pa := paOf ((st.maps.lookup i).getD []) (pixelVa q.desc t px py)
    let bs := leBytes t.bpp v
    l1Store p x (directCore f px py) q.ctx q.job (lineOf pa) ((List.range bs.length).map (fun k => (pa % 128 + k, bs.getD k 0)))
  else setPartBytes x st.mask { cl := f.cl, core := coreFin (subOfPixel q.desc px py) } (sampleOffset q.desc f.slot i t.bpp px py s) (leBytes t.bpp v)

/-! ### One quad's work -/

/-- What is done for a quad: the early tests, the colours of samples that were tested early, or both in turn. -/
inductive Work
  | test
  | colour
  | both
  deriving DecidableEq, Repr

/-- Attachments that the work reads and writes (R365, "Raster back end, direct mode"). -/
def attUses (b w : List Byte) (wk : Work) (items : List (FragThread × ShaderOut)) : List (Nat × Att × Bool × Bool) :=
  (pAtts b).filterMap (fun q =>
    if q.1 = 0 then
      let st := stEnable (wStencilFront w) || stEnable (wStencilBack w)
      if wk = .colour || !(wDepthTest w || wDepthWrite w || st) then none
      else some (0, q.2, true, wDepthWrite w || st)
    else
      let f := wBlend w (q.1 - 1)
      let used := items.any (fun t => (t.2.cols.lookup (q.1 - 1)).isSome)
      if wk = .test || !used || blendMask f = 0 then none
      else some (q.1, q.2, blendOn f || blendMask f != 15, true))

def accOf (r w : Bool) : List Access := (if r then [accRead] else []) ++ (if w then [accWrite] else [])

/-- In direct mode the samples of one quad in one attachment are one access unit. Every unit of the quad passes before any
of its bytes moves. -/
def quadUnits (p x : Die) (pp : Fin 4) (q : Pass) (f : TileFlight) (w : List Byte) (wk : Work) (items : List (FragThread × ShaderOut)) :
    Die × Option (List (Nat × PageMap)) :=
  if !q.direct then (x, some []) else
  let m : Master := .raster f.cl pp
  (attUses q.desc w wk items).foldl (fun (r : Die × Option (List (Nat × PageMap))) u => match r.2 with
    | none => r
    | some maps =>
      let t := u.2.1
      let px := (items.filter (fun i => i.1.cover != 0)).map (fun i => pixelVa q.desc t i.1.x i.1.y)
      let us : List URange := (px.map (fun va => (accOf u.2.2.1 u.2.2.2).map (fun a => { va := va, len := t.bpp, acc := a }))).flatten
      match prewalk p r.1 m q.ctx us with
      | (x, none) => (x, none)
      | (x, some pm) =>
        let reads := if u.2.2.1 then items.filter (fun i => i.1.cover != 0) else []
        let (x, ok) := reads.foldl (fun (s : Die × Bool) i =>
          if !s.2 then s else
          let va := pixelVa q.desc t i.1.x i.1.y
          match l1ReadLine p s.1 (directCore f i.1.x i.1.y) q.ctx (lineOf (paOf pm va)) 1 with
          | (y, some _) => (y, true)
          | (y, none) => (parityStop y m q.ctx (firstInPage px va) (failedWord p y (lineOf (paOf pm va)) []) accRead.flags, false)) (x, true)
        if ok then (x, some (maps ++ [(u.1, pm)])) else (x, none)) (x, some [])

/-- One sample of a fragment; answers whether it passed depth and stencil. -/
def sampleWork (p x : Die) (q : Pass) (f : TileFlight) (st : Store) (w : List Byte) (wk : Work) (t : FragThread) (o : ShaderOut) (s : Nat) : Die × Bool :=
  let b := q.desc
  let uses := attUses b w wk [(t, o)]
  let z := match o.depth with
    | some v => v
    | none => t.depth.getD s 0
  let (x, ok) := match uses.find? (fun u => u.1 == 0) with
    | none => (x, true)
    | some u =>
      let old := sampleGet x q f st 0 u.2.1 t.x t.y s
      let r := testSample w (drawViewport w) u.2.1.format t.front z old
      (if r.2 = old then x else samplePut p x q f st 0 u.2.1 t.x t.y s r.2, r.1)
  if !ok then (x, false) else
  ((uses.filter (fun u => u.1 != 0)).foldl (fun (y : Die) u =>
    match o.cols.lookup (u.1 - 1) with
    | none => y
    | some c =>
      let old := sampleGet y q f st u.1 u.2.1 t.x t.y s
      let v := blendSample w (u.1 - 1) u.2.1.format old c
      if v = old then y else samplePut p y q f st u.1 u.2.1 t.x t.y s v) x, true)

/-- Samples of a mask. -/
def samplesOf (m : BitVec 4) : List Nat := [0, 1, 2, 3].filter (fun s => m.getLsbD s)

/-- A fragment's covered samples; answers those that passed. -/
def fragWork (p x : Die) (q : Pass) (f : TileFlight) (st : Store) (w : List Byte) (wk : Work) (t : FragThread) (o : ShaderOut) : Die × BitVec 4 :=
  (samplesOf t.cover).foldl (fun (r : Die × BitVec 4) s =>
    match sampleWork p r.1 q f st w wk t o s with
    | (x, true) => (x, r.2 ||| ((1 : BitVec 4) <<< s))
    | (x, false) => (x, r.2)) (x, 0)

def maskCount (m : BitVec 4) : Nat := (samplesOf m).length

/-- The work of a quad: the masks that passed, or none where the back end has stopped on a fault. -/
def quadWork (p x : Die) (pp : Fin 4) (q : Pass) (f : TileFlight) (w : List Byte) (wk : Work) (items : List (FragThread × ShaderOut)) :
    Die × Option (List (BitVec 4)) :=
  match quadUnits p x pp q f w wk items with
  | (x, none) => (x, none)
  | (x, some maps) =>
    let st : Store := { mask := ((x.part? q.job f.cl).map (fun t => t.mask)).getD 0, maps := maps }
    let (x, ms) := items.foldl (fun (r : Die × List (BitVec 4)) i =>
      let u := fragWork p r.1 q f st w wk i.1 i.2
      (u.1, r.2 ++ [u.2])) (x, [])
    let x := if wk = .colour then x else
      x.updPass pp (fun t => { t with samplesPassed := t.samplesPassed + (ms.map maskCount).sum })
    (x, some ms)

/-! ### Flights -/

def Die.updFlight (x : Die) (pp : Fin 4) (tile : Nat) (g : TileFlight → TileFlight) : Die :=
  x.updPass pp (fun q => { q with tiles := updWhere (fun f => f.tile == tile) g q.tiles })

def Die.flight? (x : Die) (pp : Fin 4) (tile : Nat) : Option (Pass × TileFlight) :=
  match x.passes[pp] with
  | none => none
  | some q => (q.tiles.find? (fun f => f.tile == tile)).map (fun f => (q, f))

/-- Fragments of a tile in groups that have not ended: group and thread. -/
def tileGroups (x : Die) (pp : Fin 4) (tile : Nat) : List (Nat × Group) :=
  x.sh.groups.filterMap (fun t => match t.stage with
    | .fragment q i _ n => if q = pp ∧ i = tile then some (n, t) else none
    | .vertex _ _ _ _ => none
    | .compute => none)

def eraseOrders (l gone : List Nat) : List Nat := gone.foldl (fun l o => l.erase o) l

/-- A quad after its early tests: failing samples are not shaded, and a quad with none left is dropped. -/
def testedQuad (q : Quad) (ms : List (BitVec 4)) : Quad :=
  { q with tested := true,
           threads := (q.threads.zip ms).map (fun t => { t.1 with cover := t.2, helper := t.2 == 0 }) }

/-- The next quad that waits for early testing is tested, once every earlier fragment that is tested late has been applied.
Answers whether it went on. -/
def testNext (p x : Die) (pp : Fin 4) (tile : Nat) : Die × Bool :=
  match x.flight? pp tile with
  | none => (x, false)
  | some (q, f) =>
    let late := fun (n : Nat) => !wEarly (q.drawOf n)
    match f.quads.findIdx? (fun t => !t.tested) with
    | none => (x, false)
    | some i =>
      match f.quads[i]? with
      | none => (x, false)
      | some u =>
        if (f.quads.take i).any (fun t => late t.drawNo) || f.done.any (fun t => late t.drawNo) ||
            (tileGroups x pp tile).any (fun t => late t.1) then (x, false)
        else
          let w := q.drawOf u.drawNo
          match quadWork p x pp q f w .test (u.threads.map (fun t => (t, noOut))) with
          | (x, none) => (x, false)
          | (x, some ms) =>
            let v := testedQuad u ms
            let drop := wFsVa w == 0 || v.threads.all (fun t => t.helper)
            let was := (u.threads.filter (fun t => !t.helper)).map (fun t => t.order)
            let now := if drop then [] else (v.threads.filter (fun t => !t.helper)).map (fun t => t.order)
            let g : TileFlight → TileFlight := fun f =>
              { f with quads := f.quads.take i ++ (if drop then [] else [v]) ++ f.quads.drop (i + 1),
                       pendingFrags := eraseOrders f.pendingFrags was ++ now }
            (x.updFlight pp tile g, true)

/-- Every quad that may be tested is tested. `fuel` is the number of quads. -/
def testQuads (p : Die) (pp : Fin 4) (tile : Nat) : Nat → Die → Die
  | 0, x => x
  | k + 1, x =>
    match testNext p x pp tile with
    | (x, true) => testQuads p pp tile k x
    | (x, false) => x

/-- The oldest shaded quad is applied, once no earlier fragment of the tile is still to be shaded (R267). -/
def applyNext (p x : Die) (pp : Fin 4) (tile : Nat) : Die × Bool :=
  match x.flight? pp tile with
  | none => (x, false)
  | some (q, f) =>
    if f.done.isEmpty then (x, false) else
    let first := listMin (f.done.map (fun t => t.order))
    if !f.pendingFrags.isEmpty && decide (listMin f.pendingFrags < first) then (x, false) else
    match f.done.find? (fun t => t.order == first) with
    | none => (x, false)
    | some t =>
      let mate : FragDone → Bool := fun u => u.order == first && u.thread.x / 2 == t.thread.x / 2 && u.thread.y / 2 == t.thread.y / 2
      let w := q.drawOf t.drawNo
      match quadWork p x pp q f w (if wEarly w then .colour else .both) ((f.done.filter mate).map (fun u => (u.thread, u.out))) with
      | (x, none) => (x, false)
      | (x, some _) => (x.updFlight pp tile (fun f => { f with done := f.done.filter (fun u => !mate u) }), true)

def applyQuads (p : Die) (pp : Fin 4) (tile : Nat) : Nat → Die → Die
  | 0, x => x
  | k + 1, x =>
    match applyNext p x pp tile with
    | (x, true) => applyQuads p pp tile k x
    | (x, false) => x

/-- The raster unit or the back end of a cluster is frozen for a pass (R276). -/
def Pass.haltedOn (q : Pass) (cl : Fin 6) : Bool := q.halted.any (fun h => decide (h.1 = cl))

/-- The raster unit and back end of a cluster go on with a tile: shaded fragments are applied, waiting quads tested. -/
def serveTile (p x : Die) (pp : Fin 4) (tile : Nat) : Die :=
  match x.flight? pp tile with
  | none => x
  | some (q, f) =>
    if q.haltedOn f.cl then x else
    let x := applyQuads p pp tile f.done.length x
    testQuads p pp tile f.quads.length x

end Sys2Proof.Machine
end

