-- ==== Sys2Proof/Machine/Binning.lean ====
section
/-! DEFINITION. Sys2Proof/Machine/Binning.lean: the geometry front end: starting a pass, draws, vertex groups, assembly,
clipping, culling, binning into the hamper and its extension (R239 to R262). -/
namespace Sys2Proof.Machine

/-! ### Descriptors (R242, R248) -/

/-- The pass is frozen with BAD_DESCRIPTOR at a descriptor. -/
def badPassDesc (x : Die) (pp : Fin 4) (ctx va : Nat) : Die :=
  ((x.flag .gfxFlags 0).count .gfxBadDescCnt).faultMaster clsBadDescriptor (.frontEnd pp) (FaultInfo.plain ctx va)

/-- The draws have ended: a binned pass begins its tile phase. -/
def Pass.endDraws (q : Pass) : Pass :=
  let q := { q with drawVa := 0, draw := [], checked := false }
  if q.direct then q else { q.enter .tile with nextTile := 0 }

/-- Pieces of a range, each with its bytes. -/
def splitBytes (va : Nat) (bs : List Byte) : List (Nat × List Byte) :=
  (piecesOf va bs.length).map (fun q => (q.1, bs.drop (q.1 - va) |>.take q.2))

/-- Live shares of a job, by share index. -/
def shareClusters (j : Job) : List (Fin 6) :=
  (sortBy (fun a b => decide (a.index ≤ b.index)) (j.shares.filter (fun h => decide (h.state = .live)))).map (fun h => h.cl)

/-- In direct mode each attachment with LOAD = CLEAR is filled over the render area, row by row (R261). -/
def clearImages (p x : Die) (pp : Fin 4) (ctx : Nat) (cl : Fin 6) (b : List Byte) : Die × Bool :=
  let rows := ((pAtts b).filter (fun q => q.2.load == 2)).map (fun q =>
    (List.range (pHeight b)).map (fun y =>
      (q.2.va + 64 * q.2.pitch * y, (List.replicate (pWidth b) (q.2.clear.take q.2.bpp)).flatten)))
  writeList p x (.raster cl pp) ctx rows.flatten

/-- What lies in flight on a cluster of a direct pass, known by its share's index. -/
def directFlight (k : Nat) (cl : Fin 6) : TileFlight :=
  { cl := cl, tile := k, slot := 0, segVa := 0, entry := 0, drawn := 0, listDone := false, upTo := 0, quads := [],
    pendingFrags := [], done := [], nextOrder := 0 }

def passStartDie (pp : Fin 4) (p x : Die) : Die :=
  match frontPass x pp with
  | none => x
  | some (q, j) =>
    if !q.desc.isEmpty || decide (q.phase = .folding) then x else
    let va := dWorkVa j.desc
    match readUnit p x (.frontEnd pp) q.ctx va 256 accRead with
    | (x, none) => x
    | (x, some b) =>
      if !passOk b (dSteps j.desc) then badPassDesc x pp q.ctx va else
      let cls := shareClusters j
      let (x, ok) := if pDirect b then clearImages p x pp q.ctx (cls.headD 0) b
        else writeList p x (.frontEnd pp) q.ctx (splitBytes (pHamperVa b) (List.replicate (16 * pTiles b) 0))
      if !ok then x else
      x.updPass pp (fun q =>
        let h := if pDirect b then 0 else headChunks b
        let q := { q with desc := b, drawVa := pDrawVa b, nextChunk := h, peak := h, segment := 1,
                          tiles := if pDirect b then ((List.range cls.length).zip cls).map (fun (t : Nat × Fin 6) => directFlight t.1 t.2) else [] }
        let q := if pDirect b then q.enter .direct else q.enter .binning
        if pDrawVa b = 0 then q.endDraws else q)

def execPassStart (d : DieId) (p : Fin 4) (s : State) : Out := nextOn d (passStartDie p (s.die d.other)) s

/-- The next draw of the chain. -/
def Pass.nextDraw (q : Pass) : Pass :=
  let va := wNextVa q.draw
  let q := { q with drawVa := va, drawNo := q.drawNo + 1, draw := [], checked := false, inst := 0, position := 0, tri := 0,
                    stripStart := 0, stripTri := 0, cuts := [], verts := [] }
  if va = 0 then q.endDraws else q

def drawCheckDie (pp : Fin 4) (p x : Die) : Die :=
  match frontPass x pp with
  | none => x
  | some (q, _) =>
    if q.desc.isEmpty || q.checked || q.drawVa == 0 || !(decide (q.phase = .binning) || decide (q.phase = .direct)) then x else
    match readUnit p x (.frontEnd pp) q.ctx q.drawVa 128 accRead with
    | (x, none) => x
    | (x, some w) =>
      if !drawOk q.desc w || decide (1048574 < q.drawNo) then badPassDesc x pp q.ctx q.drawVa else
      match readUnit p x (.frontEnd pp) q.ctx (pViewportsVa q.desc + 24 * wViewport w) 24 accRead with
      | (x, none) => x
      | (x, some vp) =>
        x.updPass pp (fun q =>
          let q := { q with draw := w ++ vp, checked := true, draws := (q.drawNo, w ++ vp) :: q.draws }
          if wCount w = 0 then q.nextDraw else q)

def execDrawCheck (d : DieId) (p : Fin 4) (s : State) : Out := nextOn d (drawCheckDie p (s.die d.other)) s

/-! ### VERTEX_GROUP_DISPATCH (R249) -/

/-- Index values of a group's positions; without an index array, the positions themselves. -/
def indexValues (p x : Die) (pp : Fin 4) (q : Pass) (n : Nat) : Die × Option (List Nat) :=
  let w := q.draw
  if wIndex w = 0 then (x, some ((List.range n).map (fun i => q.position + i)))
  else
    let k := 2 * wIndex w
    match readUnit p x (.frontEnd pp) q.ctx (wIndexVa w + k * q.position) (k * n) accRead with
    | (x, none) => (x, none)
    | (x, some b) => (x, some ((List.range n).map (fun i => fieldNat b (k * i) k)))

/-- A restart index (R262). -/
def isRestart (w : List Byte) (v : Nat) : Bool :=
  wRestart w && wTopology w != 0 && ((wIndex w == 1 && v == 0xFFFF) || (wIndex w == 2 && v == 0xFFFFFFFF))

def vertexGroup (q : Pass) (pp : Fin 4) (vals : List Nat) (f : Nat) (l : GrpLoc) (stamp : Nat) : Group :=
  let w := q.draw
  let n := vals.length
  let t := newGroup f l q.job q.ctx stamp (wVsRegs w) 0 (BitVec.ofNat 48 (wVsVa w)) (BitVec.ofNat 64 (2 ^ n - 1))
    (.vertex pp q.position q.inst n)
  let t := (t.fillReg 0 (fun _ => BitVec.ofNat 32 (wConstVa w))).fillReg 1 (fun _ => BitVec.ofNat 32 (wConstVa w / 2 ^ 32 % 2 ^ 16))
  let t := (t.fillReg 2 (fun i => BitVec.ofNat 32 (vals.getD i 0 + wBaseVertex w))).fillReg 3
    (fun _ => BitVec.ofNat 32 (wFirstInstance w + q.inst))
  { t with out := List.replicate 64 noOut }

def vertexDispatchDie (pp : Fin 4) (p x : Die) : Die :=
  match frontPass x pp with
  | none => x
  | some (q, j) =>
    let w := q.draw
    if !q.checked || !(decide (q.phase = .binning) || decide (q.phase = .direct)) || decide (wCount w ≤ q.position) || !x.schedules then x else
    match x.bestCore (inOrder (liveClusters j)) q.job 0 (wVsRegs w) 0 1 with
    | none => x
    | some c =>
      let n := min 64 (wCount w - q.position)
      match indexValues p x pp q n with
      | (x, none) => x
      | (x, some vals) =>
        let x := x.placeGroup c (wVsRegs w) 0 (fun f l stamp => (vertexGroup q pp vals f l stamp).numbered j.dispatched)
        let cuts := ((List.range n).filter (fun i => isRestart w (vals.getD i 0))).map (fun i => q.position + i)
        (x.updJob q.job Job.oneMore).updPass pp (fun q => { q with position := q.position + n, cuts := q.cuts ++ cuts })

def execVertexGroupDispatch (d : DieId) (p : Fin 4) (s : State) : Out := nextOn d (vertexDispatchDie p (s.die d.other)) s

/-! ### Assembly (R262) -/

/-- The start of the strip or fan that the next triangle belongs to, its number there, and the restarts still ahead. -/
def seekTri : List Nat → Nat → Nat → Nat × Nat × List Nat
  | [], s, j => (s, j, [])
  | c :: cs, s, j => if c ≤ s + j + 2 then seekTri cs (c + 1) 0 else (s, j, c :: cs)

/-- Positions of triangle `j` of a run that starts at `s`, in order. -/
def triPositions (topology s j : Nat) : List Nat :=
  match topology with
  | 0 => [s + 3 * j, s + 3 * j + 1, s + 3 * j + 2]
  | 1 => if j % 2 = 0 then [s + j, s + j + 1, s + j + 2] else [s + j + 1, s + j, s + j + 2]
  | _ => [s, s + j + 1, s + j + 2]

inductive NextTri
  /-- Vertices are still to be shaded. -/
  | wait
  /-- The instance has no further triangle, and all its positions are shaded. -/
  | over
  | tri (s j : Nat) (cuts : List Nat) (verts : List Vert)
  deriving DecidableEq, Repr

def Pass.nextTri (q : Pass) : NextTri :=
  let w := q.draw
  let (s, j, cs) := seekTri q.cuts q.stripStart q.stripTri
  let ps := triPositions (wTopology w) s j
  let last := ps.foldl max 0
  if wCount w ≤ last then (if q.verts.length = wCount w then .over else .wait)
  else if q.position ≤ last then .wait
  else
    let vs := ps.filterMap (fun k => q.verts.find? (fun v => v.index == k && v.inst == q.inst))
    if vs.length = 3 then .tri s j cs vs else .wait

/-- The next instance, or the next draw. -/
def Pass.nextInstance (q : Pass) : Pass :=
  if q.inst + 1 < wInstances q.draw then
    { q with inst := q.inst + 1, position := 0, tri := 0, stripStart := 0, stripTri := 0, cuts := [], verts := [] }
  else q.nextDraw

/-! ### Clipping and culling (R263) -/

/-- The triangles of an assembled triangle that are neither clipped away nor culled, and how many were culled. -/
def shapeTriangle (w : List Byte) (drawNo id : Nat) (vs : List Vert) : List Prim × Nat :=
  let vp := drawViewport w
  let pos := vs.map (fun v => v.pos)
  let gone := pos.any (fun v => v.all (fun c => (fracOf c).n == 0))
  let poly := if gone then [] else clipTriangle vp pos
  if poly.length < 3 || poly.any (fun v => !onScreen pos v) then ([], 1) else
  let vars := fun (v : Bary) => (List.range (wVaryings w)).map (fun k => clipVar (vs.map (fun u => u.vars.getD k [0, 0, 0, 0])) v)
  let pts := poly.map (fun v => (screenPos vp pos v, vars v))
  let tris := (List.range (pts.length - 2)).map (fun i => pick pts ([], []) [0, i + 1, i + 2])
  let prims : List Prim := tris.map (fun t =>
    { drawNo := drawNo, id := id, front := wCcw w == decide (area2 (t.map (fun v => v.1)) < 0), verts := t })
  let keep : Prim → Bool := fun r =>
    area2 (r.verts.map (fun v => v.1)) != 0 && !(wCull w == 1 && !r.front) && !(wCull w == 2 && r.front)
  (prims.filter keep, (prims.filter (fun r => !keep r)).length)

def countCulled (x : Die) (pp : Fin 4) (n : Nat) : Die :=
  (x.updPass pp (fun q => { q with primsCulled := q.primsCulled + n })).countN .gfxPrimCulledCnt n

/-! ### Binning (R251 to R255) -/

/-- Bytes of a primitive record. -/
def recordBytes (r : Prim) : List Byte :=
  let words := fun (l : List Word) => (l.map (fun v => leBytes 4 v.toNat)).flatten
  leBytes 4 r.id ++ leBytes 4 (b2n r.front) ++ leBytes 8 0 ++
    (r.verts.map (fun v => words v.1 ++ (v.2.map words).flatten)).flatten

/-- The VA of data chunk `i`: the hamper's, then the extension chunks in the order granted. -/
def chunkVa (q : Pass) (i : Nat) : Nat :=
  let n := pHamperChunks q.desc
  if i < n then pHamperVa q.desc + 65536 * i else q.extBase + 65536 * q.exts.getD (i - n) 0

/-- A list entry: DRAW and REF. -/
def listEntry (draw va : Nat) : List Byte := leBytes 8 (draw * 2 ^ 44 + va / 16 % 2 ^ 44)
def linkMark : Nat := 0xFFFFF

/-- Tiles whose rectangle, clipped to the render area and the scissor, a triangle overlaps. -/
def tilesOf (b w : List Byte) (r : Prim) : List Nat :=
  let t := triOf (r.verts.map (fun v => v.1))
  let clip := (renderArea b).meet (scissorOf w)
  (List.range (pTiles b)).filter (fun i => overlapsRect t ((tileRect b i).meet clip))

/-- Space for a triangle: where its record goes, the new segments, and the open chunks afterwards. -/
structure Room where
  recVa : Nat
  vChunk : Nat
  vOfs : Nat
  lChunk : Nat
  lSeg : Nat
  nextChunk : Nat
  segs : List Nat
  deriving DecidableEq, Repr

/-- Reserves the record of `size` bytes and `k` list segments, or finds too few chunks (R255). -/
def reserve (q : Pass) (size k : Nat) : Option Room :=
  let needV := q.vChunk = 0 ∨ 65536 < q.vOfs + size
  let rem := if q.lChunk = 0 then 0 else 256 - q.lSeg
  let nL := ceilDiv (k - rem) 256
  let nV := if needV then 1 else 0
  if pHamperChunks q.desc + q.exts.length < q.nextChunk + nV + nL then none else
  let vC := if needV then chunkVa q q.nextChunk else q.vChunk
  let vO := if needV then 0 else q.vOfs
  let first := q.nextChunk + nV
  let seg := fun (i : Nat) =>
    if i < rem then q.lChunk + 256 * (q.lSeg + i) else chunkVa q (first + (i - rem) / 256) + 256 * ((i - rem) % 256)
  some { recVa := vC + vO, vChunk := vC, vOfs := vO + size,
         lChunk := if nL = 0 then q.lChunk else chunkVa q (first + nL - 1),
         lSeg := if nL = 0 then q.lSeg + k else (k - rem) - 256 * (nL - 1),
         nextChunk := q.nextChunk + nV + nL, segs := (List.range k).map seg }

def tailOf (q : Pass) (tile : Nat) : Nat × Nat := (q.tails.lookup tile).getD (0, 0)

/-- The writes that list a record for a tile, and the tile's new tail. `seg` is a new segment, where one is needed. -/
def listWrites (q : Pass) (draw recVa tile seg : Nat) : List (Nat × List Byte) × (Nat × Nat) :=
  let (cnt, tail) := tailOf q tile
  let head := pHamperVa q.desc + 16 * tile
  let ent := listEntry draw recVa ++ listEntry linkMark 0
  if cnt % 31 ≠ 0 then ([(tail + 8 * (cnt % 31), ent), (head + 8, leBytes 4 (cnt + 1))], (cnt + 1, tail))
  else if cnt = 0 then ([(seg, ent), (head, leBytes 8 (seg / 16) ++ leBytes 4 1)], (1, seg))
  else ([(seg, ent), (tail + 248, listEntry linkMark seg), (head + 8, leBytes 4 (cnt + 1))], (cnt + 1, seg))

inductive BinRes
  | done
  | stopped
  | noRoom
  deriving DecidableEq, Repr

/-- One triangle is binned, all or nothing. -/
def binPrim (p x : Die) (pp : Fin 4) (q : Pass) (r : Prim) : Die × BinRes :=
  let w := q.drawOf r.drawNo
  let tiles := tilesOf q.desc w r
  if tiles.isEmpty then (countCulled x pp 1, .done) else
  let fresh := tiles.filter (fun t => (tailOf q t).1 % 31 == 0)
  match reserve q (64 + 48 * wVaryings w) fresh.length with
  | none => (x, .noRoom)
  | some m =>
    let lists := tiles.map (fun t => (t, listWrites q r.drawNo m.recVa t (m.segs.getD (fresh.idxOf t) 0)))
    match writesUnit p x (.frontEnd pp) q.ctx ((m.recVa, recordBytes r) :: (lists.map (fun t => t.2.1)).flatten) with
    | (x, false) => (x, .stopped)
    | (x, true) =>
      let tails := lists.map (fun t => (t.1, t.2.2)) ++ q.tails.filter (fun t => !tiles.contains t.1)
      let g : Pass → Pass := fun q =>
        { q with vChunk := m.vChunk, vOfs := m.vOfs, lChunk := m.lChunk, lSeg := m.lSeg, nextChunk := m.nextChunk,
                 chunksUsed := m.nextChunk, peak := max q.peak m.nextChunk, tails := tails, primsBinned := q.primsBinned + 1 }
      ((x.updPass pp g).count .gfxPrimBinnedCnt, .done)

/-! ### Direct mode (R261) -/

/-- The place of a pixel's cluster among the pass's. -/
def blockShare (n x y : Nat) : Nat := (x / 16 + y / 16) % max 1 n

def blockRect (bx by' : Nat) : Rect := { x0 := 16 * bx, y0 := 16 * by', x1 := 16 * bx + 16, y1 := 16 * by' + 16 }

/-- A triangle goes to the raster units of the clusters whose blocks it overlaps. -/
def rasterDirect (p x : Die) (pp : Fin 4) (q : Pass) (r : Prim) : Die :=
  let b := q.desc
  let w := q.drawOf r.drawNo
  let t := triOf (r.verts.map (fun v => v.1))
  let clip := (renderArea b).meet (scissorOf w)
  let n := q.tiles.length
  let blocks := ((List.range (ceilDiv (pHeight b) 16)).map (fun by' => (List.range (ceilDiv (pWidth b) 16)).filterMap (fun bx =>
    if overlapsRect t ((blockRect bx by').meet clip) then some (bx, by') else none))).flatten
  if blocks.isEmpty then countCulled x pp 1 else
  let x := q.tiles.foldl (fun (y : Die) f =>
    let mine := blocks.filter (fun k => (k.1 + k.2) % max 1 n == f.tile)
    if mine.isEmpty then y else
    let qs := (mine.map (fun k => quadsIn b w r f.nextOrder (blockRect k.1 k.2) blockCore)).flatten
    serveTile p (y.updFlight pp f.tile (fun f => f.takeQuads w r qs)) pp f.tile) x
  (x.updPass pp (fun q => { q with primsBinned := q.primsBinned + 1 })).count .gfxPrimBinnedCnt

/-! ### The reserve (R257, R258) -/

/-- MAP bytes with the bits of some chunks set or cleared. -/
def mapBits (m : List Byte) (cs : List Nat) (on : Bool) : List Byte :=
  (List.range m.length).map (fun i => cs.foldl (fun (v : Byte) c =>
    if c / 8 = i then (if on then v ||| ((1 : Byte) <<< (c % 8)) else v &&& ~~~((1 : Byte) <<< (c % 8))) else v) (m.getD i 0))

/-- Firmware reads the header of a context's reserve: BASE_VA, CHUNKS and MAP. -/
def readReserve (p x : Die) (pp : Fin 4) (q : Pass) : Die × Option (Nat × Nat × List Byte) :=
  match readUnit p x (.frontEnd pp) q.ctx (pReserveVa q.desc) 16 accRead with
  | (x, none) => (x, none)
  | (x, some h) =>
    let n := min 4096 (fieldNat h 8 4)
    match readUnit p x (.frontEnd pp) q.ctx (pReserveVa q.desc + 16) (ceilDiv n 8) accRead with
    | (x, none) => (x, none)
    | (x, some m) => (x, some (fieldNat h 0 8, n, m))

def writeMap (p x : Die) (pp : Fin 4) (q : Pass) (m : List Byte) : Die × Bool :=
  writeUnit p x (.frontEnd pp) q.ctx (pReserveVa q.desc + 16) m accWrite

/-- Extension chunks are handed back: firmware clears their MAP bits. -/
def returnChunks (p x : Die) (pp : Fin 4) (q : Pass) : Die × Bool :=
  if q.exts.isEmpty then (x, true) else
  match readReserve p x pp q with
  | (x, none) => (x, false)
  | (x, some (_, _, m)) =>
    match writeMap p x pp q (mapBits m q.exts false) with
    | (x, false) => (x, false)
    | (x, true) => (x.updPass pp (fun q => { q with exts := [] }), true)

/-- The hamper is exhausted for good: no tile is rendered (R258). -/
def exhausted (p x : Die) (pp : Fin 4) (q : Pass) : Die :=
  match returnChunks p x pp q with
  | (x, false) => x
  | (x, true) => endJob p ((x.flag .gfxFlags 1).count .gfxExhaustedCnt) q.job jsHamperExhausted

/-- No extension chunk comes: the pass rinses, or ends. -/
def giveUp (p x : Die) (pp : Fin 4) (q : Pass) : Die :=
  if pAllowRinse q.desc then x.updPass pp (fun q => { q.enter .rinse with nextTile := 0 }) else exhausted p x pp q

/-- Step 5 of R258 for a request that was made. -/
def extRefused (p x : Die) (pp : Fin 4) (q : Pass) : Die :=
  let x := (x.updPass pp (fun q => { q with extWait := none, extRefused := q.extRefused + 1 })).count .gfxExtRefusedCnt
  giveUp p x pp q

/-- Steps 1 and 5 of R258 where space cannot be reserved. -/
def outOfRoom (p x : Die) (pp : Fin 4) (q : Pass) : Die :=
  if !pAllowExtend q.desc then giveUp p x pp q
  else if q.exts.length < pExtMax q.desc then
    let now := x.time
    x.updPass pp (fun q => { q with extWait := some now })
  else giveUp p (x.count .gfxExtRefusedCnt) pp q

/-- A request that no older request of another pass precedes (R258, step 2). -/
def Die.oldestExt (x : Die) (t : DWord) : Bool :=
  pipeIds.all (fun p => match x.passes[p] with
    | some q => (match q.extWait with
      | some u => decide (t.toNat ≤ u.toNat)
      | none => true)
    | none => true)

/-- EXT_WAIT, in local µs. -/
def Die.extWaitUs (x : Die) : Nat := 4 * x.fld .gfxCfg [] 15 8

/-- Firmware's answer (R258): it grants the lowest free chunk, and refuses only when none is free, so that another refusal is
no answer. A grant that comes after EXT_WAIT is handed back, and the request counts as refused. -/
def extAnswerDie (pp : Fin 4) (grant : Bool) (p x : Die) : Die :=
  match x.passes[pp] with
  | none => x
  | some q =>
    match q.extWait with
    | none => x
    | some t =>
      if !x.running || !x.oldestExt t || q.frozen.isSome then x else
      match readReserve p x pp q with
      | (x, none) => x
      | (x, some (base, n, m)) =>
        match (List.range n).find? (fun c => !(m.getD (c / 8) 0).getLsbD (c % 8)) with
        | none => extRefused p x pp q
        | some c =>
          if !grant then x else
          if x.passed t x.extWaitUs then extRefused p x pp q else
          match writeMap p x pp q (mapBits m [c] true) with
          | (x, false) => x
          | (x, true) =>
            (x.updPass pp (fun q =>
              { q with extWait := none, exts := q.exts ++ [c], extBase := base, extGranted := q.extGranted + 1 })).count .gfxExtGrantCnt

def execExtAnswer (d : DieId) (p : Fin 4) (grant : Bool) (s : State) : Out := nextOn d (extAnswerDie p grant (s.die d.other)) s

def extTimeoutDie (pp : Fin 4) (p x : Die) : Die :=
  match x.passes[pp] with
  | none => x
  | some q =>
    match q.extWait with
    | none => x
    | some t => if x.running && q.frozen.isNone && x.passed t x.extWaitUs then extRefused p x pp q else x

def execExtWaitTimeout (d : DieId) (p : Fin 4) (s : State) : Out := nextOn d (extTimeoutDie p (s.die d.other)) s

/-! ### TRIANGLE_BIN -/

/-- Triangles fanned from the one in hand, in turn; the first that finds no room asks for an extension. -/
def binFan (p : Die) (pp : Fin 4) : List Prim → Die → Die
  | [], x => x
  | r :: rs, x =>
    match x.passes[pp] with
    | none => x
    | some q =>
      let x := x.updPass pp (fun q => { q with fan := r :: rs })
      if q.direct then binFan p pp rs ((rasterDirect p x pp q r).updPass pp (fun q => { q with fan := rs }))
      else match binPrim p x pp q r with
        | (x, .done) => binFan p pp rs (x.updPass pp (fun q => { q with fan := rs }))
        | (x, .stopped) => x
        | (x, .noRoom) => outOfRoom p x pp q

/-- The front end has work for a pass at its next primitive boundary. -/
def Pass.hasWork (q : Pass) : Bool :=
  q.extWait.isNone && !q.desc.isEmpty && (decide (q.stage = .binning) || decide (q.stage = .direct)) &&
  (!q.fan.isEmpty || (q.checked && decide (q.phase ≠ .folding) && decide (q.nextTri ≠ .wait)))

/-- R239: the highest class first, and among equals the pass served least recently. -/
def Die.frontServes (x : Die) (pp : Fin 4) (q : Pass) (j : Job) : Bool :=
  pipeIds.all (fun k => k == pp || (match frontPass x k with
    | none => true
    | some (r, i) => !r.hasWork || decide (dClass j.desc < dClass i.desc) ||
        (dClass j.desc == dClass i.desc && (decide (q.served < r.served) || (q.served == r.served && decide (pp.val < k.val))))))

def Die.serviceCount (x : Die) : Nat :=
  (pipeIds.map (fun k => match x.passes[k] with
    | some q => q.served
    | none => 0)).foldl max 0

def triangleBinDie (pp : Fin 4) (p x : Die) : Die :=
  match frontPass x pp with
  | none => x
  | some (q, j) =>
    if !q.hasWork || !x.frontServes pp q j then x else
    let turn := x.serviceCount + 1
    let x := x.updPass pp (fun q => { q with served := turn })
    if !q.fan.isEmpty then binFan p pp q.fan x else
    match q.nextTri with
    | .wait => x
    | .over => x.updPass pp Pass.nextInstance
    | .tri s k cs vs =>
      let (fan, culled) := shapeTriangle q.draw q.drawNo q.tri vs
      let x := (x.updPass pp (fun q =>
        { q with primsIn := q.primsIn + 1, tri := q.tri + 1, stripStart := s, stripTri := k + 1, cuts := cs })).count .gfxPrimInCnt
      binFan p pp fan (countCulled x pp culled)

def execTriangleBin (d : DieId) (p : Fin 4) (s : State) : Out := nextOn d (triangleBinDie p (s.die d.other)) s

end Sys2Proof.Machine
end

