-- ==== Sys2Proof/Machine/DisplayPix.lean ====
section
/-! DEFINITION. Sys2Proof/Machine/DisplayPix.lean: the pixel path of a display pipe (R295 to R301), its writeback formats
(R303) and the bytes of its tags (R305). Every stage is exact and rounds once, to nearest with ties to even. -/
namespace Sys2Proof.Machine

/-! ### Fields of a layer's configuration (R315) -/

def lWord (c : LayerCfg) (i : Nat) : Word := c.getD i 0
def lEn (c : LayerCfg) : Bool := (lWord c 0).getLsbD 31
def lZpos (c : LayerCfg) : Nat := wbits (lWord c 0) 30 28
def lPlaneAlpha (c : LayerCfg) : Nat := wbits (lWord c 0) 27 20
def lPremult (c : LayerCfg) : Bool := (lWord c 0).getLsbD 19
def lCsc (c : LayerCfg) : Nat := wbits (lWord c 0) 18 17
def lFenced (c : LayerCfg) : Bool := (lWord c 0).getLsbD 16
def lFormat (c : LayerCfg) : Nat := wbits (lWord c 0) 15 8
def lVa (c : LayerCfg) : Nat := (lWord c 1).toNat + wbits (lWord c 2) 15 0 * 2 ^ 32
def lCtx (c : LayerCfg) : Nat := wbits (lWord c 2) 25 16
def lUvOfs (c : LayerCfg) : Nat := (lWord c 3).toNat
def lPitch (c : LayerCfg) : Nat := 64 * wbits (lWord c 4) 15 0
def lUvPitch (c : LayerCfg) : Nat := 64 * wbits (lWord c 4) 31 16
def lSrcW (c : LayerCfg) : Nat := wbits (lWord c 5) 15 0
def lSrcH (c : LayerCfg) : Nat := wbits (lWord c 5) 31 16
def lDstW (c : LayerCfg) : Nat := wbits (lWord c 6) 15 0
def lDstH (c : LayerCfg) : Nat := wbits (lWord c 6) 31 16
def lPosX (c : LayerCfg) : Nat := wbits (lWord c 7) 15 0
def lPosY (c : LayerCfg) : Nat := wbits (lWord c 7) 31 16
def lFence (c : LayerCfg) : Nat := (lWord c 8).toNat + wbits (lWord c 9) 15 0 * 2 ^ 32
def lValue (c : LayerCfg) : DWord := BitVec.ofNat 64 ((lWord c 10).toNat + (lWord c 11).toNat * 2 ^ 32)

/-- V0 and V1 are video layers (R280). -/
def isVideo (l : Fin 8) : Bool := decide (l.val < 2)

def fmtNv12 : Nat := 0x40
def fmtNv16 : Nat := 0x41

/-- Bytes of a graphic pixel (R295). -/
def graphicBpp (f : Nat) : Nat := if f = 2 then 2 else if f = 4 then 8 else 4

/-- The extent of a layer: DST for video, SRC for graphic layers (R300). -/
def extentW (l : Fin 8) (c : LayerCfg) : Nat := if isVideo l then lDstW c else lSrcW c
def extentH (l : Fin 8) (c : LayerCfg) : Nat := if isVideo l then lDstH c else lSrcH c

/-- The layer is enabled and covers some pixel of an active line. -/
def coversLine (l : Fin 8) (c : LayerCfg) (hactive y : Nat) : Bool :=
  lEn c && decide (lPosY c ≤ y) && decide (y < lPosY c + extentH l c) && decide (lPosX c < hactive) && decide (0 < extentW l c)

/-! ### Rounding -/

/-- A fraction of one component step, clamped to 0 to 4,095 and rounded. -/
def clamp12 (n : Int) (d : Nat) : Nat := (min 4095 (max 0 (Frac.rne { n := n, d := d }))).toNat

/-! ### Scaling (R299) -/

/-- The source values that output `i` takes and their weights; and the sum of the weights. -/
def scaleWeights (src dst i : Nat) : List (Nat × Nat) × Nat :=
  if src = dst then ([(i, 1)], 1)
  else if dst < src then
    let lo := i * src
    let hi := (i + 1) * src
    let first := lo / dst
    (((List.range (ceilDiv hi dst - first)).map (fun k =>
      let j := first + k
      (j, min ((j + 1) * dst) hi - max (j * dst) lo))), src)
  else
    let u := min ((2 * i + 1) * src - dst) ((src - 1) * (2 * dst))
    let j := u / (2 * dst)
    let f := u % (2 * dst)
    (if f = 0 then [(j, 2 * dst)] else [(j, 2 * dst - f), (min (j + 1) (src - 1), f)], 2 * dst)

/-- An output value of one direction. -/
def scaleAt (s : Nat → Nat) (src dst i : Nat) : Nat :=
  let w := scaleWeights src dst i
  (Frac.rne { n := ((w.1.foldl (fun (a : Nat) q => a + q.2 * s q.1) 0 : Nat) : Int), d := w.2 }).toNat

/-! ### Source rows (R295, R296, R603) -/

/-- The source rows of one converted video row: luma row j as 2j, chroma row k as 2k + 1. -/
def videoKeys (c : LayerCfg) (j : Nat) : List Nat :=
  let last := lSrcH c / 2 - 1
  let chroma :=
    if lFormat c = fmtNv16 then [j]
    else if j % 2 = 0 then [j / 2 - 1, min (j / 2) last] else [j / 2, min (j / 2 + 1) last]
  2 * j :: chroma.dedup.map (fun k => 2 * k + 1)

/-- The rows that an output line takes, in ascending source lines. -/
def neededKeys (l : Fin 8) (c : LayerCfg) (y : Nat) : List Nat :=
  let i := y - lPosY c
  if isVideo l then
    ((scaleWeights (lSrcH c) (lDstH c) i).1.map (fun q => videoKeys c q.1)).flatten.foldl
      (fun (l : List Nat) k => if l.contains k then l else l ++ [k]) []
  else [2 * i]

/-- Where a row lies and its bytes. -/
def rowRange (l : Fin 8) (c : LayerCfg) (key : Nat) : Nat × Nat :=
  if !isVideo l then (lVa c + lPitch c * (key / 2), lSrcW c * graphicBpp (lFormat c))
  else if key % 2 = 0 then (lVa c + lPitch c * (key / 2), lSrcW c)
  else (lVa c + lUvOfs c + lUvPitch c * (key / 2), lSrcW c)

def rowOf (rows : List (Nat × List Byte)) (key : Nat) : List Byte := (rows.lookup key).getD []

/-! ### Graphic pixels (R295) -/

structure PixA where
  p : Pix
  a : Nat
  deriving DecidableEq, Repr

def expand10 (v : Nat) : Nat := v * 4 + v / 256

def graphicPix (f v : Nat) : PixA :=
  let e8 := fun (v : Nat) => v * 16 + v / 16
  let e5 := fun (v : Nat) => v * 128 + v * 4 + v / 8
  let eh := fun (v : Nat) => unorm 12 (readFloat fp16 v)
  match f with
  | 0x02 => { p := { r := e5 (bitsOf v 4 0), g := bitsOf v 10 5 * 64 + bitsOf v 10 5, b := e5 (bitsOf v 15 11) }, a := 4095 }
  | 0x03 => { p := { r := expand10 (bitsOf v 9 0), g := expand10 (bitsOf v 19 10), b := expand10 (bitsOf v 29 20) },
              a := bitsOf v 31 30 * 1365 }
  | 0x04 => { p := { r := eh (bitsOf v 15 0), g := eh (bitsOf v 31 16), b := eh (bitsOf v 47 32) }, a := eh (bitsOf v 63 48) }
  | _ => { p := { r := e8 (bitsOf v 7 0), g := e8 (bitsOf v 15 8), b := e8 (bitsOf v 23 16) }, a := e8 (bitsOf v 31 24) }

/-! ### Video pixels (R296, R297) -/

/-- Constants of CSC: KY, KR, KGb, KGr, KB; and whether the range is limited. -/
def cscOf (c : Nat) : Int × Int × Int × Int × Int × Bool :=
  match c with
  | 0 => (4769, 7343, 873, 2183, 8652, true)
  | 1 => (4096, 6450, 767, 1917, 7601, false)
  | 2 => (4769, 6876, 767, 2664, 8773, true)
  | _ => (4096, 6040, 674, 2340, 7706, false)

/-- Eight times a chroma component at a luma column of a row: exact (R296). -/
def chroma8 (c : LayerCfg) (rows : List (Nat × List Byte)) (j col comp : Nat) : Nat :=
  let lastC := lSrcW c / 2 - 1
  let lastR := lSrcH c / 2 - 1
  let at1 := fun (row k : Nat) => ((rowOf rows (2 * row + 1)).getD (2 * min k lastC + comp) 0).toNat
  let horiz := fun (row : Nat) => if col % 2 = 0 then 2 * at1 row (col / 2) else at1 row (col / 2) + at1 row (col / 2 + 1)
  if lFormat c = fmtNv16 then 4 * horiz j
  else if j % 2 = 0 then 3 * horiz (min (j / 2) lastR) + horiz (j / 2 - 1)
  else 3 * horiz (min (j / 2) lastR) + horiz (min (j / 2 + 1) lastR)

/-- A converted source pixel. -/
def videoPix (c : LayerCfg) (rows : List (Nat × List Byte)) (j col : Nat) : Pix :=
  let (ky, kr, kgb, kgr, kb, lim) := cscOf (lCsc c)
  let luma : Int := ((rowOf rows (2 * j)).getD col 0).toNat
  let y := 8 * (if lim then luma - 16 else luma)
  let cb : Int := (chroma8 c rows j col 0 : Int) - 1024
  let cr : Int := (chroma8 c rows j col 1 : Int) - 1024
  let out := fun (n : Int) => clamp12 (n * 4095) (8 * 4096 * 255)
  { r := out (ky * y + kr * cr), g := out (ky * y - kgb * cb - kgr * cr), b := out (ky * y + kb * cb) }

/-- A scaled video pixel: vertical first, each direction rounded (R299). -/
def scaledPix (c : LayerCfg) (rows : List (Nat × List Byte)) (xo yo : Nat) : Pix :=
  let go := fun (comp : Pix → Nat) =>
    scaleAt (fun col => scaleAt (fun j => comp (videoPix c rows j col)) (lSrcH c) (lDstH c) yo) (lSrcW c) (lDstW c) xo
  { r := go (fun p => p.r), g := go (fun p => p.g), b := go (fun p => p.b) }

/-! ### Blending (R300) -/

/-- The colour of DSP_PIPE_BG or DSP_PIPE_SAFE at 12 bits. -/
def colour10 (w : Word) : Pix :=
  { r := expand10 (wbits w 29 20), g := expand10 (wbits w 19 10), b := expand10 (wbits w 9 0) }

/-- One component of a layer blended over the pixel beneath. -/
def blend12 (premult : Bool) (plane a c d : Nat) : Nat :=
  let one := 4095 * 255
  let mine := if premult then c * plane * 4095 else c * a * plane
  clamp12 ((mine + d * (one - a * plane) : Nat) : Int) one

def blendPix (premult : Bool) (plane : Nat) (s : PixA) (d : Pix) : Pix :=
  let go := blend12 premult plane s.a
  { r := go s.p.r d.r, g := go s.p.g d.g, b := go s.p.b d.b }

/-- A layer as the composition of a line takes it. -/
structure LineLayer where
  l : Fin 8
  c : LayerCfg
  rows : List (Nat × List Byte)
  underrun : Option Nat
  deriving DecidableEq, Repr

/-- The layer's pixel at a column of the active line, where it covers it, blended over `d`. -/
def layerOver (safe : Pix) (x y : Nat) (d : Pix) (q : LineLayer) : Pix :=
  let c := q.c
  let xi := x - lPosX c
  let yi := y - lPosY c
  if x < lPosX c ∨ lPosX c + extentW q.l c ≤ x then d
  else if (match q.underrun with
      | some x0 => decide (x0 ≤ x)
      | none => false) then safe
  else if isVideo q.l then blendPix false (lPlaneAlpha c) { p := scaledPix c q.rows xi yi, a := 4095 } d
  else
    let bpp := graphicBpp (lFormat c)
    blendPix (lPremult c) (lPlaneAlpha c) (graphicPix (lFormat c) (fieldNat (rowOf q.rows (2 * yi)) (xi * bpp) bpp)) d

/-- Layers in ascending ZPOS, then L. -/
def blendOrder (ls : List LineLayer) : List LineLayer :=
  ((List.range 8).map (fun z => ls.filter (fun q => lZpos q.c == z))).flatten

/-- A composed line. -/
def composeLine (bg safe : Pix) (hactive y : Nat) (ls : List LineLayer) : List Pix :=
  let ls := blendOrder ls
  (List.range hactive).map (fun x => ls.foldl (layerOver safe x y) bg)

/-! ### Dither (R301) -/

def bayer : List Nat := [0, 8, 2, 10, 12, 4, 14, 6, 3, 11, 1, 9, 15, 7, 13, 5]

/-- The offset of the temporal rotation. -/
def ditherShift (temporal : Bool) (frame : Nat) : Nat × Nat :=
  if !temporal then (0, 0) else
  match frame % 4 with
  | 0 => (0, 0)
  | 1 => (2, 2)
  | 2 => (2, 0)
  | _ => (0, 2)

def dither12 (on temporal : Bool) (depth frame x y v : Nat) : Nat :=
  let s := 12 - depth
  let sh := ditherShift temporal frame
  let t := if on then bayer.getD (4 * ((y + sh.2) % 4) + (x + sh.1) % 4) 0 * 2 ^ s / 16 else 2 ^ (s - 1)
  min (2 ^ depth - 1) ((v + t) / 2 ^ s)

/-- A line at the panel's depth, under the words of DSP_PIPE_CTRL. -/
def ditherLine (ctrl : Word) (frame y : Nat) (l : List Pix) : List Pix :=
  let depth := 6 + 2 * wbits ctrl 4 3
  let go := dither12 (ctrl.getLsbD 5) (ctrl.getLsbD 6) depth frame
  (l.zip (List.range l.length)).map (fun q =>
    { r := go q.2 y q.1.r, g := go q.2 y q.1.g, b := go q.2 y q.1.b })

/-! ### Writeback and tags (R303, R305) -/

/-- A composed pixel as writeback stores it: RGBA8 or RGB10A2. -/
def writebackPix (f : Nat) (p : Pix) : List Byte :=
  let go := fun (n v : Nat) => (Frac.rne { n := ((v * (2 ^ n - 1) : Nat) : Int), d := 4095 }).toNat
  if f = 3 then leBytes 4 (go 10 p.r + go 10 p.g * 2 ^ 10 + go 10 p.b * 2 ^ 20 + 3 * 2 ^ 30)
  else leBytes 4 (go 8 p.r + go 8 p.g * 2 ^ 8 + go 8 p.b * 2 ^ 16 + 255 * 2 ^ 24)

/-- The bytes of a pixel in a tag. -/
def tagBytes (p : Pix) : List Byte := leBytes 2 p.r ++ leBytes 2 p.g ++ leBytes 2 p.b

end Sys2Proof.Machine
end

