-- ==== Sys2Proof/Machine/Packets.lean ====
section
/-! DEFINITION. Sys2Proof/Machine/Packets.lean: flits, packets and control blocks of the Dorkar links
(R388 to R398, R404). -/
namespace Sys2Proof.Machine

/-! ### Blocks and frames (R388 to R390) -/

/-- A block of a lane: its header h0, h1, in that order, and 16 payload bytes, bit 0 of byte 0 first (R388). -/
structure Block where
  h0 : Bool
  h1 : Bool
  payload : List Byte
  deriving DecidableEq, Repr

/-- What a header makes of its block (R389): data, control, or none for a block error. -/
def Block.isData (b : Block) : Option Bool :=
  if !b.h0 && b.h1 then some true else if b.h0 && !b.h1 then some false else none

/-- One payload bit through the self-synchronous scrambler x^58 + x^39 + 1 (R389): the bit sent, and the last 58 bits sent. -/
def scrambleBit (sent : BitVec 58) (v : Bool) : Bool × BitVec 58 :=
  let o := v ^^ sent.getLsbD 38 ^^ sent.getLsbD 57
  (o, (sent <<< 1) ||| (if o then 1 else 0))

/-- The payload bit of a bit received, and the last 58 bits received. -/
def descrambleBit (got : BitVec 58) (v : Bool) : Bool × BitVec 58 :=
  (v ^^ got.getLsbD 38 ^^ got.getLsbD 57, (got <<< 1) ||| (if v then 1 else 0))

/-- The data blocks of a frame in the order of its stream (R390): block time and lane. Lane k sends a control block at time 8k. -/
def frameBlocks : List (Nat × Nat) :=
  ((List.range 64).map (fun t => (List.range 8).map (fun k => (t, k)))).flatten.filter (fun q => q.1 != 8 * q.2)

/-- The 252 flits of a frame, from the payload of its data block at a time and lane (R390). -/
def frameFlits (payload : Nat → Nat → List Byte) : List (List Byte) :=
  let stream := (frameBlocks.map (fun q => payload q.1 q.2)).flatten
  (List.range 252).map (fun i => (stream.drop (32 * i)).take 32)

/-- A null flit (R393). -/
def nullFlit : List Byte :=
  List.replicate 28 0 ++ leBytes 4 (crc32c (leBytes 2 0x8000 ++ List.replicate 28 0)).toNat

/-! ### Packet operations and head fields (R396) -/

def pkPut : Nat := 1
def pkPutSignal : Nat := 2
def pkGet : Nat := 3
def pkAtomic : Nat := 4
def pkAck : Nat := 8
def pkData : Nat := 9

def Packet.op (k : Packet) : Nat := bitsOf (fieldNat k.head 0 1) 3 0
def Packet.dirMinus (k : Packet) : Bool := bitOf (fieldNat k.head 0 1) 4
def Packet.vc (k : Packet) : Bool := bitOf (fieldNat k.head 0 1) 5
def Packet.dest (k : Packet) : Nat := fieldNat k.head 1 2
def Packet.src (k : Packet) : Nat := fieldNat k.head 3 2
def Packet.ctx (k : Packet) : Nat := fieldNat k.head 5 2
def Packet.tag (k : Packet) : Nat := fieldNat k.head 7 2
def Packet.len (k : Packet) : Nat := fieldNat k.head 9 2
def Packet.aux (k : Packet) : Nat := fieldNat k.head 11 1
def Packet.va (k : Packet) : Nat := fieldNat k.head 12 6
def Packet.opnd (k : Packet) : Nat := fieldNat k.head 18 8

/-- A head flit's CONTENT (R396). -/
def mkHead (op : Nat) (minus vc : Bool) (ext dest src ctx tag len aux va opnd : Nat) : List Byte :=
  leBytes 1 (op + 16 * b2n minus + 32 * b2n vc + 64 * ext) ++ leBytes 2 dest ++ leBytes 2 src ++ leBytes 2 ctx ++
  leBytes 2 tag ++ leBytes 2 len ++ leBytes 1 aux ++ leBytes 6 va ++ leBytes 8 opnd ++ leBytes 2 0

/-- DIR and VC replaced: all that a router changes (R411). -/
def Packet.steer (k : Packet) (minus vc : Bool) : Packet :=
  let c := fieldNat k.head 0 1
  { k with head := putField k.head 0 (leBytes 1 (c % 16 + 16 * b2n minus + 32 * b2n vc + c / 64 * 64)) }

/-- A reply, as against a request. -/
def Packet.isReply (k : Packet) : Bool := decide (8 ≤ k.op)

/-- The buffer of a class and channel: REQ VC0, REQ VC1, RSP VC0, RSP VC1 (R398). -/
def Packet.buffer (k : Packet) : Fin 4 := Fin.ofNat 4 (2 * b2n k.isReply + b2n k.vc)

/-- Extension flits of a head (R396). -/
def headExt (h : List Byte) : Nat := bitsOf (fieldNat h 0 1) 7 6

/-- Data flits of a head (R395). -/
def headDataFlits (h : List Byte) : Nat :=
  let op := bitsOf (fieldNat h 0 1) 3 0
  if op = pkPut ∨ op = pkPutSignal ∨ op = pkData then ceilDiv (fieldNat h 9 2) 28 else 0

/-- A head flit that R397 calls a protocol error is not legal. -/
def headLegal (h : List Byte) : Bool :=
  let op := bitsOf (fieldNat h 0 1) 3 0
  let len := fieldNat h 9 2
  let aux := fieldNat h 11 1
  let cas := op == pkAtomic && aux % 8 == 7
  let lenOk := if op = pkPut ∨ op = pkGet ∨ op = pkData then decide (4 ≤ len) && decide (len ≤ 448) && len % 4 == 0
    else if op = pkPutSignal then decide (len ≤ 448) && len % 4 == 0 else len == 0
  [1, 2, 3, 4, 8, 9].contains op && headExt h == b2n (op == pkPutSignal || cas) &&
  decide (fieldNat h 1 2 < 32768) && decide (fieldNat h 3 2 < 32768) && decide (fieldNat h 5 2 < 1024) && lenOk &&
  (if op = pkAtomic then decide (aux < 32) else if op < 8 then aux == 0 else true) &&
  (decide (op < 8) || fieldNat h 13 5 == 0) && (op == pkAtomic || op == pkAck || fieldNat h 18 8 == 0) &&
  fieldNat h 26 2 == 0

/-- A packet from its flits' CONTENT. -/
def packetOf (fl : List (List Byte)) : Packet :=
  let h := fl.getD 0 []
  let n := headExt h
  { head := h, ext := ((fl.drop 1).take n).flatten, data := ((fl.drop (1 + n)).flatten).take (fieldNat h 9 2) }

def padTo (n : Nat) (bs : List Byte) : List Byte := bs ++ List.replicate (n - bs.length) 0

/-- 28-byte pieces of a packet's data. -/
def dataFlits : Nat → List Byte → List (List Byte)
  | 0, _ => []
  | k + 1, bs => padTo 28 (bs.take 28) :: dataFlits k (bs.drop 28)

/-- The flits of a packet, CONTENT only (R395). -/
def Packet.flits (k : Packet) : List (List Byte) :=
  [k.head] ++ (if headExt k.head = 0 then [] else [padTo 28 k.ext]) ++ dataFlits (headDataFlits k.head) k.data

/-- CRC of a flit over PREFIX and CONTENT (R392). -/
def flitCrc (pfx : Nat) (content : List Byte) : Nat := (crc32c (leBytes 2 pfx ++ content)).toNat

def flitPasses (flit : List Byte) (pfx : Nat) : Bool :=
  flit.length == 32 && fieldNat flit 28 4 == flitCrc pfx (flit.take 28)

/-! ### Control blocks (R398, R404) -/

/-- A link control block that is valid. -/
def linkBlockOk (b : List Byte) : Bool :=
  b.length == 16 && fieldNat b 0 1 == 1 && decide (fieldNat b 1 1 < 8) && fieldNat b 12 4 == (crc32c (b.take 12)).toNat

/-- A training control block that is valid. -/
def trainBlockOk (b : List Byte) : Bool :=
  b.length == 16 && fieldNat b 0 1 == 2 && decide (fieldNat b 1 1 < 8) && decide (1 ≤ fieldNat b 2 1) &&
  decide (fieldNat b 2 1 ≤ 3) && decide (fieldNat b 3 1 < 6) && fieldNat b 8 4 == 0 &&
  fieldNat b 12 4 == (crc32c (b.take 12)).toNat

end Sys2Proof.Machine
end

