-- ==== Sys2Proof/Machine/Links.lean ====
section
/-! DEFINITION. Sys2Proof/Machine/Links.lean: Dorkar links, the router, the remote requester and the link target engine
(11_dorkar_links.md). -/
namespace Sys2Proof.Machine

def dimIdx : Dim → Fin 3
  | .x => 0
  | .y => 1
  | .z => 2

/-- The link code of R404: die A owns the plus links, die B the minus links (R21). -/
def linkCode (d : DieId) (l : Fin 3) : Nat := 2 * l.val + d.toNat

def Die.link (x : Die) (l : Fin 3) : Link := x.torus.links[l]

def Die.updLink (x : Die) (l : Fin 3) (f : Link → Link) : Die :=
  { x with torus.links := vmod x.torus.links l f }

def Die.linkCount (x : Die) (l : Fin 3) (r : Reg) (n : Nat) : Die := x.countI r [linkCode x.id l] n

/-- Coordinates of a NODE field and ring sizes of a DIM field, by dimension (R404, R428). -/
def coordOf (v : Nat) (l : Fin 3) : Nat :=
  if l = 0 then bitsOf v 4 0 else if l = 1 then bitsOf v 9 5 else bitsOf v 13 10

def Die.node (x : Die) : Nat := wbits (x.reg .torNode) 13 0
def Die.ringSize (x : Die) (l : Fin 3) : Nat := coordOf (wbits (x.reg .torDim) 13 0) l + 1

/-! ### Link state (R403, R406) -/

/-- A link goes DOWN: its queues are discarded and counted, LINK_DOWN sets and a record is sent. Its transactions end by
timeout (R406). -/
def Die.linkDownOp (x : Die) (l : Fin 3) (cause : BitVec 3) : Die :=
  let k := x.link l
  if k.state = .disabled ∨ k.state = .down then x else
  let x := x.linkCount l .torDropCnt k.txQ.length
  let x := x.updLink l (fun k => { k with state := .down, cause := cause, since := x.time, goodBlocks := 0, rxPart := [],
                                          replay := [], txQ := [], nakFor := none, resends := 0 })
  ((x.linkCount l .torDownCnt 1).flag .torFlags 0).note clsLinkDown (.linkTarget (Fin.ofNat 7 (linkCode x.id l)))
    (FaultInfo.plain 0 cause.toNat)

/-- A link enters a training state. -/
def Die.linkEnter (x : Die) (l : Fin 3) (st : LinkState) : Die :=
  x.updLink l (fun k => { k with state := st, since := x.time, goodBlocks := 0 })

/-- A link comes UP: SEQ, E and the CRD counters start at 0. -/
def Die.linkUp (x : Die) (l : Fin 3) : Die :=
  x.updLink l (fun k => { k with state := .up, since := x.time, rxE := 0, rxNak := false, rxPart := [],
                                 freed := Vector.replicate 4 0, txSeq := 0, replay := [], sent := Vector.replicate 4 0,
                                 crd := Vector.replicate 4 0, nakFor := none, resends := 0, lastCb := x.time })

/-! ### Transmitter (R393, R399, R401) -/

/-- A packet's flits take sequence numbers and places in the replay buffer. -/
def sendFlits (k : Link) : List (List Byte) → Link
  | [] => k
  | c :: cs =>
    sendFlits { k with replay := k.replay ++ [(k.txSeq, c ++ leBytes 4 (flitCrc k.txSeq.toNat c))],
                       txSeq := k.txSeq + 1 } cs

/-- Free flits of a buffer at the far end (R401). -/
def freeFlits (k : Link) (i : Fin 4) : Nat := 256 - (k.sent[i] - k.crd[i]).toNat

/-- Packets start while credits and the replay buffer of 256 flits cover them whole. `fuel` bounds the packets. -/
def transmit : Nat → Link → Link
  | 0, k => k
  | n + 1, k =>
    match k.txQ with
    | [] => k
    | q :: rest =>
      let fl := q.flits
      if k.state = .up ∧ fl.length ≤ freeFlits k q.buffer ∧ k.replay.length + fl.length ≤ 256 then
        transmit n (sendFlits { k with txQ := rest,
                                       sent := vmod k.sent q.buffer (fun v => v + BitVec.ofNat 16 fl.length) } fl)
      else k

def Die.linkSend (x : Die) (l : Fin 3) : Die := x.updLink l (fun k => transmit k.txQ.length k)

/-! ### Receiver (R394, R397, R399) -/

/-- A flit error: NAK until a flit with SEQ = E arrives. Flits discarded meanwhile are not counted. -/
def flitError (x : Die) (l : Fin 3) : Die :=
  if (x.link l).rxNak then x
  else (x.updLink l (fun k => { k with rxNak := true })).linkCount l .torCrcErrCnt 1

/-- An accepted flit: E advances; the last flit of a packet completes it; an illegal head takes the link down. -/
def flitAccept (x : Die) (l : Fin 3) (content : List Byte) : Die :=
  let k := x.link l
  if k.rxPart.isEmpty && !headLegal content then x.linkDownOp l 7 else
  let fl := k.rxPart ++ [content]
  let h := fl.getD 0 []
  let whole := fl.length == 1 + headExt h + headDataFlits h
  x.updLink l (fun k => { k with rxE := k.rxE + 1, rxNak := false, rxPart := if whole then [] else fl,
                                 rxQ := if whole then k.rxQ ++ [packetOf fl] else k.rxQ })

def flitReceiveDie (l : Fin 3) (flit : List Byte) (blockErr : Bool) (x : Die) : Die :=
  let k := x.link l
  if k.state ≠ .up then x
  else if blockErr then flitError x l
  else if flitPasses flit k.rxE.toNat then flitAccept x l (flit.take 28)
  else if k.rxPart.isEmpty && flitPasses flit 0x8000 && (flit.take 28).all (fun b => b == 0) then x
  else flitError x l

def execFlitReceive (d : DieId) (l : Dim) (flit : List Byte) (blockErr : Bool) (s : State) : Out :=
  nextOn d (flitReceiveDie (dimIdx l) flit blockErr) s

/-! ### Link control blocks (R398, R399) -/

/-- SCLK cycles that `n` flits take on a link: 252 flits in 260 ns. -/
def flitCycles (n : Nat) : Nat := ceilDiv (n * 26) 63

/-- ACK frees flits before E; E advancing ends a run of resends. -/
def takeAck (k : Link) (e : BitVec 15) : Link :=
  let rest := k.replay.dropWhile (fun q => q.1 != e)
  let known := k.replay.any (fun q => q.1 == e) || decide (k.txSeq = e)
  if !known then k else
  let rest := if decide (k.txSeq = e) then [] else rest
  if rest.length < k.replay.length then { k with replay := rest, nakFor := none, resends := 0 }
  else { k with replay := rest }

def controlBlockDie (l : Fin 3) (b : List Byte) (x : Die) : Die :=
  let k := x.link l
  if k.state ≠ .up then x
  else if !linkBlockOk b then x.linkCount l .torCbErrCnt 1
  else
    let e : BitVec 15 := BitVec.ofNat 15 (fieldNat b 2 2)
    let nak := bitOf (fieldNat b 2 2) 15
    let crds : Vector (BitVec 16) 4 := Vector.ofFn (fun i : Fin 4 => BitVec.ofNat 16 (fieldNat b (4 + 2 * i.val) 2))
    let now := x.time
    let x := x.updLink l (fun k => { takeAck k e with lastCb := now, crd := crds })
    let k := x.link l
    if !nak then (x.updLink l (fun k => { k with nakFor := none })).linkSend l
    else if k.nakFor = some e ∧ x.time < k.resendEnd then x.linkSend l
    else if 16 ≤ k.resends then x.linkDownOp l 5
    else
      let till := now + BitVec.ofNat 64 (flitCycles k.replay.length)
      let again : Link → Link := fun k => { k with nakFor := some e, resends := k.resends + 1, resendEnd := till }
      ((x.updLink l again).linkCount l .torReplayCnt 1).linkSend l

def execLinkControlBlock (d : DieId) (l : Dim) (b : List Byte) (s : State) : Out :=
  nextOn d (controlBlockDie (dimIdx l) b) s

/-- The link control block that a lane of a link sends: the receiver's full state (R398). -/
def Link.controlBlock (k : Link) (lane : Fin 8) : List Byte :=
  let b := leBytes 1 1 ++ leBytes 1 lane.val ++ leBytes 2 (k.rxE.toNat + 2 ^ 15 * b2n k.rxNak) ++
    (k.freed.toList.map (fun v => leBytes 2 v.toNat)).flatten
  b ++ leBytes 4 (crc32c b).toNat

/-- The training control block that a lane of a link sends (R404); none where it does not train. -/
def trainBlockOf (x : Die) (l : Fin 3) (lane : Fin 8) : Option (List Byte) :=
  let st : Nat := match (x.link l).state with
    | .signal => 1
    | .align => 2
    | .exchange => 3
    | .disabled => 0
    | .up => 0
    | .down => 0
  let b := leBytes 1 2 ++ leBytes 1 lane.val ++ leBytes 1 st ++ leBytes 1 (linkCode x.id l) ++ leBytes 2 x.node ++
    leBytes 2 (wbits (x.reg .torDim) 13 0) ++ leBytes 4 0
  if st = 0 then none else some (b ++ leBytes 4 (crc32c b).toNat)

/-- No valid control block for 1 µs (R400). -/
def execLinkControlLoss (d : DieId) (l : Dim) (s : State) : Out :=
  nextOn d (guardDie (fun x => decide ((x.link (dimIdx l)).state = .up) && x.passed (x.link (dimIdx l)).lastCb 1)
    (fun x => x.linkDownOp (dimIdx l) 6)) s

/-! ### Training (R391, R403, R404) -/

/-- One header of a lane: locked after 64 valid in a row, unlocked by 16 invalid among 64. -/
def laneHeader (n : Lane) (h : BitVec 2) : Lane :=
  let ok := h == 1 || h == 2
  let win := (ok :: n.window).take 64
  let run := if ok then n.run + 1 else 0
  let bad := (win.filter (fun v => !v)).length
  { run := run, window := win, locked := if n.locked then decide (bad < 16) else decide (64 ≤ run) }

def execLaneLock (d : DieId) (l : Dim) (lane : Fin 8) (hdrs : List (BitVec 2)) (s : State) : Out :=
  nextOn d (fun x => x.updLink (dimIdx l) (fun k =>
    { k with lanes := vmod k.lanes lane (fun n => hdrs.foldl laneHeader n) })) s

/-- The partner passes R404: the opposite link, equal DIM, and the neighbouring NODE. -/
def partnerPasses (x : Die) (l : Fin 3) (b : List Byte) : Bool :=
  let code := linkCode x.id l
  let node := fieldNat b 4 2
  let ring := x.ringSize l
  let own := coordOf x.node l
  let want := if x.id = .a then (own + 1) % ring else (own + ring - 1) % ring
  fieldNat b 3 1 == Nat.xor code 1 && fieldNat b 6 2 == wbits (x.reg .torDim) 13 0 &&
  decide (node < 2 ^ 14) &&
  ([0, 1, 2] : List (Fin 3)).all (fun m => coordOf node m == (if m = l then want else coordOf x.node m))

/-- A training block from the partner; one that is not valid is ignored and counted (R398), and breaks the row of R403. -/
def trainingBlockDie (l : Fin 3) (b : List Byte) (x : Die) : Die :=
  if (x.link l).state ≠ .exchange then x
  else if !trainBlockOk b then (x.updLink l (fun k => { k with goodBlocks := 0 })).linkCount l .torCbErrCnt 1
  else
    let x := x.updLink l (fun k => { k with partnerLink := BitVec.ofNat 3 (fieldNat b 3 1),
                                            partnerNode := BitVec.ofNat 14 (fieldNat b 4 2) })
    if partnerPasses x l b then x.updLink l (fun k => { k with goodBlocks := k.goodBlocks + 1 })
    else x.linkDownOp l 4

def execTrainingBlockReceive (d : DieId) (l : Dim) (b : List Byte) (s : State) : Out :=
  nextOn d (trainingBlockDie (dimIdx l) b) s

/-- A training link meets its state's exit condition (R403). -/
def trainProgressDie (l : Fin 3) (f : LinkFound) (x : Die) : Die :=
  let k := x.link l
  match k.state with
  | .signal => x.linkEnter l .align
  | .align =>
    if (List.range 8).all (fun i => (k.lanes[Fin.ofNat 8 i]).locked) then
      (x.linkEnter l .exchange).updLink l (fun k => { k with reversed := f.reversed, pol := f.pol })
    else x
  | .exchange => if 8 ≤ k.goodBlocks then x.linkUp l else x
  | .disabled => x
  | .up => x
  | .down => x

def execLinkTrainProgress (d : DieId) (l : Dim) (f : LinkFound) (s : State) : Out :=
  nextOn d (trainProgressDie (dimIdx l) f) s

/-- A training state times out after 1 ms. A timeout of EXCHANGE carries cause 4 (DEDUCED, log 100: no partner passed). -/
def trainTimeoutDie (l : Fin 3) (x : Die) : Die :=
  let k := x.link l
  if !x.passed k.since 1000 then x else
  match k.state with
  | .signal => x.linkDownOp l 2
  | .align => x.linkDownOp l 3
  | .exchange => x.linkDownOp l 4
  | .disabled => x
  | .up => x
  | .down => x

def execLinkTrainTimeout (d : DieId) (l : Dim) (s : State) : Out := nextOn d (trainTimeoutDie (dimIdx l)) s

/-- The dies hold equal coordinates and ring sizes (R405). -/
def coordsAgree (p x : Die) : Bool := p.reg .torNode == x.reg .torNode && p.reg .torDim == x.reg .torDim

/-- With AUTO_RETRAIN, a DOWN link re-enters SIGNAL 1 ms later (R403); not while the dies' coordinates differ (R405). -/
def retrainDie (l : Fin 3) (p x : Die) : Die :=
  let k := x.link l
  if k.state = .down ∧ x.passed k.since 1000 ∧ (x.reg .torLinkCtrl).getLsbD 8 ∧ (x.reg .torLinkCtrl).getLsbD l.val ∧
     coordsAgree p x then x.linkEnter l .signal else x

def execLinkRetrain (d : DieId) (l : Dim) (s : State) : Out := nextOn d (retrainDie (dimIdx l) (s.die d.other)) s

/-- A link goes DOWN (R403, R406). -/
def execLinkDown (d : DieId) (l : Dim) (cause : BitVec 3) (s : State) : Out :=
  nextOn d (fun x => x.linkDownOp (dimIdx l) cause) s

/-! ### Routing (R407 to R412) -/

/-- The down mask of the ring of a dimension (R408): the TOR_DOWN register with the node's own links. -/
def downMask (p x : Die) (l : Fin 3) : Nat :=
  let r := x.reg (if l = 0 then .torDownX else if l = 1 then .torDownY else .torDownZ)
  let c := coordOf x.node l
  let ring := x.ringSize l
  let plus := if x.id = .a then x.link l else p.link l
  let minus := if x.id = .a then p.link l else x.link l
  let m := if plus.state = .up then r.toNat else Nat.lor r.toNat (2 ^ c)
  if minus.state = .up then m else Nat.lor m (2 ^ ((c + ring - 1) % ring))

/-- No bit of the mask stands at `n` positions from `a`. -/
def spanClear (m ring a n : Nat) : Bool := (List.range n).all (fun i => !bitOf m ((a + i) % ring))

/-- The direction into a dimension (R407): whether minus, or none. -/
def chooseDir (c t ring m : Nat) : Option Bool :=
  let plus := (t + ring - c) % ring
  let minus := ring - plus
  let plusOk := spanClear m ring c plus
  let minusOk := spanClear m ring t minus
  if plusOk && (decide (plus ≤ minus) || !minusOk) then some false
  else if minusOk then some true
  else none

/-- Where a packet goes from a router. -/
inductive Hop
  | drop
  | deliver
  | bridge (k : Packet)
  | link (l : Fin 3) (k : Packet)
  deriving DecidableEq, Repr

/-- The routing of one packet at a node. `stays`: it arrived over a link of this dimension, or over the bridge with its
direction chosen. -/
def routeHop (p x : Die) (src : RouteSrc) (k : Packet) : Hop :=
  let dest := k.dest
  let node := dest % 2 ^ 14
  if ([0, 1, 2] : List (Fin 3)).any (fun l => decide (x.ringSize l ≤ coordOf node l)) then .drop
  else match ([0, 1, 2] : List (Fin 3)).find? (fun l => coordOf node l != coordOf x.node l) with
  | none => if bitOf dest 14 == decide (x.id = .b) then .deliver else .bridge k
  | some l =>
    let stays := match src with
      | .link m => decide (dimIdx m = l)
      | .bridge => true
      | .local => false
    let ring := x.ringSize l
    let c := coordOf x.node l
    let dir := if stays then some k.dirMinus else chooseDir c (coordOf node l) ring (downMask p x l)
    match dir with
    | none => .drop
    | some minus =>
      let vc0 := stays && k.vc
      if minus == decide (x.id = .b) then
        let crosses := if minus then c == 0 else c + 1 == ring
        .link l (k.steer minus (vc0 || crosses))
      else .bridge (k.steer minus vc0)

/-- The oldest packet that waits at a source, and the die without it. A packet that leaves a link's buffer frees its
flits (R398). With it: whether a die of this node injected it. -/
def takeSource (x : Die) (src : RouteSrc) : Option ((Packet × Bool) × Die) :=
  match src with
  | .local => match x.torus.localQ with
    | [] => none
    | k :: r => some ((k, true), { x with torus.localQ := r })
  | .bridge => match x.torus.bridgeQ with
    | [] => none
    | k :: r => some (k, { x with torus.bridgeQ := r })
  | .link l => match (x.link (dimIdx l)).rxQ with
    | [] => none
    | k :: r => some ((k, false), x.updLink (dimIdx l) (fun t =>
        { t with rxQ := r, freed := vmod t.freed k.buffer (fun v => v + BitVec.ofNat 16 k.flits.length) }))

/-- The engine at which a delivered request arrived (R379): its link, or the bridge. -/
def arrivalPort (x : Die) (src : RouteSrc) : Fin 7 :=
  match src with
  | .link l => Fin.ofNat 7 (linkCode x.id (dimIdx l))
  | .local => 6
  | .bridge => 6

/-- One packet is routed, and counted where another node's leaves on a link (R411); the second answer is what crosses to the partner over the bridge (R410). -/
def routePacket (p x : Die) (src : RouteSrc) : Die × Option (Packet × Bool) :=
  match takeSource x src with
  | none => (x, none)
  | some ((k, own), y) =>
    match routeHop p x src k with
    | .drop => ((y.flag .torFlags 1).count .torNoRouteCnt, none)
    | .deliver =>
      (if k.isReply then { y with torus.replyQ := y.torus.replyQ ++ [k] }
       else { y with torus.targetQ := y.torus.targetQ ++ [(arrivalPort x src, k)] }, none)
    | .bridge k => if x.pair.bridgeUp then (y, some (k, own)) else (x, none)
    | .link l k =>
      if (y.link l).state ≠ .up then (y.linkCount l .torDropCnt 1, none) else
      let y := if own then y else y.linkCount l .torFwdPktCnt 1
      ((y.updLink l (fun t => { t with txQ := t.txQ ++ [k] })).linkSend l, none)

def execPacketRoute (d : DieId) (src : RouteSrc) (s : State) : Out :=
  let (x, k) := routePacket (s.die d.other) (s.die d) src
  let s := s.setDie d x
  match k with
  | none => .next s
  | some k => .next (s.onDie d.other (fun q => { q with torus.bridgeQ := q.torus.bridgeQ ++ [k] }))

/-! ### Link target engine (R416, R420, R378) -/

/-- STATUS codes of R421. -/
def rsOk : Nat := 0
def rsTimeout : Nat := 1
def rsTargetFault : Nat := 2
def rsNoContext : Nat := 3
def rsNotActive : Nat := 4
def rsLocalFault : Nat := 5
def rsBadRecord : Nat := 6
def rsPairedDenied : Nat := 7

/-- One atomic on a value of `w` bits (R155, R159): AOP, SIGNED, operand, and the new value of a compare-swap. -/
def atomicOp (w aop : Nat) (signed : Bool) (old opnd new : Nat) : Nat :=
  let m := 2 ^ w
  let o := old % m
  let v := opnd % m
  let s := fun (n : Nat) => if signed && decide (2 ^ (w - 1) ≤ n) then (n : Int) - m else (n : Int)
  match aop with
  | 0 => (o + v) % m
  | 1 => if s v < s o then v else o
  | 2 => if s o < s v then v else o
  | 3 => Nat.land o v
  | 4 => Nat.lor o v
  | 5 => Nat.xor o v
  | 6 => v
  | _ => if o = v then new % m else o

/-- A reply to a request (R396): it goes to the requester, which SRC names in a reply too. Its CTX is the requester's context,
which no request carries: a free value (log 158). -/
def replyPacket (x : Die) (q : Packet) (op status fclass opnd : Nat) (data : List Byte) : Packet :=
  { head := mkHead op false false 0 q.src q.src (Config.choice x.free % 1024) q.tag data.length status fclass opnd,
    ext := [], data := data }

/-- The target performs a request that its context admits. Answers status, fault class, old value and data. -/
def targetPerform (p x : Die) (port : Fin 7) (q : Packet) : Die × (Nat × Nat × Nat × List Byte) :=
  let m : Master := .linkTarget port
  let c := q.ctx
  let w := if bitOf q.aux 4 then 8 else 4
  let acc := if q.op = pkGet then accRead else if q.op = pkAtomic then accAtomic else accWrite
  let n := if q.op = pkAtomic then w else q.len
  let sigVa := fieldNat q.ext 0 6
  let us : List URange := (if n = 0 then [] else [{ va := q.va, len := n, acc := acc }]) ++
    (if q.op = pkPutSignal then [{ va := sigVa, len := 8, acc := accAtomic }] else [])
  let fault := fun (x : Die) (cls : Byte) (va : Nat) (fl : Byte) (d th : Nat) =>
    (x.note cls m { flags := fl ||| 0x10, ctx := c, va := va, detail := d, thing := th },
     (rsTargetFault, cls.toNat, 0, ([] : List Byte)))
  match tryUnit p x m c us with
  | (x, .error (.fault cls va fl d th)) => fault x cls va fl d th
  | (x, .error (.mig va ta _ l _ fl)) => fault x clsUnmapped va fl (walkDetail ta l) 0
  | (x, .ok pm) =>
    let reads := if q.op = pkGet ∨ q.op = pkAtomic then [(q.va, n)] else if q.op = pkPutSignal then [(sigVa, 8)] else []
    let (x, bad) := reads.foldl (fun (r : Die × Option Nat) u => match r.2 with
      | some _ => r
      | none => l2ReadRange p r.1 (paOf pm u.1) u.2) (x, none)
    match bad with
    | some ln => fault x clsDramParity q.va acc.flags ln (ln / 262144)
    | none =>
      if q.op = pkGet then (x, (rsOk, 0, 0, viewBytes x pm q.va n))
      else if q.op = pkAtomic then
        let old := ofLe (viewBytes x pm q.va w)
        let new := atomicOp (8 * w) (q.aux % 8) (bitOf q.aux 3) old q.opnd (fieldNat q.ext 0 8)
        (storeBytes p x c pm q.va (leBytes w new), (rsOk, 0, old, []))
      else
        let x := if n = 0 then x else storeBytes p x c pm q.va q.data
        if q.op = pkPutSignal then
          let old := ofLe (viewBytes x pm sigVa 8)
          let v := fieldNat q.ext 8 8
          (if old < v then storeBytes p x c pm sigVa (leBytes 8 v) else x, (rsOk, 0, 0, []))
        else (x, (rsOk, 0, 0, []))

/-- The link target engine takes a request, performs it and answers (R416, R420); in SAFE it performs nothing and answers
NOT_ACTIVE (R485); frozen, it takes nothing (R427). A die whose core domains stand still takes nothing. -/
def remoteTargetDie (p x : Die) : Die :=
  match x.torus.targetQ with
  | [] => x
  | (port, q) :: rest =>
    if x.torus.frozenTgt.isSome || !x.running || decide (x.dev = .hold) then x else
    let x := { x with torus.targetQ := rest }
    let cs := x.ctxState q.ctx
    let (x, st, fc, old, data) :=
      if x.dev ≠ .ready ∧ x.dev ≠ .active then (x, rsNotActive, 0, 0, ([] : List Byte))
      else if x.pair.role = .standby then (x, rsNotActive, 0, 0, [])
      else if cs = .free ∨ cs = .faulted ∨ q.ctx = 0 then (x, rsNoContext, 0, 0, [])
      else let (x, r) := targetPerform p x port q; (x, r.1, r.2.1, r.2.2.1, r.2.2.2)
    let x := if st = rsOk then x.count .torTgtCnt else x.count .torTgtFaultCnt
    let op := if q.op = pkGet ∧ st = rsOk then pkData else pkAck
    let y : Die := { x with torus.localQ := x.torus.localQ ++ [replyPacket x q op st fc old data] }
    y.tick

def execRemoteTargetOp (d : DieId) (s : State) : Out := nextOn d (remoteTargetDie (s.die d.other)) s

/-! ### Requester (R413 to R427) -/

def Die.updRing (x : Die) (c : Nat) (f : Ring → Ring) : Die :=
  { x with torus.rings := updWhere (fun r => r.ctx == c) f x.torus.rings }

def ringBase (r : Ring) : Nat := wbits r.lo 31 6 * 64 + wbits r.hi 15 0 * 2 ^ 32
def ringLog (r : Ring) : Nat := wbits r.hi 28 24
def ringOn (r : Ring) : Bool := r.hi.getLsbD 31

/-- The requester works: its die runs and is not in SAFE or HOLD, it is not frozen, and it is not a standby's
(R427, R485, R426). -/
def requesterOn (x : Die) : Bool :=
  x.running && (decide (x.dev = .active) || decide (x.dev = .ready)) && x.torus.frozenReq.isNone &&
  decide (x.pair.role ≠ .standby)

/-- The requester's own accesses never freeze it: a failing unit sends a record and answers none (R422). -/
def reqUnit (p x : Die) (c : Nat) (us : List URange) : Die × Except (Byte) PageMap :=
  match tryUnit p x .requester c us with
  | (x, .ok pm) => (x, .ok pm)
  | (x, .error (.fault cls va fl d th)) =>
    (x.note cls .requester { flags := fl, ctx := c, va := va, detail := d, thing := th }, .error cls)
  | (x, .error (.mig va ta _ l _ fl)) =>
    (x.note clsUnmapped .requester { flags := fl, ctx := c, va := va, detail := walkDetail ta l, thing := 0 },
     .error clsUnmapped)

def reqRead (p x : Die) (c va n : Nat) : Die × Except Byte (List Byte) :=
  match reqUnit p x c [{ va := va, len := n, acc := accRead }] with
  | (x, .error e) => (x, .error e)
  | (x, .ok pm) =>
    match (piecesOf va n).foldl (fun (r : Die × Option Nat) q => match r.2 with
        | some _ => r
        | none => l2ReadRange p r.1 (paOf pm q.1) q.2) (x, none) with
    | (x, none) => (x, .ok (viewBytes x pm va n))
    | (x, some ln) =>
      (x.note clsDramParity .requester { flags := 0, ctx := c, va := va, detail := ln, thing := ln / 262144 },
       .error clsDramParity)

def reqWrite (p x : Die) (c va : Nat) (bs : List Byte) : Die × Option Byte :=
  match reqUnit p x c [{ va := va, len := bs.length, acc := accWrite }] with
  | (x, .error e) => (x, some e)
  | (x, .ok pm) => (storeBytes p x c pm va bs, none)

def reqSignal (p x : Die) (c va v : Nat) : Die :=
  match reqUnit p x c [{ va := va, len := 8, acc := accAtomic }] with
  | (x, .error _) => x
  | (x, .ok pm) =>
    if ofLe (viewBytes x pm va 8) < v then storeBytes p x c pm va (leBytes 8 v) else x

/-- The requester reads PROD of each enabled ring in ascending context order (R414), with the CONS beside it where it does not
know its own: after a takeover (R426), or when the ring is new (log 157). -/
def ringPollDie (p x : Die) : Die :=
  if !requesterOn x then x else
  let cs := (List.range 1024).filter (fun c => x.torus.rings.any (fun r => r.ctx == c && ringOn r))
  cs.foldl (fun y c => match y.torus.rings.find? (fun r => r.ctx == c) with
    | none => y
    | some r => match reqRead p y c (ringBase r) (if r.known then 8 else 16) with
      | (y, .ok bs) => y.updRing c (fun r =>
          { r with prod := fieldNat bs 0 8, cons := if r.known then r.cons else fieldNat bs 8 8, known := true })
      | (y, .error _) => y) x

def execRingPoll (d : DieId) (s : State) : Out := nextOn d (ringPollDie (s.die d.other)) s

/-! #### Records (R415) -/

def recOp (b : List Byte) : Nat := fieldNat b 0 1
def recAux (b : List Byte) : Nat := fieldNat b 1 1
def recTarget (b : List Byte) : Nat := fieldNat b 2 2
def recTctx (b : List Byte) : Nat := fieldNat b 4 2
def recLocal (b : List Byte) : Nat := fieldNat b 8 8
def recRemote (b : List Byte) : Nat := fieldNat b 16 8
def recLen (b : List Byte) : Nat := fieldNat b 24 4
def recOperand (b : List Byte) : Nat := fieldNat b 32 8
def recValue2 (b : List Byte) : Nat := fieldNat b 40 8
def recSigVa (b : List Byte) : Nat := fieldNat b 48 8
def recCompVa (b : List Byte) : Nat := fieldNat b 56 8

/-- The record passes the checks of R415. -/
def recLegal (b : List Byte) : Bool :=
  let op := recOp b
  let al := if op = 4 then (if bitOf (recAux b) 4 then 8 else 4) else 4
  let len := recLen b
  decide (1 ≤ op) && decide (op ≤ 5) && (if op = 4 then decide (recAux b < 32) else recAux b == 0) &&
  (op == 5 || decide (recTarget b < 2 ^ 15)) && decide (recTctx b < 1024) && fieldNat b 6 2 == 0 &&
  fieldNat b 28 4 == 0 && recLocal b % al == 0 && recRemote b % al == 0 && len % 4 == 0 &&
  (if op = 1 ∨ op = 3 then decide (4 ≤ len) && decide (len ≤ 1073741824)
   else if op = 2 then decide (len ≤ 1073741824) else len == 0) &&
  (op != 2 || recSigVa b % 8 == 0) && recCompVa b % 16 == 0

/-- Transactions of a record (R416). -/
def recTrans (b : List Byte) : Nat :=
  match recOp b with
  | 1 => ceilDiv (recLen b) 448
  | 2 => if recLen b = 0 then 1 else ceilDiv (recLen b) 448
  | 3 => ceilDiv (recLen b) 448
  | 4 => 1
  | _ => 0

/-- Offset and bytes of transaction `i`. -/
def recPiece (b : List Byte) (i : Nat) : Nat × Nat :=
  if recOp b = 4 then (0, 0) else (448 * i, min 448 (recLen b - 448 * i))

/-- The signal transaction of a PUT_SIGNAL is its last. -/
def isSignal (r : RemRec) (i : Nat) : Bool := recOp r.bytes == 2 && i + 1 == recTrans r.bytes

def freeSlot (x : Die) : Option Nat :=
  (List.range 4096).find? (fun k => !(x.torus.trans.any (fun t => t.tag % 4096 == k)))

/-- The request packet of transaction `i`, with its local bytes. -/
def recPacket (x : Die) (b : List Byte) (i tag : Nat) (bytes : List Byte) : Packet :=
  let (o, n) := recPiece b i
  let op := recOp b
  let signal := op == 2 && i + 1 == recTrans b
  let pk := if op = 4 then pkAtomic else if op = 3 then pkGet else if signal then pkPutSignal else pkPut
  let cas := op == 4 && recAux b % 8 == 7
  let ext := if signal then padTo 28 (leBytes 6 (recSigVa b) ++ leBytes 2 0 ++ leBytes 8 (recValue2 b))
    else if cas then padTo 28 (leBytes 8 (recValue2 b)) else []
  { head := mkHead pk false false (b2n (signal || cas)) (recTarget b % 2 ^ 15) (x.node + 2 ^ 14 * x.id.toNat) (recTctx b)
      tag (if op = 4 then 0 else n) (if op = 4 then recAux b else 0) (recRemote b + o) (if op = 4 then recOperand b else 0),
    ext := ext, data := bytes }

def Die.updRec (x : Die) (c j : Nat) (f : RemRec → RemRec) : Die :=
  { x with torus.recs := updWhere (fun r => r.ctx == c && r.num == j) f x.torus.recs }

/-- Local bytes of a transaction, pre-walked before it is sent (R422). -/
def transLocal (p x : Die) (c : Nat) (b : List Byte) (i : Nat) : Die × Except Byte (List Byte) :=
  let (o, n) := recPiece b i
  let w := if bitOf (recAux b) 4 then 8 else 4
  match recOp b with
  | 3 => match reqUnit p x c [{ va := recLocal b + o, len := n, acc := accWrite }] with
    | (x, .ok _) => (x, .ok [])
    | (x, .error e) => (x, .error e)
  | 4 => if recLocal b = 0 then (x, .ok []) else
    match reqUnit p x c [{ va := recLocal b, len := w, acc := accWrite }] with
    | (x, .ok _) => (x, .ok [])
    | (x, .error e) => (x, .error e)
  | _ => if n = 0 then (x, .ok []) else reqRead p x c (recLocal b + o) n

/-- Sends transaction `i` of a record, or ends it with LOCAL_FAULT. -/
def sendTrans (p x : Die) (r : RemRec) (i slot : Nat) : Die :=
  let b := r.bytes
  match transLocal p x r.ctx b i with
  | (x, .error cls) =>
    x.updRec r.ctx r.num (fun r => { r with sent := i + 1, results := r.results ++ [(i, rsLocalFault, cls.toNat, 0)] })
  | (x, .ok bytes) =>
    let gen : BitVec 4 := ((x.torus.gens.lookup slot).map (fun g => g + 1)).getD 0
    let tag := slot + 4096 * gen.toNat
    let (o, n) := recPiece b i
    let t : Trans := { tag := tag, ctx := r.ctx, recNum := r.num, index := i, ofs := o,
                       len := if recOp b = 4 then (if bitOf (recAux b) 4 then 8 else 4) else n, op := recOp b,
                       target := BitVec.ofNat 16 (recTarget b), sent := x.time }
    let gens := (slot, gen) :: x.torus.gens.filter (fun g => g.1 != slot)
    ({ x with torus.gens := gens, torus.trans := x.torus.trans ++ [t],
              torus.localQ := x.torus.localQ ++ [recPacket x b i tag bytes] }.updRec r.ctx r.num
        (fun r => { r with sent := i + 1 })).count .torReqCnt

/-- Sends the transactions of a record in ascending offset while slots are free (R423); the signal of a PUT_SIGNAL waits
for every earlier one to be OK, and is not sent if one fails (R417). `fuel` bounds the transactions. -/
def sendAll (p : Die) : Nat → Die → Nat → Nat → Die
  | 0, x, _, _ => x
  | k + 1, x, c, j =>
    match x.torus.recs.find? (fun r => r.ctx == c && r.num == j) with
    | none => x
    | some r =>
      if r.total ≤ r.sent then x else
      let failed := r.results.any (fun q => q.2.1 != rsOk)
      if isSignal r r.sent && failed then
        if r.sent ≤ r.results.length then x.updRec c j (fun r => { r with total := r.sent }) else x
      else if isSignal r r.sent && decide (r.results.length < r.sent) then x
      else match freeSlot x with
        | none => x
        | some slot => sendAll p k (sendTrans p x r r.sent slot) c j

/-- CONS is written after a record's last transaction has been sent (R414). -/
def writeCons (p x : Die) (c j : Nat) : Die :=
  match x.torus.rings.find? (fun r => r.ctx == c) with
  | none => x
  | some r => ((reqWrite p x c (ringBase r + 8) (leBytes 8 j)).1).updRing c (fun r => { r with cons := j })

/-- Completion (R421): the words at 0x08, then the signal of SEQ. -/
def completeRec (p x : Die) (r : RemRec) (status fclass done : Nat) : Die :=
  let x := { x with torus.recs := x.torus.recs.filter (fun q => !(q.ctx == r.ctx && q.num == r.num)) }
  let cv := recCompVa r.bytes
  if cv = 0 then x else
  match reqWrite p x r.ctx (cv + 8) (leBytes 1 status ++ leBytes 1 fclass ++ leBytes 2 0 ++ leBytes 4 done) with
  | (x, some _) => x
  | (x, none) => reqSignal p x r.ctx cv r.num

/-- The status of a record whose transactions have all ended: of the failed one of lowest offset (R421). -/
def recOutcome (r : RemRec) : Nat × Nat × Nat :=
  let done := ((r.results.filter (fun q => q.2.1 == rsOk)).map (fun q => q.2.2.2)).sum
  match (List.range r.total).findSome? (fun i => r.results.find? (fun q => q.1 == i && q.2.1 != rsOk)) with
  | some q => (q.2.1, q.2.2.1, done)
  | none => (rsOk, 0, done)

/-- A record whose transactions have all ended completes; one whose last has been sent has its CONS written. -/
def settleRec (p x : Die) (c j : Nat) : Die :=
  match x.torus.recs.find? (fun r => r.ctx == c && r.num == j) with
  | none => x
  | some r =>
    let x := if decide (r.total ≤ r.sent) && !r.complete then
        (writeCons p x c j).updRec c j (fun r => { r with complete := true }) else x
    if decide (r.total ≤ r.sent) && decide (r.total ≤ r.results.length) then
      let (st, fc, n) := recOutcome r
      completeRec p x r st fc n
    else x

/-- A FENCE record is complete once the earlier records that it covers have completed (R418). -/
def fenceClear (x : Die) (c j : Nat) (b : List Byte) : Bool :=
  !(x.torus.recs.any (fun r => r.ctx == c && decide (r.num < j) &&
    (bitOf (recTarget b) 15 || recTarget r.bytes % 2 ^ 15 == recTarget b % 2 ^ 15)))

/-- The next record of a ring: read, checked and sent, or completed at once (R414, R415, R418, R426). A record being
sent goes on first. -/
def recordIssueDie (c : Nat) (p x : Die) : Die :=
  if !requesterOn x then x else
  match x.torus.rings.find? (fun r => r.ctx == c) with
  | none => x
  | some ring =>
    if !ringOn ring || !ring.known then x else
    let j := ring.cons + 1
    if x.torus.recs.any (fun r => r.ctx == c && r.num == j) then settleRec p (sendAll p 4097 x c j) c j
    else if ring.prod < j then x else
    match reqRead p x c (ringBase ring + 64 + 64 * ((j - 1) % 2 ^ ringLog ring)) 64 with
    | (x, .error _) => x
    | (x, .ok b) =>
      let r : RemRec := { ctx := c, num := j, bytes := b, total := recTrans b, sent := 0, results := [],
                          complete := false }
      let paired := match x.ctx? c with | some t => t.attr.getLsbD 0 | none => false
      if !recLegal b then completeRec p (writeCons p (x.count .torBadRecordCnt) c j) r rsBadRecord 0 0
      else if paired then completeRec p (writeCons p x c j) r rsPairedDenied 0 0
      else if recOp b = 5 then
        if fenceClear x c j b then completeRec p (writeCons p x c j) r rsOk 0 0 else x
      else settleRec p (sendAll p 4097 { x with torus.recs := x.torus.recs ++ [r] } c j) c j

def execRecordIssue (d : DieId) (ctx : Nat) (s : State) : Out := nextOn d (recordIssueDie ctx (s.die d.other)) s

/-- The remote timeout of a context in local µs; 0 selects 1 ms (R80). -/
def ctxTimeout (x : Die) (c : Nat) : Nat :=
  match x.ctx? c with
  | some t => if t.timeout = 0 then 1000 else t.timeout.toNat
  | none => 1000

/-- A transaction ends; its slot frees. -/
def endTrans (p x : Die) (t : Trans) (status fclass done : Nat) : Die :=
  let x := { x with torus.trans := x.torus.trans.filter (fun u => u.tag != t.tag) }
  settleRec p (x.updRec t.ctx t.recNum (fun r => { r with results := r.results ++ [(t.index, status, fclass, done)] }))
    t.ctx t.recNum

/-- A reply reaches the requester (R421, R424, R425). -/
def remoteReplyDie (p x : Die) : Die :=
  match x.torus.replyQ with
  | [] => x
  | q :: rest =>
    if !x.running || decide (x.dev = .hold) then x else
    let x := { x with torus.replyQ := rest }
    match x.torus.trans.find? (fun t => t.tag == q.tag) with
    | none => x.count .torLateCnt
    | some t =>
      if x.passed t.sent (ctxTimeout x t.ctx) then x.count .torLateCnt else
      let x := x.count .torRspCnt
      let st := q.aux
      let loc := ((x.torus.recs.find? (fun r => r.ctx == t.ctx && r.num == t.recNum)).map (fun r =>
        recLocal r.bytes)).getD 0
      let data := if t.op = 3 then q.data else leBytes t.len q.opnd
      if st = rsOk ∧ (t.op = 3 ∨ (t.op = 4 ∧ loc ≠ 0)) then
        match reqWrite p x t.ctx (loc + t.ofs) data with
        | (x, none) => endTrans p x t rsOk 0 t.len
        | (x, some cls) => endTrans p x t rsLocalFault cls.toNat 0
      else endTrans p x t st (fieldNat q.head 12 1) (if st = rsOk then t.len else 0)

def execRemoteReply (d : DieId) (s : State) : Out := nextOn d (remoteReplyDie (s.die d.other)) s

/-- A transaction is unanswered within its context's TIMEOUT (R424). It is recorded against the context's jobs that have a
folded share (R339). -/
def remoteTimeoutDie (tag : Nat) (p x : Die) : Die :=
  match x.torus.trans.find? (fun t => t.tag == tag) with
  | none => x
  | some t =>
    if !x.passed t.sent (ctxTimeout x t.ctx) then x else
    let x := ((x.flag .torFlags 2).count .torTimeoutCnt).note clsRemoteTimeout .requester
      (FaultInfo.plain t.ctx (t.tag + 65536 * t.target.toNat))
    let late : Job → Job := fun j =>
      if j.ctx = t.ctx ∧ j.state = .running ∧ j.shares.any (fun h => decide (h.state = .folded)) then { j with timedOut := true } else j
    endTrans p { x with jobs.list := x.jobs.list.map late } t rsTimeout 0 0

def execRemoteTimeout (d : DieId) (tag : Nat) (s : State) : Out := nextOn d (remoteTimeoutDie tag (s.die d.other)) s

end Sys2Proof.Machine
end

