-- ==== Sys2Proof/Machine/Pair.lean ====
section
/-! DEFINITION. Sys2Proof/Machine/Pair.lean: the die pair (01_die_pair.md): configuration of the pair, the bridge's slots,
partner loss and takeover, comparison of paired results, the initial copy into SPARE (R17 to R50). -/
namespace Sys2Proof.Machine

/-! ### CMD_PAIR_CFG (R26, R50) -/

def cfgMode (w : Word) : Nat := wbits w 1 0
def cfgActiveDie (w : Word) : Nat := wbits w 2 2
def cfgPairedPipes (w : Word) : Nat := wbits w 11 8
def cfgHbLimit (w : Word) : Nat := wbits w 15 12
def cfgCmpTimeout (w : Word) : Nat := wbits w 23 16
def cfgAutoFailover (w : Word) : Bool := w.getLsbD 4

/-- R99 for CMD_PAIR_CFG: a value that no field may take. -/
def pairCfgBad (v : Word) : Bool := cfgMode v == 3 || decide (cfgHbLimit v < 4) || cfgCmpTimeout v == 0

/-- R26: writes are refused while the bridge is down, or PARTNER_LOST or DEGRADED is set on the die addressed. -/
def Die.pairCfgRefused (x : Die) : Bool :=
  !x.pair.bridgeUp || x.pair.degraded || (x.reg .cmdPairFlags).getLsbD 2

/-- A write through die A's window reached the die within one bridge latency: 48 FCLK cycles, which are 30 SCLK cycles
(R19, R26). -/
def Die.cfgTied (x : Die) : Bool := x.pair.cfgByA.any (fun t => decide (x.since t ≤ 30))

/-- Both dies' shadows take the value; the press of either die then concerns its die-pair logic (R26, R468). A write
through die B's window within one bridge latency of one through die A's leaves die A's value. -/
def pairCfgWrite (s : State) (d : DieId) (v : Word) : State :=
  let put : Die → Die := fun x => x.writeShadow .cmdPairCfg [] v
  match d with
  | .a => s.onBoth (fun x => { put x with pair.cfgByA := some x.time })
  | .b => if s.b.cfgTied then s else s.onBoth put

/-- CMD_PAIR_CFG_WRITE (R26). -/
def execCmdPairCfgWrite (d : DieId) (v : Word) (s : State) : Out :=
  let x := s.die d
  if !x.running || pairCfgBad v || x.pairCfgRefused then .next s else .next (pairCfgWrite s d v)

/-! ### The bridge (R17 to R19) -/

/-- A slot of 40 bytes passes its CRC-32C: a 32-byte flit, a 4-byte header and the CRC of both (R17). -/
def slotPasses (slot : List Byte) : Bool := slot.length == 40 && fieldNat slot 36 4 == (crc32c (slot.take 36)).toNat

/-- A class of R18 in the order of its table. -/
def bridgeRow : BridgeClass → Fin 4
  | .ctl => 0
  | .cmp => 1
  | .mir => 2
  | .tor => 3

/-- An end of the bridge is marked down, with its record; mirroring stops (R19, R41). A standby that has lost its partner
keeps MIRROR_SYNC, for a FAILOVER. -/
def Die.bridgeDown (x : Die) : Die :=
  ({ x with pair.bridgeUp := false, pair.mirrorSync := x.pair.lost && x.pair.mirrorSync, pair.copying := false,
            pair.slotFails := Vector.replicate 4 0,
            pair.ctlOut := [], pair.cmpOut := [], pair.mirOut := [],
            pipes := x.pipes.map (fun t => { t with pairLocked := false }) } : Die).note clsBridgeDown .pairLogic (FaultInfo.plain 0 0)

/-- BRIDGE_SLOT_RECEIVE (R19): a bad slot is resent from its sender's replay buffer, and the sender counts the resend; after
16 failed resends of it in a row both dies mark the bridge down. The slot that a class waits for is the one that failed
there (log 131). A good CTL slot shows that the partner is alive (R41). -/
def execBridgeSlotReceive (d : DieId) (cls : BridgeClass) (slot : List Byte) (s : State) : Out :=
  let x := s.die d
  if !x.pair.bridgeUp then .next s
  else if slotPasses slot then
    .next (s.onDie d (fun x =>
      let y := { x with pair.slotFails := vmod x.pair.slotFails (bridgeRow cls) (fun _ => 0) }
      if cls = .ctl then y.heardCtl else y))
  else if x.pair.slotFails[bridgeRow cls] < 16 then
    .next ((s.onDie d (fun x => { x with pair.slotFails := vmod x.pair.slotFails (bridgeRow cls) (· + 1) })).onDie d.other
      (fun y => y.count .cmdBridgeReplayCnt))
  else .next (s.onBoth Die.bridgeDown)

/-- ALIVE_WIRE_TOGGLE (R41). -/
def execAliveWireToggle (d : DieId) (s : State) : Out := 
  nextOn d (fun x => { x with pair.lastAlive := x.time, pair.heard := true }) s

/-! ### The partner and the output pin (R41, R42, R45) -/

/-- The partner has been silent on its alive wire and on CTL for HB_LIMIT × 4 local µs. -/
def Die.partnerSilent (x : Die) : Bool :=
  let n := 4 * cfgHbLimit (x.reg .cmdPairCfg)
  x.passed x.pair.lastAlive n && x.passed x.pair.lastCtl n

/-- TAKEOVER_OUTPUT_OWNER (R42, R45): die B pulls PK_OUTPUT_OWNER low from 10 local µs into its takeover, and refreshes it
from then on. -/
def execTakeoverOutputOwner (d : DieId) (s : State) : Out :=
  nextOn d (fun x => match x.pair.takeover with
    | some t => if x.id = .b ∧ x.pair.role = .primary ∧ x.dev = .active ∧ x.passed t 10 then
        { x with pair.pulls := some x.time } else x
    | none => x) s

/-- TAKEOVER_JOB_RESTART (R42). -/
def execTakeoverJobRestart (d : DieId) (s : State) : Out :=
  nextOn d (fun x => match x.pair.takeover with
    | some t => if x.passed t 20 && decide (x.dev = .active) then { x with pair.jobsRestarted := true } else x
    | none => x) s

/-- OUTPUT_OWNER_RELEASE (R45): 40 µs after the latest refresh. -/
def execOutputOwnerRelease (d : DieId) (s : State) : Out :=
  nextOn d (fun x => match x.pair.pulls with
    | some t => if x.passed t 40 then { x with pair.pulls := none } else x
    | none => x) s

/-- PK_OUTPUT_OWNER is low: die B pulls it (R45). -/
def State.ownerLow (s : State) : Bool := s.b.pair.pulls.isSome

/-! ### What a survivor does, and what a standby holds (R37, R38) -/

/-- The job is released without comparison, marked unchecked (R37). -/
def uncheckedJob (j : Job) : Job :=
  if j.paired ∧ j.pairOk = none then { j with pairOk := some true, flags := j.flags ||| jfUnchecked } else j

/-- A paired job that ended OK is released; one that was late is counted now (R351). -/
def passPaired (x : Die) (slot : Nat) (f : Job → Job) : Die :=
  match x.job? slot with
  | none => x
  | some j =>
    let y := x.updJob slot f
    if j.flags &&& jfLate = 0 then y else y.count .jobLateCnt

/-- A surviving die of a PAIRED pair: die A releases its finished paired jobs unchecked, die B gives up its copies of
paired contexts (R37). -/
def pairSurvivor (p x : Die) : Die :=
  if x.pair.mode ≠ 1 then x
  else if x.id = .a then
    let done := (x.jobs.list.filter (fun j => j.tagged && j.pairOk.isNone)).map (fun j => j.slot)
    { done.foldl (fun y k => passPaired y k uncheckedJob) x with
             pair.tags := x.pair.tags.filter (fun t => match t.item with
               | .job _ => false
               | .pipe _ => true) }
  else ((x.cmd.ctxs.filter (fun t => t.attr.getLsbD 0 && decide (t.state ≠ .faulted))).map (fun t => t.num)).foldl
    (fun y c => killContext p y c) x

/-- The job table that a standby holds for its partner (R38): the partner's own, or what a reset of it has left here. -/
def mirroredJobs (p x : Die) : Jobs := if p.jobs.list.isEmpty then x.jobs else p.jobs

/-- The context states that a standby holds for its partner (R38); a partner that was reset has left them here. -/
def mirrorCtxs (p x : Die) : Die :=
  { x with cmd.ctxs := x.cmd.ctxs.map (fun t => match p.ctx? t.num with
      | some u => { t with state := u.state, faultCnt := u.faultCnt }
      | none => t) }

/-! ### Comparison (R29, R33 to R35, R307, R311) -/

/-- The implicit list of a render pass: each image that it writes, row by row (R29). -/
def implicitRanges (b : List Byte) : List (List (Nat × Nat)) :=
  let rows := fun (va pitch n : Nat) => (List.range (pHeight b)).map (fun y => (va + 64 * pitch * y, n))
  ((pAtts b).map (fun q =>
    (if q.2.stores then [rows q.2.va q.2.pitch (pSamples b * pWidth b * q.2.bpp)] else []) ++
    (if q.2.resolves then [rows q.2.resolveVa q.2.rpitch (pWidth b * q.2.bpp)] else []))).flatten

/-- CRC-32 of the pieces of a range, read as the job's path reads; none while a read is held. -/
def crcPieces (p x : Die) (j : Job) (ps : List (Nat × Nat)) : Die × Option Word :=
  let (x, r) := ps.foldl (fun (r : Die × Option Word) q => match r.2 with
    | none => r
    | some c => match readUnits p r.1 (.cmdProc j.ctx (some j.slot)) j.ctx q.1 q.2 with
      | (x, some bs) => (x, some (crc32Run c bs))
      | (x, none) => (x, none)) (x, some 0xFFFFFFFF)
  (x, r.map (fun c => c ^^^ 0xFFFFFFFF))

/-- The ranges of a paired job's comparison: its compare list, or the implicit list of a pass. -/
def compareRanges (p x : Die) (j : Job) : Die × Option (List (List (Nat × Nat))) :=
  let m := Master.cmdProc j.ctx (some j.slot)
  if dKind j.desc = 1 ∧ dCmpCount j.desc = 0 then
    match readUnit p x m j.ctx (dWorkVa j.desc) 256 accRead with
    | (x, some b) => (x, some (implicitRanges b))
    | (x, none) => (x, none)
  else
    match readUnit p x m j.ctx (dCmpVa j.desc) (16 * dCmpCount j.desc) accRead with
    | (x, some b) => (x, some ((List.range (dCmpCount j.desc)).map (fun i =>
        [(fieldNat b (16 * i) 8 % 2 ^ 48, fieldNat b (16 * i + 8) 4)])))
    | (x, none) => (x, none)

/-- The tags of a paired job, formed by the check engine; none while a read is held. -/
def formTags (p x : Die) (j : Job) : Die × Option (List Word) :=
  match compareRanges p x j with
  | (x, none) => (x, none)
  | (x, some rs) => rs.foldl (fun (r : Die × Option (List Word)) q => match r.2 with
    | none => r
    | some ts => match crcPieces p r.1 j q with
      | (x, some t) => (x, some (ts ++ [t]))
      | (x, none) => (x, none)) (x, some [])

/-- The record of a mismatch or timeout (R490). -/
def jobPairDetail (j : Job) : FaultInfo := { flags := 0, ctx := j.ctx, va := 0, detail := j.id.toNat, thing := j.id.toNat }

def isJobTag (slot : Nat) (t : TagWait) : Bool :=
  match t.item with
  | .job k => k == slot
  | .pipe _ => false

/-- A paired job is not released (R33, R35): it ends with PAIR_MISMATCH. -/
def failPaired (x : Die) (j : Job) (timeout : Bool) : Die :=
  let x := { x with pair.tags := dropFirst (isJobTag j.slot) x.pair.tags }
  let fl : Byte := if timeout then jfPairTimeout else 0
  let x := x.updJob j.slot (fun t =>
    { t with status := some jsPairMismatch, pairOk := some false, flags := t.flags ||| fl, theirTags := none })
  if timeout then
    ((x.flag .cmdPairFlags 1).count .cmdPairTimeoutCnt).note clsPairTimeout .pairLogic (jobPairDetail j)
  else ((x.flag .cmdPairFlags 0).count .cmdPairMismatchCnt).note clsPairMismatch .pairLogic (jobPairDetail j)

/-- A job is released once both dies' comparisons report a match (R34). A partner whose comparison did not match, or timed
out, releases nothing, and neither does this die. -/
def decideJob (x : Die) (slot : Nat) : Die :=
  match x.job? slot with
  | none => x
  | some j =>
    match j.myVote, j.theirVote with
    | some .agree, some .agree =>
      passPaired { x with pair.tags := dropFirst (isJobTag slot) x.pair.tags } slot (fun t => { t with pairOk := some true })
    | some .agree, some .mismatch => failPaired x j false
    | some .agree, some .timeout => failPaired x j true
    | _, _ => x

/-- A die's own comparison is done: its vote goes over CMP. -/
def castVote (x : Die) (j : Job) (v : Vote) : Die :=
  { x with pair.cmpOut := x.pair.cmpOut ++ [CmpMsg.vote j.ctx j.key v] }.updJob j.slot (fun t =>
    { t with myVote := some v, theirTags := none })

/-- A die compares its tags of a job with its partner's (R33, R34). -/
def compareJob (x : Die) (j : Job) (mine theirs : List Word) : Die :=
  if mine = theirs then decideJob (castVote x j .agree) j.slot
  else failPaired (castVote x j .mismatch) j false

/-- PAIR_CHECK_DONE (R33): the tags of a paired job that has ended OK are formed and sent; without a partner the job of
die A is released unchecked (R37). -/
def pairCheckDie (slot : Nat) (p x : Die) : Die :=
  match x.job? slot with
  | none => x
  | some j =>
    if !j.paired || j.state ≠ .ended || j.status ≠ some jsOk || j.tagged || j.pairOk.isSome || j.held.isSome ||
        !x.running then x else
    if x.pair.lost then passPaired x slot uncheckedJob else
    match formTags p x j with
    | (x, none) => x
    | (x, some ts) =>
      let x := x.updJob slot (fun t => { t with tagged := true, myTags := ts })
      let w : TagWait := { item := .job slot, frame := 0, tags := ts.map some, passed := 0, since := x.time }
      let x := { x with pair.cmpOut := x.pair.cmpOut ++ [CmpMsg.job j.ctx j.key ts], pair.tags := x.pair.tags ++ [w] }
      match j.theirTags with
      | some us => compareJob x j ts us
      | none => x

def execPairCheckDone (d : DieId) (slot : Nat) (s : State) : Out := nextOn d (pairCheckDie slot (s.die d.other)) s

/-- DETAIL of a pipe's record: frame, regions, pipe (R490). -/
def pipePairDetail (q : Fin 4) (frame : Word) (regions : Nat) : FaultInfo :=
  { flags := 0, ctx := 0, va := 0, detail := frame.toNat + regions * 2 ^ 32 + q.val * 2 ^ 48 + 2 ^ 63,
    thing := frame.toNat + q.val * 2 ^ 32 + 2 ^ 63 }

def isPipeTag (q : Fin 4) (frame : Word) (t : TagWait) : Bool :=
  match t.item with
  | .pipe r => decide (r = q) && t.frame == frame
  | .job _ => false

/-- Regions whose tags differ, and whether every formed region passes on both dies (R311). -/
def regionsDiffer (mine theirs : List (Option Word)) : Nat :=
  (List.range 16).foldl (fun m r => if mine.getD r none = theirs.getD r none then m else m + 2 ^ r) 0

def regionsPass (mine theirs : List (Option Word)) (mp tp : BitVec 16) : Bool :=
  (List.range 16).all (fun r => (mine.getD r none).isNone && (theirs.getD r none).isNone ||
    (mine.getD r none == theirs.getD r none && mp.getLsbD r && tp.getLsbD r))

/-- A paired pipe's tags of a frame are compared (R311). -/
def comparePipe (x : Die) (q : Fin 4) (t : TagWait) (theirs : List (Option Word)) (tp : BitVec 16) : Die :=
  let diff := regionsDiffer t.tags theirs
  let x := { x with pair.tags := dropFirst (isPipeTag q t.frame) x.pair.tags }
  let x := x.updPipe q (fun u => { u with pairResult := some (regionsPass t.tags theirs t.passed tp) })
  if diff = 0 then x else
  let is := [q.val]
  let x := x.setRegI .dspTagMismatch is (x.regI .dspTagMismatch is ||| BitVec.ofNat 32 (diff * 65536))
  ((((x.flagI .dspPipeFlags is 3).countI .dspPairMmCnt is 1).flag .cmdPairFlags 0).count .cmdPairMismatchCnt).note
    clsPairMismatch .pairLogic (pipePairDetail q t.frame diff)

/-- The partner's tags of a pipe's frame came too late (R35, R311). -/
def pipeTimeout (x : Die) (q : Fin 4) (frame : Word) : Die :=
  let is := [q.val]
  let x := { x with pair.tags := dropFirst (isPipeTag q frame) x.pair.tags }
  let x := x.updPipe q (fun u => { u with pairResult := some false })
  ((((x.flagI .dspPipeFlags is 4).countI .dspPairTimeoutCnt is 1).flag .cmdPairFlags 1).count .cmdPairTimeoutCnt).note
    clsPairTimeout .pairLogic (pipePairDetail q frame 0)

/-- A message over CMP can be taken: a frame's tags wait until the local frame has ended. -/
def cmpReady (x : Die) (m : CmpMsg) : Bool :=
  match m with
  | .job _ _ _ => true
  | .vote _ _ _ => true
  | .frame q n _ _ => x.pair.tags.any (isPipeTag q n) || decide (n.toNat < (x.pipes[q]).frame.toNat)

/-- Tags of the partner are taken and compared, and its votes are counted; those of an item that is no longer compared are
dropped. -/
def takeTags (x : Die) (m : CmpMsg) : Die :=
  match m with
  | .job c k ts =>
    (match x.jobByKey c k with
     | none => x
     | some j =>
       if j.pairOk.isSome then x
       else if j.tagged then compareJob x j j.myTags ts
       else x.updJob j.slot (fun t => { t with theirTags := some ts }))
  | .vote c k v =>
    (match x.jobByKey c k with
     | none => x
     | some j =>
       if j.pairOk.isSome then x else decideJob (x.updJob j.slot (fun t => { t with theirVote := some v })) j.slot)
  | .frame q n ts tp =>
    (match x.pair.tags.find? (isPipeTag q n) with
     | some t => comparePipe x q t ts tp
     | none => x)

/-- PAIR_TAGS_RECEIVE (R34). -/
def execPairTagsReceive (d : DieId) (s : State) : Out :=
  let x := s.die d
  let p := s.die d.other
  if !x.running || !x.pair.bridgeUp then .next s else
  match p.pair.cmpOut.find? (cmpReady x) with
  | none => .next s
  | some m => .next ((s.onDie d (fun x => takeTags x m)).onDie d.other (fun p =>
      { p with pair.cmpOut := dropFirst (cmpReady x) p.pair.cmpOut }))

/-- PAIR_COMPARE_TIMEOUT (R35): CMP_TIMEOUT × 4 local µs after the local tags were ready. A partner's vote that is still
outstanding then counts as its tags would (DESIGN CHOICE, log 132). -/
def compareTimeoutDie (item : PairItem) (x : Die) : Die :=
  match x.pair.tags.find? (fun t => decide (t.item = item)) with
  | none => x
  | some t =>
    if !x.passed t.since (4 * cfgCmpTimeout (x.reg .cmdPairCfg)) then x else
    match item with
    | .job slot =>
      (match x.job? slot with
       | some j => failPaired (castVote x j .timeout) j true
       | none => x)
    | .pipe q => pipeTimeout x q t.frame

def execPairCompareTimeout (d : DieId) (item : PairItem) (s : State) : Out := nextOn d (compareTimeoutDie item) s

/-! ### Applying CMD_PAIR_CFG (R24, R25, R27, R49, R50) -/

/-- The conditions of R24 on one die. -/
def modeChangeOk (x : Die) (old new active : Nat) : Bool :=
  !x.anyJob && x.pair.bridgeUp && !x.pair.lost &&
  !(old == 1 && new != 1 && x.cmd.ctxs.any (fun t => t.attr.getLsbD 0)) &&
  !(new == 2 && old != 2 && x.id.toNat != active && !x.cmd.ctxs.isEmpty)

/-- What a PRESS that carries a changed CMD_PAIR_CFG meets: none: it may issue (R22, R24, R25). A PRESS that R24 and R22 both
refuse is answered WRONG_STATE, which R84 leaves open (DESIGN CHOICE, log 133). -/
def pairPressRefused (p x : Die) : Option Byte :=
  if !x.press.dirty.getLsbD 43 then none else
  let old := x.reg .cmdPairCfg
  let new := x.shadowI .cmdPairCfg []
  let m := x.pair.mode.toNat
  let full := modeChangeOk x m (cfgMode new) (cfgActiveDie new) && modeChangeOk p m (cfgMode new) (cfgActiveDie new)
  if cfgMode new ≠ m then
    if !full then some stWrongState
    else if cfgMode new ≠ 0 ∧ (x.dram.fittedGib ≠ p.dram.fittedGib ∨ x.sec.fwMeas ≠ p.sec.fwMeas) then some stPairRefused
    else none
  else if m = 2 ∧ cfgActiveDie new ≠ cfgActiveDie old then some stWrongState
  else if m = 1 ∧ cfgPairedPipes new ≠ cfgPairedPipes old ∧ !full then some stWrongState
  else none

/-- The role of a die in a mode (R23). -/
def roleOf (d : DieId) (mode active : Nat) : Role :=
  match mode with
  | 1 => if d = .a then .primary else .secondary
  | 2 => if d.toNat = active then .primary else .standby
  | _ => .independent

/-- Die B's pipe shadows die A's: PAIRED mode and its bit of PAIRED_PIPES (R23). -/
def Die.shadows (x : Die) (q : Fin 4) : Bool :=
  decide (x.id = .b) && x.pair.mode == 1 && bitOf (cfgPairedPipes (x.reg .cmdPairCfg)) q.val

/-- The lanes of a pipe that begins or ends to shadow go idle, or back to the configuration held for them (R23, R27). The
pipe is frame-locked from then on, or released. -/
def followPipes (old x : Die) : Die :=
  { x with pipes := Vector.ofFn (fun q : Fin 4 =>
      let t := x.pipes[q]
      if x.shadows q == old.shadows q then t else { t with trained := false, rate := 0, pairLocked := x.shadows q, startDue := false }) }

/-- A mode takes force, with its roles; the pin is pulled by an active die B (R23, R45). -/
def enterMode (w : Word) (x : Die) : Die :=
  { x with pair.mode := BitVec.ofNat 2 (cfgMode w), pair.role := roleOf x.id (cfgMode w) (cfgActiveDie w),
           pair.pulls := if cfgMode w = 2 ∧ cfgActiveDie w = 1 ∧ x.id = .b then some x.time else none }

/-- The pair configuration that the pending press carries is in force on a die (R23, R25, R27, R310): a press that leaves
MODE unchanged touches neither role nor pin. A press that changes MODE can be undone until it is acknowledged (R49). -/
def setPairCfg (w : Word) (x : Die) : Die :=
  let y := x.setReg .cmdPairCfg (rwpMerge .cmdPairCfg (x.reg .cmdPairCfg) w)
  let y := if cfgMode w = x.pair.mode.toNat then y
    else { enterMode w y with pair.undo := some (x.reg .cmdPairCfg) }
  let y := followPipes x y
  { y with press.dirty := y.press.dirty &&&
             ~~~(if y.press.behind.getLsbD 43 ∨ y.shadowI .cmdPairCfg [] ≠ y.reg .cmdPairCfg then 0 else bit44 43) }

/-- A mode press that was not acknowledged is refused (R49): the die keeps its old mode. -/
def undoPairCfg (x : Die) : Die :=
  match x.pair.undo with
  | none => x
  | some w => followPipes x { enterMode w (x.setReg .cmdPairCfg w) with pair.undo := none, pair.mirrorSync := false }

/-- A standby that leaves SPARE is wiped (R27): what it mirrored of the active die's contexts goes with its memory. -/
def endStandby (y : Die) : Die :=
  { y with dram.fill := y.dram.fill ++ [.full], pair.mirrorSync := false, cmd.ctxs := [],
           xlt.own := y.xlt.own.filter (fun e => decide (e.1 < y.xlt.fwGranules)), xlt.share := [], xlt.vms := [],
           xlt.tlb := [], xlt.near := [], xlt.walk := [] }

/-- The die-pair logic of a die applies the press (R27, R50): into SPARE it begins the initial copy; out of SPARE the
standby is wiped first; every other change is in force on both dies at once and the partner confirms it over CTL. A die
that has lost its partner applies the change alone, but refuses one of the mode (R49). -/
def pairApply (s : State) (d : DieId) : State :=
  let x := s.die d
  let w := x.pressedI .cmdPairCfg []
  let old := x.pair.mode.toNat
  let mark := fun (x : Die) => (x.setUnitEpoch 43).unitAcks 43
  let s := s.onDie d mark
  let confirm := fun (y : Die) => { y with pair.ctlOut := y.pair.ctlOut ++ [CtlMsg.pairApplied x.press.epoch] }
  if x.pair.lost then s.onDie d (fun y => (if cfgMode w = old then setPairCfg w y else y).unitAcked 43)
  else if cfgMode w = 2 ∧ old ≠ 2 then
    s.onBoth (fun y => if y.id.toNat = cfgActiveDie w then { y with pair.copying := true } else y)
  else if old = 2 ∧ cfgMode w ≠ 2 then
    (s.onBoth (fun y => if y.pair.role = .standby then endStandby y
        else { y with pair.mirrorSync := false, pair.mirOut := [] })).onBoth
      (setPairCfg w)
  else (s.onBoth (setPairCfg w)).onDie d.other confirm

def CtlMsg.applied (m : CtlMsg) : Option Word :=
  match m with
  | .pairApplied e => some e
  | _ => none

/-- PAIR_CFG_CONFIRM (R50): the partner's confirmation arrives and the local die-pair logic acknowledges the press. -/
def execPairCfgConfirm (d : DieId) (s : State) : Out :=
  let x := s.die d
  let p := s.die d.other
  let hit : CtlMsg → Bool := fun m => m.applied.isSome
  match p.pair.ctlOut.find? hit with
  | none => .next s
  | some m =>
    if !x.pair.bridgeUp then .next s else
    .next ((s.onDie d (fun x =>
      if m.applied = some x.press.epoch ∧ x.press.behind.getLsbD 43 ∧ x.press.applied.getLsbD 43 ∧ !x.lateUnit 43 then
        { x.heardCtl.unitAcked 43 with pair.confirmed := m.applied, pair.undo := none } else x.heardCtl)).onDie d.other
      (fun p => { p with pair.ctlOut := dropFirst hit p.pair.ctlOut, pair.undo := none }))

/-! ### The initial copy (R27, R28) -/

/-- Words of live granules whose parity error persists: no standby copy exists yet (R28). -/
def copyErrors (p x : Die) : Die :=
  (x.dram.spoiled.filter (fun w => ownState (x.ownEntry (8 * w / 262144)) == 1)).foldl (fun (y : Die) w =>
    ((persistentError p (y.countN .fltDramRereadCnt 2) w false).1).note clsDramParity (.dram (channelOf (8 * w)))
      (FaultInfo.mk 0 0 0 (8 * w) (8 * w / 262144))) x

/-- An entry of the model measurement list that a load in progress reserved is free again. -/
def keepVerified (e : Option ModelEnt) : Option ModelEnt :=
  match e with
  | some m => if m.verified then some m else none
  | none => none

/-- The standby receives what the active die holds: memory with the wipes that its fill engine still owes, configuration with
the remote rings, verified models, ownership, and contexts with their executed streams. -/
def mirrorAll (x y : Die) : Die :=
  let keep := fun (a : Nat × Word) => match regAt a.1 with
    | some (r, _) => decide (r.info.rwp ≠ 0) || decide (r.info.rw ≠ 0)
    | none => false
  let put := fun (mine theirs : WordMap) => (theirs.filter keep).foldl (fun (m : WordMap) e =>
    spSet regReset m e.1 e.2) (mine.filter (fun e => !keep e))
  let ran : Ctx → Ctx := fun t => { t with stream := t.stream.executed }
  { y with dram.cells := x.dram.cells, dram.spoiled := x.dram.spoiled,
           dram.fill := x.dram.fill.filter (fun f => match f with
             | .granule _ => true
             | .full => false
             | .frame _ _ _ _ => false),
           torus.rings := x.torus.rings, sec.models := x.sec.models.map keepVerified, regs := put y.regs x.regs,
           shadow := put y.shadow x.shadow,
           press := if y.press.behind ≠ 0 then y.press else
             { y.press with epoch := x.press.epoch, activeEpoch := x.press.epoch, unitEpoch := x.press.unitEpoch,
                            pressed := x.press.pressed, dirty := x.press.dirty &&& ~~~bit44 43 },
           cmd.ctxs := x.cmd.ctxs.map ran, cmd.stream0 := x.cmd.stream0.executed, xlt.own := x.xlt.own,
           xlt.share := x.xlt.share, xlt.vms := x.xlt.vms, xlt.tlb := [], xlt.near := [], xlt.walk := [], pair.mirrorSync := true,
           pipes := Vector.ofFn (fun q : Fin 4 => { (y.pipes[q]) with
             en := (x.pipes[q]).en, frame := (x.pipes[q]).frame, layers := (x.pipes[q]).layers }) }

/-- SPARE_INITIAL_COPY_DONE (R27): on the die that copies. The press timeout counts from now. -/
def execSpareInitialCopyDone (d : DieId) (s : State) : Out :=
  let x := s.die d
  if !x.pair.copying || !x.pair.bridgeUp || x.pair.lost then .next s else
  let s := s.onDie d (copyErrors (s.die d.other))
  let e := if (s.die d).press.behind.getLsbD 43 then d else d.other
  let w := (s.die e).pressedI .cmdPairCfg []
  let s := s.onDie d (fun x => { x with pair.copying := false, pair.mirrorSync := true, pair.mirOut := [] })
  let s := (s.onDie d.other (fun y => mirrorAll (s.die d) y)).onBoth (setPairCfg w)
  .next ((s.onDie e (fun y => { y with press.issued := y.time })).onDie e.other (fun y =>
    { y with pair.ctlOut := y.pair.ctlOut ++ [CtlMsg.pairApplied (s.die e).press.epoch] }))

end Sys2Proof.Machine
end

