-- ==== Sys2Proof/Machine/Display.lean ====
section
/-! DEFINITION. Sys2Proof/Machine/Display.lean: the display pipes (08_composition.md): presses at the frame boundary, layer
fences, fetching and composing lines, tags and verdicts, paired pipes, frozen pipes (R280 to R316, R603, R604). -/
namespace Sys2Proof.Machine

/-! ### Presses (R284 to R289) -/

/-- A register of a pipe in a set of pressed words. -/
def pw (m : WordMap) (r : Reg) (is : List Nat) : Word := spGet (fun _ => r.info.reset) m (r.addr is)

def pressedLayer (m : WordMap) (q : Fin 4) (l : Fin 8) : LayerCfg := layerRegs.map (fun r => pw m r [q.val, l.val])

/-- Fields of HTIMING, VTIMING, SYNC and PCLK. -/
structure Timing where
  htotal : Nat
  hactive : Nat
  vtotal : Nat
  vactive : Nat
  sync : Word
  pclk : Nat
  deriving DecidableEq, Repr

def timingOf (m : WordMap) (q : Fin 4) : Timing :=
  let h := pw m .dspPipeHtiming [q.val]
  let v := pw m .dspPipeVtiming [q.val]
  { htotal := wbits h 31 16, hactive := wbits h 15 0, vtotal := wbits v 31 16, vactive := wbits v 15 0,
    sync := pw m .dspPipeSync [q.val], pclk := wbits (pw m .dspPipePclk [q.val]) 20 0 }

/-- R281, but for the fetch load. -/
def timingOk (t : Timing) (dsc : Bool) : Bool :=
  decide (64 ≤ t.hactive) && decide (t.hactive ≤ 7680) && (dsc || decide (t.hactive ≤ 5120)) &&
  decide (64 ≤ t.vactive) && decide (t.vactive ≤ 4320) && decide (25000 ≤ t.pclk) && decide (t.pclk ≤ 1100000) &&
  decide (t.hactive + 32 ≤ t.htotal) && decide (t.hactive + 4 * (wbits t.sync 7 0 + wbits t.sync 15 8) ≤ t.htotal) &&
  decide (t.vactive + 8 ≤ t.vtotal) && decide (t.vactive + wbits t.sync 23 16 + wbits t.sync 29 24 ≤ t.vtotal)

/-- R298 for a video layer. -/
def ratiosOk (c : LayerCfg) : Bool :=
  let sw := lSrcW c
  let sh := lSrcH c
  let dw := lDstW c
  let dh := lDstH c
  let vmax := if sw ≤ 4096 then 4 else 2
  decide (2 ≤ sw) && decide (sw ≤ 8192) && sw != 4097 && decide (2 ≤ sh) && decide (sh ≤ 4320) && decide (1 ≤ dw) &&
  decide (dw ≤ 7680) && decide (1 ≤ dh) && decide (dh ≤ 4320) && decide (dw ≤ 8 * sw) && decide (sw ≤ 4 * dw) &&
  decide (dh ≤ 8 * sh) && decide (sh ≤ vmax * dh)

/-- R286 for an enabled layer. -/
def layerOk (l : Fin 8) (c : LayerCfg) : Bool :=
  let f := lFormat c
  let fence := !lFenced c || aligned (lFence c) 8
  if isVideo l then
    (f == fmtNv12 || f == fmtNv16) && aligned (lVa c) 2 && aligned (lUvOfs c) 2 && aligned (lSrcW c) 2 &&
    (f == fmtNv16 || aligned (lSrcH c) 2) && ratiosOk c && decide (lSrcW c ≤ lPitch c) && decide (lSrcW c ≤ lUvPitch c) && fence
  else
    (f == 1 || f == 2 || f == 3 || f == 4) && aligned (lVa c) (if f = 4 then 8 else 4) &&
    decide (lSrcW c * graphicBpp f ≤ lPitch c) && fence

/-- Bytes per output line of a layer, as a fraction (R292). -/
def layerLoad (l : Fin 8) (c : LayerCfg) : Frac :=
  if !isVideo l then Frac.ofInt ((lSrcW c * graphicBpp (lFormat c) : Nat) : Int)
  else
    let r : Nat × Nat := if lSrcH c ≤ lDstH c then (1, 1) else (lSrcH c, lDstH c)
    { n := (((if lFormat c = fmtNv12 then 3 else 4) * lSrcW c * r.1 : Nat) : Int), d := 2 * max 1 r.2 }

/-- The fetch load meets its budget (R292). -/
def loadOk (t : Timing) (wb : Bool) (ls : List (Fin 8 × LayerCfg)) : Bool :=
  let load := ls.foldl (fun (a : Frac) q => a.add (layerLoad q.1 q.2))
    (Frac.ofInt ((if wb then 4 * t.hactive else 0 : Nat) : Int))
  (load.mul (Frac.ofInt (t.pclk : Int))).le (Frac.ofInt ((32 * t.htotal * 640000 : Nat) : Int))

/-- Lane rates by code, in Mbit/s (DSP_PORT_CTRL). -/
def portRates : List Nat := [1620, 2160, 2430, 2700, 3240, 4320, 5400, 8100]

def portLanes (ctrl : Word) : Nat := 2 ^ wbits ctrl 29 28
def portEdp (ctrl : Word) : Bool := ctrl.getLsbD 31
def portDsc (ctrl : Word) : Bool := ctrl.getLsbD 16
def portFec (ctrl : Word) : Bool := portDsc ctrl && !portEdp ctrl

/-- Bits per pixel × 16 on the port. -/
def portBits16 (ctrl dsc pipe : Word) : Nat :=
  if portDsc ctrl then wbits dsc 9 0 else 16 * 3 * (6 + 2 * wbits pipe 4 3)

/-- The bandwidth of R537 at a rate code. -/
def bandwidthOk (ctrl dsc pipe : Word) (pclk rate : Nat) : Bool :=
  decide (pclk * portBits16 ctrl dsc pipe * 10 * 1000 ≤
    portLanes ctrl * (portRates.getD rate 0 * 1000) * 8 * 16 * (if portFec ctrl then 976 else 1000))

/-- R537: MAX_RATE and the bandwidth at it. -/
def portOk (ctrl dsc pipe : Word) (pclk : Nat) : Bool :=
  let r := wbits ctrl 27 24
  (portEdp ctrl || r == 0 || r == 3 || r == 6 || r == 7) && bandwidthOk ctrl dsc pipe pclk r

/-- R538. -/
def dscOk (dsc pipe : Word) (t : Timing) : Bool :=
  let n := 2 ^ wbits dsc 13 12
  let h := wbits dsc 31 16
  let bpp := wbits dsc 9 0
  wbits pipe 4 3 != 0 && t.hactive % n == 0 && decide (t.hactive / n ≤ 2560) && h != 0 && t.vactive % h == 0 &&
  decide (128 ≤ bpp) && decide (bpp ≤ 255)

/-- The checks of R286, over the parts that the shadow set enables. -/
def pipePressOk (m : WordMap) (q : Fin 4) : Bool :=
  let ctrl := pw m .dspPipeCtrl [q.val]
  let t := timingOf m q
  let en := ctrl.getLsbD 0
  let out := wbits ctrl 2 1
  let wb := decide (2 ≤ out)
  let port := pw m .dspPortCtrl [q.val]
  let dsc := pw m .dspPortDsc [q.val]
  let ls := (layerIds.map (fun l => (l, pressedLayer m q l))).filter (fun e => lEn e.2)
  let wbc := pw m .dspPipeWbCfg [q.val]
  let wbf := wbits wbc 15 8
  let tagMode := fun (r : Nat) => wbits (pw m .dspTagCtrl [q.val]) (2 * r + 1) (2 * r)
  ls.all (fun e => layerOk e.1 e.2) &&
  (List.range 16).all (fun r => tagMode r == 0 ||
    (decide (wbits (pw m .dspTagX [q.val, r]) 15 0 ≤ wbits (pw m .dspTagX [q.val, r]) 31 16) &&
     decide (wbits (pw m .dspTagY [q.val, r]) 15 0 ≤ wbits (pw m .dspTagY [q.val, r]) 31 16))) &&
  (!wb || ((wbf == 1 || wbf == 3) && aligned (pw m .dspPipeWbLo [q.val]).toNat 64 &&
    decide (4 * t.hactive ≤ 64 * wbits wbc 31 16))) &&
  (!en || (timingOk t (portDsc port) && loadOk t wb ls && (out % 2 == 0 || portOk port dsc ctrl t.pclk) &&
    (!portDsc port || dscOk dsc ctrl t)))

/-- A press brings a layer its configuration (R288, R289): a fenced one waits, another is shown at once; one that waited is
discarded and counted. -/
def pressLayer (m : WordMap) (q : Fin 4) (x : Die) (l : Fin 8) : Die :=
  let new := pressedLayer m q l
  let lay := (x.pipes[q]).layers[l]
  let old := lay.pending.getD lay.active
  if new = old then x else
  let is := [q.val, l.val]
  let x := if lay.pending.isSome then (x.flagI .dspPipeFlags [q.val] 1).countI .dspLayerSkipCnt is 1 else x
  let set : Layer → Layer := fun u =>
    if lEn new && lFenced new then { u with pending := some new } else { u with active := new, pending := none }
  x.updPipe q (fun t => { t with layers := vmod t.layers l set })

/-- Frame 0 or the frame in hand begins afresh. -/
def freshFrame (t : Pipe) : Pipe :=
  let clear : Layer → Layer := fun u => { u with lines := [], underrun := none }
  { t with line := 0, vblank := true, crc := List.replicate 16 0xFFFFFFFF, wbLines := 0, out := [], underrun := false,
           layers := t.layers.map clear }

/-- What an applied press does to the pipe's state: enabling restarts the frame count, enabling or a change of timing
restarts the pixel PLL (R283, R287), and a change of the port's words has the port trained again (R536). -/
def pipeMode (old new : List Word) (portChanged : Bool) (en : Bool) (t : Pipe) : Pipe :=
  let t := if portChanged || t.en != en then { t with trained := false } else t
  if !t.en && en then
    { freshFrame t with en := true, frame := 0, mmRun := 0, relocking := true, fixDue := false, verdictDue := none,
                        wbDue := none, startDue := false }
  else if t.en && !en then { t with en := false, relocking := false, relockLeft := 0, fixDue := false }
  else if en && old ≠ new then { freshFrame t with relocking := true }
  else t

def timingWords (x : Die) (q : Fin 4) : List Word :=
  [Reg.dspPipeHtiming, .dspPipeVtiming, .dspPipeSync, .dspPipePclk].map (fun r => x.regI r [q.val])

def portWords (x : Die) (q : Fin 4) : List Word := [Reg.dspPortCtrl, .dspPortDsc].map (fun r => x.regI r [q.val])

/-- The registers of a pipe take a set of words, its layers apart. -/
def Die.activateFrom (x : Die) (m : WordMap) (rs : List (Reg × List Nat)) : Die :=
  let keep := x.press.pressed
  let y := ({ x with press.pressed := m } : Die).activate rs
  { y with press.pressed := keep }

/-- The pipe applies a set of words, or refuses it (R286). -/
def applyPipeWords (m : WordMap) (q : Fin 4) (x : Die) : Die :=
  if pipePressOk m q then
    let old := timingWords x q
    let port := portWords x q
    let x := x.activateFrom m (unitRegs (22 + q.val))
    let x := layerIds.foldl (pressLayer m q) x
    let t : Pipe := pipeMode old (timingWords x q) (decide (portWords x q ≠ port)) ((x.regI .dspPipeCtrl [q.val]).getLsbD 0) x.pipes[q]
    x.updPipe q (fun _ => t)
  else (x.flagI .dspPipeFlags [q.val] 6).countI .dspCfgRefusedCnt [q.val] 1

/-- The pipe is paired: PAIRED mode and its bit of PAIRED_PIPES (R310). -/
def Die.pipeOfPair (x : Die) (q : Fin 4) : Bool := x.pair.mode == 1 && bitOf (cfgPairedPipes (x.reg .cmdPairCfg)) q.val

/-- The pipe is paired, over a bridge that is up (R310). -/
def Die.pipePaired (x : Die) (q : Fin 4) : Bool := x.pipeOfPair q && x.pair.bridgeUp && !x.pair.lost

/-- The pending press concerns the pipe, which has not dealt with it. -/
def Die.pipePressDue (x : Die) (q : Fin 4) : Bool :=
  x.unitWaits (22 + q.val) && (x.pipes[q]).pairAckDue.isNone

/-- The pipe of one die deals with its pending press: a shadow whose parity failed refuses it (R481). -/
def pipePressOwn (x : Die) (q : Fin 4) : Die :=
  let u := 22 + q.val
  if x.shadowFails u then x.unitRefuses u
  else if pipePressOk x.press.pressed q then
    let bad := (x.pipes[q]).frozen == some clsCfgParity
    let x := (applyPipeWords x.press.pressed q x).unitApplies u
    if bad then x.updPipe q (fun t => { t with resumeDue := true }) else x
  else (applyPipeWords x.press.pressed q x).unitRefuses u

/-- Die B's pipe applies the press of die A's, and acknowledges it over CTL (R310). -/
def takePairPress (q : Fin 4) (y : Die) : Die :=
  match (y.pipes[q]).pairPress with
  | none => y
  | some (e, m) =>
    let y := (applyPipeWords m q y).updPipe q (fun t => { t with pairPress := none })
    { y with press.dirty := y.press.dirty &&& ~~~bit44 (22 + q.val),
             pair.ctlOut := if y.pair.bridgeUp then y.pair.ctlOut ++ [CtlMsg.pipeAck q e] else y.pair.ctlOut }

/-- Die B's pipe has the boundary at which die A's applies still ahead: it waits for it. -/
def Die.pipeBehind (y : Die) (q : Fin 4) (frame : Word) : Bool := (y.pipes[q]).en && (y.pipes[q]).frame != frame

/-- A pending press at the pipe's boundary. On a paired pipe die B applies the same words at the same boundary of its own, and
die A's acknowledgement waits for die B's over CTL (R310). -/
def pipePress (s : State) (d : DieId) (q : Fin 4) : State :=
  let x := s.die d
  if !x.pipePressDue q then s
  else if d = .a ∧ x.pipePaired q ∧ !x.shadowFails (22 + q.val) then
    let m := x.press.pressed
    let u := 22 + q.val
    let e := x.press.epoch
    let hold : Die → Die := fun y =>
      { y with press.applied := y.press.applied &&& ~~~bit44 u }.updPipe q (fun t => { t with pairAckDue := some e })
    let tell : Die → Die := fun y =>
      let y := y.updPipe q (fun t => { t with pairPress := some (e, m) })
      if y.pipeBehind q (x.pipes[q]).frame then y else takePairPress q y
    (s.onDie d (fun y => hold (pipePressOwn y q))).onDie d.other tell
  else s.onDie d (fun y => pipePressOwn y q)

def pipeAckOf (q : Fin 4) (m : CtlMsg) : Bool :=
  match m with
  | .pipeAck r _ => decide (r = q)
  | _ => false

/-- PAIRED_PIPE_PRESS_ACK (R310): die B's acknowledgement arrives on die A. -/
def execPairedPipePressAck (p : Fin 4) (s : State) : Out :=
  if !s.a.pair.bridgeUp || !s.b.pair.ctlOut.any (pipeAckOf p) then .next s else
  let take : Die → Die := fun y => { y with pair.ctlOut := dropFirst (pipeAckOf p) y.pair.ctlOut }
  let ack : Die → Die := fun y =>
    if (y.pipes[p]).pairAckDue.isSome then
      (y.updPipe p (fun t => { t with pairAckDue := none })).unitAcks (22 + p.val) else y
  .next ((s.setDie .a (ack s.a.heardCtl)).setDie .b (take s.b))

/-- PIPE_PRESS_APPLY_DISABLED (R284). -/
def execPipePressApplyDisabled (d : DieId) (p : Fin 4) (s : State) : Out :=
  let x := s.die d
  if x.running && !(x.pipes[p]).en then .next (pipePress s d p) else .next s

/-! ### The frame boundary (R282, R604) -/

/-- Mode of a tag region (R306). -/
def Die.tagMode (x : Die) (q : Fin 4) (r : Nat) : Nat := x.fld .dspTagCtrl [q.val] (2 * r + 1) (2 * r)

/-- The tags of the frame that ends: of every formed region, unless the pipe is frozen or relocks (R304, R305, R314). -/
def finalTags (x : Die) (q : Fin 4) : List (Option Word) :=
  let t := x.pipes[q]
  (List.range 16).map (fun r =>
    if t.frozen.isSome || t.relockFrame || x.tagMode q r == 0 then none
    else some (t.crc.getD r 0xFFFFFFFF ^^^ 0xFFFFFFFF))

/-- Regions of mode 1 whose tag differs from EXPECT (R307). -/
def expectMiss (x : Die) (q : Fin 4) (tags : List (Option Word)) : BitVec 16 :=
  BitVec.ofNat 16 ((List.range 16).foldl (fun m r =>
    match tags.getD r none with
    | some t => if x.tagMode q r = 1 ∧ t ≠ x.regI .dspTagExpect [q.val, r] then m + 2 ^ r else m
    | none => m) 0)

/-- Step 1 of R282: tags are final, recorded, and sent to the partner; over a bridge that is down they are not, and the
comparison times out (R35). -/
def tagsStep (x : Die) (q : Fin 4) : Die :=
  let t := x.pipes[q]
  let tags := finalTags x q
  let miss := expectMiss x q tags
  let x := (List.range 16).foldl (fun (y : Die) r => match tags.getD r none with
    | some w => y.setRegI .dspTagLast [q.val, r] w
    | none => y) x
  let causes := b2n t.underrun + 2 * b2n t.wasFrozen + 4 * b2n t.relockFrame
  let send := x.pipeOfPair q && !x.pair.lost && t.frozen.isNone && !t.relockFrame
  let w : TagWait := { item := .pipe q, frame := t.frame, tags := tags, passed := ~~~miss, since := x.time }
  let msg := if x.pair.bridgeUp then [CmpMsg.frame q t.frame tags (~~~miss)] else []
  let x := if send then { x with pair.tags := x.pair.tags ++ [w], pair.cmpOut := x.pair.cmpOut ++ msg } else x
  x.updPipe q (fun t => { t with verdictDue := some t.frame, dueCauses := causes, dueMiss := miss, tagsOf := tags,
                                 pairResult := none })

/-- Writeback of the frame is complete (R303): its fence waits to be signalled. -/
def writebackStep (x : Die) (q : Fin 4) : Die :=
  let t := x.pipes[q]
  let out := x.fld .dspPipeCtrl [q.val] 2 1
  let va := (x.regI .dspPipeWbfLo [q.val]).toNat + x.fld .dspPipeWbfHi [q.val] 15 0 * 2 ^ 32
  if 2 ≤ out ∧ t.wbLines = x.fld .dspPipeVtiming [q.val] 15 0 ∧ t.frozen = none then
    x.updPipe q (fun t => { t with wbDue := some (t.frame, va, x.fld .dspPipeWbHi [q.val] 25 16) }) else x

/-- The pipe of a die whose frames start on the partner's frame-start message: die B's paired pipe, and a mirrored
standby's pipe (R310, R313). -/
def Die.follows (p x : Die) (q : Fin 4) : Bool :=
  (x.id == DieId.b && x.pipePaired q) ||
  (x.pair.mode == 2 && decide (x.pair.role = .standby) && x.pair.bridgeUp && !x.pair.lost && (x.pair.mirrorSync || p.pair.mirrorSync))

/-- The frame that begins: resumption, which resets the run of a TAG_LIMIT alone (R309) and after which layer fences are read
from the next boundary on (R314); a relock frame's end, and the flags of the new frame. -/
def nextFrame (p x : Die) (q : Fin 4) : Die :=
  let follow := Die.follows p x q
  x.updPipe q (fun t =>
    let thaw := t.resumeDue && t.frozen.isSome && !x.unitFrozen (22 + q.val)
    let reads := t.en && t.frozen.isNone
    let t := if thaw then { t with frozen := none, resumeDue := false, mmRun := if t.frozen = some clsTagLimit then 0 else t.mmRun } else t
    let left := t.relockLeft - 1
    { freshFrame t with wasFrozen := t.frozen.isSome, relockLeft := left, relockFrame := decide (0 < left),
                        fixDue := reads, startDue := follow && t.en,
                        lastBoundary := x.time })

/-- The last active pixel of an enabled pipe's frame has been sent. -/
def Die.atBoundary (x : Die) (q : Fin 4) : Bool :=
  let t := x.pipes[q]
  x.running && t.en && !t.relocking && t.verdictDue.isNone && (t.wbDue.isNone || t.frozen.isSome) &&
  decide (x.fld .dspPipeVtiming [q.val] 15 0 ≤ t.line)

/-- The leader of a frame-locked pipe sends its frame-start message (R310). -/
def tellStart (d : DieId) (p : Fin 4) (s : State) : State :=
  let x := s.die d
  let leads := (x.id == DieId.a && x.pipePaired p) || Die.follows x (s.die d.other) p
  if leads then s.onDie d (fun x =>
    { x with pair.ctlOut := x.pair.ctlOut ++ [CtlMsg.frameStart p (x.pipes[p]).frame] }) else s

/-- FRAME_BOUNDARY (R282): steps 1 to 3, and the beginning of step 4. -/
def execFrameBoundary (d : DieId) (p : Fin 4) (s : State) : Out :=
  let x := s.die d
  if !x.atBoundary p then .next s else
  let s := s.onDie d (fun x => (writebackStep (tagsStep x p) p).updPipe p (fun t => { t with frame := t.frame + 1 }))
  let s := (pipePress s d p).onDie d (takePairPress p)
  let s := s.onDie d (fun x => nextFrame (s.die d.other) x p)
  .next (tellStart d p s)

/-! ### Fences of layers (R288) -/

/-- The fence of one layer's pending configuration is read: reached, it becomes active; else LATE. -/
def fixLayer (p x : Die) (q : Fin 4) (l : Fin 8) : Die :=
  let t := x.pipes[q]
  if t.frozen.isSome then x else
  match (t.layers[l]).pending with
  | none => x
  | some c =>
    match fenceUnit p x (.layer q l) (lCtx c) (lFence c) with
    | (x, none) => x
    | (x, some v) =>
      if (lValue c).toNat ≤ v.toNat then
        let set : Layer → Layer := fun u => { u with active := c, pending := none }
        x.updPipe q (fun t => { t with layers := vmod t.layers l set })
      else (x.flagI .dspPipeFlags [q.val] 0).countI .dspLayerLateCnt [q.val, l.val] 1

/-- LAYER_CONFIG_FIX (R282 steps 4 and 5). A fence read that faults freezes the pipe (R314). -/
def configFixDie (q : Fin 4) (p x : Die) : Die :=
  let t := x.pipes[q]
  if x.running && t.fixDue && t.frozen.isNone then
    (layerIds.foldl (fun y l => fixLayer p y q l) x).updPipe q (fun t => { t with fixDue := false })
  else x

def execLayerConfigFix (d : DieId) (p : Fin 4) (s : State) : Out := nextOn d (configFixDie p (s.die d.other)) s

/-! ### Fetching and composing a line (R291, R603, R300 to R305) -/

/-- On die B a paired pipe shows a layer of an unpaired context as disabled (R312). -/
def Die.layerShown (x : Die) (q : Fin 4) (c : LayerCfg) : Bool :=
  !(x.id == DieId.b && x.pipeOfPair q) || (match x.ctx? (lCtx c) with
    | some k => k.attr.getLsbD 0
    | none => false)

/-- Layers whose source lines a line needs, in ascending L. -/
def lineLayers (x : Die) (q : Fin 4) (y : Nat) : List (Fin 8) :=
  let h := x.fld .dspPipeHtiming [q.val] 15 0
  layerIds.filter (fun l =>
    let c := ((x.pipes[q]).layers[l]).active
    coversLine l c h y && x.layerShown q c)

/-- One layer's rows for the line: each row not held already is one unit of the layer. -/
def fetchLayer (p : Die) (q : Fin 4) (y : Nat) (x : Die) (l : Fin 8) : Die :=
  if (x.pipes[q]).frozen.isSome then x else
  let lay := (x.pipes[q]).layers[l]
  let c := lay.active
  let keys := neededKeys l c y
  let (x, rows) := keys.foldl (fun (r : Die × List (Nat × List Byte)) k =>
    if (r.1.pipes[q]).frozen.isSome then r else
    match lay.lines.lookup k with
    | some bs => (r.1, r.2 ++ [(k, bs)])
    | none =>
      let g := rowRange l c k
      match readUnit p r.1 (.layer q l) (lCtx c) g.1 g.2 accRead with
      | (x, some bs) => (x, r.2 ++ [(k, bs)])
      | (x, none) => (x, r.2)) (x, [])
  x.updPipe q (fun t => { t with layers := vmod t.layers l (fun u => { u with lines := rows }) })

/-- The running CRC of each formed region takes the line's pixels (R305). -/
def tagLine (x : Die) (q : Fin 4) (y : Nat) (pix : List Pix) : Die :=
  let crc := (List.range 16).map (fun r =>
    let c := ((x.pipes[q]).crc).getD r 0xFFFFFFFF
    let xs := x.regI .dspTagX [q.val, r]
    let ys := x.regI .dspTagY [q.val, r]
    if x.tagMode q r = 0 ∨ y < wbits ys 15 0 ∨ wbits ys 31 16 ≤ y then c
    else ((pix.take (wbits xs 31 16)).drop (wbits xs 15 0)).foldl (fun w p => crc32Run w (tagBytes p)) c)
  x.updPipe q (fun t => { t with crc := crc })

/-- The line's composed pixels are written back as one unit (R303). -/
def writebackLine (p x : Die) (q : Fin 4) (y : Nat) (pix : List Pix) : Die :=
  let cfg := x.regI .dspPipeWbCfg [q.val]
  let va := (x.regI .dspPipeWbLo [q.val]).toNat + x.fld .dspPipeWbHi [q.val] 15 0 * 2 ^ 32 + 64 * wbits cfg 31 16 * y
  let bs := (pix.map (writebackPix (wbits cfg 15 8))).flatten
  match writeUnit p x (.writeback q) (x.fld .dspPipeWbHi [q.val] 25 16) va bs accWrite with
  | (x, true) => x.updPipe q (fun t => { t with wbLines := t.wbLines + 1 })
  | (x, false) => x

/-- A line goes to the port at the panel's depth (R301, R302); a shadow pipe's lanes stay in electrical idle (R23). -/
def portLine (x : Die) (q : Fin 4) (y : Nat) (pix : List Pix) : Die :=
  let ctrl := x.regI .dspPipeCtrl [q.val]
  if wbits ctrl 2 1 % 2 = 1 ∧ !x.shadows q then
    x.updPipe q (fun t => { t with out := (y, ditherLine ctrl t.frame.toNat y pix) :: t.out }) else x

/-- An active line: fetched, composed, tagged, written back and sent. A frozen pipe sends the SAFE colour (R314); in the
relock period it sends nothing (R287). -/
def composeStep (p x : Die) (q : Fin 4) (y : Nat) : Die :=
  let h := x.fld .dspPipeHtiming [q.val] 15 0
  let safe := colour10 (x.regI .dspPipeSafe [q.val])
  if (x.pipes[q]).relockFrame then x else
  let ls := lineLayers x q y
  let x := ls.foldl (fetchLayer p q y) x
  if (x.pipes[q]).frozen.isSome then portLine x q y (List.replicate h safe) else
  let mk : Fin 8 → LineLayer := fun l =>
    let u := (x.pipes[q]).layers[l]
    { l := l, c := u.active, rows := u.lines, underrun := u.underrun }
  let pix := composeLine (colour10 (x.regI .dspPipeBg [q.val])) safe h y (ls.map mk)
  let x := if 2 ≤ x.fld .dspPipeCtrl [q.val] 2 1 then writebackLine p x q y pix else x
  if (x.pipes[q]).frozen.isSome then portLine x q y (List.replicate h safe)
  else portLine (tagLine x q y pix) q y pix

/-- The pipe may scan a line of its frame. -/
def Die.mayScan (x : Die) (q : Fin 4) (y : Nat) : Bool :=
  let t := x.pipes[q]
  x.running && t.en && !t.relocking && t.verdictDue.isNone && !t.fixDue &&
  (!t.startDue || x.pair.lost || !x.pair.bridgeUp) && t.line == y && decide (y < x.fld .dspPipeVtiming [q.val] 15 0)

/-- LAYER_LINE_FETCH (R603): the source lines of the next output line are fetched and the line is composed. -/
def lineFetchDie (q : Fin 4) (y : Nat) (p x : Die) : Die :=
  if !x.mayScan q y then x else
  let clear : Layer → Layer := fun u => { u with underrun := none }
  (composeStep p x q y).updPipe q (fun t => { t with line := y + 1, vblank := false, layers := t.layers.map clear })

def execLayerLineFetch (d : DieId) (p : Fin 4) (line : Nat) (s : State) : Out :=
  nextOn d (lineFetchDie p line (s.die d.other)) s

/-- FETCH_UNDERRUN (R293): from a column that the spec leaves open, the layer shows SAFE for the rest of the line. -/
def underrunDie (q : Fin 4) (l : Fin 8) (x : Die) : Die :=
  let t := x.pipes[q]
  if !x.mayScan q t.line || t.frozen.isSome || t.relockFrame || !(lineLayers x q t.line).contains l ||
      (t.layers[l]).underrun.isSome then x else
  let first := t.layers.toList.all (fun u => u.underrun.isNone)
  let col := Config.choice x.free % max 1 (x.fld .dspPipeHtiming [q.val] 15 0)
  let x := if first then x.countI .dspUnderrunCnt [q.val] 1 else x
  (x.tick.flagI .dspPipeFlags [q.val] 5).updPipe q (fun t =>
    { t with underrun := true, layers := vmod t.layers l (fun u => { u with underrun := some col }) })

def execFetchUnderrun (d : DieId) (p : Fin 4) (layer : Fin 8) (s : State) : Out := nextOn d (underrunDie p layer) s

/-- WRITEBACK_FRAME_DONE (R303). A signal that faults freezes the pipe, and is made again once it resumes (R366). -/
def writebackDoneDie (q : Fin 4) (p x : Die) : Die :=
  match (x.pipes[q]).wbDue with
  | none => x
  | some (n, va, c) =>
    if !x.running || (x.pipes[q]).frozen.isSome then x else
    let sent : Die → Die := fun y => (y.updPipe q (fun t => { t with wbDue := none })).countI .dspWbCnt [q.val] 1
    if va = 0 then sent x else
    match signalUnit p x (.writeback q) c va (n.setWidth 64) with
    | (x, some _) => sent x
    | (x, none) => x

def execWritebackFrameDone (d : DieId) (p : Fin 4) (s : State) : Out := nextOn d (writebackDoneDie p (s.die d.other)) s

/-! ### Verdicts (R307 to R309, R311) -/

/-- The flags and counters of a local mismatch (R307). -/
def localMismatch (x : Die) (q : Fin 4) (n : Word) (miss : BitVec 16) : Die :=
  if miss = 0 then x else
  let is := [q.val]
  ((((x.flagI .dspPipeFlags is 2).setRegI .dspTagMismatch is (x.regI .dspTagMismatch is ||| miss.setWidth 32)).setRegI
    .dspTagMmFrame is n).countI .dspTagMmCnt is 1)

/-- FRAME_VERDICT (R308, R309): a pair comparison still outstanding counts as timed out. -/
def verdictDie (q : Fin 4) (x : Die) : Die :=
  let t := x.pipes[q]
  match t.verdictDue with
  | none => x
  | some n =>
    if !x.running then x else
    let x := if x.pair.tags.any (isPipeTag q n) then pipeTimeout x q n else x
    let pairBad := (x.pipes[q]).pairResult == some false ||
      (x.pipeOfPair q && x.pair.lost)
    let x := localMismatch x q n t.dueMiss
    let counted := t.dueMiss != 0 || pairBad || bitOf t.dueCauses 0
    let bad := counted || t.dueCauses != 0
    let x := if bad then x.countI .dspUnverifiedCnt [q.val] 1 else x
    let run := if counted then min 15 (t.mmRun + 1) else if bad then t.mmRun else 0
    let x := x.updPipe q (fun t => { t with verdictDue := none, mmRun := run })
    let limit := x.fld .dspPipeCtrl [q.val] 15 12
    if limit ≠ 0 ∧ limit ≤ run ∧ counted ∧ t.frozen = none then
      x.faultMaster clsTagLimit (.layer q 0)
        (FaultInfo.plain 0 (n.toNat + (x.regI .dspTagMismatch [q.val]).toNat * 2 ^ 32))
    else x

def execFrameVerdict (d : DieId) (p : Fin 4) (s : State) : Out := nextOn d (verdictDie p) s

def frameStartOf (q : Fin 4) (m : CtlMsg) : Option Word :=
  match m with
  | .frameStart r n => if r = q then some n else none
  | _ => none

/-- FRAME_START_MESSAGE (R310): the leader's frame starts here too, with the leader's count. Messages of frames that the
follower was not waiting for go with the latest one. -/
def execFrameStartMessage (d : DieId) (p : Fin 4) (s : State) : Out :=
  let x := s.die d
  let y := s.die d.other
  match y.pair.ctlOut.reverse.findSome? (frameStartOf p) with
  | none => .next s
  | some n =>
    if !x.running || !x.pair.bridgeUp || !(x.pipes[p]).startDue then .next s else
    let take : Die → Die := fun y => { y with pair.ctlOut := y.pair.ctlOut.filter (fun m => (frameStartOf p m).isNone) }
    let start : Die → Die := fun x => x.heardCtl.updPipe p (fun t =>
      { t with frame := n, startDue := false, pairLocked := x.pair.mode == 1 })
    .next ((s.onDie d start).onDie d.other take)

/-- PIXEL_PLL_RELOCK (R287): a new frame begins, on a follower with its leader's message (R310); up to two frames more fall in
the relock period, which the spec leaves open. -/
def relockDie (q : Fin 4) (p x : Die) : Die :=
  let n := Config.choice x.free % 3
  let follow := Die.follows p x q
  x.tick.updPipe q (fun t => { freshFrame t with relocking := false, relockLeft := n, relockFrame := decide (0 < n),
                                                 wasFrozen := t.frozen.isSome, startDue := follow })

def execPixelPllRelock (d : DieId) (p : Fin 4) (s : State) : Out :=
  let x := s.die d
  let t := x.pipes[p]
  if !x.running || !t.en || !t.relocking then .next s else
  .next (tellStart d p (s.onDie d (relockDie p (s.die d.other))))

end Sys2Proof.Machine
end

