-- ==== Sys2Proof/Machine/Ports.lean ====
section
/-! DEFINITION. Sys2Proof/Machine/Ports.lean: DRAM training, refresh and fills (R527 to R531), the USB port (R532 to R535),
the display ports (R536 to R539), the telemetry target (R553, R554) and HEALTHY (R555). -/
namespace Sys2Proof.Machine

/-! ### DRAM -/

/-- R527: 24 channels of equal capacity and equal rank count. -/
def trainingOk (res : Training) : Bool :=
  let g := res.gibs.headD 0
  let r := res.ranks.headD 0
  res.ok && res.gibs.length == 24 && res.ranks.length == 24 && res.gibs.all (fun v => v == g) &&
  res.ranks.all (fun v => v == r) && (g == 1 || g == 2 || g == 4) && (r == 1 || r == 2)

/-- DRAM_TRAINING_DONE (R527, R567): the wipe starts once training has succeeded; a failure takes the die to SAFE. -/
def trainingDie (res : Training) (x : Die) : Die :=
  if !x.running || x.dev ≠ .rom || x.dram.trained then x else
  if trainingOk res then
    { x with dram.trained := true, dram.ranks := res.ranks.headD 0, dram.fittedGib := 24 * res.gibs.headD 0,
             dram.fill := x.dram.fill ++ [.full] }
  else { x with dev := .safe }

def execDramTrainingDone (d : DieId) (res : Training) (s : State) : Out := nextOn d (trainingDie res) s

/-- DRAM_REFRESH (R530): a refresh command of one channel's controller. -/
def refreshDie (x : Die) : Die :=
  if x.running && x.dram.trained && !x.dram.selfRefresh then x.count .drcRefreshCnt else x

def execDramRefresh (d : DieId) (_ch : Fin 24) (s : State) : Out := nextOn d refreshDie s

/-- The fill engine's work but for frames, whose end is MIGRATION_FILL_DONE. -/
def isWipe (f : FillJob) : Bool :=
  match f with
  | .frame _ _ _ _ => false
  | .full => true
  | .granule _ => true

/-- A granule's wipe ends (R373): live becomes wiped and is counted; poisoned stays so. -/
def granuleWiped (p x : Die) (g : Nat) : Die :=
  let x := (zeroRange x (262144 * g) 262144).countN .drcFillCnt 64
  let x := if mirrors p x && !inWindow (262144 * g) then { x with pair.mirOut := x.pair.mirOut ++ [.wipe g] } else x
  if ownState (x.ownEntry g) = 1 ∧ ownOwner (x.ownEntry g) = 4095 then
    (x.setOwn g (ownMake 4095 0 false false 0)).count .ownWipeCnt
  else x

/-- FILL_WIPE_DONE (R531, R567, R373): the wipe in front ends. The wipe of a standby that leaves SPARE is confirmed to the
partner whose press waits (R27). -/
def execFillWipeDone (d : DieId) (s : State) : Out :=
  let x := s.die d
  let p := s.die d.other
  match x.dram.fill.find? isWipe with
  | none => .next s
  | some (.granule g) =>
    .next (s.onDie d (fun x => granuleWiped p { x with dram.fill := dropFirst isWipe x.dram.fill } g))
  | some (.frame _ _ _ _) => .next s
  | some .full =>
    if !x.dram.trained then .next s else
    let waits := p.press.behind.getLsbD 43 && p.press.applied.getLsbD 43
    let wipe : Die → Die := fun x =>
      let x := (x.countN .drcFillCnt (x.dram.fittedGib * 262144))
      { x with dram.cells := [], dram.spoiled := [], dram.wiped := true, dram.fill := dropFirst isWipe x.dram.fill,
               pair.ctlOut := if waits then x.pair.ctlOut ++ [CtlMsg.pairApplied p.press.epoch] else x.pair.ctlOut }
    .next (s.onDie d wipe)

/-! ### USB -/

def usbRank (u : UsbSpeed) : Nat :=
  match u with
  | .highSpeed => 0
  | .gen1x1 => 1
  | .gen2x1 => 2
  | .gen2x2 => 3

def usbOfRank (n : Nat) : UsbSpeed :=
  match n with
  | 0 => .highSpeed
  | 1 => .gen1x1
  | 2 => .gen2x1
  | _ => .gen2x2

/-- The highest speed that the port may take (R532). -/
def Die.usbLimit (x : Die) : Nat := if x.sec.recovery then 0 else x.fld .usbCfg [] 1 0

/-- A bus reset or link loss (R58): the FIFO is emptied, data transfers end with LINK_LOST. A fault that froze one stays
held, and a later REPLAY finds no unit of its channel (R74). -/
def usbReset (x : Die) : Die :=
  let x := { x with cmd.fifo := [], io.usb.owed := [], io.usb.erdy := [] }.forget (fun m => match m with
    | .usb _ => true
    | _ => false)
  (channelIds.foldl (fun (y : Die) ch => y.endXfer ch stLinkLost) x).count .cmdUsbResetCnt

/-- DIE_ID (R512): SHA3-512 of the identity public key. -/
def Die.dieId (x : Die) : List Byte := Config.sha3_512 x.sec.idPub

/-- A hexadecimal digit in upper case. -/
def hexDigit (n : Nat) : Byte := BitVec.ofNat 8 (if n < 10 then 48 + n else 55 + n)

/-- The device descriptor: of the firmware image, or in ROM of the fuses; the serial number is the first 8 bytes of DIE_ID
(R533). -/
def usbDesc (x : Die) : UsbDesc :=
  { vendor := Config.usbId x.sec.fwMeas 0, product := Config.usbId x.sec.fwMeas 1, bcd := Config.usbId x.sec.fwMeas 2,
    serial := (((field x.dieId 0 8).map (fun b => [hexDigit (b.toNat / 16), hexDigit (b.toNat % 16)])).flatten) }

/-- Interface class, subclass and protocol (R52). -/
def usbClass : List Byte := [0xFF, 0x4C, 0x01]

/-- What EP0 answers to a request, by its 8 setup bytes: STALL to a class or vendor request (R52), the descriptor's words to
GET_DESCRIPTOR of the device, the digits to that of a string; no command of the block carries a request to EP0 (log 142). -/
def Die.controlAnswer (x : Die) (setup : List Byte) : UsbAnswer :=
  let t := x.io.usb.desc
  if bitsOf (fieldNat setup 0 1) 6 5 ≠ 0 then .stall
  else if fieldNat setup 0 2 = 0x0680 ∧ fieldNat setup 3 1 = 1 then
    .data (leBytes 2 t.vendor.toNat ++ leBytes 2 t.product.toNat ++ leBytes 2 t.bcd.toNat)
  else if fieldNat setup 0 2 = 0x0680 ∧ fieldNat setup 3 1 = 3 then .data t.serial
  else .ack

/-- The port connects at a speed and counts the connection. -/
def usbConnect (x : Die) (u : UsbSpeed) : Die :=
  { x with io.usb := { connected := true, desc := usbDesc x, speed := u, lowPower := none, reconnect := none, owed := [], erdy := [] } }.count .usbSpeedCnt

/-- USB_LOW_POWER_REQUEST (R534). -/
def lowPowerDie (req : UsbPower) (x : Die) : Die :=
  if !x.io.usb.connected then x else
  let enter : Die → Die := fun x => { x with io.usb.lowPower := some req }
  let u1u2 := (x.reg .usbCfg).getLsbD 4
  let answer : Die → Bool → Die := fun x ok => { x with cmd.answer := if ok then .ack else .nak }
  match req with
  | .u1 => answer (if u1u2 then enter x else x) u1u2
  | .u2 => answer (if u1u2 then enter x else x) u1u2
  | .u3 => (enter x).count .usbSuspendCnt
  | .suspend => (enter x).count .usbSuspendCnt
  | .resume => { x with io.usb.lowPower := none }

def execUsbLowPowerRequest (d : DieId) (req : UsbPower) (s : State) : Out := nextOn d (lowPowerDie req) s

/-- USB_RECONNECT (R535, R532): 10 ms after a press changed MAX_SPEED the port connects at the highest speed that the link
and the limit allow. -/
def reconnectDie (speed : UsbSpeed) (x : Die) : Die :=
  match x.io.usb.reconnect with
  | none => x
  | some t => if x.running && x.passed t 10000 then usbConnect x (usbOfRank (min (usbRank speed) x.usbLimit)) else x

def execUsbReconnect (d : DieId) (speed : UsbSpeed) (s : State) : Out := nextOn d (reconnectDie speed) s

/-! ### Display ports -/

def portLost (x : Die) (q : Fin 4) : Die :=
  (x.updPipe q (fun t => { t with trained := false })).countI .dspLinkLossCnt [q.val] 1

/-- HPD_CHANGE (R536): low for more than 2 ms is a link loss, and a pulse has the link checked. -/
def hpdDie (q : Fin 4) (ev : HpdEvent) (x : Die) : Die :=
  if !x.running then x else
  match ev with
  | .high => x.updPipe q (fun t => { t with hpd := true })
  | .low => if (x.pipes[q]).hpd then portLost (x.updPipe q (fun t => { t with hpd := false })) q else x
  | .pulse ok =>
    let x := x.countI .dspHpdIrqCnt [q.val] 1
    if ok then x else portLost x q
  | .short => x

def execHpdChange (d : DieId) (p : Fin 4) (ev : HpdEvent) (s : State) : Out := nextOn d (hpdDie p ev) s

/-- Rates that a port may try, highest first: those of its table up to MAX_RATE (R536). -/
def triedRates (ctrl : Word) : List Nat :=
  ([7, 6, 5, 4, 3, 2, 1, 0] : List Nat).filter (fun r => decide (r ≤ wbits ctrl 27 24) &&
    (portEdp ctrl || r == 0 || r == 3 || r == 6 || r == 7))

/-- DP_LINK_TRAIN (R536): `trains` are the rates at which the sink trains. -/
def dpTrainDie (q : Fin 4) (trains : List Nat) (x : Die) : Die :=
  let t := x.pipes[q]
  let pipe := x.regI .dspPipeCtrl [q.val]
  let ctrl := x.regI .dspPortCtrl [q.val]
  if !x.running || !t.en || wbits pipe 2 1 % 2 = 0 || !t.hpd || t.trained || x.shadows q then x else
  match (triedRates ctrl).find? (fun r => trains.contains r &&
      bandwidthOk ctrl (x.regI .dspPortDsc [q.val]) pipe (x.fld .dspPipePclk [q.val] 20 0) r) with
  | none => x
  | some r => (x.updPipe q (fun t => { t with trained := true, rate := r })).countI .dspLinkTrainCnt [q.val] 1

def execDpLinkTrain (d : DieId) (p : Fin 4) (trains : List Nat) (s : State) : Out := nextOn d (dpTrainDie p trains) s

/-! ### Telemetry target (R553, R554) -/

/-- The target answers: the die is powered. -/
def Die.i3cOn (x : Die) : Bool := decide (x.dev ≠ .off) && !x.power.inReset

/-- A broadcast or direct command code with its effect on the target. -/
def i3cStep (f : I3c → I3c) (x : Die) : Die := if x.i3cOn then { x with io.i3c := f x.io.i3c } else x

/-- ENTDAA: a target without a dynamic address takes the one assigned. -/
def execEntdaa (d : DieId) (addr : BitVec 7) (s : State) : Out :=
  nextOn d (i3cStep (fun i => if i.dyn.isNone then { i with dyn := some addr } else i)) s

def staticAddr (d : DieId) : BitVec 7 := 0x48 + BitVec.ofNat 7 d.toNat

def execSetdasa (d : DieId) (static addr : BitVec 7) (s : State) : Out :=
  nextOn d (i3cStep (fun i => if static = staticAddr d then { i with dyn := some addr } else i)) s

def execRstdaa (d : DieId) (s : State) : Out := nextOn d (i3cStep (fun i => { i with dyn := none })) s

/-- The target answers a direct command code sent to its dynamic address. -/
def i3cAnswer (words : Die → List Word) (x : Die) : Die :=
  if x.i3cOn && x.io.i3c.dyn.isSome then { x with io.i3c.answer := words x } else x

/-- The provisional ID: bytes 0 to 5 of DIE_ID, the first byte most significant, with the random-value bit, PID[32]. -/
def provisionalId (x : Die) : List Byte :=
  let b := x.dieId
  [b.getD 0 0, b.getD 1 0 ||| 1, b.getD 2 0, b.getD 3 0, b.getD 4 0, b.getD 5 0]

def execGetpid (d : DieId) (s : State) : Out :=
  nextOn d (i3cAnswer (fun x => (provisionalId x).map (fun b => b.setWidth 32))) s

/-- Bus characteristics: no controller role ([7:6] 0) and no in-band interrupt ([2:1] 0); the other bits are not given. -/
def execGetbcr (d : DieId) (s : State) : Out := nextOn d (i3cAnswer (fun _ => [Config.quantity 200 [] &&& 0x39])) s

def execGetdcr (d : DieId) (s : State) : Out := nextOn d (i3cAnswer (fun _ => [Config.quantity 201 [] &&& 0xFF])) s

def execGetstatus (d : DieId) (s : State) : Out :=
  nextOn d (fun x => (i3cAnswer (fun x => [Config.word x.free &&& 0xFFFF]) x).tick) s

/-- ENEC and DISEC are accepted with no effect. -/
def execEnec (d : DieId) (s : State) : Out := nextOn d (i3cStep (fun i => i)) s

def execDisec (d : DieId) (s : State) : Out := nextOn d (i3cStep (fun i => i)) s

/-- I3C_PRIVATE_WRITE: the first byte is the index. -/
def execI3cPrivateWrite (d : DieId) (bytes : List Byte) (s : State) : Out :=
  nextOn d (fun x => match bytes with
    | [] => x
    | b :: _ => i3cStep (fun i => if i.dyn.isSome then { i with index := b } else i) x) s

/-- I3C_PRIVATE_READ: words from the index upward, from one snapshot. -/
def privateReadDie (words : Nat) (x : Die) : Die :=
  if !x.i3cOn || x.io.i3c.dyn.isNone then x else
  { x with io.i3c.answer := (List.range words).map (fun i => (x.io.i3c.snap.lookup (x.io.i3c.index.toNat + i)).getD 0) }.count
    .i3tReadCnt

def execI3cPrivateRead (d : DieId) (words : Nat) (s : State) : Out := nextOn d (privateReadDie words) s

/-- Sensors that are plausible (R494). -/
def Die.plausible (x : Die) : Nat := (x.power.sensors.filter (fun v => !v.excluded)).length

/-- The THERMAL_LIMIT response is in force (R556, R580). -/
def Die.thermLimited (x : Die) : Bool := decide (1 ≤ x.power.therm)

/-- The words of R554. -/
def telemetry (x : Die) : List (Nat × Word) :=
  [(0, BitVec.ofNat 32 (x.dev.code + 8 * x.sec.fuses.lc + 64 * x.id.toNat)), (1, BitVec.ofInt 32 x.power.tmax),
   (2, x.power.mw),
   (3, BitVec.ofNat 32 (b2n x.power.healthy + 2 * b2n x.thermLimited + 4 * b2n x.pair.degraded + 8 * x.plausible))] ++
  (List.range 16).map (fun i =>
    let v := x.power.sensors.getD i Sensor.reset
    (16 + i, BitVec.ofInt 32 (v.last.getD 0) ||| (if v.excluded then 0x80000000 else 0)))

/-- TELEMETRY_SNAPSHOT: every 1 ms, in HOLD too. -/
def execTelemetrySnapshot (d : DieId) (s : State) : Out :=
  nextOn d (fun x => i3cStep (fun i => { i with snap := telemetry x }) x) s

/-- HEALTHY_REFRESH_TIMEOUT (R555): firmware has not refreshed the pin for 10 ms. -/
def healthyDie (x : Die) : Die :=
  if x.power.healthy && x.passed x.power.healthyAt 10000 then { x with power.healthy := false } else x

def execHealthyRefreshTimeout (d : DieId) (s : State) : Out := nextOn d healthyDie s

/-! ### Captured count words (R198) -/

def hiWord (v : DWord) : Word := (v >>> 32).setWidth 32
def loWord (v : DWord) : Word := v.setWidth 32

/-- A read of CSI_FRAME_LO captures CSI_FRAME_HI (R542). -/
def csiFrameLo (x : Die) (q : Fin 4) : Die :=
  let t := x.io.csi[q]
  { x with io.csi := vmod x.io.csi q (fun u => { u with frameHi := hiWord u.frame }), cmd.cfgData := loWord t.frame }

def execCsiFrameLoRead (d : DieId) (p : Fin 4) (s : State) : Out := nextOn d (fun x => csiFrameLo x p) s

/-- Reads of PWR_SLOT_LO and PWR_GATED_LO capture their HI words (R584). -/
def pwrSlotLo (x : Die) : Die := { x with power.slotsHi := hiWord x.power.slots, cmd.cfgData := loWord x.power.slots }

def pwrGatedLo (x : Die) : Die := { x with power.gatedHi := hiWord x.power.gated, cmd.cfgData := loWord x.power.gated }

def execPwrSlotLoRead (d : DieId) (s : State) : Out := nextOn d pwrSlotLo s

def execPwrGatedLoRead (d : DieId) (s : State) : Out := nextOn d pwrGatedLo s

end Sys2Proof.Machine
end

