-- ==== Sys2Proof/Machine/IoPress.lean ====
section
/-! DEFINITION. Sys2Proof/Machine/IoPress.lean: presses at the interface blocks (R557): unit 41 of R469 acknowledges once
the USB port, the eight input ports and the UFS host have each applied or refused their shadows at their own boundary. -/
namespace Sys2Proof.Machine

/-- The registers of one interface block: 0 USB, 1 to 4 CSI ports, 5 to 8 TDM ports, 9 UFS. -/
def ioRegs (k : Nat) : List (Reg × List Nat) :=
  if k = 0 then [(.usbCfg, [])]
  else if k ≤ 4 then
    [Reg.csiCtrl, .csiCropXy, .csiCropWh, .csiBlack, .csiWdog, .csiBufLo, .csiBufHi, .csiFenceLo, .csiFenceHi,
     .csiReleaseLo, .csiReleaseHi, .csiGeom].map (fun r => (r, [k - 1]))
  else if k ≤ 8 then
    [Reg.tdmCtrl, .tdmSlotMask, .tdmBlock, .tdmBufLo, .tdmBufHi, .tdmFenceLo, .tdmFenceHi, .tdmStride].map
      (fun r => (r, [k - 5]))
  else [(Reg.ufsCfg, [])] ++ (List.range 8).map (fun i => (Reg.ufsLuOwner, [i]))

/-- A 48-bit address from its two words. -/
def vaOf (lo hi : Word) : Nat := lo.toNat + wbits hi 15 0 * 2 ^ 32

def csiYuv : Nat := 0x1E

/-- The conditions of a CSI port's fields (R557), for a port that the press enables. -/
def csiPressOk (w : Reg → Word) : Bool :=
  let h := wbits (w .csiCropWh) 31 16
  let wd := wbits (w .csiCropWh) 15 0
  let pitch := 64 * wbits (w .csiGeom) 31 16
  let stride := 4096 * wbits (w .csiGeom) 15 0
  decide (1 ≤ h) && decide (h ≤ 8192) && decide (2 ≤ wd) && decide (wd ≤ 8192) &&
  (wbits (w .csiCtrl) 21 16 != csiYuv || wd % 2 == 0) && decide (2 * wd ≤ pitch) && decide (64 + pitch * h ≤ stride) &&
  aligned (w .csiBufLo).toNat 4096 && aligned (w .csiFenceLo).toNat 8 && aligned (w .csiReleaseLo).toNat 8

/-- Bits set in a slot mask. -/
def slotCount (w : Word) : Nat := ((List.range 16).filter (fun i => w.getLsbD i)).length

/-- The conditions of a TDM port's fields. -/
def tdmPressOk (w : Reg → Word) : Bool :=
  let ctrl := w .tdmCtrl
  let slots := wbits ctrl 23 20 + 1
  let mask := wbits (w .tdmSlotMask) 15 0
  let frames := wbits (w .tdmBlock) 12 0
  let c := slotCount (w .tdmSlotMask)
  (!ctrl.getLsbD 30 || slots == 2 || slots == 4 || slots == 8 || slots == 16) && decide (mask < 2 ^ slots) &&
  decide (32 + 4 * c * frames ≤ 64 * wbits (w .tdmStride) 15 0) && aligned (w .tdmBufLo).toNat 64 &&
  aligned (w .tdmFenceLo).toNat 8

/-- The shadows of a block pass its checks, or leave it disabled. -/
def ioPressOk (x : Die) (k : Nat) : Bool :=
  if k = 0 then true
  else if k ≤ 4 then
    let w := fun r => x.pressedI r [k - 1]
    !(w .csiCtrl).getLsbD 31 || csiPressOk w
  else if k ≤ 8 then
    let w := fun r => x.pressedI r [k - 5]
    !(w .tdmCtrl).getLsbD 31 || tdmPressOk w
  else true

/-- A block's pressed words differ from its active ones. -/
def ioChanged (x : Die) (k : Nat) : Bool :=
  (ioRegs k).any (fun q => decide (rwpMerge q.1 (x.regI q.1 q.2) (x.pressedI q.1 q.2) ≠ x.regI q.1 q.2))

/-- What a block does when its fields change: the USB port reconnects, a port that is enabled starts its counts, one that
is disabled stops (R535, R542, R547). -/
def ioChange (k : Nat) (old x : Die) : Die :=
  if k = 0 then
    if old.fld .usbCfg [] 1 0 = x.fld .usbCfg [] 1 0 ∨ !x.io.usb.connected then x else
    { usbReset x with io.usb := { x.io.usb with connected := false, lowPower := none, reconnect := some x.time } }
  else if k ≤ 4 then
    let q := Fin.ofNat 4 (k - 1)
    let was := old.fldBit .csiCtrl [q.val] 31
    let now := x.fldBit .csiCtrl [q.val] 31
    let keep := (x.io.csi[q]).frozen
    if !was && now then
      { x with io.csi := vmod x.io.csi q (fun t => { CsiPort.reset with frozen := keep, lastStart := x.time, frameHi := t.frameHi }) }
    else if was && !now then
      { x with io.csi := vmod x.io.csi q (fun t => { t with inFrame := false, dropping := false, locked := false }) }
    else x
  else if k ≤ 8 then
    let q := Fin.ofNat 4 (k - 5)
    let was := old.fldBit .tdmCtrl [q.val] 31
    let now := x.fldBit .tdmCtrl [q.val] 31
    let keep := (x.io.tdm[q]).frozen
    if !was && now then
      { x with io.tdm := vmod x.io.tdm q (fun _ =>
          { TdmPort.reset with frozen := keep, lost := keep.isSome, clockOk := true, resumed := true, startTime := x.time }) }
    else if was && !now then { x with io.tdm := vmod x.io.tdm q (fun t => { t with clockOk := false }) }
    else x
  else x

/-- A refusal: the port's own flag and the window's counter (R557). -/
def ioRefuse (k : Nat) (x : Die) : Die :=
  let x := { x with press.dirty := x.press.dirty ||| bit44 41 }
  if 1 ≤ k ∧ k ≤ 4 then
    { x with io.csi := vmod x.io.csi (Fin.ofNat 4 (k - 1)) (fun t => { t with refused := true }) }.count .csiRefusedCnt
  else if 5 ≤ k ∧ k ≤ 8 then
    { x with io.tdm := vmod x.io.tdm (Fin.ofNat 4 (k - 5)) (fun t => { t with refused := true }) }.count .tdmRefusedCnt
  else x

/-- A block applies or refuses its part of the pending press; the unit acknowledges after the last one. -/
def ioApply (k : Nat) (x : Die) : Die :=
  if !x.unitWaits 41 || x.press.ioDone.getLsbD k then x else
  let bad := (ioRegs k).any (fun q => x.press.shadowBad.contains (q.1.addr q.2))
  let x :=
    if bad then { x with press.dirty := x.press.dirty ||| bit44 41 }
    else if !ioChanged x k then x
    else if ioPressOk x k then ioChange k x (x.activate (ioRegs k))
    else ioRefuse k x
  let x := { x with press.ioDone := x.press.ioDone ||| (1#10 <<< k) }
  if x.press.ioDone = 0x3FF then
    let x := (x.setUnitEpoch 41).unitAcks 41
    { x with press.cfgBad := x.press.cfgBad.filter (fun e => e.1 != 41) }
  else x

/-- A block stands at its boundary now: the USB port always, a CSI port outside a frame, a TDM port that is stopped, the
UFS host between transfers; and a block whose fields the press leaves alone. -/
def ioReady (x : Die) (k : Nat) : Bool :=
  !ioChanged x k ||
  (if k = 0 then true
   else if k ≤ 4 then !(x.io.csi[Fin.ofNat 4 (k - 1)]).inFrame || !x.fldBit .csiCtrl [k - 1] 31
   else if k ≤ 8 then !x.fldBit .tdmCtrl [k - 5] 31 || !(x.io.tdm[Fin.ofNat 4 (k - 5)]).clockOk
   else x.io.ufs.xfer.isNone && x.sec.loads.isEmpty)

/-- The interface blocks at their boundaries. -/
def ioApplyReady (x : Die) : Die :=
  (List.range 10).foldl (fun (y : Die) k => if ioReady y k then ioApply k y else y) x

end Sys2Proof.Machine
end

