-- ==== Sys2Proof/Machine/Camera.lean ====
section
/-! DEFINITION. Sys2Proof/Machine/Camera.lean: the camera and audio inputs (R540 to R548, R493): selecting, cropping and
writing frames, records, fences and watchdogs. -/
namespace Sys2Proof.Machine

/-! ### Writes to both dies of a pair (R29) -/

/-- A write that die B performs on its own copy of a paired context: a fault there is recorded and freezes nothing. -/
def siblingWrite (p x : Die) (m : Master) (c va : Nat) (bs : List Byte) : Die :=
  match tryUnit p x m c [{ va := va, len := bs.length, acc := accWrite }] with
  | (x, .ok pm) => storeBytes p x c pm va bs
  | (x, .error (.fault cls v fl d th)) => x.note cls m { flags := fl, ctx := c, va := v, detail := d, thing := th }
  | (x, .error (.mig _ _ _ _ _ _)) => x

def siblingSignal (p x : Die) (m : Master) (c va : Nat) (v : DWord) : Die :=
  match tryUnit p x m c [{ va := va, len := 8, acc := accAtomic }] with
  | (x, .ok pm) =>
    let old := ofLe (viewBytes x pm va 8)
    if old < v.toNat then storeBytes p x c pm va (leBytes 8 v.toNat) else x
  | (x, .error (.fault cls w fl d th)) => x.note cls m { flags := fl, ctx := c, va := w, detail := d, thing := th }
  | (x, .error (.mig _ _ _ _ _ _)) => x

/-- A context of die A that also exists on die B, over a bridge that is up (R29). -/
def State.pairedCtx (s : State) (d : DieId) (c : Nat) : Bool :=
  let x := s.die d
  decide (d = .a) && x.pair.mode == 1 && x.pair.bridgeUp && !x.pair.lost && (match x.ctx? c with
    | some k => k.attr.getLsbD 0
    | none => false)

/-- A write unit of a port, on both dies for a paired context. -/
def writeBoth (s : State) (d : DieId) (m : Master) (c va : Nat) (bs : List Byte) : State × Bool :=
  let pc := s.pairedCtx d c
  match writeUnit (s.die d.other) (s.die d) m c va bs accWrite with
  | (x, true) =>
    let s := s.setDie d x
    (if pc then s.onDie d.other (fun y => siblingWrite (s.die d) y m c va bs) else s, true)
  | (x, false) => (s.setDie d x, false)

/-- A fence signal of a port, on both dies for a paired context. -/
def signalBoth (s : State) (d : DieId) (m : Master) (c va : Nat) (v : DWord) : State × Bool :=
  let pc := s.pairedCtx d c
  match signalUnit (s.die d.other) (s.die d) m c va v with
  | (x, some _) =>
    let s := s.setDie d x
    (if pc then s.onDie d.other (fun y => siblingSignal (s.die d) y m c va v) else s, true)
  | (x, none) => (s.setDie d x, false)

/-! ### CSI ports -/

def Die.csi (x : Die) (q : Fin 4) : CsiPort := x.io.csi[q]

def Die.updCsi (x : Die) (q : Fin 4) (f : CsiPort → CsiPort) : Die := { x with io.csi := vmod x.io.csi q f }

def Die.csiEn (x : Die) (q : Fin 4) : Bool := x.running && x.fldBit .csiCtrl [q.val] 31

def csiCtx (x : Die) (q : Fin 4) : Nat := x.fld .csiCtrl [q.val] 9 0

/-- The slot of frame n (R542). -/
def csiSlot (x : Die) (q : Fin 4) (n : DWord) : Nat :=
  let nbuf := x.fld .csiCtrl [q.val] 15 12 + 1
  vaOf (x.regI .csiBufLo [q.val]) (x.regI .csiBufHi [q.val]) + 4096 * x.fld .csiGeom [q.val] 15 0 * ((n.toNat + nbuf - 1) % nbuf)

/-- Bits of a frame record's STATUS. -/
def csIncomplete : BitVec 5 := 1
def csCrcErr : BitVec 5 := 2
def csOverrun : BitVec 5 := 4
def csLineLength : BitVec 5 := 8
def csLineWatchdog : BitVec 5 := 16

/-- The frame record (R542). -/
def frameRecord (x : Die) (q : Fin 4) : List Byte :=
  let t := x.csi q
  leBytes 8 t.frame.toNat ++ leBytes 4 t.status.toNat ++ leBytes 4 t.written ++ leBytes 8 t.startTime.toNat ++
    leBytes 8 x.time.toNat ++ leBytes 2 (x.fld .csiCropWh [q.val] 15 0) ++ leBytes 2 (x.fld .csiCropWh [q.val] 31 16) ++
    [BitVec.ofNat 8 (x.fld .csiCtrl [q.val] 27 24), BitVec.ofNat 8 (x.fld .csiCtrl [q.val] 21 16)] ++ leBytes 26 0

/-- A frame ends (R542, R544): one that is written has its record and its fence. -/
def endFrame (s : State) (d : DieId) (q : Fin 4) (extra : BitVec 5) : State :=
  let s := s.onDie d (fun x => x.updCsi q (fun t => { t with status := t.status ||| extra }))
  let x := s.die d
  let t := x.csi q
  let close : Die → Die := fun x => x.updCsi q (fun t => { t with inFrame := false, dropping := false })
  if !t.inFrame || t.dropping || t.lost || t.frozen.isSome then s.onDie d close else
  let flags : Die → Die := fun x =>
    let x := if extra.getLsbD 0 then (x.flagI .csiFlags [q.val] 5).countI .csiIncompleteCnt [q.val] 1 else x
    if extra.getLsbD 2 then x.flagI .csiFlags [q.val] 4 else x
  let s := s.onDie d flags
  let x := s.die d
  let c := csiCtx x q
  let fence := vaOf (x.regI .csiFenceLo [q.val]) (x.regI .csiFenceHi [q.val])
  (thenOk (writeBoth s d (.csi q) c (csiSlot x q t.frame) (frameRecord x q)) (fun s =>
    thenOk (signalBoth s d (.csi q) c fence t.frame) (fun s => s.onDie d (fun x => x.countI .csiFrameCnt [q.val] 1)))).onDie d close

/-- CSI_PACKET (R540): a header is corrected or discarded, and a long packet selected or counted. -/
def csiPacketDie (q : Fin 4) (hdr : CsiHeader) (x : Die) : Die :=
  if !x.csiEn q then x else
  let x := x.updCsi q (fun t => { t with locked := true, selected := false })
  if hdr.errs = 2 then (x.flagI .csiFlags [q.val] 2).countI .csiEccUncorrCnt [q.val] 1 else
  let x := if hdr.errs = 1 then x.countI .csiEccCorrCnt [q.val] 1 else x
  let mine := hdr.vc.toNat == x.fld .csiCtrl [q.val] 27 24
  if mine && hdr.dt.toNat == x.fld .csiCtrl [q.val] 21 16 then x.updCsi q (fun t => { t with selected := true })
  else if mine && decide (hdr.dt.toNat < 4) then x
  else x.countI .csiOtherCnt [q.val] 1

def execCsiPacket (d : DieId) (p : Fin 4) (hdr : CsiHeader) (s : State) : Out := nextOn d (csiPacketDie p hdr) s

/-- The release fence is read before a frame is written (R543): none when the read is held. -/
def releaseCheck (p x : Die) (q : Fin 4) (n : DWord) : Die × Option Bool :=
  let va := vaOf (x.regI .csiReleaseLo [q.val]) (x.regI .csiReleaseHi [q.val])
  if va = 0 then (x, some false) else
  match fenceUnit p x (.csi q) (csiCtx x q) va with
  | (x, some v) => (x, some (decide (v.toNat + x.fld .csiCtrl [q.val] 15 12 + 1 < n.toNat)))
  | (x, none) => (x, none)

/-- A frame begins on an enabled port: it takes its count, is discarded while the port is frozen, or dropped. -/
def beginFrame (q : Fin 4) (p x : Die) : Die :=
  if !x.csiEn q then x else
  let n := (x.csi q).frame + 1
  let x := x.updCsi q (fun t => { t with frame := n, lastStart := x.time, lastLine := x.time, startTime := x.time,
                                         inFrame := true, dropping := false, lost := t.frozen.isSome, lineNo := 0, written := 0,
                                         status := 0, locked := true })
  if (x.csi q).frozen.isSome then x.countI .csiDiscardCnt [q.val] 1 else
  match releaseCheck p x q n with
  | (x, none) => x
  | (x, some false) => x
  | (x, some true) =>
    (x.flagI .csiFlags [q.val] 3).countI .csiDropCnt [q.val] 1 |>.updCsi q (fun t => { t with dropping := true })

/-- CSI_FRAME_START (R542 to R544): a frame still in progress ends as incomplete; the port's boundary comes before the new
frame. -/
def execCsiFrameStart (d : DieId) (p : Fin 4) (s : State) : Out :=
  if !(s.die d).csiEn p then .next s else
  let s := if ((s.die d).csi p).inFrame then endFrame s d p csIncomplete else s
  .next (s.onDie d (fun x => beginFrame p (s.die d.other) (ioApply (p.val + 1) x)))

/-- Received samples of a RAW line's payload; the packing is that of CSI-2. -/
def rawSamples (dt : Nat) (b : List Byte) : List Nat :=
  let g := fun (i : Nat) => (b.getD i 0).toNat
  let n := b.length
  match dt with
  | 0x2A => (List.range n).map g
  | 0x2B => (List.range (n / 5 * 4)).map (fun i => 4 * g (i / 4 * 5 + i % 4) + g (i / 4 * 5 + 4) / 4 ^ (i % 4) % 4)
  | 0x2C => (List.range (n / 3 * 2)).map (fun i => 16 * g (i / 2 * 3 + i % 2) + g (i / 2 * 3 + 2) / 16 ^ (i % 2) % 16)
  | _ => (List.range (n / 2)).map (fun i => 256 * g (2 * i) + g (2 * i + 1))

/-- Pixels of a line, as the bytes that are written (R541). -/
def linePixels (dt black : Nat) (b : List Byte) : List (List Byte) :=
  if dt = csiYuv then (List.range (b.length / 2)).map (fun i => field b (2 * i) 2)
  else (rawSamples dt b).map (fun v => leBytes 2 (v - black))

/-- One line of the frame is written, cropped; a short one with zeros (R541). -/
def writeLine (s : State) (d : DieId) (q : Fin 4) (payload : List Byte) : State :=
  let x := s.die d
  let t := x.csi q
  let y0 := x.fld .csiCropXy [q.val] 31 16
  let x0 := x.fld .csiCropXy [q.val] 15 0
  let h := x.fld .csiCropWh [q.val] 31 16
  let w := x.fld .csiCropWh [q.val] 15 0
  let px := linePixels (x.fld .csiCtrl [q.val] 21 16) (x.fld .csiBlack [q.val] 15 0) payload
  let count : Die → Die := fun x => x.updCsi q (fun t => { t with lineNo := t.lineNo + 1 })
  if t.lineNo < y0 ∨ y0 + h ≤ t.lineNo then s.onDie d count else
  let row := ((List.range w).map (fun i => px.getD (x0 + i) [0, 0])).flatten
  let short := decide (px.length < x0 + w)
  let va := csiSlot x q t.frame + 64 + 64 * x.fld .csiGeom [q.val] 31 16 * (t.lineNo - y0)
  thenOk (writeBoth s d (.csi q) (csiCtx x q) va row) (fun s => s.onDie d (fun x => (count x).updCsi q (fun t =>
    { t with written := t.written + 1, status := if short then t.status ||| csLineLength else t.status })))

/-- CSI_LINE (R541, R545): a line of the selected stream; an overflow of the formatter's buffer ends the frame (R544). -/
def execCsiLine (d : DieId) (p : Fin 4) (payload : List Byte) (crcOk overflow : Bool) (s : State) : Out :=
  let x := s.die d
  if !x.csiEn p || !(x.csi p).inFrame || !(x.csi p).selected then .next s else
  let s := s.onDie d (fun x => x.updCsi p (fun t => { t with lastLine := x.time, selected := false }))
  if (x.csi p).frozen.isSome || (x.csi p).lost || (x.csi p).dropping then .next s
  else if overflow then .next (endFrame s d p (csIncomplete ||| csOverrun))
  else
    let s := if crcOk then s else s.onDie d (fun x =>
      ((x.flagI .csiFlags [p.val] 1).countI .csiCrcErrCnt [p.val] 1).updCsi p (fun t => { t with status := t.status ||| csCrcErr }))
    .next (writeLine s d p payload)

/-- CSI_FRAME_END (R542). -/
def execCsiFrameEnd (d : DieId) (p : Fin 4) (s : State) : Out :=
  let x := s.die d
  if x.csiEn p && (x.csi p).inFrame then .next (endFrame s d p 0) else .next s

/-- A watchdog's flag, counter and record (R493). -/
def csiWatchdog (q : Fin 4) (line : Nat) (x : Die) : Die :=
  ((x.flagI .csiFlags [q.val] 0).countI .csiWdogCnt [q.val] 1).note clsCsiWatchdog (.csi q)
    (FaultInfo.plain (csiCtx x q) line)

/-- CSI_LINE_WATCHDOG (R493, R544): the frame in progress ends as incomplete. -/
def execCsiLineWatchdog (d : DieId) (p : Fin 4) (s : State) : Out :=
  let x := s.die d
  if x.csiEn p && (x.csi p).inFrame && x.passed (x.csi p).lastLine (x.fld .csiWdog [p.val] 31 16) then
    .next (endFrame (s.onDie d (csiWatchdog p 1)) d p (csIncomplete ||| csLineWatchdog))
  else .next s

/-- CSI_FRAME_WATCHDOG (R493): it fires again after each further limit. -/
def execCsiFrameWatchdog (d : DieId) (p : Fin 4) (s : State) : Out :=
  nextOn d (fun x =>
    if x.csiEn p && x.passed (x.csi p).lastStart (1000 * x.fld .csiWdog [p.val] 15 0) then
      (csiWatchdog p 0 x).updCsi p (fun t => { t with lastStart := x.time })
    else x) s

/-! ### TDM ports -/

def Die.tdm (x : Die) (q : Fin 4) : TdmPort := x.io.tdm[q]

def Die.updTdm (x : Die) (q : Fin 4) (f : TdmPort → TdmPort) : Die := { x with io.tdm := vmod x.io.tdm q f }

def Die.tdmEn (x : Die) (q : Fin 4) : Bool := x.running && x.fldBit .tdmCtrl [q.val] 31

def tdmCtx (x : Die) (q : Fin 4) : Nat := x.fld .tdmCtrl [q.val] 9 0

/-- A captured sample as it is written: WIDTH received bits at the top of the word (R547). -/
def tdmSample (width : Nat) (v : Word) : List Byte :=
  let n := 16 + 8 * width
  leBytes 4 (v.toNat % 2 ^ n * 2 ^ (32 - n))

/-- A block is written, then its header, then its fence signalled with its count (R547). -/
def writeBlock (s : State) (d : DieId) (q : Fin 4) (samples : List Word) : State :=
  let x := s.die d
  let t := x.tdm q
  let k := t.block + 1
  let nbuf := x.fld .tdmBlock [q.val] 23 16 + 1
  let frames := x.fld .tdmBlock [q.val] 12 0
  let n := slotCount (x.regI .tdmSlotMask [q.val]) * frames
  let b := vaOf (x.regI .tdmBufLo [q.val]) (x.regI .tdmBufHi [q.val]) +
    64 * x.fld .tdmStride [q.val] 15 0 * ((k.toNat + nbuf - 1) % nbuf)
  let width := x.fld .tdmCtrl [q.val] 17 16
  let c := tdmCtx x q
  let body := ((List.range n).map (fun i => tdmSample width (samples.getD i 0))).flatten
  let head := leBytes 8 k.toNat ++ leBytes 8 t.startTime.toNat ++ leBytes 4 (b2n t.resumed) ++ leBytes 4 frames ++ leBytes 8 0
  let fence := vaOf (x.regI .tdmFenceLo [q.val]) (x.regI .tdmFenceHi [q.val])
  let s := s.onDie d (fun x => x.updTdm q (fun t => { t with block := k, startTime := x.time, resumed := false }))
  thenOk (if n = 0 then (s, true) else writeBoth s d (.tdm q) c (b + 32) body) (fun s =>
    thenOk (writeBoth s d (.tdm q) c b head) (fun s =>
      thenOk (signalBoth s d (.tdm q) c fence k) (fun s => s.onDie d (fun x => x.countI .tdmBlockCnt [q.val] 1))))

/-- TDM_BLOCK_DONE (R547, R548): a block boundary. The frames of a block within which the port was frozen are discarded and
counted, all of them (log entry 160). -/
def execTdmBlockDone (d : DieId) (p : Fin 4) (samples : List Word) (s : State) : Out :=
  let x := s.die d
  if !x.tdmEn p || !(x.tdm p).clockOk then .next s else
  let s :=
    if (x.tdm p).lost then
      s.onDie d (fun x => (x.countI .tdmDiscardCnt [p.val] (x.fld .tdmBlock [p.val] 12 0)).updTdm p
        (fun t => { t with startTime := x.time, lost := t.frozen.isSome }))
    else writeBlock s d p samples
  .next (s.onDie d (fun x => ioApply (p.val + 5) x))

/-- TDM_CLOCK_LOSS (R548, R493): the block in progress is discarded. -/
def tdmLossDie (q : Fin 4) (bclk fsync : Bool) (x : Die) : Die :=
  if !x.tdmEn q || !(x.tdm q).clockOk || !(bclk || fsync) then x else
  ((x.updTdm q (fun t => { t with clockOk := false })).countI .tdmClockLossCnt [q.val] 1).note clsTdmClock (.tdm q)
    (FaultInfo.plain (tdmCtx x q) (b2n bclk + 2 * b2n fsync))

def execTdmClockLoss (d : DieId) (p : Fin 4) (bclk fsync : Bool) (s : State) : Out :=
  nextOn d (tdmLossDie p bclk fsync) s

/-- TDM_RESUME (R548): after 256 good frames a new block begins, marked RESUMED. -/
def execTdmResume (d : DieId) (p : Fin 4) (s : State) : Out :=
  nextOn d (fun x => if x.tdmEn p && !(x.tdm p).clockOk then
    x.updTdm p (fun t => { t with clockOk := true, resumed := true, startTime := x.time, lost := t.frozen.isSome }) else x) s

end Sys2Proof.Machine
end

