-- ==== Sys2Proof/Machine/Storage.lean ====
section
/-! DEFINITION. Sys2Proof/Machine/Storage.lean: UFS transfers (R549, R550) and the boot flash (R551, R552). -/
namespace Sys2Proof.Machine

/-! ### UFS -/

/-- A GO write is refused (R550, R99). -/
def ufsGoRefused (x : Die) (v : Word) : Bool :=
  let lu := wbits v 2 0
  x.fld .ufsLuOwner [lu] 9 0 == 0 || x.io.ufs.xfer.isSome || x.reg .ufsXferCount == 0 ||
  (lu == x.fld .ufsCfg [] 2 0 && v.getLsbD 31 && !x.fldBit .ufsCfg [] 8)

/-- A write of UFS_XFER_GO starts a transfer. -/
def ufsGo (x : Die) (v : Word) : Die :=
  let lu := wbits v 2 0
  let w64 := fun (lo hi : Reg) => (x.reg lo).toNat + (x.reg hi).toNat * 2 ^ 32
  let t : UfsXfer :=
    { write := v.getLsbD 31, lu := lu, ctx := x.fld .ufsLuOwner [lu] 9 0, lba := w64 .ufsXferLbaLo .ufsXferLbaHi,
      va := vaOf (x.reg .ufsXferVaLo) (x.reg .ufsXferVaHi), count := (x.reg .ufsXferCount).toNat,
      fence := vaOf (x.reg .ufsXferFenceLo) (x.reg .ufsXferFenceHi),
      value := BitVec.ofNat 64 (w64 .ufsXferValueLo .ufsXferValueHi), frozen := none,
      ahead := x.sec.loads.length }
  { x with io.ufs.xfer := some t }

def execUfsXferGo (d : DieId) (v : Word) (s : State) : Out :=
  nextOn d (fun x => if x.running && !ufsGoRefused x v then ufsGo x v else x) s

/-- The 4 KiB units of a transfer: written to memory, or read from it; false once one is held. -/
def ufsUnits (p : Die) (t : UfsXfer) (data : List Byte) : Nat → Nat → Die → Die × Bool
  | 0, _, x => (x, true)
  | n + 1, i, x =>
    let va := t.va + 4096 * i
    if t.write then
      match readUnit p x .ufs t.ctx va 4096 accRead with
      | (x, some _) => ufsUnits p t data n (i + 1) x
      | (x, none) => (x, false)
    else
      match writeUnit p x .ufs t.ctx va ((List.range 4096).map (fun k => data.getD (4096 * i + k) 0)) accWrite with
      | (x, true) => ufsUnits p t data n (i + 1) x
      | (x, false) => (x, false)

/-- The end of a transfer: its status at FENCE + 8, then its fence. -/
def ufsFinish (p x : Die) (t : UfsXfer) (ok : Bool) : Die :=
  thenOk (writeUnit p x .ufs t.ctx (t.fence + 8) (leBytes 8 (if ok then 0 else 8)) accWrite) (fun x =>
    match signalUnit p x .ufs t.ctx t.fence t.value with
    | (x, none) => x
    | (x, some _) =>
      let x := { x with io.ufs.xfer := none }
      let x := if ok then x else x.count .ufsErrCnt
      ioApplyReady (x.count .ufsXferCnt))

/-- UFS_XFER_DONE (R550): the device has answered the transfer; a transfer that is held, or that image loads started before,
stays in progress. -/
def ufsDoneDie (readOk : Bool) (data : List Byte) (p x : Die) : Die :=
  match x.io.ufs.xfer with
  | none => x
  | some t =>
    if !x.running || t.frozen.isSome || decide (t.ahead ≠ 0) || !x.io.ufs.linkUp then x
    else if !readOk then ufsFinish p x t false
    else thenOk (ufsUnits p t data t.count 0 x) (fun x => ufsFinish p x t true)

def execUfsXferDone (d : DieId) (readOk : Bool) (data : List Byte) (s : State) : Out :=
  nextOn d (ufsDoneDie readOk data (s.die d.other)) s

/-! ### Boot flash -/

/-- An erased byte. -/
def erasedByte : Nat → Byte := fun _ => 0xFF

def Flash.byte (f : Flash) (a : Nat) : Byte := spGet erasedByte f.cells a

def Flash.bytes (f : Flash) (a n : Nat) : List Byte := (List.range n).map (fun i => f.byte (a + i))

def Flash.store (f : Flash) (a : Nat) : List Byte → Flash
  | [] => f
  | b :: bs => Flash.store { f with cells := spSet erasedByte f.cells a b } (a + 1) bs

def slotBytes : Nat := 0x800000

/-- The address lies in the slot that BOOT_SRC names: 1 slot A, 2 slot B. -/
def inBootSlot (x : Die) (a : Nat) : Bool :=
  (x.sec.bootSrc == 1 && decide (a < slotBytes)) || (x.sec.bootSrc == 2 && decide (slotBytes ≤ a) && decide (a < 2 * slotBytes))

/-- An XSP_CMD write is refused (R552, R99). -/
def xspRefused (x : Die) (cmd : Nat) : Bool :=
  let a := x.fld .xspAddr [] 27 0
  cmd == 0 || x.io.flash.cmd.isSome || !aligned a (if cmd = 1 then 65536 else 256) || (cmd != 3 && inBootSlot x a)

/-- XSP_BUF as a page's bytes. -/
def xspPage (x : Die) : List Byte := ((List.range 64).map (fun i => leBytes 4 (x.regI .xspBuf [i]).toNat)).flatten

/-- A command begins in the flash. -/
def xspStart (cmd : Nat) (x : Die) : Die :=
  if !x.running || xspRefused x cmd then x else
  { x with io.flash.cmd := some (cmd, x.fld .xspAddr [] 27 0, if cmd = 2 then xspPage x else []), io.flash.since := x.time }

def execXspErase (d : DieId) (s : State) : Out := nextOn d (xspStart 1) s

def execXspProgram (d : DieId) (s : State) : Out := nextOn d (xspStart 2) s

def execXspRead (d : DieId) (s : State) : Out := nextOn d (xspStart 3) s

/-- A command that fails: ERROR sets and is counted. -/
def xspFail (x : Die) : Die := (({ x with io.flash.cmd := none } : Die).flag .xspStatus 1).count .xspErrCnt

/-- A command that ends well. -/
def xspEnd (cmd a : Nat) (buf : List Byte) (x : Die) : Die :=
  let x := { x with io.flash.cmd := none }
  if cmd = 1 then { x with io.flash.cells := spClear a (a + 65536) x.io.flash.cells }
  else if cmd = 2 then { x with io.flash := x.io.flash.store a buf }
  else (List.range 64).foldl (fun (y : Die) i =>
    y.setRegI .xspBuf [i] (BitVec.ofNat 32 (ofLe (x.io.flash.bytes (a + 4 * i) 4)))) x

/-- XSP_CMD_DONE (R552). -/
def xspDoneDie (ok : Bool) (x : Die) : Die :=
  match x.io.flash.cmd with
  | none => x
  | some (cmd, a, buf) => if ok then xspEnd cmd a buf x else xspFail x

def execXspCmdDone (d : DieId) (ok : Bool) (s : State) : Out := nextOn d (xspDoneDie ok) s

/-- XSP_BUSY_TIMEOUT (R552): busy for 4 s. -/
def execXspBusyTimeout (d : DieId) (s : State) : Out :=
  nextOn d (fun x => if x.io.flash.cmd.isSome && x.passed x.io.flash.since 4000000 then xspFail x else x) s

end Sys2Proof.Machine
end

