-- ==== Sys2Proof/Machine/Clocks.lean ====
section
/-! DEFINITION. Sys2Proof/Machine/Clocks.lean: the reference clock (R455), arbiters (R460 to R466), presses at the units
(R467 to R473) and parity of control storage and configuration registers (R480, R481). -/
namespace Sys2Proof.Machine

/-- REF_LOST (R455): holdover, which only a reset ends. -/
def refLostDie (x : Die) : Die :=
  if !x.power.pllLock && decide (x.dev ≠ .hold) || x.power.holdover || x.dev = .off || x.power.inReset then x else
  let x := { x with power.refOk := false, power.holdover := true }
  (((x.flag .clkFlags 0).count .clkRefLostCnt).note clsRefClock .clockCtl (FaultInfo.plain 0 0)).enterSafe

def execRefLost (d : DieId) (s : State) : Out := nextOn d refLostDie s

/-! ### Arbiters -/

/-- The quota register of an arbiter, and the unit of R469 that applies it. -/
def arbQuotaReg (a : ArbId) : Reg × Nat :=
  match a with
  | .fabricPort _ => (.arbQuotaFabric, 37)
  | .sliceInput _ => (.arbQuotaFabric, 37)
  | .dram _ => (.arbQuotaDram, 38)
  | .linkOutput _ => (.arbQuotaLink, 39)

/-- The word that an arbiter takes at its window boundary: the pending press's, where its unit is concerned (R466). -/
def arbWord (x : Die) (r : Reg) (u : Nat) : Word :=
  if x.unitWaits u && !x.shadowFails u then rwpMerge r (x.reg r) (x.pressedI r []) else x.reg r

/-- An arbiter at the start of a window. -/
def freshArb (x : Die) (a : ArbId) : Arb :=
  let w := arbWord x (arbQuotaReg a).1 (arbQuotaReg a).2
  { id := a, highPtr := 0, normPtr := 0, used := [], high := arbWord x .arbHigh 37, quota := wbits w 15 8, window := 16 * 2 ^ wbits w 1 0,
    emergency := false, abandoned := none, hints := [] }

def Die.arb (x : Die) (a : ArbId) : Arb := (x.arbs.find? (fun t => decide (t.id = a))).getD (freshArb x a)

def Die.setArb (x : Die) (t : Arb) : Die :=
  if x.arbs.any (fun u => decide (u.id = t.id)) then
    { x with arbs := updWhere (fun u => decide (u.id = t.id)) (fun _ => t) x.arbs }
  else { x with arbs := x.arbs ++ [t] }

/-- Inputs of an arbiter: the classes 1 to 11 at a slice, the four paths of a core, a controller's misses, drains, fill
engine and MIR traffic, a link's three kinds. -/
def arbInputs (a : ArbId) : Nat :=
  match a with
  | .fabricPort _ => 4
  | .sliceInput _ => 12
  | .dram _ => 4
  | .linkOutput _ => 3

/-- An input is HIGH (R461). `ready` is the cycle's word: bit k, input k is ready; bit 16 + k, at a controller, its request
was granted HIGH at its slice. -/
def Arb.isHigh (t : Arb) (ready : Word) (k : Nat) : Bool :=
  match t.id with
  | .fabricPort _ => t.high.getLsbD 3
  | .sliceInput _ => t.high.getLsbD k && k != 0
  | .dram _ => decide (k < 2) && ready.getLsbD (16 + k)
  | .linkOutput _ => t.high.getLsbD (16 + k)

/-- The first of a set of inputs at or after a pointer. -/
def firstFrom (n ptr : Nat) (ok : Nat → Bool) : Option Nat := ((List.range n).map (fun i => (ptr + i) % n)).find? ok

/-- What a window has counted so far. -/
structure ArbRun where
  arb : Arb
  masked : Nat
  idle : Nat
  deriving DecidableEq, Repr

def Arb.usedBy (t : Arb) (k : Nat) : Nat := (t.used.lookup k).getD 0

def bumpUsed (l : List (Nat × Nat)) (k : Nat) : List (Nat × Nat) :=
  if l.any (fun q => q.1 == k) then updWhere (fun q => q.1 == k) (fun q => (k, q.2 + 1)) l else l ++ [(k, 1)]

/-- One cycle of an arbiter (R461, R462): the first transfer abandoned by an emergency use comes ahead of all. -/
def arbCycle (r : ArbRun) (ready : Word) : ArbRun :=
  let t := r.arb
  let n := arbInputs t.id
  let isReady := fun (k : Nat) => decide (k < 16) && ready.getLsbD k
  let high := t.isHigh ready
  let masked := fun (k : Nat) => high k && decide (t.quota ≤ t.usedBy k)
  if t.abandoned.isSome then
    { r with arb := { t with abandoned := none, emergency := false },
             masked := r.masked + b2n ((List.range n).any (fun k => isReady k && masked k)) }
  else
    match firstFrom n t.highPtr (fun k => isReady k && high k && !masked k) with
    | some k => { r with arb := { t with highPtr := (k + 1) % n, used := bumpUsed t.used k },
                         masked := r.masked + b2n ((List.range n).any (fun k => isReady k && masked k)) }
    | none =>
      match firstFrom n t.normPtr (fun k => isReady k && !high k) with
      | some k => { r with arb := { t with normPtr := (k + 1) % n },
                           masked := r.masked + b2n ((List.range n).any (fun k => isReady k && masked k)) }
      | none =>
        match firstFrom n t.highPtr (fun k => isReady k && masked k) with
        | some k => { r with arb := { t with highPtr := (k + 1) % n }, idle := r.idle + 1,
                             masked := r.masked + b2n ((List.range n).any (fun i => i != k && isReady i && masked i)) }
        | none => r

/-- The ready requesters of a cycle in the order in which R461 would grant them. -/
def arbRanked (t : Arb) (ready : Word) : List Nat :=
  let n := arbInputs t.id
  let isReady := fun (k : Nat) => decide (k < 16) && ready.getLsbD k
  let high := t.isHigh ready
  let masked := fun (k : Nat) => high k && decide (t.quota ≤ t.usedBy k)
  let turn := fun (ptr : Nat) => ((List.range n).map (fun i => (ptr + i) % n)).filter isReady
  (turn t.highPtr).filter (fun k => high k && !masked k) ++ (turn t.normPtr).filter (fun k => !high k) ++
    (turn t.highPtr).filter masked

/-- The code of a turn hint: the largest whose bound is at most `n`. -/
def turnCode (n : Nat) : BitVec 3 :=
  BitVec.ofNat 3 (((List.range 8).filter (fun c => decide (([0, 1, 2, 4, 8, 16, 32, 64] : List Nat).getD c 0 ≤ n))).length - 1)

/-- The hints of a cycle (R464): each requester that is not granted counts those ranked ahead of it, an abandoned transfer
that is presented again among them. -/
def arbHints (t : Arb) (ready : Word) : List (Nat × BitVec 3) :=
  let l := arbRanked t ready
  let all := (List.range l.length).map (fun i => (l.getD i 0, turnCode (if t.abandoned.isSome then i + 1 else i)))
  if t.abandoned.isSome then all else all.drop 1

/-- A cycle's grant, with the hints that it leaves. -/
def hintedCycle (r : ArbRun) (ready : Word) : ArbRun :=
  let q := arbCycle r ready
  { q with arb := { q.arb with hints := arbHints r.arb ready } }

/-- ARB_WINDOW_END (R462, R466): the requests of the window's cycles have been granted; HIGH quotas are restored, and the
pressed settings begin with the new window. -/
def windowEndDie (a : ArbId) (ready : List Word) (x : Die) : Die :=
  if !x.running then x else
  let t := x.arb a
  let r := (ready.take t.window).foldl hintedCycle { arb := t, masked := 0, idle := 0 }
  let w := arbWord x (arbQuotaReg a).1 (arbQuotaReg a).2
  let t := { r.arb with used := [], high := arbWord x .arbHigh 37, quota := wbits w 15 8, window := 16 * 2 ^ wbits w 1 0 }
  ((x.setArb t).countN .arbMaskCnt r.masked).countN .arbIdleFillCnt r.idle

def execArbWindowEnd (d : DieId) (arb : ArbId) (ready : List (BitVec 32)) (s : State) : Out :=
  nextOn d (windowEndDie arb ready) s

/-- The emergency requester of an arbiter may ask: refresh always, the debug port after an unlock (R463). -/
def emergencyOk (x : Die) (a : ArbId) : Bool :=
  match a with
  | .dram _ => x.dram.trained && !x.dram.selfRefresh
  | .fabricPort _ => decide (1 ≤ x.sec.dbgLevel)
  | .sliceInput _ => decide (1 ≤ x.sec.dbgLevel)
  | .linkOutput _ => false

/-- EMERGENCY_GRANT (R463): the holder's transfer is abandoned without effect and comes first afterwards. -/
def emergencyDie (a : ArbId) (holding : Option Master) (x : Die) : Die :=
  if !x.running || !emergencyOk x a then x else
  let t := x.arb a
  match holding with
  | none => x.setArb { t with emergency := true }
  | some m => (x.setArb { t with emergency := true, abandoned := some m }).count .arbEmergCnt

def execEmergencyGrant (d : DieId) (arb : ArbId) (holding : Option Master) (s : State) : Out :=
  nextOn d (emergencyDie arb holding) s

/-- DETAIL of ARB_WATCHDOG (R490): the arbiter's kind and instance. -/
def arbDetail (a : ArbId) : Nat :=
  match a with
  | .fabricPort c => 256 * (16 * c.cl.val + c.core.val)
  | .sliceInput sl => 1 + 256 * sl.val
  | .dram ch => 2 + 256 * ch.val
  | .linkOutput l => 3 + 256 * l.toNat

/-- The context for which a master acts. -/
def Die.masterCtx (x : Die) (m : Master) : Nat :=
  let jobCtx := fun (slot : Nat) => match x.job? slot with
    | some j => j.ctx
    | none => 0
  let passCtx := fun (q : Fin 4) => match x.passes[q] with
    | some t => t.ctx
    | none => 0
  match m with
  | .group g => (match x.group? g with | some t => t.ctx | none => 0)
  | .texture g => (match x.group? g with | some t => t.ctx | none => 0)
  | .stream _ j => jobCtx j
  | .raster _ q => passCtx q
  | .frontEnd q => passCtx q
  | .layer q l => lCtx ((x.pipes[q]).layers[l]).active
  | .writeback q => x.fld .dspPipeWbHi [q.val] 25 16
  | .copy e => (match (x.jobs.copies[e]).job with | some j => jobCtx j | none => 0)
  | .wringer e => (x.wringers[e]).ctx
  | .usb ch => (match x.cmd.xfers[ch] with | some t => t.ctx | none => 0)
  | .cmdProc c _ => c
  | .csi q => csiCtx x q
  | .tdm q => tdmCtx x q
  | .ufs => (match x.io.ufs.xfer.filter (fun t => t.ahead == 0), x.sec.loads with
      | some t, _ => t.ctx
      | none, l :: _ => l.ctx
      | none, [] => 0)
  | _ => 0

/-- ARB_WATCHDOG (R465): the holder of a grant is frozen; refresh and the debug port are not watched. -/
def arbWatchdogDie (a : ArbId) (holder : Master) (x : Die) : Die :=
  if !x.running || (x.arb a).emergency then x else
  (x.count .arbWdogCnt).faultMaster clsArbWatchdog holder
    { flags := 0, ctx := x.masterCtx holder, va := 0, detail := arbDetail a, thing := arbDetail a }

def execArbWatchdog (d : DieId) (arb : ArbId) (holder : Master) (s : State) : Out :=
  nextOn d (arbWatchdogDie arb holder) s

/-! ### Presses at the units -/

/-- A unit without checks applies the pending press, or refuses a shadow whose parity failed (R481). -/
def applyPlain (u : Nat) (x : Die) : Die :=
  if !x.unitWaits u then x
  else if x.shadowFails u then x.unitRefuses u
  else x.unitApplies u

def linkIds : List (Fin 3) := [0, 1, 2]

/-- Links follow their EN bits (R403): one that is enabled trains, one whose EN is cleared is DISABLED. -/
def linksFollow (x : Die) : Die :=
  linkIds.foldl (fun (y : Die) l =>
    let en := (y.reg .torLinkCtrl).getLsbD l.val
    let st := (y.link l).state
    if en && st == LinkState.disabled then y.linkEnter l .signal
    else if !en && st != LinkState.disabled then
      (y.linkDownOp l 1).updLink l (fun k => { k with state := .disabled, cause := 1 })
    else y) x

/-- All links of a die that are not DISABLED go DOWN with a cause. -/
def linksDown (cause : BitVec 3) (x : Die) : Die := linkIds.foldl (fun (y : Die) l => y.linkDownOp l cause) x

/-- The dies hold different coordinates: every link that is not DISABLED is DOWN with cause 4, and COORD_MISMATCH sets (R405). -/
def linksMismatch (x : Die) : Die :=
  (linkIds.foldl (fun (y : Die) l => y.updLink l (fun k => if k.state = .down then { k with cause := 4 } else k))
    (linksDown 4 x)).flag .torFlags 3

/-- The enabled links of a die that are DOWN train again. -/
def linksTrain (x : Die) : Die :=
  linkIds.foldl (fun (y : Die) l =>
    if (y.reg .torLinkCtrl).getLsbD l.val && (y.link l).state == LinkState.down then y.linkEnter l .signal else y) x

/-- The pressed coordinates lie within the pressed ring sizes. -/
def coordsFit (x : Die) : Bool :=
  let node := wbits (rwpMerge .torNode (x.reg .torNode) (x.pressedI .torNode [])) 13 0
  let dim := wbits (rwpMerge .torDim (x.reg .torDim) (x.pressedI .torDim [])) 13 0
  linkIds.all (fun l => decide (coordOf node l ≤ coordOf dim l))

/-- The router and link transmitters of a die apply the press (R405, R427): coordinates beyond their ring keep both old
words. Changed coordinates take down the links of the package; links of dies that agree train again, else they stay DOWN. -/
def torusPress (s : State) (d : DieId) : State :=
  let x := s.die d
  let u := 39
  if !x.unitWaits u then s
  else if x.shadowFails u then s.onDie d (fun y => y.unitRefuses u)
  else
    let node := x.reg .torNode
    let dim := x.reg .torDim
    let ok := coordsFit x
    let back : Die → Die := fun y =>
      if ok then y else
      let z := (y.setReg .torNode node).setReg .torDim dim
      { z.flag .torFlags 4 with press.dirty := z.press.dirty ||| bit44 u }
    let s := s.onDie d (fun y => back (y.unitApplies u))
    let y := s.die d
    let changed := decide (y.reg .torNode ≠ node) || decide (y.reg .torDim ≠ dim)
    let known := y.pair.bridgeUp && !y.pair.lost
    let agree := coordsAgree (s.die d.other) y
    let s := s.onDie d linksFollow
    if known && !agree then s.onBoth linksMismatch
    else
      let cause := BitVec.ofNat 3 (Config.choice y.free % 8)
      let s := if changed then (s.onDie d Die.tick).onBoth (linksDown cause) else s
      if known && (changed || !coordsAgree (s.die d.other) x) then s.onBoth linksTrain
      else if changed then s.onDie d linksTrain else s

/-- The remote requester takes the pressed words of every ring (R414, R427). One that is enabled, or moved, takes its CONS from
memory (DESIGN CHOICE, log 157). -/
def ringsPress (x : Die) : Die :=
  let take : Ring → Ring := fun r =>
    let same := r.hi.getLsbD 31 && decide (r.lo = r.prLo) && decide (r.hi = r.prHi)
    { r with lo := r.prLo, hi := r.prHi, known := r.known && same }
  let y := applyPlain 40 x
  if x.unitWaits 40 && !x.shadowFails 40 then { y with torus.rings := y.torus.rings.map take } else y

/-- PRESS_APPLY (R468, R469): a unit at its boundary. An enabled display pipe's boundary is FRAME_BOUNDARY, and the command
processor applies its fields at issue. -/
def pressApply (d : DieId) (u : Nat) (s : State) : State :=
  let x := s.die d
  if !x.running then s
  else if u < 6 then s.onDie d (applyPlain u)
  else if u < 22 then s.onDie d (carveApplyDie (Fin.ofNat 16 (u - 6)))
  else if u < 26 then
    let q := Fin.ofNat 4 (u - 22)
    if (x.pipes[q]).en then s else pipePress s d q
  else if u < 36 then s.onDie d (applyPlain u)
  else if u = 36 then s
  else if u = 39 then torusPress s d
  else if u = 40 then s.onDie d ringsPress
  else if u = 41 then s.onDie d ioApplyReady
  else if u = 43 then (if x.unitWaits 43 then pairApply s d else s)
  else s.onDie d (applyPlain u)

def execPressApply (d : DieId) (u : Fin 44) (s : State) : Out := .next (pressApply d u.val s)

/-- PRESS_ACK (R471): a unit's acknowledgement arrives. The pair's acknowledgement waits for the partner's confirmation
(R50). -/
def pressAckDie (u : Nat) (x : Die) : Die :=
  if x.running && u != 43 && x.press.behind.getLsbD u && x.press.applied.getLsbD u && !x.lateUnit u then x.unitAcked u else x

def execPressAck (d : DieId) (u : Fin 44) (s : State) : Out := nextOn d (pressAckDie u.val) s

/-- The masters that a late unit stops (R473); every other unit keeps running, or asks whether it is late. -/
def freezeLate (x : Die) (u : Nat) : Die :=
  if 22 ≤ u ∧ u < 26 then x.freezePipe (Fin.ofNat 4 (u - 22)) clsPressTimeout
  else if u = 41 then
    pipeIds.foldl (fun (y : Die) q => (y.freeze (.csi q) clsPressTimeout).freeze (.tdm q) clsPressTimeout) x
  else x

/-- PRESS_TIMEOUT (R473): CLK_PRESS_CFG.TIMEOUT local ms after the issue. A press into SPARE counts from the end of the
initial copy (R27). -/
def pressTimeoutDie (x : Die) : Die :=
  let late := x.press.behind &&& ~~~x.press.late
  if !x.running || late = 0 || x.pair.copying || !x.passed x.press.issued (1000 * x.fld .clkPressCfg [] 9 0) then x else
  let us := (List.range 44).filter (fun u => late.getLsbD u)
  let x := us.foldl freezeLate { x with press.late := x.press.late ||| late }
  (((x.flag .clkFlags 1).count .clkPressTimeoutCnt).note clsPressTimeout .clockCtl
    { flags := 0, ctx := 0, va := 0, detail := x.press.behind.toNat, thing := 0 }).enterSafe

def execPressTimeout (d : DieId) (s : State) : Out := nextOn d pressTimeoutDie s

/-! ### Parity (R480, R481) -/

/-- CTRL_PARITY: one copy is rewritten from the other; when both fail the die enters SAFE. An entry of a translation cache is
dropped, and the next use walks again (R361); a slice's ownership cache holds copies only, which the model does not hold. -/
def ctrlParityDie (what : CtrlStore) (x : Die) : Die :=
  if x.power.inReset || x.dev = .off then x else
  match what with
  | .copies bothFail =>
    let x := (x.flag .fltFlags 2).count .fltCtrlParityCnt
    if bothFail then (x.note clsCtrlParity (.cmdProc 0 none) (FaultInfo.plain 0 0)).enterSafe else x
  | .tlb n => ({ x with xlt.tlb := x.xlt.tlb.eraseIdx n } : Die).count .fltXlateParityCnt
  | .nearTlb m n =>
    let near := x.xlt.near.map (fun t => if t.who = m then { t with ents := t.ents.eraseIdx n } else t)
    ({ x with xlt.near := near.filter (fun t => !t.ents.isEmpty) } : Die).count .fltXlateParityCnt
  | .walkCache n => ({ x with xlt.walk := x.xlt.walk.eraseIdx n } : Die).count .fltXlateParityCnt
  | .sliceOwnership => x.count .fltXlateParityCnt

def execCtrlParity (d : DieId) (what : CtrlStore) (s : State) : Out := nextOn d (ctrlParityDie what) s

/-- A master of a unit, for the record of its configuration parity. -/
def unitMaster (u : Nat) : Master :=
  if u < 6 then .stream { cl := Fin.ofNat 6 u, core := 0 } 0
  else if u < 22 then .slice (Fin.ofNat 16 (u - 6))
  else if u < 26 then .layer (Fin.ofNat 4 (u - 22)) 0
  else if u < 34 then .wringer (Fin.ofNat 8 (u - 26))
  else if u = 34 then .frontEnd 0
  else if u = 38 then .dram 0
  else if u = 39 then .linkTarget 0
  else if u = 40 then .requester
  else if u = 41 then .ufs
  else if u = 42 then .thermal 0
  else if u = 43 then .pairLogic
  else if u = 37 then .clockCtl
  else .cmdProc 0 none

/-- CFG_PARITY: the active word of an RWP field freezes its units until a press with good parity; a shadow word has the
next press refused. -/
def cfgParityDie (addr : Nat) (shadow : Bool) (x : Die) : Die :=
  match regAt addr with
  | none => x
  | some (r, is) =>
    if !x.running || r.info.rwp = 0 then x else
    let us := r.units is
    let m := unitMaster (us.headD 36)
    let info : FaultInfo := { flags := 0, ctx := 0, va := 0, detail := addr + 2 ^ 32 * b2n shadow, thing := addr }
    let x := (x.flag .fltFlags 3).count .fltCfgParityCnt
    if shadow then
      { x.note clsCfgParity m info with press.shadowBad := addr :: x.press.shadowBad.filter (fun a => a != addr) }
    else
      let x := us.foldl (fun (y : Die) u =>
        if 22 ≤ u ∧ u < 26 then y.freezePipe (Fin.ofNat 4 (u - 22)) clsCfgParity else y) x
      { x.report clsCfgParity m info true with press.cfgBad := x.press.cfgBad ++ us.map (fun u => (u, addr)) }

def execCfgParity (d : DieId) (addr : Nat) (shadow : Bool) (s : State) : Out := nextOn d (cfgParityDie addr shadow) s

end Sys2Proof.Machine
end

