-- ==== Sys2Proof/Machine/Performed.lean ====
section
/-! DEFINITION. Sys2Proof/Machine/Performed.lean: changes that are answered only when every access unit that was pre-walked before
them has been performed: invalidations (R364), ownership entries and share groups (R371, R375). -/
namespace Sys2Proof.Machine

/-! ### Performing what is pending -/

/-- A place after the last element with a property. -/
def lastIdx {α : Type} (f : α → Bool) (l : List α) : Nat := l.length - (l.reverse.takeWhile (fun e => !f e)).length

/-- The line of a core's miss register arrives at its slice, and then at the core. -/
def performMiss (p : Die) (c : CoreLoc) (i : Nat) (x : Die) : Die :=
  match (x.l1 c).miss[i]? with
  | none => x
  | some m =>
    let sl := sliceOf m.pa
    let at? := fun (y : Die) => ((y.l2 sl).miss.filter realMiss).findIdx? (fun k => k.pa == m.pa)
    let x := if m.answer.isSome || (at? x).isSome then x else l2Request (l2FillDie sl 0 [] false p x) c m.pa
    let x := match at? x with
      | some k => if m.answer.isSome then x else l2FillDie sl k [] false p x
      | none => x
    l1FillDie c i .good p x

/-- The miss that a context's units of a core wait for next: one of their own, or the oldest, which holds a register that they
wait for. -/
def nextMiss (who : Nat → Bool) (c : CoreLoc) (x : Die) : Option Nat :=
  match (x.l1 c).miss.findIdx? (fun m => who m.ctx) with
  | some i => some i
  | none => if (x.onCore c).any (fun t => who t.ctx && t.frozen.isNone && !t.loads.isEmpty) then some 0 else none

/-- Loads of the contexts on a core are performed; `fuel` bounds the lines. -/
def performLoads (p : Die) (who : Nat → Bool) (c : CoreLoc) : Nat → Die → Die
  | 0, x => x
  | fuel + 1, x =>
    match nextMiss who c x with
    | none => x
    | some i => performLoads p who c fuel (performMiss p c i x)

/-- Lines that a core's pending loads can still ask for, and those asked for. -/
def linesDue (x : Die) (c : CoreLoc) : Nat :=
  (x.l1 c).miss.length + ((x.onCore c).map (fun t => (t.loads.map (fun l => l.sectors.length)).sum)).sum

/-- Every access unit of the contexts that a core holds is performed: loads, stores that its merging buffer holds, prefetches. -/
def performCore (who : Nat → Bool) (p : Die) (c : CoreLoc) (x : Die) : Die :=
  let x := performLoads p who c (linesDue x c) x
  let x := (List.range (lastIdx (fun e => who e.ctx) (x.l1 c).merge)).foldl (fun (y : Die) _ => l1WriteOldest p y c 0) x
  (List.range (lastIdx (fun f => who f.2.1) (x.l1 c).fetching)).foldl (fun (y : Die) _ => sideL1 c p y) x

/-- Every pre-walked access unit of the contexts has been performed. Units of other masters are whole within a command. -/
def performUnits (who : Nat → Bool) (p x : Die) : Die :=
  (x.cache.l1s.map (fun t => t.loc)).foldl (fun (y : Die) c => performCore who p c y) x

/-! ### Invalidations (R364) -/

def execInvAll (d : DieId) (s : State) : Out :=
  nextOn d (fun x => invalidate (performUnits (fun _ => true) (s.die d.other) x) (fun _ => true) (fun _ => true)) s

/-- Scope 1, and scope 3: units of the context come first. A CTX of 0 is refused. -/
def invContextAfter (ctx : BitVec 10) (p x : Die) : Die :=
  if ctx = 0 then x else invContextDie ctx (performUnits (fun c => c == ctx.toNat) p x)

def invRangeAfter (ctx : BitVec 10) (pages : BitVec 12) (p x : Die) : Die :=
  if ctx = 0 then x else invRangeDie ctx pages (performUnits (fun c => c == ctx.toNat) p x)

/-- Scope 2, and VM_CONFIG. -/
def invVmAfter (vm : BitVec 8) (p x : Die) : Die := invalidateVm (performUnits (fun c => x.vmidOf c == vm) p x) vm

def execInvContext (d : DieId) (ctx : BitVec 10) (s : State) : Out := nextOn d (invContextAfter ctx (s.die d.other)) s

def execInvVm (d : DieId) (vm : BitVec 8) (s : State) : Out := nextOn d (invVmAfter vm (s.die d.other)) s

def execInvRange (d : DieId) (ctx : BitVec 10) (pages : BitVec 12) (s : State) : Out :=
  nextOn d (invRangeAfter ctx pages (s.die d.other)) s

/-! ### Share groups (R371, R375) -/

def shareWordAfter (i : Fin 32) (v : Word) (p x : Die) : Die := shareWordDie i v (performUnits (fun _ => true) p x)

def execOwnShareWordWrite (d : DieId) (i : Fin 32) (v : Word) (s : State) : Out :=
  nextOn d (shareWordAfter i v (s.die d.other)) s

end Sys2Proof.Machine
end

