-- ==== Sys2Proof/Machine/Groups.lean ====
section
/-! DEFINITION. Sys2Proof/Machine/Groups.lean: a group's masks, reconvergence stack and barriers, its end, and the traps
that freeze it before an instruction (R145 to R151, R164, R167, R332). -/
namespace Sys2Proof.Machine

/-! ### The end of a group -/

/-- A vertex thread's outputs: position (0, 0, 0, 0) without OUT.POS (R262). -/
def vertOf (first inst : Nat) (t : Group) (i : Nat) : Vert :=
  let o := t.out.getD i { pos := none, vars := [], cols := [], depth := none }
  { index := first + i, inst := inst, pos := o.pos.getD [0, 0, 0, 0],
    vars := (List.range 15).map (fun k => (o.vars.lookup k).getD [0, 0, 0, 0]) }

/-- Fragments of a group that ends: threads that are neither helpers nor unfilled (R250), with their outputs. -/
def fragsOf (drawNo : Nat) (t : Group) : List FragDone :=
  (List.range t.frags.length).filterMap (fun i => match t.frags[i]? with
    | none => none
    | some f =>
      if f.helper then none
      else some { order := f.order, drawNo := drawNo, thread := f,
                  out := t.out.getD i { pos := none, vars := [], cols := [], depth := none } })

/-- A group ends when its exited mask is all ones (R145): a compute group counts in its job and its share; a vertex group
hands its vertices to its pass, a fragment group its fragments to its tile. -/
def endGroup (x : Die) (t : Group) : Die :=
  let x := x.dropGroups (fun u => decide (u.loc = t.loc))
  match t.stage with
  | .compute =>
    let more : Share → Share := fun h =>
      if h.cl = t.loc.cl ∧ h.state ≠ .folded ∧ h.state ≠ .finished then { h with ended := h.ended + 1 } else h
    x.updJob t.job (fun j => { j with done := j.done + 1, shares := j.shares.map more })
  | .vertex p first inst count =>
    x.updPass p (fun q => { q with verts := q.verts ++ (List.range count).map (vertOf first inst t) })
  | .fragment p tile _ drawNo =>
    let fs := fragsOf drawNo t
    let gone := fs.map (fun f => f.order)
    let upd : TileFlight → TileFlight := fun f =>
      { f with done := f.done ++ fs, pendingFrags := gone.foldl (fun l o => l.erase o) f.pendingFrags }
    x.updPass p (fun q => { q with tiles := updWhere (fun f => f.tile == tile) upd q.tiles })

/-! ### Barriers (R148 to R151) -/

/-- Threads parked at any barrier. -/
def Group.parked (t : Group) : BitVec 64 := t.arrivals.toList.foldl (fun m a => m ||| a.mask) 0

def allThreads : BitVec 64 := BitVec.allOnes 64

/-- The arrivals and the exited threads cover the group. -/
def Group.covers (t : Group) (b : Fin 9) : Bool :=
  let a := t.arrivals[b]
  a.mask != 0 && (a.mask ||| t.exited == allThreads)

/-- Threads park at a barrier (R148). -/
def Group.park (t : Group) (b : Fin 9) : Group :=
  let add : Arrival → Arrival := fun a =>
    { mask := a.mask ||| t.active, pc := if a.mask = 0 then t.pc else a.pc,
      mixed := a.mixed || (decide (a.mask ≠ 0) && decide (a.pc ≠ t.pc)) }
  { t with arrivals := vmod t.arrivals b add, active := 0 }

/-- A barrier releases (R149). -/
def Group.release (t : Group) (b : Fin 9) : Group :=
  let a := t.arrivals[b]
  { t with active := a.mask, pc := a.pc + 8, stack := [], arrivals := vmod t.arrivals b (fun _ => Arrival.empty) }

/-- The group has arrived at its workgroup's barrier. -/
def Group.arrived (t : Group) : Bool := t.covers 8 && t.frozen.isNone

/-- The workgroup barrier releases once every group of the workgroup has arrived or ended (R151). -/
def workgroupRelease (x : Die) (job wg : Nat) : Die :=
  let mine : Group → Bool := fun t => t.job == job && t.wg == wg && decide (t.stage = .compute)
  let gs := x.sh.groups.filter mine
  if gs.all Group.arrived then
    { x with sh.groups := updWhere mine (fun t => t.release 8) x.sh.groups }
  else x

/-- Barriers that hold arrivals, as DETAIL of BARRIER_DIVERGED names them (R490). -/
def Group.barrierBits (t : Group) : Nat :=
  ((List.range 9).map (fun i => if ((t.arrivals.toList.getD i Arrival.empty).mask) = 0 then 0 else 2 ^ i)).sum

def groupBarriers : List (Fin 9) := [0, 1, 2, 3, 4, 5, 6, 7]

def Die.putGroup (x : Die) (t : Group) : Die := x.updGroup t.loc (fun _ => t)

/-- A group freezes with BARRIER_DIVERGED (R150). -/
def barrierDiverged (x : Die) (t : Group) : Die :=
  (x.faultMaster clsBarrierDiverged (.group t.loc) (FaultInfo.plain t.ctx t.barrierBits)).count .grpBarDivergedCnt

/-- A group that has no runnable path (R149 to R151): a covered barrier releases it, a covered workgroup barrier lets it
arrive, and every other case freezes it. A group of a folding share stops while all its threads are parked (R332). A
vertex or fragment group is its own workgroup (DEDUCED, log 56). -/
def resolveBarriers (x : Die) (t : Group) : Die :=
  match groupBarriers.find? (fun b => t.covers b) with
  | some b => if (t.arrivals[b]).mixed then barrierDiverged x t else x.putGroup (t.release b)
  | none =>
    if t.covers 8 && !(t.arrivals[(8 : Fin 9)]).mixed then
      if t.stage ≠ .compute then x.putGroup (t.release 8) else
      workgroupRelease (x.putGroup { t with stopped := t.stopped || x.folding t.job t.loc.cl }) t.job t.wg
    else barrierDiverged x t

/-! ### Reconvergence (R146) -/

/-- One pass of the loop of R146: the top entry's pending path, or its outer mask. -/
def Group.reconvStep (t : Group) : Group :=
  match t.stack with
  | [] => t
  | e :: es =>
    let out := t.exited ||| t.parked
    if e.pendMask &&& ~~~out ≠ 0 then
      { t with active := e.pendMask &&& ~~~out, pc := e.pendPc, stack := { e with pendMask := 0 } :: es }
    else { t with active := e.outer &&& ~~~out, pc := e.reconv, stack := es }

/-- The loop runs while the group stands at its top reconvergence address or has no active thread. `fuel` bounds it: each
pass takes a pending path or an entry of at most 32. -/
def Group.reconverge : Nat → Group → Group
  | 0, t => t
  | k + 1, t =>
    match t.stack with
    | [] => t
    | e :: _ => if t.pc = e.reconv ∨ t.active = 0 then Group.reconverge k t.reconvStep else t

/-- The state of a group after an instruction, from its new pc and masks. -/
def settleGroup (x : Die) (t : Group) : Die :=
  let t := t.reconverge 66
  let x := x.putGroup t
  if t.exited = allThreads then workgroupRelease (endGroup x t) t.job t.wg
  else if t.active = 0 then resolveBarriers x t
  else x

/-- The next instruction in program order. -/
def Group.next (t : Group) : Group := { t with pc := t.pc + 8 }

end Sys2Proof.Machine
end

