-- ==== Sys2Proof/Machine/Operands.lean ====
section
/-! DEFINITION. Sys2Proof/Machine/Operands.lean: the fields of an instruction, its operands, and issuing it: the checks of
R140, R152, R160 and R167, then its effect, then the next address (R133 to R142, R165, R167). -/
namespace Sys2Proof.Machine

/-! ### Fields (R165) -/

def wBits (w : InstrBits) (hi lo : Nat) : Nat := bitsOf w.body.toNat hi lo
def wFmt (w : InstrBits) : Nat := w.fmt.toNat
def wDst (w : InstrBits) : Nat := wBits w 47 40
def wSrc0 (w : InstrBits) : Nat := wBits w 39 32
def wSrc1 (w : InstrBits) : Nat := wBits w 31 24
def wSrc2 (w : InstrBits) : Nat := wBits w 23 16
def wTypeR (w : InstrBits) : Nat := wBits w 15 12
def wModeR (w : InstrBits) : Nat := wBits w 11 8
def wLow (w : InstrBits) : Nat := wBits w 7 0
def wImm (w : InstrBits) : Nat := wBits w 31 0
def wAddr (w : InstrBits) : Nat := wBits w 39 32
def wData (w : InstrBits) : Nat := wBits w 31 24
def wSize (w : InstrBits) : Nat := wBits w 23 20
def wHint (w : InstrBits) : Nat := wBits w 19 16
def wOfsU (w : InstrBits) : Nat := wBits w 15 0
def wOfs (w : InstrBits) : Int := signExtend 16 (wOfsU w)
def wTarget (w : InstrBits) : Int := signExtend 24 (wBits w 47 24)
def wReconvU (w : InstrBits) : Nat := wBits w 23 0
def wReconv (w : InstrBits) : Int := signExtend 24 (wReconvU w)

def isR (w : InstrBits) : Bool := wFmt w == 0
def isI (w : InstrBits) : Bool := wFmt w == 1
def isM (w : InstrBits) : Bool := wFmt w == 2
def isB (w : InstrBits) : Bool := wFmt w == 3

/-- The whole instruction, as DETAIL of R490 gives it. -/
def instrWord (cls op : Nat) (w : InstrBits) : Nat :=
  cls * 2 ^ 60 + op * 2 ^ 54 + b2n w.pneg * 2 ^ 53 + w.pred.toNat * 2 ^ 50 + w.fmt.toNat * 2 ^ 48 + w.body.toNat

/-- PNEG is 0 where PRED is 7. -/
def predLegal (w : InstrBits) : Bool := !(w.pneg && w.pred == 7)

/-- PRED 7 without PNEG. -/
def allPred (w : InstrBits) : Bool := w.pred == 7 && !w.pneg

/-- A predicate register of a group; there are seven. -/
def Group.predicate (t : Group) (n : Nat) : BitVec 64 := t.preds.toList.getD n 0

/-- The active threads that an instruction selects (R165). -/
def Group.selected (t : Group) (w : InstrBits) : BitVec 64 :=
  if w.pred = 7 then t.active
  else t.active &&& (if w.pneg then ~~~(t.predicate w.pred.toNat) else t.predicate w.pred.toNat)

/-! ### Registers (R133) -/

def zeroLanes : Lanes := Vector.replicate 64 0

/-- One thread's word of a group register. -/
def Group.lane (t : Group) (r i : Nat) : Word := (t.regs.getD r zeroLanes).toList.getD i 0

/-- One thread's register pair as a 64-bit value. -/
def Group.pair (t : Group) (r i : Nat) : Nat := (t.lane r i).toNat + (t.lane (r + 1) i).toNat * 2 ^ 32

/-- A register takes new words in the threads of a mask; the others keep theirs (R138). -/
def maskLanes (m : BitVec 64) (old : Lanes) (f : Nat → Word) : Lanes :=
  Vector.ofFn (fun i : Fin 64 => if m.getLsbD i.val then f i.val else old[i])

def Group.putLanes (t : Group) (m : BitVec 64) (r : Nat) (f : Nat → Word) : Group :=
  { t with regs := t.regs.set r (maskLanes m (t.regs.getD r zeroLanes) f) }

/-- A register pair takes 64-bit values. -/
def Group.putPair (t : Group) (m : BitVec 64) (r : Nat) (f : Nat → Nat) : Group :=
  (t.putLanes m r (fun i => BitVec.ofNat 32 (f i))).putLanes m (r + 1) (fun i => BitVec.ofNat 32 (f i / 2 ^ 32))

/-- A predicate takes new bits in the threads of a mask. -/
def Group.putPred (t : Group) (m : BitVec 64) (n : Nat) (f : Nat → Bool) : Group :=
  let bits : BitVec 64 := BitVec.ofNat 64 ((List.range 64).foldl (fun v i => if f i then v + 2 ^ i else v) 0)
  if h : n < 7 then { t with preds := t.preds.set n ((t.preds[n] &&& ~~~m) ||| (bits &&& m)) } else t

/-- Addresses of the M format: g(ADDR) and the low half of g(ADDR + 1), with OFFSET (R165). -/
def Group.vaOf (t : Group) (w : InstrBits) (i : Nat) : Nat :=
  ((((t.lane (wAddr w) i).toNat + (t.lane (wAddr w + 1) i).toNat % 65536 * 2 ^ 32 : Nat) : Int) + wOfs w) % 2 ^ 48 |>.toNat

/-- Offsets into tile memory or a carve: g(ADDR) with OFFSET, not wrapped (R207, R224). -/
def Group.ofsOf (t : Group) (w : InstrBits) (i : Nat) : Int := ((t.lane (wAddr w) i).toNat : Int) + wOfs w

/-! ### Registers that an instruction names (R167) -/

/-- Runs of group registers and of accumulator registers, and whether the encoding breaks R167. -/
structure Plan where
  bad : Bool
  /-- Something else than a register keeps the group from being ready. -/
  wait : Bool
  regs : List (Nat × Nat)
  accs : List (Nat × Nat)
  deriving DecidableEq, Repr

def Plan.noRegs (bad : Bool) : Plan := { bad := bad, wait := false, regs := [], accs := [] }

def Plan.alu (bad : Bool) (regs : List (Nat × Nat)) : Plan := { bad := bad, wait := false, regs := regs, accs := [] }

def Plan.inRange (q : Plan) (t : Group) : Bool :=
  q.regs.all (fun r => decide (r.1 + r.2 ≤ t.regs.length)) && q.accs.all (fun r => decide (r.1 + r.2 ≤ t.accs.length))

/-- Runs that overlap. -/
def overlaps (a b : Nat × Nat) : Bool := decide (a.1 < b.1 + b.2) && decide (b.1 < a.1 + a.2)

/-- Registers that wait for a load, or for the values of an atomic (R139). -/
def Group.awaited (t : Group) : List (Nat × Nat) :=
  t.loads.map (fun l => (l.dst, max 1 (l.size / 4))) ++ t.atomics.map (fun a => (a.dst, if a.wide then 2 else 1))

def Group.busy (t : Group) (q : Plan) : Bool := t.awaited.any (fun a => q.regs.any (fun r => overlaps a r))

/-! ### Issue (R140 to R142) -/

/-- The share of a job on a cluster is being read back. -/
def Die.unfolding (x : Die) (slot : Nat) (cl : Fin 6) : Bool :=
  x.jobs.list.any (fun j => j.slot == slot && j.shares.any (fun h => decide (h.cl = cl) && decide (h.state = .unfolding)))

/-- R140, ports and registers apart; in SAFE every share stands frozen (R485). -/
def Die.mayIssue (x : Die) (t : Group) : Bool :=
  x.running && decide (x.dev = .active) && t.frozen.isNone && !t.stopped && t.active != 0 && !x.unitFrozen t.loc.cl.val && x.power.gate != 64 &&
  !x.unfolding t.job t.loc.cl

def pipeIndex (g : GrpLoc) : Nat := 64 * g.cl.val + 4 * g.core.val + g.pipe.val

def Port.code : Port → Nat
  | .alu => 0
  | .mtx => 1
  | .mem => 2

/-- The key of a port of a pipe. -/
def portKey (g : GrpLoc) (p : Port) : Nat := pipeIndex g * 3 + Port.code p

/-- A rotation after an issue from a slot (R142): pointer × 32 + positions left; it ends when the pointer has passed its
start, and an issue from a slot beyond it shows that it had ended. -/
def rotationNext (v slot : Nat) : Option Nat :=
  let dist := (slot + 16 - v / 32) % 16
  let left := v % 32
  if left ≤ dist + 1 then none else some ((slot + 1) % 16 * 32 + (left - dist - 1))

/-- A rotation that starts at a slot, its sixteen positions ahead. -/
def rotationFrom (slot : Nat) : Nat := slot * 32 + 16

/-- A pipe with a group of a job that selects round robin rotates continuously (R143). -/
def Die.alwaysRotates (x : Die) (c : CoreLoc) (p : Fin 4) : Bool :=
  (x.onPipe c p).any (fun t => match x.job? t.job with
    | some j => dRoundRobin j.desc
    | none => false)

/-- A pipe with a group of a paired job has no fall-back (R30, R143). -/
def Die.neverRotates (x : Die) (c : CoreLoc) (p : Fin 4) : Bool :=
  (x.onPipe c p).any (fun t => match x.job? t.job with
    | some j => j.paired
    | none => false)

/-- The rotation of a port after an issue from a slot: on a pipe that rotates continuously, the next one starts where one
ends (R142, R143). -/
def Die.rotated (x : Die) (t : Group) (k : Nat) : Option Nat :=
  let c := coreOf t.loc
  let slot := t.loc.slot.val
  if x.neverRotates c t.loc.pipe then none
  else
    match (x.sh.rotation.lookup k).bind (fun v => rotationNext v slot) with
    | some n => some n
    | none => if x.alwaysRotates c t.loc.pipe then some (rotationFrom ((slot + 1) % 16)) else none

/-- Other groups of the pipe wait a slot longer; the group's own wait counter returns to 0 (R142). -/
def waitMore (t u : Group) : Group :=
  if u.loc = t.loc then { u with wait := 0 }
  else if u.loc.cl = t.loc.cl ∧ u.loc.core = t.loc.core ∧ u.loc.pipe = t.loc.pipe ∧ u.frozen.isNone ∧ u.stopped = false ∧ u.active ≠ 0 then
    { u with wait := u.wait + 4 }
  else u

/-- A group issues on a port. -/
def Die.issued (x : Die) (t : Group) (p : Port) : Die :=
  let k := portKey t.loc p
  let l := x.sh.rotation.filter (fun q => q.1 != k)
  let rot := match x.rotated t k with
    | some n => (k, n) :: l
    | none => l
  { x with sh.groups := x.sh.groups.map (waitMore t), sh.rotation := rot,
           sh.lastIssue := (k, t.loc.slot.val) :: x.sh.lastIssue.filter (fun q => q.1 != k) }

/-- A trap of R164: the group freezes before the instruction. -/
def trapGroup (x : Die) (t : Group) (cls : Byte) (va detail : Nat) : Die :=
  x.faultMaster cls (.group t.loc) { flags := 0, ctx := t.ctx, va := va, detail := detail, thing := 0 }

/-- The right to fetch the instruction (R359): the page and granule of its 8 bytes are checked; the bytes come with the
command. -/
def fetchCheck (p x : Die) (t : Group) : Die × Bool :=
  match prewalk p x (.group t.loc) t.ctx [{ va := t.pc.toNat, len := 8, acc := accFetch }] with
  | (x, some _) => (x, true)
  | (x, none) => (x, false)

/-- An instruction of a group: nothing while the group is not ready; then the fetch, the encoding, the registers, and at
last the effect. An instruction that breaks R167 and names a register out of range gives BAD_INSTRUCTION, an order that R185
and R190 leave open (DESIGN CHOICE, log 148). -/
def issueDie (g : GrpLoc) (cls op : Nat) (port : Port) (w : InstrBits) (plan : Group → Plan) (act : Die → Group → Die)
    (p x : Die) : Die :=
  match x.group? g with
  | none => x
  | some t =>
    let q := plan t
    if !x.mayIssue t || (port == .mem && t.fence.isSome) || t.busy q || q.wait then x else
    match fetchCheck p x t with
    | (y, false) => y
    | (y, true) =>
      if q.bad || !predLegal w then trapGroup y t clsBadInstruction 0 (instrWord cls op w)
      else if !q.inRange t then trapGroup y t clsRegRange 0 (instrWord cls op w)
      else act (y.issued t port) { t with wait := 0 }

/-- Numeric events of an instruction (R129, R130): flags and counters of the group, counters of the die. -/
structure Events where
  ovf : Nat
  sat : Nat
  nan : Nat
  deriving DecidableEq, Repr

def Events.none : Events := { ovf := 0, sat := 0, nan := 0 }

def Events.plus (a b : Events) : Events := { ovf := a.ovf + b.ovf, sat := a.sat + b.sat, nan := a.nan + b.nan }

def Group.raise (t : Group) (e : Events) : Group :=
  { t with gstat := t.gstat ||| BitVec.ofNat 3 ((if e.ovf = 0 then 0 else 1) + (if e.sat = 0 then 0 else 2) + (if e.nan = 0 then 0 else 4)),
           ovf := t.ovf + BitVec.ofNat 32 e.ovf, sat := t.sat + BitVec.ofNat 32 e.sat, nan := t.nan + BitVec.ofNat 32 e.nan }

def Die.countEvents (x : Die) (e : Events) : Die :=
  ((x.countN .mtxOvfCnt e.ovf).countN .mtxSatCnt e.sat).countN .mtxNanCnt e.nan

/-- An instruction that changes only its group, and goes on to the next. -/
def simple (f : Group → Group) (x : Die) (t : Group) : Die := settleGroup x (f t).next

/-- The meaning of an instruction of a group. -/
def onGroup (d : DieId) (g : GrpLoc) (cls op : Nat) (port : Port) (w : InstrBits) (plan : Group → Plan)
    (act : Die → Group → Die) (s : State) : Out :=
  nextOn d (issueDie g cls op port w plan act (s.die d.other)) s

end Sys2Proof.Machine
end

