-- ==== Sys2Proof/Machine/ShaderAlu.lean ====
section
/-! DEFINITION. Sys2Proof/Machine/ShaderAlu.lean: class 0x1, integers and predicates (R165, R169). -/
namespace Sys2Proof.Machine

/-! ### TYPE and MODE of class 0x1 -/

/-- TYPE of a class 0x1 instruction. The I form has no such field: its type is a free value among 0 to 3. -/
def intType (op : Nat) (w : InstrBits) : Nat := if isI w then Config.immType op (wImm w) % 4 else wTypeR w

/-- MODE of SETP; a free value among 0 to 5 in the I form. -/
def setpMode (w : InstrBits) : Nat := if isI w then Config.immMode 0x0E (wImm w) % 6 else wModeR w

/-- The type is 64 bits wide. -/
def isWide (ty : Nat) : Bool := ty == 2 || ty == 3

def widthOf (ty : Nat) : Nat := if isWide ty then 64 else 32

/-- Registers of one operand. -/
def regsOf (ty : Nat) : Nat := if isWide ty then 2 else 1

/-- The type says whether values are signed; codes 4 and 5 do not. -/
def signedness (ty : Nat) : Option Bool :=
  match ty with
  | 0 => some true
  | 1 => some false
  | 2 => some true
  | 3 => some false
  | _ => none

/-- An operand in a thread, as an unsigned number of the type's width. -/
def Group.operand (t : Group) (ty r i : Nat) : Nat := if isWide ty then t.pair r i else (t.lane r i).toNat

/-- SRC1, or IMM in the I form: sign-extended for TYPE 2, zero-extended for TYPE 3. -/
def Group.operand1 (t : Group) (ty : Nat) (w : InstrBits) (i : Nat) : Nat :=
  if isI w then (if ty = 2 then (signExtend 32 (wImm w) % 2 ^ 64).toNat else wImm w) else t.operand ty (wSrc1 w) i

/-- A result of the type's width, in the selected threads. -/
def Group.putResult (t : Group) (ty : Nat) (w : InstrBits) (f : Nat → Nat) : Group :=
  if isWide ty then t.putPair (t.selected w) (wDst w) f
  else t.putLanes (t.selected w) (wDst w) (fun i => BitVec.ofNat 32 (f i))

/-! ### Operations on numbers of `n` bits -/

/-- A number as its two's complement, where signed. -/
def asInt (sg : Bool) (n v : Nat) : Int := if sg then signExtend n v else v

def modWidth (n : Nat) (v : Int) : Nat := (v % 2 ^ n).toNat

def addW (n a b : Nat) : Nat := (a + b) % 2 ^ n
def subW (n a b : Nat) : Nat := modWidth n ((a : Int) - b)
def mulW (n a b : Nat) : Nat := a * b % 2 ^ n
def mulhiW (sg : Bool) (n a b : Nat) : Nat := modWidth n (asInt sg n a * asInt sg n b / 2 ^ n)
def shlW (n a b : Nat) : Nat := a * 2 ^ (b % n) % 2 ^ n
def shrW (sg : Bool) (n a b : Nat) : Nat := modWidth n (asInt sg n a / 2 ^ (b % n))
def minW (sg : Bool) (n a b : Nat) : Nat := if asInt sg n a ≤ asInt sg n b then a else b
def maxW (sg : Bool) (n a b : Nat) : Nat := if asInt sg n a ≤ asInt sg n b then b else a

/-- A comparison under MODE 0 to 5. -/
def cmpInt (mode : Nat) (a b : Int) : Bool :=
  match mode with
  | 0 => a == b
  | 1 => a != b
  | 2 => decide (a < b)
  | 3 => decide (a ≤ b)
  | 4 => decide (b < a)
  | _ => decide (b ≤ a)

/-! ### Forms -/

/-- A reserved TYPE, or a field that a row with SRC0 and SRC1 does not use, in the R form; the I form uses every bit. -/
def badBinary (w : InstrBits) : Bool :=
  !(isR w || isI w) || (isR w && (decide (5 < wTypeR w) || wModeR w != 0 || wSrc2 w != 0 || wLow w != 0))

/-- The registers of a row with SRC0 and SRC1. -/
def binaryRegs (ty : Nat) (w : InstrBits) : List (Nat × Nat) :=
  [(wDst w, regsOf ty), (wSrc0 w, regsOf ty)] ++ (if isI w then [] else [(wSrc1 w, regsOf ty)])

def binaryPlan (op : Nat) (w : InstrBits) : Plan := Plan.alu (badBinary w) (binaryRegs (intType op w) w)

/-- DST := f(SRC0, SRC1) at the type's width. -/
def binaryAct (op : Nat) (w : InstrBits) (f : Nat → Nat → Nat → Nat) (t : Group) : Group :=
  let ty := intType op w
  t.putResult ty w (fun i => f (widthOf ty) (t.operand ty (wSrc0 w) i) (t.operand1 ty w i))

/-- A row whose result depends on whether the type is signed; a type that says neither leaves the result a free value. -/
def signedAct (op : Nat) (w : InstrBits) (f : Bool → Nat → Nat → Nat → Nat) (x : Die) (t : Group) : Die :=
  match signedness (intType op w) with
  | some sg => simple (binaryAct op w (f sg)) x t
  | none => simple (fun t => t.putLanes (t.selected w) (wDst w) (fun i => Config.lane x.free 0 i)) x.tick t

def aluBinary (d : DieId) (g : GrpLoc) (op : Nat) (w : InstrBits) (f : Nat → Nat → Nat → Nat) (s : State) : Out :=
  onGroup d g 1 op .alu w (fun _ => binaryPlan op w) (simple (binaryAct op w f)) s

def aluSigned (d : DieId) (g : GrpLoc) (op : Nat) (w : InstrBits) (f : Bool → Nat → Nat → Nat → Nat) (s : State) : Out :=
  onGroup d g 1 op .alu w (fun _ => binaryPlan op w) (signedAct op w f) s

/-! ### The rows of class 0x1 -/

def execAdd (d : DieId) (g : GrpLoc) (w : InstrBits) (s : State) : Out := aluBinary d g 0x00 w addW s
def execSub (d : DieId) (g : GrpLoc) (w : InstrBits) (s : State) : Out := aluBinary d g 0x01 w subW s
def execMul (d : DieId) (g : GrpLoc) (w : InstrBits) (s : State) : Out := aluBinary d g 0x02 w mulW s
def execMulhi (d : DieId) (g : GrpLoc) (w : InstrBits) (s : State) : Out := aluSigned d g 0x03 w mulhiW s
def execShl (d : DieId) (g : GrpLoc) (w : InstrBits) (s : State) : Out := aluBinary d g 0x04 w shlW s
def execShr (d : DieId) (g : GrpLoc) (w : InstrBits) (s : State) : Out := aluSigned d g 0x05 w shrW s
def execAndInstr (d : DieId) (g : GrpLoc) (w : InstrBits) (s : State) : Out :=
  aluBinary d g 0x06 w (fun _ a b => Nat.land a b) s
def execOrInstr (d : DieId) (g : GrpLoc) (w : InstrBits) (s : State) : Out :=
  aluBinary d g 0x07 w (fun _ a b => Nat.lor a b) s
def execXorInstr (d : DieId) (g : GrpLoc) (w : InstrBits) (s : State) : Out :=
  aluBinary d g 0x08 w (fun _ a b => Nat.xor a b) s
def execMinInstr (d : DieId) (g : GrpLoc) (w : InstrBits) (s : State) : Out := aluSigned d g 0x0A w minW s
def execMaxInstr (d : DieId) (g : GrpLoc) (w : InstrBits) (s : State) : Out := aluSigned d g 0x0B w maxW s

/-- NOT: R form, SRC0 alone. -/
def notAct (w : InstrBits) (t : Group) : Group :=
  let ty := wTypeR w
  t.putResult ty w (fun i => 2 ^ widthOf ty - 1 - t.operand ty (wSrc0 w) i)

def execNotInstr (d : DieId) (g : GrpLoc) (w : InstrBits) (s : State) : Out :=
  onGroup d g 1 0x09 .alu w (fun _ => Plan.alu (badBinary w || !isR w || wSrc1 w != 0)
    [(wDst w, regsOf (wTypeR w)), (wSrc0 w, regsOf (wTypeR w))]) (simple (notAct w)) s

/-- SEL by predicate SRC2[2:0]. -/
def selAct (w : InstrBits) (t : Group) : Group :=
  let ty := wTypeR w
  t.putResult ty w (fun i => t.operand ty (if (t.predicate (wSrc2 w)).getLsbD i then wSrc0 w else wSrc1 w) i)

def execSel (d : DieId) (g : GrpLoc) (w : InstrBits) (s : State) : Out :=
  onGroup d g 1 0x0C .alu w (fun _ => Plan.alu (!isR w || decide (5 < wTypeR w) || wModeR w != 0 || decide (7 ≤ wSrc2 w) || wLow w != 0)
    [(wDst w, regsOf (wTypeR w)), (wSrc0 w, regsOf (wTypeR w)), (wSrc1 w, regsOf (wTypeR w))]) (simple (selAct w)) s

/-- MOV of SRC0, or of IMM in the I form, whose SRC0 is 0. -/
def movAct (w : InstrBits) (t : Group) : Group :=
  let ty := intType 0x0D w
  t.putResult ty w (fun i => if isI w then t.operand1 ty w i else t.operand ty (wSrc0 w) i)

def execMov (d : DieId) (g : GrpLoc) (w : InstrBits) (s : State) : Out :=
  let ty := intType 0x0D w
  onGroup d g 1 0x0D .alu w (fun _ => Plan.alu (badBinary w || (if isI w then wSrc0 w != 0 else wSrc1 w != 0))
    ([(wDst w, regsOf ty)] ++ (if isI w then [] else [(wSrc0 w, regsOf ty)]))) (simple (movAct w)) s

/-- SETP: a type that does not say whether values are signed leaves an order comparison a free value. -/
def setpAct (w : InstrBits) (x : Die) (t : Group) : Die :=
  let ty := intType 0x0E w
  let m := t.selected w
  let cmp := fun (sg : Bool) (i : Nat) =>
    cmpInt (setpMode w) (asInt sg (widthOf ty) (t.operand ty (wSrc0 w) i)) (asInt sg (widthOf ty) (t.operand1 ty w i))
  match signedness ty with
  | some sg => simple (fun t => t.putPred m (wDst w) (cmp sg)) x t
  | none =>
    if setpMode w ≤ 1 then simple (fun t => t.putPred m (wDst w) (cmp false)) x t
    else simple (fun t => t.putPred m (wDst w) (fun i => (Config.dword x.free).getLsbD i)) x.tick t

def execSetp (d : DieId) (g : GrpLoc) (w : InstrBits) (s : State) : Out :=
  let ty := intType 0x0E w
  onGroup d g 1 0x0E .alu w (fun _ => Plan.alu (!(isR w || isI w) ||
      (isR w && (decide (5 < wTypeR w) || decide (5 < wModeR w) || wSrc2 w != 0 || wLow w != 0)) || decide (7 ≤ wDst w))
    ([(wSrc0 w, regsOf ty)] ++ (if isI w then [] else [(wSrc1 w, regsOf ty)]))) (setpAct w) s

/-- PLOP: and, or, xor, and-not. -/
def plopAct (w : InstrBits) (t : Group) : Group :=
  let a := t.predicate (wSrc0 w)
  let b := t.predicate (wSrc1 w)
  let r : BitVec 64 := match wModeR w with
    | 0 => a &&& b
    | 1 => a ||| b
    | 2 => a ^^^ b
    | _ => a &&& ~~~b
  t.putPred (t.selected w) (wDst w) (fun i => r.getLsbD i)

def execPlop (d : DieId) (g : GrpLoc) (w : InstrBits) (s : State) : Out :=
  onGroup d g 1 0x0F .alu w (fun _ => Plan.noRegs (!isR w || wTypeR w != 0 || decide (3 < wModeR w) || wSrc2 w != 0 || wLow w != 0 ||
    decide (7 ≤ wDst w) || decide (7 ≤ wSrc0 w) || decide (7 ≤ wSrc1 w))) (simple (plopAct w)) s

end Sys2Proof.Machine
end

