-- ==== Sys2Proof/Machine/ShaderConv.lean ====
section
/-! DEFINITION. Sys2Proof/Machine/ShaderConv.lean: class 0x4, conversions, with their numeric events (R125 to R129, R169). -/
namespace Sys2Proof.Machine

/-- Events of some conversions. -/
def convEvents (cs : List Conv) : Events :=
  { ovf := 0, sat := (cs.map (fun c => c.sat)).sum, nan := (cs.map (fun c => c.nan)).sum }

/-- A conversion in every selected thread: its events, and what it writes. -/
def convAct (w : InstrBits) (conv : Group → Nat → Conv) (put : Group → (Nat → Nat) → Group) (x : Die) (t : Group) : Die :=
  let ev := convEvents ((threadsOf (t.selected w)).map (conv t))
  simple (fun t => (put t (fun i => (conv t i).bits)).raise ev) (x.countEvents ev) t

/-- A source word read as TYPE 0 to 5. -/
def readSrc (ty : Nat) (t : Group) (r i : Nat) : FVal :=
  let int := fun (v : Int) => FVal.fin (decide (v < 0)) v.natAbs 0
  match ty with
  | 0 => int (signExtend 32 (t.lane r i).toNat)
  | 1 => int ((t.lane r i).toNat : Int)
  | 2 => int (signExtend 64 (t.pair r i))
  | 3 => int (t.pair r i : Int)
  | 4 => readFloat fp32 (t.lane r i).toNat
  | _ => readFloat fp16 ((t.lane r i).toNat % 65536)

/-- CVT to a type; a 32-bit or 64-bit whole number takes its nearer bound. -/
def cvtTo (ty mode : Nat) (v : FVal) : Conv :=
  match ty with
  | 0 => convInt 32 (-2 ^ 31) (2 ^ 31 - 1) (mode == 1) v
  | 1 => convInt 32 0 (2 ^ 32 - 1) (mode == 1) v
  | 2 => convInt 64 (-2 ^ 63) (2 ^ 63 - 1) (mode == 1) v
  | 3 => convInt 64 0 (2 ^ 64 - 1) (mode == 1) v
  | 4 => convFloat fp32 v
  | _ => convFloat fp16 v

def cvtDst (w : InstrBits) : Nat := wSrc2 w % 16

def execCvt (d : DieId) (g : GrpLoc) (w : InstrBits) (s : State) : Out :=
  let src := wTypeR w
  let dst := cvtDst w
  onGroup d g 4 0 .alu w
    (fun _ => Plan.alu (!isR w || decide (5 < src) || decide (5 < dst) || decide (16 ≤ wSrc2 w) || wSrc1 w != 0 || wLow w != 0 ||
        decide (1 < wModeR w) || (decide (4 ≤ dst) && wModeR w != 0))
      [(wDst w, regsOf dst), (wSrc0 w, regsOf src)])
    (convAct w (fun t i => cvtTo dst (wModeR w) (readSrc src t (wSrc0 w) i)) (fun t f => t.putResult dst w f)) s

/-! ### Elements (R103, R169) -/

/-- The bits of element k of a word. -/
def elemAt (el : Elem) (k v : Nat) : Nat := v / 2 ^ (el.width * k) % 2 ^ el.width

/-- A word with one element replaced. -/
def setElem (el : Elem) (k old v : Nat) : Nat := old - elemAt el k old * 2 ^ (el.width * k) + v % 2 ^ el.width * 2 ^ (el.width * k)

/-- SRC2 of PACK and UNPACK: format, element number, and whether the register holds such an element. -/
def packElem (w : InstrBits) : Elem := elemOf (wSrc2 w % 8)
def packIndex (w : InstrBits) : Nat := wSrc2 w / 16 % 8
def badElem (w : InstrBits) : Bool :=
  decide (128 ≤ wSrc2 w) || bitOf (wSrc2 w) 3 || decide (3 < wSrc2 w % 8) || decide (32 ≤ (packElem w).width * packIndex w)

def execPack (d : DieId) (g : GrpLoc) (w : InstrBits) (s : State) : Out :=
  let el := packElem w
  onGroup d g 4 1 .alu w
    (fun _ => Plan.alu (!isR w || !(wTypeR w == 0 || wTypeR w == 1 || wTypeR w == 4) || badElem w || wModeR w != 0 || wLow w != 0)
      [(wDst w, 1), (wSrc0 w, 1), (wSrc1 w, 1)])
    (convAct w (fun t i => convElem el ((t.lane (wSrc1 w) i).toNat % 256) (readSrc (wTypeR w) t (wSrc0 w) i))
      (fun t f => t.putLanes (t.selected w) (wDst w) (fun i =>
        BitVec.ofNat 32 (setElem el (packIndex w) (t.lane (wDst w) i).toNat (f i))))) s

/-- An element with its block exponent to FP32; E = 0xFF reads it as zero with a NAN event (R115). -/
def unpackConv (el : Elem) (v code : Nat) : Conv :=
  if code = 255 then { bits := 0, sat := 0, nan := 1 } else convFloat fp32 ((elemVal el v).scale (expOf code))

def execUnpack (d : DieId) (g : GrpLoc) (w : InstrBits) (s : State) : Out :=
  let el := packElem w
  onGroup d g 4 2 .alu w
    (fun _ => Plan.alu (!isR w || wTypeR w != 4 || badElem w || wModeR w != 0 || wLow w != 0)
      [(wDst w, 1), (wSrc0 w, 1), (wSrc1 w, 1)])
    (convAct w (fun t i => unpackConv el (elemAt el (packIndex w) (t.lane (wSrc0 w) i).toNat) ((t.lane (wSrc1 w) i).toNat % 256))
      (fun t f => t.putLanes (t.selected w) (wDst w) (fun i => BitVec.ofNat 32 (f i)))) s

def execFn8to4 (d : DieId) (g : GrpLoc) (w : InstrBits) (s : State) : Out :=
  onGroup d g 4 3 .alu w
    (fun _ => Plan.alu (!isR w || wTypeR w != 0 || wSrc2 w / 64 != 0 || wSrc2 w % 16 != 0 || decide (8 ≤ wModeR w) || wLow w != 0)
      [(wDst w, 1), (wSrc0 w, 1), (wSrc1 w, 1)])
    (convAct w (fun t i =>
        let e := (t.lane (wSrc1 w) i).toNat
        fn8to4 (elemAt .fn8 (wSrc2 w / 16) (t.lane (wSrc0 w) i).toNat) (e % 256) (e / 256 % 256))
      (fun t f => t.putLanes (t.selected w) (wDst w) (fun i =>
        BitVec.ofNat 32 (setElem .fn4 (wModeR w) (t.lane (wDst w) i).toNat (f i))))) s

end Sys2Proof.Machine
end

