-- ==== Sys2Proof/Machine/Matrix.lean ====
section
/-! DEFINITION. Sys2Proof/Machine/Matrix.lean: class 0x6: fragments, multiply-accumulate, moves of accumulators and scale
registers, and the numeric status (R111 to R124, R172 to R185, R194, R195, R198). -/
namespace Sys2Proof.Machine

/-! ### The table of R172 -/

/-- An operand format of an MMA. -/
inductive MmaFmt
  | el (e : Elem)
  | half
  deriving DecidableEq, Repr

def MmaFmt.isFn : MmaFmt → Bool
  | .el .fn8 => true
  | .el .fn4 => true
  | _ => false

def MmaFmt.isInt : MmaFmt → Bool
  | .el .int8 => true
  | .el .int4 => true
  | _ => false

/-- One row: formats, K, registers of an operand, and MACs in units of 1,024. -/
structure MmaRow where
  a : MmaFmt
  b : MmaFmt
  k : Nat
  regs : Nat
  kmac : Nat
  deriving DecidableEq, Repr

def mmaRows : List MmaRow :=
  [ { a := .el .int8, b := .el .int8, k := 16, regs := 1, kmac := 4 },
    { a := .el .int8, b := .el .int4, k := 16, regs := 1, kmac := 4 },
    { a := .el .int4, b := .el .int8, k := 16, regs := 1, kmac := 4 },
    { a := .el .int4, b := .el .int4, k := 32, regs := 1, kmac := 8 },
    { a := .el .fn8, b := .el .fn8, k := 16, regs := 1, kmac := 4 },
    { a := .el .fn8, b := .el .fn4, k := 16, regs := 1, kmac := 4 },
    { a := .el .fn4, b := .el .fn8, k := 16, regs := 1, kmac := 4 },
    { a := .el .fn4, b := .el .fn4, k := 64, regs := 2, kmac := 16 },
    { a := .half, b := .half, k := 4, regs := 1, kmac := 1 } ]

def mmaRow (op : Nat) : MmaRow := mmaRows.getD op { a := .half, b := .half, k := 4, regs := 1, kmac := 1 }

/-! ### Fields of IMM (R184) -/

def mBreg (w : InstrBits) : Nat := wBits w 31 24
def mAsc (w : InstrBits) : Nat := wBits w 23 21
def mAj (w : InstrBits) : Nat := wBits w 20 19
def mBsc (w : InstrBits) : Nat := wBits w 18 16
def mBj (w : InstrBits) : Nat := wBits w 15 14
def mAscaled (w : InstrBits) : Bool := bitOf (wImm w) 13
def mBscaled (w : InstrBits) : Bool := bitOf (wImm w) 12
def mA32 (w : InstrBits) : Bool := bitOf (wImm w) 11
def mB32 (w : InstrBits) : Bool := bitOf (wImm w) 10
def mKhalf (w : InstrBits) : Nat := b2n (bitOf (wImm w) 9)
def mZero (w : InstrBits) : Bool := bitOf (wImm w) 8

def blockSize (b32 : Bool) : Nat := if b32 then 32 else 16

/-- J lies in the range of R180: the bytes of a row end within its four. -/
def jOk (k bs j : Nat) : Bool := decide (j + ceilDiv k bs ≤ 4)

/-- The KHALF bit has a meaning for the row (R176, R185). -/
def khalfUsed (r : MmaRow) : Bool := r.a != r.b || r.a == .half

/-- R182 and R185. -/
def mmaBad (op : Nat) (w : InstrBits) : Bool :=
  let r := mmaRow op
  let side := fun (f : MmaFmt) (scaled b32 : Bool) (sc j : Nat) =>
    (f.isFn && !scaled) || (!scaled && (sc != 0 || j != 0 || b32)) || (scaled && !jOk r.k (blockSize b32) j)
  !isI w || !allPred w || wBits w 7 0 != 0 || wDst w % 4 != 0 ||
  side r.a (mAscaled w) (mA32 w) (mAsc w) (mAj w) || side r.b (mBscaled w) (mB32 w) (mBsc w) (mBj w) ||
  (r.a == .half && (mAscaled w || mBscaled w)) || (mKhalf w != 0 && !khalfUsed r)

def mmaPlan (op : Nat) (w : InstrBits) : Plan :=
  let r := mmaRow op
  { bad := mmaBad op w, wait := false, regs := [(wSrc0 w, r.regs), (mBreg w, r.regs)], accs := [(wDst w, 4)] }

/-! ### Fragments (R174 to R176) -/

/-- The bits of row element `e` of a fragment register, of some width. -/
def fragElem (t : Group) (reg row e width : Nat) : Nat :=
  let bit := e * width
  (t.lane reg (4 * row + bit / 32)).toNat / 2 ^ (bit % 32) % 2 ^ width

/-- The element of an operand at reduction index k. -/
def operandElem (t : Group) (r : MmaRow) (f : MmaFmt) (reg khalf row k : Nat) : Nat :=
  match f with
  | .half => fragElem t reg row (4 * khalf + k) 16
  | .el e =>
    if r.regs = 2 then fragElem t (reg + k / 32) row (k % 32) e.width
    else if e.width = 4 ∧ r.k = 16 then fragElem t reg row (16 * khalf + k) 4
    else fragElem t reg row k e.width

/-- The exponent code of the block that holds k, or none for an unscaled operand (R180). -/
def operandExp (t : Group) (scaled b32 : Bool) (sc j row k : Nat) : Option Nat :=
  if scaled then some (((t.scales.toList.getD sc (Vector.replicate 64 0x7F)).toList.getD (4 * row + j + k / blockSize b32) 0x7F).toNat)
  else none

/-! ### Products (R104, R120, R124) -/

/-- A binary16 matrix operand (R124): its value and its events. -/
def readHalf (v : Nat) : FVal × Events :=
  match readFloat fp16 v with
  | .nan => (.fin false 0 0, { ovf := 0, sat := 0, nan := 1 })
  | .inf n => (.fin n 65504 0, { ovf := 0, sat := 1, nan := 0 })
  | v => (v, Events.none)

/-- A number of the fixed point of 2^-64: every product of R120 and R124 is a multiple of it. -/
def fixed64 (v : FVal) : Int :=
  match v with
  | .fin n m e => signed n (m * 2 ^ (e + 64).toNat / 2 ^ (-(e + 64)).toNat)
  | _ => 0

/-- The product of two elements before block exponents, as a whole number of units of 2^-64; a Filrus product is formed
from its log position (R120). -/
def product (fa fb : MmaFmt) (a b : Nat) : Int :=
  match fa, fb with
  | .half, _ => fixed64 ((readHalf a).1.times (readHalf b).1)
  | _, .half => 0
  | .el ea, .el eb =>
    if fa.isFn then
      match fnLog ea a, fnLog eb b with
      | some (na, la), some (nb, lb) =>
        let q := fnLinear (la + lb)
        fixed64 (.fin (na != nb) q.1 q.2)
      | _, _ => 0
    else fixed64 ((elemVal ea a).times (elemVal eb b))

/-- A segment's exact sum for one result element: the products from index k0, `n` of them. A block with E = 0xFF is read
as zeros (R115). -/
def segmentSum (t : Group) (w : InstrBits) (r : MmaRow) (m nn k0 n : Nat) : Int :=
  let ea := operandExp t (mAscaled w) (mA32 w) (mAsc w) (mAj w) m k0
  let eb := operandExp t (mBscaled w) (mB32 w) (mBsc w) (mBj w) nn k0
  if ea = some 255 ∨ eb = some 255 then 0 else
  ((List.range n).map (fun i => product r.a r.b
    (operandElem t r r.a (wSrc0 w) (mKhalf w) m (k0 + i)) (operandElem t r r.b (mBreg w) (mKhalf w) nn (k0 + i)))).sum

/-- The sum of the block exponents of a segment (R122); an unscaled operand has 0 (R117). -/
def segmentExp (t : Group) (w : InstrBits) (m nn k0 : Nat) : Int :=
  let e := fun (o : Option Nat) => match o with
    | some c => expOf c
    | none => 0
  e (operandExp t (mAscaled w) (mA32 w) (mAsc w) (mAj w) m k0) + e (operandExp t (mBscaled w) (mB32 w) (mBsc w) (mBj w) nn k0)

/-- A segment's length (R119). -/
def segmentLen (r : MmaRow) (w : InstrBits) : Nat :=
  min r.k (min (if mAscaled w then blockSize (mA32 w) else r.k) (if mBscaled w then blockSize (mB32 w) else r.k))

/-- The accumulation is an integer one (R118). -/
def intAccumulate (r : MmaRow) (w : InstrBits) : Bool := r.a.isInt && !mAscaled w && !mBscaled w

/-- The word of C[m][n] in an accumulator tile (R177). -/
def Group.accWord (t : Group) (base m n : Nat) : Word :=
  ((t.accs.getD (base + m / 4) zeroLanes).toList.getD (16 * (m % 4) + n) 0)

/-- One result element: the segments are added in ascending reduction index, each rounded (R122). Answers the word and
the OVF events. `opn`: a free value. -/
def mmaElement (t : Group) (w : InstrBits) (r : MmaRow) (opn : Nat) (m n : Nat) : Nat × Nat :=
  let start := if mZero w then 0 else (t.accWord (wDst w) m n).toNat
  let len := segmentLen r w
  (List.range (r.k / len)).foldl (fun (q : Nat × Nat) i =>
    let s := segmentSum t w r m n (i * len) len
    let (v, o) := if intAccumulate r w then intAdd q.1 (s / 2 ^ 64)
      else accAdd opn q.1 s (segmentExp t w m n (i * len) - 64)
    (v, if o then q.2 + 1 else q.2)) (start, 0)

/-- Events of reading one operand: elements of binary16 operands that are NaN or infinite, and elements of blocks with
E = 0xFF (R115, R124), each element once. Of a block of 32 that an instruction of K = 16 reads in part, only the elements read
raise events (DESIGN CHOICE, log 145). -/
def operandEvents (t : Group) (r : MmaRow) (f : MmaFmt) (scaled b32 : Bool) (reg sc j khalf : Nat) : Events :=
  ((List.range 16).map (fun row => (List.range r.k).map (fun k => (row, k)))).flatten.foldl (fun ev q =>
    match f with
    | .half => ev.plus (readHalf (operandElem t r f reg khalf q.1 q.2)).2
    | .el _ => if operandExp t scaled b32 sc j q.1 q.2 = some 255 then ev.plus { ovf := 0, sat := 0, nan := 1 } else ev) Events.none

/-- The words of a result tile, in the order m × 16 + n, and its OVF events. -/
def mmaTile (t : Group) (w : InstrBits) (r : MmaRow) (free : Nat) : List Nat × Nat :=
  let es := ((List.range 16).map (fun m => (List.range 16).map (fun n =>
    mmaElement t w r (Config.word (free + 16 * m + n)).toNat m n))).flatten
  (es.map (fun e => e.1), (es.map (fun e => e.2)).sum)

/-- A tile's words enter four accumulator registers (R177). -/
def Group.putTile (t : Group) (base : Nat) (ws : List Nat) : Group :=
  { t with accs := (List.range 4).foldl (fun l i => l.set (base + i)
      (Vector.ofFn (fun k : Fin 64 => BitVec.ofNat 32 (ws.getD (64 * i + k.val) 0)))) t.accs }

def mmaAct (op : Nat) (w : InstrBits) (x : Die) (t : Group) : Die :=
  let r := mmaRow op
  let (ws, ovf) := mmaTile t w r x.free
  let ev := ((operandEvents t r r.a (mAscaled w) (mA32 w) (wSrc0 w) (mAsc w) (mAj w) (mKhalf w)).plus
    (operandEvents t r r.b (mBscaled w) (mB32 w) (mBreg w) (mBsc w) (mBj w) (mKhalf w))).plus { ovf := ovf, sat := 0, nan := 0 }
  let x := { x with free := x.free + 256, sh.kmac := x.sh.kmac + BitVec.ofNat 64 r.kmac }
  simple (fun t => (t.putTile (wDst w) ws).raise ev) ((x.countEvents ev).count .mtxMmaCnt) t

def aluMma (d : DieId) (g : GrpLoc) (op : Nat) (w : InstrBits) (s : State) : Out :=
  onGroup d g 6 op .mtx w (fun _ => mmaPlan op w) (mmaAct op w) s

def execMmaI8i8 (d : DieId) (g : GrpLoc) (w : InstrBits) (s : State) : Out := aluMma d g 0x00 w s
def execMmaI8i4 (d : DieId) (g : GrpLoc) (w : InstrBits) (s : State) : Out := aluMma d g 0x01 w s
def execMmaI4i8 (d : DieId) (g : GrpLoc) (w : InstrBits) (s : State) : Out := aluMma d g 0x02 w s
def execMmaI4i4 (d : DieId) (g : GrpLoc) (w : InstrBits) (s : State) : Out := aluMma d g 0x03 w s
def execMmaF8f8 (d : DieId) (g : GrpLoc) (w : InstrBits) (s : State) : Out := aluMma d g 0x04 w s
def execMmaF8f4 (d : DieId) (g : GrpLoc) (w : InstrBits) (s : State) : Out := aluMma d g 0x05 w s
def execMmaF4f8 (d : DieId) (g : GrpLoc) (w : InstrBits) (s : State) : Out := aluMma d g 0x06 w s
def execMmaF4f4 (d : DieId) (g : GrpLoc) (w : InstrBits) (s : State) : Out := aluMma d g 0x07 w s
def execMmaH (d : DieId) (g : GrpLoc) (w : InstrBits) (s : State) : Out := aluMma d g 0x08 w s

/-! ### Moves (R181, R183) -/

/-- The R182 form: I format, every active thread. With another PRED the instruction is a BAD_INSTRUCTION, which R182 leaves
open (DESIGN CHOICE, log 147). -/
def mtxForm (w : InstrBits) : Bool := isI w && allPred w

def mtxPlan (bad : Bool) (regs accs : List (Nat × Nat)) : Plan := { bad := bad, wait := false, regs := regs, accs := accs }

def Group.accLanes (t : Group) (r : Nat) : Lanes := t.accs.getD r zeroLanes

def execMovaR (d : DieId) (g : GrpLoc) (w : InstrBits) (s : State) : Out :=
  onGroup d g 6 0x10 .mtx w (fun _ => mtxPlan (!mtxForm w || wImm w != 0) [(wDst w, 1)] [(wSrc0 w, 1)])
    (simple (fun t => { t with regs := t.regs.set (wDst w) (t.accLanes (wSrc0 w)) })) s

def execMovaWI32 (d : DieId) (g : GrpLoc) (w : InstrBits) (s : State) : Out :=
  onGroup d g 6 0x11 .mtx w (fun _ => mtxPlan (!mtxForm w || wImm w != 0) [(wSrc0 w, 1)] [(wDst w, 1)])
    (simple (fun t => { t with accs := t.accs.set (wDst w) (t.regs.getD (wSrc0 w) zeroLanes) })) s

/-- An FP32 word as it is loaded into an accumulator (R124): a NaN is zero, an infinity the largest finite value, a
subnormal zero. -/
def readAccF32 (v : Nat) : Conv :=
  match readFloat fp32 v with
  | .nan => { bits := 0, sat := 0, nan := 1 }
  | .inf n => { bits := fp32.sign n + fp32.maxBits, sat := 1, nan := 0 }
  | .fin n m e => { bits := roundInf fp32 n m e, sat := 0, nan := 0 }

def movaF32Act (w : InstrBits) (x : Die) (t : Group) : Die :=
  let cs := ((t.regs.getD (wSrc0 w) zeroLanes).toList).map (fun v => readAccF32 v.toNat)
  let ev := convEvents cs
  let v : Lanes := Vector.ofFn (fun k : Fin 64 => BitVec.ofNat 32 ((cs.map (fun c => c.bits)).getD k.val 0))
  simple (fun t => { t with accs := t.accs.set (wDst w) v }.raise ev) (x.countEvents ev) t

def execMovaWF32 (d : DieId) (g : GrpLoc) (w : InstrBits) (s : State) : Out :=
  onGroup d g 6 0x12 .mtx w (fun _ => mtxPlan (!mtxForm w || wImm w != 0) [(wSrc0 w, 1)] [(wDst w, 1)]) (movaF32Act w) s

def execZacc (d : DieId) (g : GrpLoc) (w : InstrBits) (s : State) : Out :=
  onGroup d g 6 0x13 .mtx w (fun _ => mtxPlan (!mtxForm w || wImm w != 0 || wSrc0 w != 0 || wDst w % 4 != 0) [] [(wDst w, 4)])
    (simple (fun t => t.putTile (wDst w) [])) s

/-- Byte 4r + j of a scale register is byte j of thread 16P + r's word. -/
def scwAct (w : InstrBits) (t : Group) : Group :=
  let v : Vector Byte 64 := Vector.ofFn (fun k : Fin 64 =>
    BitVec.ofNat 8 ((t.lane (wSrc0 w) (16 * wImm w + k.val / 4)).toNat / 2 ^ (8 * (k.val % 4))))
  if h : wDst w < 8 then { t with scales := t.scales.set (wDst w) v } else t

def execScw (d : DieId) (g : GrpLoc) (w : InstrBits) (s : State) : Out :=
  onGroup d g 6 0x18 .mtx w (fun _ => mtxPlan (!mtxForm w || decide (8 ≤ wDst w) || decide (4 ≤ wImm w)) [(wSrc0 w, 1)] [])
    (simple (scwAct w)) s

/-- The words of threads 16P to 16P + 15 take the scale register's bytes; the others stay. -/
def scrAct (w : InstrBits) (t : Group) : Group :=
  let sc := (t.scales.toList.getD (wSrc0 w) (Vector.replicate 64 0x7F)).toList
  let m : BitVec 64 := (0xFFFF : BitVec 64) <<< (16 * wImm w)
  t.putLanes m (wDst w) (fun i => BitVec.ofNat 32 (fieldNat sc (4 * (i % 16)) 4))

def execScr (d : DieId) (g : GrpLoc) (w : InstrBits) (s : State) : Out :=
  onGroup d g 6 0x19 .mtx w (fun _ => mtxPlan (!mtxForm w || decide (8 ≤ wSrc0 w) || decide (4 ≤ wImm w)) [(wDst w, 1)] [])
    (simple (scrAct w)) s

/-! ### Numeric status (R194, R195) -/

/-- WHICH: GSTAT or a counter. -/
def Group.status (t : Group) (which : Nat) : Word :=
  match which with
  | 0 => t.gstat.setWidth 32
  | 1 => t.ovf
  | 2 => t.sat
  | _ => t.nan

def execMstatRd (d : DieId) (g : GrpLoc) (w : InstrBits) (s : State) : Out :=
  onGroup d g 6 0x1A .mtx w (fun _ => mtxPlan (!mtxForm w || wSrc0 w != 0 || decide (4 ≤ wImm w)) [(wDst w, 1)] [])
    (simple (fun t => t.putLanes allThreads (wDst w) (fun _ => t.status (wImm w)))) s

def execMstatClr (d : DieId) (g : GrpLoc) (w : InstrBits) (s : State) : Out :=
  onGroup d g 6 0x1B .mtx w (fun _ => mtxPlan (!mtxForm w || wDst w != 0 || wSrc0 w != 0 || decide (8 ≤ wImm w)) [] [])
    (simple (fun t => { t with gstat := t.gstat &&& ~~~(BitVec.ofNat 3 (wImm w)) })) s

/-! ### MTX_KMAC_LO (R198) -/

/-- A read returns the low word of the MAC count and captures the high one. -/
def kmacRead (x : Die) : Die × Word := ({ x with sh.kmacHi := (x.sh.kmac >>> 32).setWidth 32 }, x.sh.kmac.setWidth 32)

def execMtxKmacLoRead (d : DieId) (s : State) : Out :=
  nextOn d (fun x => if x.running then { (kmacRead x).1 with cmd.cfgData := (kmacRead x).2 } else x) s

end Sys2Proof.Machine
end

