-- ==== Sys2Proof/Machine/Security.lean ====
section
/-! DEFINITION. Sys2Proof/Machine/Security.lean: images and boot (R503 to R507), model images (R508 to R511), identity and
attestation (R512 to R514), life cycle (R515 to R520) and tamper (R523). -/
namespace Sys2Proof.Machine

/-! ### Images (R503, R504) -/

def imgVerified : Nat := 0
def imgBadHeader : Nat := 1
def imgWrongType : Nat := 2
def imgLcNotAllowed : Nat := 3
def imgRollback : Nat := 4
def imgKeyUnknown : Nat := 5
def imgKeyRevoked : Nat := 6
def imgBadSignature : Nat := 7
def imgSourceError : Nat := 8
def imgDataError : Nat := 9
def imgListFull : Nat := 10

/-- An image source: bytes from an offset. -/
abbrev ImgRead := Nat → Nat → List Byte

def imgNum (rd : ImgRead) (o n : Nat) : Nat := ofLe (rd o n)
def imgType (rd : ImgRead) : Nat := imgNum rd 6 1
def imgSlot (rd : ImgRead) : Nat := imgNum rd 7 1
def imgSvn (rd : ImgRead) : Nat := imgNum rd 8 4
def imgWrung (rd : ImgRead) : Bool := imgNum rd 12 4 % 2 == 1
def imgPayloadLen (rd : ImgRead) : Nat := imgNum rd 16 8
def imgLoadLen (rd : ImgRead) : Nat := imgNum rd 24 8
def imgPubkey (rd : ImgRead) : List Byte := rd 0x40 2592
def imgSignature (rd : ImgRead) : List Byte := rd 0xA60 4627
def imgHeaderBytes : Nat := 8192

/-- A header that keeps R503. -/
def imgHeaderOk (rd : ImgRead) : Bool :=
  let n := imgPayloadLen rd
  let fw := imgType rd == 1
  imgNum rd 0 4 == 0x1F0AC5E3 && imgNum rd 4 2 == 1 && decide (imgNum rd 12 4 < 2) && !(fw && imgWrung rd) &&
  decide (4 ≤ n) && decide (n ≤ if fw then 4194304 else 2 ^ 40) && n % 4 == 0 && (imgWrung rd || imgLoadLen rd == n) &&
  decide (imgNum rd 0x20 1 < 32) && imgNum rd 0x20 1 % 2 == 0 && imgNum rd 0x21 31 == 0 && imgNum rd 0x1C73 909 == 0

/-- The image digest D. -/
def imgDigest (rd : ImgRead) : List Byte := Config.sha3_512 (rd 0 0xA60 ++ rd imgHeaderBytes (imgPayloadLen rd))

def programmed (k : List Byte) : Bool := k.any (fun b => b != 0)

/-- R504 up to the signature: `fw` asks for a firmware image, otherwise a model image. In BLANK every image comes to
KEY_UNKNOWN (R515). -/
def imageCheck (f : Fuses) (rd : ImgRead) (fw : Bool) : Nat :=
  if !imgHeaderOk rd then imgBadHeader
  else if imgType rd ≠ (if fw then 1 else 2) then imgWrongType
  else if f.lc ≠ 0 ∧ !bitOf (imgNum rd 0x20 1) f.lc then imgLcNotAllowed
  else if fw ∧ imgSvn rd < f.svn then imgRollback
  else
    let slot := imgSlot rd
    let keys := if fw then f.fwKeys else f.modelKeys
    let key := keys[Fin.ofNat 4 slot]
    if f.lc = 0 ∨ 4 ≤ slot ∨ !programmed key ∨ Config.sha3_512 (imgPubkey rd) ≠ key then imgKeyUnknown
    else if f.revoke.getLsbD (slot + (if fw then 0 else 4)) then imgKeyRevoked
    else if !Config.mlDsaVerify (imgPubkey rd) (imgDigest rd) (imgSignature rd) then imgBadSignature
    else imgVerified

/-- An image has been checked: counters, VERIFY_FAIL and SEC_LAST_IMAGE. `src` is its SOURCE code. -/
def imageChecked (x : Die) (st src : Nat) : Die :=
  let x := { x.count .secVerifyCnt with sec.lastImage := BitVec.ofNat 32 (st + src * 65536) }
  if st = imgVerified then x else (x.count .secVerifyFailCnt).flag .secFlags 0

/-! ### Boot (R505 to R507) -/

/-- The slot of the flash as an image. -/
def flashImage (x : Die) (slot : Nat) : ImgRead := fun o n => x.io.flash.bytes (slot * slotBytes + o) n

/-- The identity key of the present life-cycle state (R512). -/
def deriveIdentity (x : Die) : Die :=
  let f := x.sec.fuses
  if f.lc = 0 ∨ f.lc = 5 then { x with sec.idKey := none, sec.idPub := [] } else
  let g : Byte := if f.lc = 4 then 1 else 0
  let k := Config.identityKey ((Config.sha3_512 (f.dieSecret ++ [g])).take 32)
  { x with sec.idKey := some k.1, sec.idPub := k.2 }

/-- The effect of a fuse operation (R516, R517, R520). -/
def blowEffect (f : Fuses) (target : Nat) (value : Nat) : Fuses :=
  if target = 0x20 then { f with svn := value }
  else if 0x10 ≤ target ∧ target < 0x18 then { f with revoke := f.revoke ||| ((1 : Byte) <<< (target - 0x10)) }
  else if (target = 1 ∧ f.lc = 2) ∨ (target = 2 ∧ f.lc = 1) then { f with lc := target, toggles := f.toggles + 1 }
  else { f with lc := target }

/-- Operations that were interrupted are completed before anything else runs (R520). -/
def completeOps (x : Die) : Die :=
  let pend := x.sec.fuses.ops.filter (fun o => !o.done)
  let f := pend.foldl (fun (f : Fuses) o => blowEffect f o.target.toNat o.value.toNat) x.sec.fuses
  let fin : FuseOp → FuseOp := fun o => { o with done := true }
  ({ x with sec.fuses := { f with ops := f.ops.map fin } } : Die).countN .secLcCnt pend.length

/-- The die enters LOCKED (R523): its identity key and memories are erased, its outputs are inert. Commands, registers and
clocks are kept, to answer PING, GET_STATUS and RESET_DEVICE. -/
def lockDie (x : Die) : Die :=
  let n := Die.reset x.id x.sec.fuses x.io.flash.cells x.power.resetCause
  { x with dev := .locked, sec.idKey := none, sec.models := [], sec.loads := [], power.healthy := false, pair.pulls := none,
           pair.ctlOut := if x.dev = .locked then x.pair.ctlOut else x.pair.ctlOut ++ [.safeAnnounce],
           dram.cells := [], dram.spoiled := [], xlt := n.xlt, jobs := n.jobs, sh := n.sh, cache := n.cache,
           passes := n.passes, pipes := n.pipes, torus := n.torus, wringers := n.wringers, arbs := [],
           io.csi := n.io.csi, io.tdm := n.io.tdm, io.ufs := n.io.ufs }

/-- The firmware image in force: its measurement, source and security version (R505 step 5). -/
def takeFirmware (x : Die) (rd : ImgRead) (src : Nat) : Die :=
  { x with sec.fwMeas := imgDigest rd, sec.fwSvn := BitVec.ofNat 32 (imgSvn rd), sec.bootSrc := BitVec.ofNat 2 src,
           sec.bootDone := true, sec.recovery := false }

/-- Boot steps 1 to 4 (R505); with both slots refused the die goes into recovery, where its port connects at High-Speed
(R506). -/
def bootDie (x : Die) : Die :=
  if !x.running || x.dev ≠ .rom || !x.power.sramDone || x.sec.bootDone || x.sec.recovery then x else
  let x := completeOps x
  let x := deriveIdentity { x with sec.romMeas := x.sec.fuses.romDigest }
  if x.sec.fuses.lc = 5 then lockDie x else
  let a := imageCheck x.sec.fuses (flashImage x 0) true
  let x := imageChecked x a 0
  if a = imgVerified then takeFirmware x (flashImage x 0) 1 else
  let b := imageCheck x.sec.fuses (flashImage x 1) true
  let x := imageChecked x b 1
  if b = imgVerified then takeFirmware x (flashImage x 1) 2
  else usbConnect { x with sec.recovery := true } .highSpeed

def execBoot (d : DieId) (s : State) : Out := nextOn d bootDie s

/-- ROM_LOAD's image has arrived (R506): whether it verifies. -/
def romImageDone (x : Die) (img : List Byte) : Die × CmdRes :=
  let rd : ImgRead := field img
  let st := imageCheck x.sec.fuses rd true
  let st := if st = imgVerified ∧ img.length ≠ imgHeaderBytes + imgPayloadLen rd then imgBadHeader else st
  let x := imageChecked x st 2
  if st = imgVerified then (takeFirmware x rd 3, resOk []) else (x, resErr stSigFail)

/-- Re-verification on leaving HOLD (R507): steps 1 to 4 again; the digest must be the one recorded at boot. -/
def reverify (x : Die) : Die × Bool :=
  let x := deriveIdentity (completeOps x)
  let a := imageCheck x.sec.fuses (flashImage x 0) true
  let x := imageChecked x a 0
  if a = imgVerified then (x, decide (imgDigest (flashImage x 0) = x.sec.fwMeas)) else
  let b := imageCheck x.sec.fuses (flashImage x 1) true
  let x := imageChecked x b 1
  (x, decide (b = imgVerified) && decide (imgDigest (flashImage x 1) = x.sec.fwMeas))

/-- TAMPER (R523). The checks of boot belong to a die in ROM or leaving HOLD. -/
def tamperDie (c : TamperCause) (x : Die) : Die :=
  let boot := decide (x.dev = .rom) || decide (x.dev = .hold)
  let ok : Bool := match c with
    | .fuseCopies => boot
    | .romMeas => boot
    | .bootBound => boot
    | .fuseReadback => true
    | .scrapped => x.sec.fuses.lc == 5
  if x.dev = .off ∨ x.power.inReset ∨ !ok then x else lockDie x

def execTamper (d : DieId) (cause : TamperCause) (s : State) : Out := nextOn d (tamperDie cause) s

/-! ### Model images (R508 to R511) -/

/-- A place of the model measurement list that is free: its first free entry, of 256. -/
def freeEntry (x : Die) : Option Nat :=
  (List.range 256).find? (fun i => (x.sec.models.getD i none).isNone)

def setEntry (x : Die) (i : Nat) (e : Option ModelEnt) : Die :=
  { x with sec.models := (List.range (max (i + 1) x.sec.models.length)).map (fun k =>
      if k = i then e else x.sec.models.getD k none) }

def reservedEntry (ctx dest : Nat) : ModelEnt :=
  { ctx := ctx, keySlot := 0, wrung := false, closed := false, svn := 0, dest := BitVec.ofNat 64 dest, digest := [],
    verified := false }

/-- The load in front ends with status `st`: its status word, its fence, and its counters; then what `k` adds. A write that
is held leaves it in front (R483). -/
def endLoad (p x : Die) (l : LoadReq) (st : Nat) (k : Die → Die) : Die :=
  thenOk (writeUnit p x .ufs l.ctx (l.fence + 8) (leBytes 8 st) accWrite) (fun x =>
    match signalUnit p x .ufs l.ctx l.fence l.value with
    | (x, none) => x
    | (x, some _) =>
      let past : UfsXfer → UfsXfer := fun t => { t with ahead := t.ahead - 1 }
      ioApplyReady (k { x with sec.loads := x.sec.loads.tail, io.ufs.xfer := x.io.ufs.xfer.map past }))

/-- The entry of a load that found none free. -/
def noEntry : Nat := 256

/-- LOAD_IMAGE executes (R508, R511): an entry is reserved, or LIST_FULL is written at once, before the loads that wait. -/
def loadImage (p x : Die) (ctx lba dest fence : Nat) (value : DWord) : Die :=
  match freeEntry x with
  | some i =>
    let l : LoadReq := { ctx := ctx, lba := lba, dest := dest, fence := fence, value := value, entry := i, frozen := none }
    { setEntry x i (some (reservedEntry ctx dest)) with sec.loads := x.sec.loads ++ [l] }
  | none =>
    let stuck := (x.sec.loads.head?).bind (fun l => l.frozen)
    let l : LoadReq := { ctx := ctx, lba := lba, dest := dest, fence := fence, value := value, entry := noEntry, frozen := stuck }
    let after : UfsXfer → UfsXfer := fun t => { t with ahead := if t.ahead = 0 then 0 else t.ahead + 1 }
    let x := { x with sec.loads := l :: x.sec.loads, io.ufs.xfer := x.io.ufs.xfer.map after }
    if stuck.isSome || x.io.ufs.xfer.any (fun t => t.ahead == 0 && t.frozen.isSome) then x else endLoad p x l imgListFull id

/-- What the loader stores at DEST, and the image's status. -/
def loadOutcome (x : Die) (readOk : Bool) (img : List Byte) : Nat × List Byte :=
  let rd : ImgRead := field img
  let full := img.length == imgHeaderBytes + imgPayloadLen rd
  let st := if !readOk then (if imgHeaderOk rd then imgSourceError else
      if img.length < imgHeaderBytes then imgSourceError else imgBadHeader)
    else if imgHeaderOk rd && !full then imgSourceError
    else imageCheck x.sec.fuses rd false
  let zeros := List.replicate (if imgHeaderOk rd ∧ imgHeaderBytes ≤ img.length then imgLoadLen rd else 0) 0
  if st ≠ imgVerified then (st, zeros) else
  let payload := rd imgHeaderBytes (imgPayloadLen rd)
  if !imgWrung rd then (st, payload) else
  match wrgUnstream (payload.length / 16 + 1) none payload with
  | some out => if out.length = imgLoadLen rd then (st, out) else (imgDataError, zeros)
  | none => (imgDataError, zeros)

/-- The loader's writes in 4 KiB units; false once one is held (R483). -/
def loadUnits (p : Die) (ctx dest : Nat) (out : List Byte) : Nat → Nat → Die → Die × Bool
  | 0, _, x => (x, true)
  | n + 1, i, x =>
    let bs := (out.drop (4096 * i)).take 4096
    if bs.isEmpty then (x, true) else
    match writeUnit p x .ufs ctx (dest + 4096 * i) bs accWrite with
    | (x, true) => loadUnits p ctx dest out n (i + 1) x
    | (x, false) => (x, false)

/-- What a load that is over leaves beside its status and fence (R504, R508, R511): the check's counters and record, and its
place in the measurement list, which a standby receives too (R38). -/
def loadRecorded (p : Die) (l : LoadReq) (st : Nat) (img : List Byte) (x : Die) : Die :=
  let rd : ImgRead := field img
  let x := imageChecked x st 3
  let x := if st = imgSourceError then x.count .ufsErrCnt else x
  let x := if st = imgDataError then x.count .wrgDataErrCnt else x
  let x := if imgWrung rd && (decide (st = imgVerified) || decide (st = imgDataError)) then
      countDecoded x none (rd imgHeaderBytes (imgPayloadLen rd)) else x
  let ent : ModelEnt :=
    { ctx := l.ctx, keySlot := imgSlot rd, wrung := imgWrung rd, closed := false, svn := BitVec.ofNat 32 (imgSvn rd),
      dest := BitVec.ofNat 64 l.dest, digest := imgDigest rd, verified := true }
  let put := fun (e : Option ModelEnt) =>
    let y := setEntry x l.entry e
    if mirrors p y then { y with pair.mirOut := y.pair.mirOut ++ [.model l.entry e] } else y
  if st = imgVerified then (put (some ent)).count .secImageCnt else put none

/-- The loader takes its load in front now: the link is up and no transfer comes first (R550). -/
def loadReady (x : Die) (l : LoadReq) : Bool :=
  x.running && l.frozen.isNone && x.io.ufs.linkUp && !x.io.ufs.xfer.any (fun t => t.ahead == 0)

/-- IMAGE_LOAD_DONE (R510): the load in front ends with `image` read from UFS; one that found no entry reads none. -/
def imageLoadDie (readOk : Bool) (img : List Byte) (p x : Die) : Die :=
  match x.sec.loads with
  | [] => x
  | l :: _ =>
    if !loadReady x l then x
    else if l.entry = noEntry then endLoad p x l imgListFull id
    else
      let (st, out) := loadOutcome x readOk img
      thenOk (loadUnits p l.ctx l.dest out (out.length / 4096 + 1) 0 x) (fun x =>
        endLoad p x l st (loadRecorded p l st img))

def execImageLoadDone (d : DieId) (readOk : Bool) (image : List Byte) (s : State) : Out :=
  nextOn d (imageLoadDie readOk image (s.die d.other)) s

/-! ### Attestation (R513) -/

def modelBytes (e : ModelEnt) : List Byte :=
  leBytes 2 e.ctx ++ [BitVec.ofNat 8 e.keySlot, BitVec.ofNat 8 (b2n e.wrung + 2 * b2n e.closed)] ++ leBytes 4 e.svn.toNat ++
    leBytes 8 e.dest.toNat ++ field e.digest 0 64

/-- The verified entries, in order of reservation. -/
def verifiedModels (x : Die) : List ModelEnt := (x.sec.models.filterMap (fun e => e)).filter (fun e => e.verified)

/-- The report without its signature. -/
def reportBody (x : Die) (nonce : List Byte) : List Byte :=
  let ms := verifiedModels x
  let flags := b2n x.sec.dbgEver + 2 * b2n (x.sec.bootSrc == 3) + 4 * b2n x.pair.degraded + 8 * b2n x.sec.heldSince +
    16 * x.pair.mode.toNat + 64 * x.pair.role.code
  leBytes 4 0x1F0AA77E ++ leBytes 2 1 ++ [BitVec.ofNat 8 x.id.toNat, BitVec.ofNat 8 x.sec.fuses.lc] ++ leBytes 4 flags ++
    leBytes 4 x.sec.fwSvn.toNat ++ leBytes 4 x.sec.fuses.svn ++ leBytes 2 x.node ++ leBytes 2 ms.length ++
    leBytes 8 x.time.toNat ++ leBytes 4 x.press.activeEpoch.toNat ++ leBytes 12 0 ++ field nonce 0 64 ++
    field x.sec.romMeas 0 64 ++ field x.sec.fwMeas 0 64 ++ field x.sec.idPub 0 2592 ++ (ms.map modelBytes).flatten

/-- The report: signed by the identity key over the digest of its body. -/
def attestReport (x : Die) (nonce : List Byte) : List Byte :=
  let b := reportBody x nonce
  b ++ field (Config.mlDsaSign (x.sec.idKey.getD []) (Config.sha3_512 b)) 0 4627 ++ [0]

/-! ### Life cycle (R516 to R520) -/

/-- The fields of an authorisation match (R518). -/
def authOk (x : Die) (a : List Byte) (target : Nat) : Bool :=
  let f := x.sec.fuses
  fieldNat a 0 4 == 0x1F0A1C70 && fieldNat a 4 1 == target && fieldNat a 5 1 == f.lc && fieldNat a 6 2 == 0 &&
  decide (field a 8 64 = field (x.dieId) 0 64) && fieldNat a 0x48 4 == (f.ops.filter (fun o => o.done)).length &&
  (target == 0x20 || fieldNat a 0x4C 4 == 0) && fieldNat a 0x50 48 == 0 && fieldNat a 0x1CB3 1 == 0 &&
  programmed f.lcAuth && decide (Config.sha3_512 (field a 0x80 2592) = f.lcAuth) &&
  Config.mlDsaVerify (field a 0x80 2592) (Config.sha3_512 (field a 0 0xAA0)) (field a 0xAA0 4627)

/-- R516 and R517 allow the operation. -/
def lcAllowed (f : Fuses) (target value : Nat) : Bool :=
  let keyLeft := fun (s : Nat) => ([0, 1, 2, 3] : List (Fin 4)).any (fun i =>
    programmed f.fwKeys[i] && !f.revoke.getLsbD i.val && i.val != s)
  decide (f.ops.length < 96) &&
  (if target = 0x20 then decide (f.svn < value) && decide (value ≤ 64)
   else if 0x10 ≤ target ∧ target < 0x14 then keyLeft (target - 0x10)
   else if 0x14 ≤ target ∧ target < 0x18 then true
   else match f.lc, target with
     | 1, 2 => decide (f.toggles < 16)
     | 2, 1 => decide (f.toggles < 16)
     | 1, 3 => programmed f.fwKeys[(0 : Fin 4)] && programmed f.debugKey
     | 2, 3 => programmed f.fwKeys[(0 : Fin 4)] && programmed f.debugKey
     | 3, 4 => true
     | n, 5 => decide (1 ≤ n) && decide (n ≤ 4)
     | _, _ => false)

/-- A fuse operation: its intent, its effect and its done bit (R520). -/
def blowOp (x : Die) (target value : Nat) : Die :=
  let f := blowEffect x.sec.fuses target value
  let o : FuseOp := { target := BitVec.ofNat 8 target, value := BitVec.ofNat 32 value, done := true }
  ({ x with sec.fuses := { f with ops := f.ops ++ [o] } } : Die).count .secLcCnt

/-- LC_TRANSITION's authorisation has arrived (R519): the answer, and whether the life-cycle state changed. -/
def lcAuthDone (x : Die) (a : List Byte) (target : Nat) : Die × CmdRes × Bool :=
  let x := x.count .secVerifyCnt
  if !authOk x a target then ((x.count .secVerifyFailCnt).flag .secFlags 0, resErr stSigFail, false)
  else
    let v := fieldNat a 0x4C 4
    if !lcAllowed x.sec.fuses target v then (x, resErr stDenied, false)
    else (blowOp x target v, resOk [], decide (target < 0x10))

end Sys2Proof.Machine
end

