-- ==== Sys2Proof/Machine/Power.lean ====
section
/-! DEFINITION. Sys2Proof/Machine/Power.lean: power, reset and start-up (R560 to R569), HOLD (R570 to R575), the power cap
and the thermal limits (R576 to R581). -/
namespace Sys2Proof.Machine

/-! ### Reset (R562 to R567) -/

/-- The die is in reset: its root PLL has not locked since. -/
def Die.resetting (x : Die) : Bool := decide (x.dev = .rom) && !x.power.pllLock

/-- A die begins a reset for a cause: only its fuses, its boot flash, a trip in force and the model's free values remain
(R562, R566). A source that only prolongs a reset leaves the cause. -/
def resetDie (cause : Nat) (x : Die) : Die :=
  let n := Die.reset x.id x.sec.fuses x.io.flash.cells (if x.resetting then x.power.resetCause else cause)
  { n with free := x.free, power.tripped := x.power.tripped, power.inReset := x.power.tripped,
           pair.bridgeReset := x.pair.bridgeReset }

/-- The end of the die bridge is put into reset until the next package reset (R564). -/
def Die.bridgeInReset (x : Die) : Die :=
  { x with pair.bridgeUp := false, pair.bridgeReset := true, pair.copying := false, pair.ctlOut := [], pair.cmpOut := [] }

/-- The mirrored copy of a die's job table, as its standby holds it (R38). -/
def keepMirror (lost x : Die) : Die :=
  if x.pair.mode = 2 ∧ x.pair.role = .standby ∧ x.pair.mirrorSync then { mirrorCtxs lost x with jobs := lost.jobs } else x

/-- What a reset of a die alone leaves of its pair: DEGRADED lasts until the package is reset (R48, R50), and a standby in step
has received the mirror stream (R44). -/
def afterAlone (sync : Bool) (old x : Die) : Die :=
  { x with pair.degraded := old.pair.degraded, pair.mirOut := if sync then old.pair.mirOut else [] }

/-- A reset of one die alone, and what its partner's end of the bridge sees (R564). -/
def resetAlone (s : State) (d : DieId) (cause : Nat) : State :=
  let x := s.die d
  if x.dev = .off then s else
  let sync := (s.die d.other).pair.mirrorSync && decide ((s.die d.other).pair.role = .standby)
  ((s.onDie d.other (fun p => (keepMirror x p).bridgeInReset)).onDie d (fun x =>
    (afterAlone sync x (resetDie cause x)).bridgeInReset))

/-- A die in a package reset: its end of the bridge starts from reset, and its core domains wait for both root PLLs
(R563). -/
def packageDie (cause : Nat) (x : Die) : Die :=
  if x.dev = .off then x else { resetDie cause x with power.inReset := true, pair.bridgeReset := false }

def resetPackage (s : State) (cause : Nat) : State := s.onBoth (packageDie cause)

/-- RESET_SOURCE (R562). Power-on is the event of a die that was off. -/
def execResetSource (src : ResetSrc) (s : State) : Out :=
  .next (match src with
    | .powerOn d =>
      if (s.die d).dev ≠ .off then s else
      (s.onDie d (fun x => ({ resetDie 1 x with power.tripped := false, power.inReset := false } : Die).bridgeInReset)).onDie
        d.other Die.bridgeInReset
    | .packagePin => resetPackage s 2
    | .diePin d => resetAlone s d 3
    | .pwrOkLow d => resetAlone s d 4
    | .supply d => resetAlone s d 5)

/-- POWER_OFF (R561): the rails of a die that PWR_OK holds in reset are removed. -/
def execPowerOff (d : DieId) (s : State) : Out :=
  nextOn d (fun x => if x.resetting then
    { resetDie x.power.resetCause x with dev := .off, power.tripped := false, power.inReset := false } else x) s

/-- RESET_DEVICE_BEGIN (R75): the scheduled reset begins once its reply has been collected, or 10,000 local µs after it was
queued. -/
def execResetDeviceBegin (d : DieId) (s : State) : Out :=
  let x := s.die d
  match x.power.resetDue with
  | none => .next s
  | some (scope, t, reply) =>
    if x.cmd.replies.contains reply && decide ((x.localTime - t).toNat < 10000 * localUs) then .next s
    else if scope = 0 then .next (resetAlone s d 6)
    else if scope = 1 then .next (resetPackage s 7)
    else .next (resetAlone s d 8)

/-- THERMAL_TRIP (R580): a reset with code 9, held until both comparators read below 105 °C. -/
def execThermalTrip (d : DieId) (hot : Bool) (s : State) : Out :=
  let x := s.die d
  if x.dev = .off then .next s
  else if hot then
    if x.power.tripped then .next s else
    .next ((resetAlone s d 9).onDie d (fun y => { y with power.tripped := true, power.inReset := true }))
  else if x.power.tripped then .next (s.onDie d (fun y => { y with power.tripped := false, power.inReset := false }))
  else .next s

/-! ### Start-up (R568) -/

/-- The core domains leave reset once the PLL has locked, and DRAM training begins (R568 step 4); after a package reset both dies leave it together, and the bridge
trains (R563). -/
def leaveReset (s : State) : State :=
  let ok := fun (x : Die) => x.power.pllLock || decide (x.dev = .off)
  if !ok s.a || !ok s.b then s else
  let out : Die → Die := fun x => if x.power.tripped then x else { x with power.inReset := false, dram.resetLow := x.dram.resetLow && !x.power.pllLock }
  let s := s.onBoth out
  let fresh := fun (x : Die) => x.running && !x.pair.bridgeReset && decide (x.dev = .rom)
  if fresh s.a && fresh s.b then s.onBoth (fun x => { x with pair.bridgeUp := true }) else s

/-- ROOT_PLL_LOCK (R453, R568 step 1). -/
def execRootPllLock (d : DieId) (s : State) : Out :=
  let x := s.die d
  if !x.resetting || x.power.tripped then .next s else
  .next (leaveReset (s.onDie d (fun x => { x with power.pllLock := true, power.refOk := true, time := 0 })))

/-- SRAM_INIT_DONE (R567, R568 step 2). -/
def execSramInitDone (d : DieId) (s : State) : Out :=
  nextOn d (fun x => if x.running && decide (x.dev = .rom) then { x with power.sramDone := true } else x) s

/-- The granules that firmware claims (R374): from 8 to 1,024, by the image and the capacity. -/
def firmwareOwn (x : Die) : Nat := 8 + Config.firmwareGranules x.sec.fwMeas x.dram.fittedGib % 1017

/-- Firmware's granules become live, with owner 0 (R374). -/
def claimGranules (x : Die) : Die :=
  let n := firmwareOwn x
  let y := (List.range n).foldl (fun (y : Die) g => y.setOwn g (ownMake 0 0 true true 1)) x
  { y with xlt.fwGranules := n }

/-- Boot step 5 of R505: the port connects at the highest speed that its link and its limit allow; a port that recovery
connected is disconnected first. -/
def startUsb (x : Die) : Die :=
  let n := Config.choice x.free % 4
  let y := if x.io.usb.connected then usbReset x else x
  usbConnect y.tick (usbOfRank (min n y.usbLimit))

/-- STARTUP_READY (R505 step 5, R568 step 6): firmware runs, UFS trains, the pin HEALTHY rises. -/
def startupDie (x : Die) : Die :=
  if !x.running || x.dev ≠ .rom || !x.sec.bootDone || !x.dram.wiped then x else
  let x := startUsb (claimGranules x)
  let gear := 1 + Config.choice x.free % 5
  { x.tick with dev := .ready, power.healthy := true, power.healthyAt := x.time, io.ufs.linkUp := true, io.ufs.gear := gear,
                pair.lastAlive := x.time, pair.lastCtl := x.time }

def execStartupReady (d : DieId) (s : State) : Out := nextOn d startupDie s

/-! ### The power cap (R576 to R578) -/

/-- Slot `k` of a window is gated at level `g` (R577). -/
def slotGated (g k : Nat) : Bool := decide (k * g % 64 < g)

/-- Gated slots of the 800 that a step of 10 local µs spans, from slot `first` of the die's count. -/
def gatedSlots (g first : Nat) : Nat := ((List.range 800).filter (fun i => slotGated g ((first + i) % 64))).length

/-- G after a step (R576). -/
def nextGate (g cap p therm : Nat) : Nat :=
  let g := if cap < p then min 48 (g + 2) else if 100 * p < 98 * cap then g - 1 else g
  let g := if 1 ≤ therm then max g 48 else g
  if therm = 2 then 64 else g

/-- What a step leaves in the power controller. -/
def capPower (cap : Nat) (mw : Word) (v : Power) : Power :=
  let n := 384 * gatedSlots v.gate (v.slots.toNat / 384)
  { v with mw := mw, gate := nextGate v.gate cap mw.toNat v.therm, slots := v.slots + 0x4B000#64,
           gated := v.gated + BitVec.ofNat 64 n }

/-- A step of power control (R576 to R578, R584): pressed fields become active first (R583). 384 pipes pass 800 slots. -/
def capStep (mw : Word) (x : Die) : Die :=
  let x := applyPlain 42 x
  let cap := 250 * x.fld .pwrCap [] 7 0
  let old := x.power.gate
  let y : Die := { x with power := capPower cap mw x.power }
  if decide (cap < mw.toNat) && old == 48 && y.power.gate == 48 then (y.flag .pwrFlags 0).count .pwrCapLimitedCnt else y

def execPowerCapStep (d : DieId) (mw : Word) (s : State) : Out :=
  nextOn d (fun x => if x.running then capStep mw x else x) s

/-! ### Thermal limits (R494, R580) -/

/-- Twice the median of some readings: the middle one, or the mean of the two in the middle. -/
def median2 (rs : List Int) : Option Int :=
  let l := sortBy (fun (a b : Int) => decide (a ≤ b)) rs
  let n := l.length
  match l.drop ((n - 1) / 2) with
  | [] => none
  | a :: t => if n % 2 = 1 then some (2 * a) else some (a + t.headD a)

/-- A reading is plausible (R494), in 1/16 °C. -/
def readingOk (med : Option Int) (v : Sensor) (r : Int) : Bool :=
  decide (-880 ≤ r) && decide (r ≤ 2400) &&
  (match med with
   | some m => decide ((2 * r - m).natAbs ≤ 480)
   | none => true) &&
  (match v.last with
   | some l => decide ((r - l).natAbs ≤ 160)
   | none => true)

/-- A sensor after a reading: an implausible one is excluded until 100 plausible readings in a row. -/
def sensorStep (med : Option Int) (v : Sensor) (r : Int) : Sensor :=
  if readingOk med v r then
    if v.excluded then (if v.run = 99 then { last := some r, excluded := false, run := 0 }
      else { last := some r, excluded := true, run := v.run + 1 })
    else { last := some r, excluded := false, run := 0 }
  else { last := some r, excluded := true, run := 0 }

/-- A sensor's exclusion is counted and recorded. -/
def noteExcluded (readings : List Int) (x : Die) (i : Nat) : Die :=
  ((x.flag .fltFlags 4).count .fltSensorExclCnt).note clsSensorExcluded (.thermal (Fin.ofNat 16 i))
    (FaultInfo.plain 0 (BitVec.ofInt 16 (readings.getD i 0)).toNat)

/-- Tmax: the highest plausible reading; none is stated when no sensor is plausible. -/
def takeTmax (x : Die) : Die :=
  match (x.power.sensors.filter (fun v => !v.excluded)).filterMap (fun v => v.last) with
  | [] => { x.tick with power.tmax := ((Config.word x.free).setWidth 16).toInt }
  | r :: rs => { x with power.tmax := rs.foldl max r }

/-- The thermal level after a reading (R580): with fewer than 9 plausible sensors the die acts as above 125 °C. -/
def thermLevel (x : Die) : Die :=
  let t := x.power.tmax
  let lim : Int := 16 * (x.fld .pwrTherm [] 7 0 : Int)
  let few := decide (x.plausible < 9)
  let critIn := few || decide (2000 < t)
  let cool := if !few && decide (t < lim - 80) then x.power.cool + 1 else 0
  let coolCrit := if !few && decide (t ≤ 1920) then x.power.coolCrit + 1 else 0
  let crit := critIn || (x.power.therm == 2 && decide (coolCrit < 10))
  let limit := critIn || decide (lim ≤ t) || (decide (1 ≤ x.power.therm) && decide (cool < 10))
  let old := x.power.therm
  let new := if crit then 2 else if limit then 1 else 0
  let x := { x with power.therm := new, power.cool := cool, power.coolCrit := coolCrit }
  let x := if old = 0 ∧ 1 ≤ new then (x.flag .pwrFlags 1).count .pwrThermLimitCnt else x
  if old ≠ 2 ∧ new = 2 then (x.flag .pwrFlags 2).count .pwrThermCritCnt else x

/-- THERMAL_SAMPLE (R580): every 1 ms, in HOLD too (R572). -/
def thermalDie (readings : List Int) (x : Die) : Die :=
  if !x.i3cOn || readings.length ≠ 16 then x else
  let idx := List.range 16
  let old := fun (i : Nat) => x.power.sensors.getD i Sensor.reset
  let med := median2 ((idx.filter (fun i => !(old i).excluded)).map (fun i => readings.getD i 0))
  let new := idx.map (fun i => sensorStep med (old i) (readings.getD i 0))
  let out := idx.filter (fun i => !(old i).excluded && (new.getD i Sensor.reset).excluded)
  let x := { x with power.sensors := new }
  thermLevel (takeTmax (out.foldl (noteExcluded readings) x))

def execThermalSample (d : DieId) (readings : List Int) (s : State) : Out := nextOn d (thermalDie readings) s

/-! ### HOLD (R570 to R575) -/

/-- A configuration word that HOLD saves and power gating loses: one that software writes, outside the CMD_, PWR_ and FLT_
windows. Flags and counters are kept (R571, R572). -/
def holdSaves (a : Nat) : Bool :=
  !(decide (a < 0x10000) || (decide (0x30000 ≤ a) && decide (a < 0x40000)) || (decide (0x50000 ≤ a) && decide (a < 0x60000))) &&
  (match regAt a with
   | some (r, _) => decide (r.info.rwp ≠ 0) || decide (r.info.rw ≠ 0)
   | none => false)

/-- Every merging buffer drains and every write is committed (R571 step 3). -/
def drainAll (p x : Die) : Die :=
  let x := x.cache.l1s.foldl (fun (y : Die) t => t.merge.foldl (fun (z : Die) _ => l1WriteOldest p z t.loc 0) y) x
  commitAll p x

/-- A display pipe stops at once (R571 step 1): its active layer words are registers, and saved. -/
def stopPipe (t : Pipe) : Pipe :=
  let layer : Layer → Layer := fun u => { u with pending := none, lines := [], underrun := none }
  { Pipe.reset with layers := t.layers.map layer, hpd := t.hpd, pairLocked := t.pairLocked }

/-- Every link enters DISABLED. -/
def disableLinks (x : Die) : Die :=
  linkIds.foldl (fun (y : Die) l => y.updLink l (fun k => { Link.reset with partnerLink := k.partnerLink, partnerNode := k.partnerNode })) x

/-- Steps 1 to 5 of R571 on one die. A data transfer in progress stays in its channel, stalled until HOLD ends, of which the
spec says nothing (DESIGN CHOICE, log 162). -/
def enterHold (master : Bool) (p x : Die) : Die :=
  let x := drainAll p (disableLinks (linksDown 1 x))
  let keepRings := x.torus.rings
  let links := x.torus.links
  let jobs := { Jobs.reset with serial := x.jobs.serial, order := x.jobs.order }
  let l1 : L1 → L1 := fun t => { L1.fresh t.loc with errs := t.errs, retired := t.retired }
  let l2 : L2 → L2 := fun t => { L2.fresh t.slice with errs := t.errs, retired := t.retired }
  let csi : CsiPort → CsiPort := fun t => { CsiPort.reset with frame := t.frame, frameHi := t.frameHi, refused := t.refused }
  let tdm : TdmPort → TdmPort := fun t => { TdmPort.reset with block := t.block, refused := t.refused }
  let save : HoldSave :=
    { own := x.xlt.own, share := x.xlt.share, regs := x.regs.filter (fun e => holdSaves e.1),
      shadow := x.shadow.filter (fun e => holdSaves e.1) }
  let x := { x with
    saved := some save, regs := x.regs.filter (fun e => !holdSaves e.1),
    shadow := x.shadow.filter (fun e => !holdSaves e.1),
    pipes := x.pipes.map stopPipe, passes := Vector.replicate 4 none, jobs := jobs,
    sh := { Shader.reset with kmac := x.sh.kmac, kmacHi := x.sh.kmacHi },
    cache := { Caches.reset with l1s := x.cache.l1s.map l1, l2s := x.cache.l2s.map l2, carveActive := x.cache.carveActive },
    torus := { Torus.reset with links := links, rings := keepRings },
    wringers := Vector.replicate 8 Wringer.reset, arbs := [], xlt.own := [], xlt.share := [], xlt.tlb := [], xlt.near := [], xlt.walk := [] }
  let x := { x with
    io.csi := x.io.csi.map csi, io.tdm := x.io.tdm.map tdm, io.ufs.xfer := none, io.ufs.linkUp := false, io.flash.cmd := none,
    sec.idKey := none, sec.dbgLevel := 0, sec.challenge := none, sec.loads := [],
    sec.models := x.sec.models.map keepVerified,
    dram.selfRefresh := true, dram.trained := false, dram.parLines := [] }
  let x := { x with
    power.heldState := x.dev, power.holdTime := x.time, power.holdCycles := 0, power.holdMaster := master,
    power.pllLock := false, power.healthy := false, pair.pulls := none, pair.tags := [], dev := .hold }
  x.count .pwrHoldCnt

/-- The bridge stops with the die; both ends train again when HOLD ends (R570, R573). -/
def bridgeHeld (x : Die) : Die :=
  { x with pair.suspended := x.pair.bridgeUp, pair.bridgeUp := false, pair.mirrorSync := false }

/-- HOLD takes the die alone, or both dies of a pair that is whole (R570). -/
def holdTogether (s : State) (d : DieId) : Bool :=
  let x := s.die d
  let p := s.die d.other
  x.pair.mode != 0 && !x.pair.lost && (decide (p.dev = .ready) || decide (p.dev = .active) || decide (p.dev = .hold))

/-- HOLD_ENTER executes (R571). -/
def holdEnter (s : State) (d : DieId) : State :=
  let p := s.die d.other
  let x := s.die d
  let both := holdTogether s d
  let s := s.onDie d (enterHold true p)
  let s := if both then s.onDie d.other (enterHold false x) else s
  let s := s.onDie d bridgeHeld
  if both then s.onDie d.other bridgeHeld
  else s.onDie d.other (fun y => { y with pair.bridgeUp := false, pair.mirrorSync := false })

/-- The saved state returns (R573 step 4). -/
def restoreSaved (x : Die) : Die :=
  match x.saved with
  | none => x
  | some v =>
    let put := fun (old new : WordMap) => new.foldl (fun (m : WordMap) e => spSet regReset m e.1 e.2) old
    { x with xlt.own := v.own, xlt.share := v.share, regs := put x.regs v.regs, shadow := put x.shadow v.shadow, saved := none }

/-- Ports and pipes resume at their EN (R573 step 5). -/
def resumePorts (x : Die) : Die :=
  let x := pipeIds.foldl (fun (y : Die) q =>
    if (y.regI .dspPipeCtrl [q.val]).getLsbD 0 then
      y.updPipe q (fun t => { freshFrame t with en := true, relocking := true }) else y) x
  let now := x.time
  let csi : CsiPort → CsiPort := fun t => { t with lastStart := now }
  let tdm : TdmPort → TdmPort := fun t => { t with clockOk := true, resumed := true, startTime := now }
  pipeIds.foldl (fun (y : Die) q =>
    let y := if y.fldBit .csiCtrl [q.val] 31 then { y with io.csi := vmod y.io.csi q csi } else y
    if y.fldBit .tdmCtrl [q.val] 31 then { y with io.tdm := vmod y.io.tdm q tdm } else y) x

/-- Steps 1 to 5 of R573 on one die. A die whose re-verification fails enters SAFE. -/
def leaveHold (x : Die) : Die :=
  let now := x.localTime
  let x := { x with power.pllLock := true, dram.selfRefresh := false, dram.trained := true,
                    time := now }
  let (x, ok) := reverify x
  if !ok then x.enterSafe else
  let x := restoreSaved x
  let x := resumePorts (linksFollow { x with dev := x.power.heldState, sec.heldSince := true })
  { x with power.healthy := true, power.healthyAt := now, io.ufs.linkUp := true, pair.lastAlive := now, pair.lastCtl := now,
           pair.pulls := if x.id = .b ∧ x.pair.mode = 2 ∧ x.pair.role = .primary then some now else none }

/-- The bridge trains again; in SPARE mode MIRROR_SYNC is set again (R573), but not after a failover or a
lost partner (R48). -/
def bridgeBack (s : State) (d : DieId) : State :=
  if !(s.die d).pair.suspended || s.a.pair.bridgeReset || s.b.pair.bridgeReset then s else
  let whole := !s.a.pair.degraded && !s.b.pair.degraded && !s.a.pair.lost && !s.b.pair.lost
  let up : Die → Die := fun x =>
    { x with pair.bridgeUp := true, pair.suspended := false, pair.mirrorSync := x.pair.mode == 2 && whole }
  s.onBoth up

/-- HOLD_EXIT executes (R573, R574): the die that accepted HOLD_ENTER brings out every die in HOLD with it. -/
def holdExit (s : State) (d : DieId) : State :=
  let both := holdTogether s d && decide ((s.die d.other).dev = .hold)
  let s := s.onDie d leaveHold
  let s := if both then s.onDie d.other leaveHold else s
  let s := bridgeBack s d
  s.onDie d (fun x => { x with power.holdMaster := false })

end Sys2Proof.Machine
end

