-- ==== Sys2Proof/Machine/Status.lean ====
section
/-! DEFINITION. Sys2Proof/Machine/Status.lean: what software reads from the configuration registers (R13, R98): the fields
that hardware keeps elsewhere in the state, and the value read at an address. -/
namespace Sys2Proof.Machine

/-- A word made of fields, each a value and its lowest bit. -/
def wordOf (fs : List (Nat × Nat)) : Word := BitVec.ofNat 32 (fs.map (fun q => q.1 * 2 ^ q.2)).sum

/-! ### Command processor, pair, clocks (CMD_, CLK_) -/

def queueStatus (x : Die) : Word := wordOf [(x.replyLevel, 20), (x.cmd.pool.length, 9), (x.cmd.fifo.length, 0)]

/-- PK_OUTPUT_OWNER selects the die's display ports (R45). -/
def ownsOutput (p x : Die) : Bool :=
  match x.id with
  | .a => p.pair.pulls.isNone
  | .b => x.pair.pulls.isSome

def pairStatus (p x : Die) : Word :=
  wordOf [(b2n x.pair.degraded, 11), (b2n (x.pair.heard && !x.partnerSilent), 10), (b2n x.pair.bridgeUp, 9), (b2n x.pair.mirrorSync, 8),
    (x.pair.role.code, 4), (b2n (!x.power.inReset && ownsOutput p x), 3), (x.pair.mode.toNat, 0)]

def clkStatusWord (x : Die) : Word :=
  wordOf [(b2n x.power.holdover, 2), (b2n x.power.refOk, 1), (b2n (x.power.pllLock && !x.power.holdover), 0)]

/-! ### Power and security (PWR_, SEC_) -/

def pwrStatusWord (x : Die) : Word :=
  wordOf [(x.power.therm, 30), (x.power.gate, 16), ((BitVec.ofInt 16 x.power.tmax).toNat, 0)]

def secStatusWord (x : Die) : Word :=
  wordOf [(x.sec.dbgFails, 20), (x.sec.dbgLevel, 16), (x.sec.bootSrc.toNat, 12), (x.sec.fuses.lc, 0)]

/-- One bit for each of four keys. -/
def keyBits (f : Fin 4 → Bool) : Nat := b2n (f 0) + 2 * b2n (f 1) + 4 * b2n (f 2) + 8 * b2n (f 3)

def secFuseWord (x : Die) : Word :=
  let f := x.sec.fuses
  wordOf [(b2n (programmed f.debugKey), 29), (b2n (programmed f.lcAuth), 28), (keyBits (fun i => f.revoke.getLsbD (i.val + 4)), 24),
    (keyBits (fun i => programmed f.modelKeys[i]), 20), (keyBits (fun i => f.revoke.getLsbD i.val), 16),
    (keyBits (fun i => programmed f.fwKeys[i]), 12), (f.toggles, 7), (f.svn, 0)]

/-- Word `i` of a 64-byte digest; none recorded reads 0. -/
def digestWord (d : List Byte) (i : Nat) : Word := BitVec.ofNat 32 (fieldNat d (4 * i) 4)

/-! ### Faults (FLT_) -/

def fltQueueWord (x : Die) : Word :=
  wordOf [(min 65535 (x.flt.darner.filter (fun q => q.held)).length, 11), (x.flt.queue.length, 0)]

def darnerWord (x : Die) : Word :=
  wordOf [(min 127 (x.flt.reports.filter (fun r => r.freezes)).length, 16),
    ((x.flt.darner.filter (fun q => q.reserved)).length, 8), ((x.flt.darner.filter (fun q => !q.reserved)).length, 0)]

/-! ### Jobs (JOB_) -/

def jobQueueWord (x : Die) : Word :=
  let n := fun (p : Job → Bool) => (x.jobs.list.filter p).length
  wordOf [(n (fun j => decide (j.state = .waiting) || decide (j.state = .released)), 16),
    (n (fun j => decide (j.state = .running)), 0)]

/-- A share folds or unfolds now. -/
def Share.moving (h : Share) : Bool := decide (h.state = .folding) || decide (h.state = .unfolding)

def jobFoldWord (x : Die) : Word :=
  wordOf [((x.jobs.list.filter (fun j => j.shares.any (fun h => decide (h.state = .folded)))).length, 16),
    ((x.jobs.list.map (fun j => (j.shares.filter Share.moving).length)).sum, 0)]

/-- The share in a partition is folding or unfolding. -/
def partMoving (x : Die) (q : Partition) : Bool :=
  match x.job? q.job with
  | some j => j.shares.any (fun h => decide (h.cl = q.cl) && h.moving)
  | none => false

def clusterWord (x : Die) (cl : Fin 6) : Word :=
  let ps := x.sh.parts.filter (fun q => decide (q.cl = cl))
  let classes := ps.filterMap (fun q => (x.job? q.job).map (fun j => dClass j.desc))
  wordOf [(b2n ps.isEmpty, 18), (listMin classes, 16), (ps.length, 4),
    ((ps.map (fun q => if partMoving x q then 2 ^ q.slot.val else 0)).sum, 0)]

/-! ### Ownership, wringer, caches, front end (OWN_, WRG_, L2C_, LOC_, TLM_, GRP_, GFX_) -/

/-- The word of the selected share group that OWN_SHARE_WORD addresses. -/
def shareKey (x : Die) (w : Nat) : Nat := x.fld .ownShareSel [] 10 0 * 32 + w

def shareWord (x : Die) (w : Nat) : Word := spGet (fun _ => (0 : Word)) x.xlt.share (shareKey x w)

def engineWord (x : Die) (e : Fin 8) : Word :=
  let t := x.wringers[e]
  wordOf [(if t.frozen.isSome then 6 else t.use, 29), (if t.use = 0 then 0 else t.ctx, 16)]

def sliceStatusWord (x : Die) (sl : Fin 16) : Word :=
  let t := x.l2 sl
  wordOf [(t.side.length, 21), ((t.miss.filter realMiss).length, 14), (t.merge.length, 8)]

def coreWord (x : Die) (c : CoreLoc) : Word :=
  let t := x.l1 c
  let ctx := match t.carveJob.bind (fun j => x.job? j) with
    | some j => j.ctx
    | none => 0
  wordOf [(t.carve, 30), (ctx, 20), (t.side.length, 12), (t.miss.length, 6), (t.merge.length, 0)]

/-- PHASE reads 5 where the front end is frozen, for the pass or as the unit that holds GFX_CFG (R473, R481). -/
def feSlotWord (x : Die) (p : Fin 4) : Word :=
  match x.passes[p] with
  | none => 0
  | some q => wordOf [(1, 31), (if q.frozen.isSome || x.unitFrozen 34 then 5 else phaseCode q.phase, 28), (min 255 q.segment, 20), (q.ctx, 0)]

def pipeRoomWord (x : Die) (c : CoreLoc) (p : Fin 4) : Word :=
  let gs := x.onPipe c p
  wordOf [(gs.length, 24), (128 - accsUsed gs, 16), (512 - regsUsed gs, 0)]

def partWord (x : Die) (cl : Fin 6) (k : Fin 4) : Word :=
  match x.sh.parts.find? (fun q => decide (q.cl = cl) && decide (q.slot = k)) with
  | none => 0
  | some q => wordOf [(q.mask.toNat, 16), (1, 15), (if partMoving x q then 2 else q.kind, 13), (q.ctx, 0)]

def stepsWord (x : Die) (cl : Fin 6) : Word := wordOf [((x.sh.zeroing[cl]).toNat, 16), ((~~~(x.busySteps cl)).toNat, 0)]

/-! ### Display, links, interfaces (DSP_, TOR_, DRC_ to I3T_) -/

def layerWord (x : Die) (p : Fin 4) (l : Fin 8) : Word :=
  let t := (x.pipes[p]).layers[l]
  wordOf [(b2n t.pending.isSome, 1), (b2n (lEn t.active), 0)]

def pipeWord (x : Die) (p : Fin 4) : Word :=
  let t := x.pipes[p]
  wordOf [(t.line % 4096, 20), (min 15 t.mmRun, 4), (b2n t.pairLocked, 3), (b2n t.frozen.isSome, 2), (b2n t.vblank, 1),
    (b2n t.en, 0)]

/-- DSP_PORT_STATUS: lanes, rate and FEC in use while the link is trained. -/
def portWord (x : Die) (p : Fin 4) : Word :=
  let t := x.pipes[p]
  let ctrl := x.regI .dspPortCtrl [p.val]
  if t.trained then wordOf [(b2n t.hpd, 31), (1, 30), (wbits ctrl 29 28, 28), (t.rate, 24), (b2n (portFec ctrl), 23)]
  else wordOf [(b2n t.hpd, 31)]

def LinkState.code : LinkState → Nat
  | .disabled => 0
  | .signal => 1
  | .align => 2
  | .exchange => 3
  | .up => 4
  | .down => 5

/-- TOR_LINK_STATUS of a link by its code; a link of the partner's reads as DISABLED. -/
def linkWord (x : Die) (code : Nat) : Word :=
  if code % 2 ≠ x.id.toNat then 0 else
  let k := x.link (Fin.ofNat 3 (code / 2))
  wordOf [(k.state.code, 29), (k.cause.toNat, 26), (b2n k.reversed, 25), (k.partnerLink.toNat, 22), (k.partnerNode.toNat, 8),
    (k.pol.toNat, 0)]

/-- The words of the ring that TOR_RING_SEL selects, as last written. -/
def ringWords (x : Die) : Word × Word :=
  match x.torus.rings.find? (fun r => r.ctx == x.fld .torRingSel [] 9 0) with
  | some r => (r.shLo, r.shHi)
  | none => (0, 0)

def drcWord (x : Die) : Word :=
  wordOf [(b2n x.dram.trained, 31), (b2n (!x.dram.wiped || !x.dram.fill.isEmpty), 30), (x.dram.ranks, 8), (x.dram.fittedGib, 0)]

def csiWord (x : Die) (p : Fin 4) : Word :=
  let t := x.io.csi[p]
  wordOf [(b2n t.frozen.isSome, 31), (b2n t.locked, 30), (b2n t.inFrame, 29)]

def tdmWord (x : Die) (p : Fin 4) : Word :=
  let t := x.io.tdm[p]
  wordOf [(b2n t.frozen.isSome, 31), (b2n t.clockOk, 30)]

def ufsWord (x : Die) : Word :=
  let t := x.io.ufs
  wordOf [(b2n t.linkUp, 31), (b2n (t.xfer.isSome || !x.sec.loads.isEmpty), 30), (if t.linkUp then t.gear else 0, 27)]

def i3tWord (x : Die) : Word :=
  match x.io.i3c.dyn with
  | some a => wordOf [(a.toNat, 1), (1, 0)]
  | none => 0

/-! ### Reading a word (R13, R98) -/

/-- The word of a register whose read-only fields hardware keeps elsewhere; `p` is the partner. -/
def statusWord (p x : Die) (r : Reg) (is : List Nat) : Word :=
  let i := is.headD 0
  let j := (is.drop 1).headD 0
  let k := (is.drop 2).headD 0
  let q := Fin.ofNat 4 i
  match r with
  | .cmdQueueStatus => queueStatus x
  | .cmdPairStatus => pairStatus p x
  | .clkStatus => clkStatusWord x
  | .clkPressActive => x.press.activeEpoch
  | .clkPressPending => x.press.epoch
  | .clkPressBehindLo => x.press.behind.setWidth 32
  | .clkPressBehindHi => (x.press.behind >>> 32).setWidth 32
  | .pwrStatus => pwrStatusWord x
  | .pwrPower => x.power.mw
  | .pwrResetCause => BitVec.ofNat 32 x.power.resetCause
  | .pwrSlotLo => loWord x.power.slots
  | .pwrSlotHi => x.power.slotsHi
  | .pwrGatedLo => loWord x.power.gated
  | .pwrGatedHi => x.power.gatedHi
  | .secStatus => secStatusWord x
  | .secFuse => secFuseWord x
  | .secFwSvn => x.sec.fwSvn
  | .secLastImage => x.sec.lastImage
  | .secFlags => wordOf [(b2n (x.sec.bootSrc == 3), 3)]
  | .secOps => BitVec.ofNat 32 (x.sec.fuses.ops.filter (fun o => o.done)).length
  | .secRomMeas => digestWord x.sec.romMeas i
  | .secFwMeas => digestWord x.sec.fwMeas i
  | .secIdDigest => if x.sec.idPub.isEmpty then 0 else digestWord x.dieId i
  | .fltQueueStatus => fltQueueWord x
  | .fltDarnerStatus => darnerWord x
  | .jobQueueStatus => jobQueueWord x
  | .jobFoldStatus => jobFoldWord x
  | .jobClusterStatus => clusterWord x (Fin.ofNat 6 i)
  | .ownQueryEntry => (x.ownEntry (x.fld .ownQueryIdx [] 18 0)).setWidth 32
  | .ownFwGranules => BitVec.ofNat 32 x.xlt.fwGranules
  | .wrgEngineStatus => engineWord x (Fin.ofNat 8 i)
  | .l2cStatus => BitVec.ofNat 32 x.cache.carveActive
  | .l2cSliceStatus => sliceStatusWord x (Fin.ofNat 16 i)
  | .gfxFeSlot => feSlotWord x q
  | .drcStatus => drcWord x
  | .grpPipeStatus => pipeRoomWord x { cl := Fin.ofNat 6 i, core := Fin.ofNat 16 j } (Fin.ofNat 4 k)
  | .mtxKmacLo => loWord x.sh.kmac
  | .mtxKmacHi => x.sh.kmacHi
  | .tlmPart => partWord x (Fin.ofNat 6 i) (Fin.ofNat 4 j)
  | .tlmClusterStatus => stepsWord x (Fin.ofNat 6 i)
  | .locCoreStatus => coreWord x { cl := Fin.ofNat 6 i, core := Fin.ofNat 16 j }
  | .dspLayerStatus => layerWord x q (Fin.ofNat 8 j)
  | .dspPipeStatus => pipeWord x q
  | .dspPipeFrame => (x.pipes[q]).frame
  | .dspPortStatus => portWord x q
  | .torLinkStatus => linkWord x i
  | .csiStatus => csiWord x q
  | .csiFrameLo => loWord (x.io.csi[q]).frame
  | .csiFrameHi => (x.io.csi[q]).frameHi
  | .tdmStatus => tdmWord x q
  | .ufsStatus => ufsWord x
  | .xspStatus => wordOf [(b2n x.io.flash.cmd.isSome, 0)]
  | .i3tStatus => i3tWord x
  | _ => x.regI r is

/-- The value that a read of a register returns (R13): RWP fields read their shadow, WO and reserved bits read 0. -/
def readReg (p x : Die) (r : Reg) (is : List Nat) : Word :=
  let f := r.info
  match r with
  | .ownShareWord => shareWord x (is.headD 0)
  | .torRingLo => (ringWords x).1
  | .torRingHi => (ringWords x).2
  | _ => (x.shadowI r is &&& f.rwp) ||| (statusWord p x r is &&& f.ro) ||| (x.regI r is &&& (f.rw ||| f.w1c))

/-- A read of a LO count word captures its HI word (R198, R542, R584). -/
def readEffect (x : Die) (r : Reg) (is : List Nat) : Die :=
  match r with
  | .mtxKmacLo => (kmacRead x).1
  | .csiFrameLo => csiFrameLo x (Fin.ofNat 4 (is.headD 0))
  | .pwrSlotLo => pwrSlotLo x
  | .pwrGatedLo => pwrGatedLo x
  | _ => x

/-- One word of the configuration space is read (R98): an address in a window without a register reads 0. -/
def cfgReadWord (p x : Die) (a : Nat) : Die × Word :=
  match regAt a with
  | some (r, is) => (readEffect x r is, readReg p x r is)
  | none => (x, 0)

/-- Words in ascending address order. -/
def cfgReadWords (p x : Die) (a n : Nat) : Die × List Word :=
  (List.range n).foldl (fun (r : Die × List Word) i =>
    let (y, w) := cfgReadWord p r.1 (a + 4 * i)
    (y, r.2 ++ [w])) (x, [])

end Sys2Proof.Machine
end

