-- ==== Sys2Proof/Machine/Cfg.lean ====
section
/-! DEFINITION. Sys2Proof/Machine/Cfg.lean: writes to the configuration space (R96 to R100): refused values (R99), what a
write does, and the writes that act at once. -/
namespace Sys2Proof.Machine

/-! ### Refused values (R99) -/

/-- A field's range: highest and lowest bit, least and greatest value, and a divisor. -/
structure Range where
  hi : Nat
  lo : Nat
  least : Nat
  most : Nat
  step : Nat
  deriving DecidableEq, Repr

def rng (hi lo least most : Nat) : Range := { hi := hi, lo := lo, least := least, most := most, step := 1 }

def Range.ok (q : Range) (v : Word) : Bool :=
  let n := wbits v q.hi q.lo
  decide (q.least ≤ n) && decide (n ≤ q.most) && n % q.step == 0

/-- The single-field ranges of the register maps. -/
def fieldRanges (r : Reg) : List Range :=
  match r with
  | .cmdPairCfg => [rng 1 0 0 2, rng 15 12 4 15, rng 23 16 1 255]
  | .cmdDataCfg => [rng 15 0 1 65535]
  | .clkPressCfg => [rng 9 0 2 1000]
  | .arbWdog => [rng 8 0 1 256]
  | .pwrCap => [rng 7 0 50 192]
  | .pwrTherm => [rng 7 0 85 125]
  | .fltCfg => [rng 7 0 1 255]
  | .jobCfg => [rng 15 8 1 255, rng 4 0 1 20]
  | .l2cCfg => [rng 20 16 1 31, rng 15 8 1 255, rng 2 0 0 4]
  | .gfxCfg => [rng 15 8 1 255]
  | .grpSchedCfg => [{ hi := 9, lo := 0, least := 16, most := 1020, step := 4 }]
  | .tlmCfg => [{ hi := 9, lo := 0, least := 16, most := 1020, step := 4 }]
  | .locCfg => [rng 20 16 1 16, rng 15 8 8 255]
  | .dspPipeCtrl => [rng 4 3 0 2]
  | .dspPipeSync => [rng 29 24 1 63, rng 15 8 1 255]
  | .dspTagCtrl => (List.range 16).map (fun i => rng (2 * i + 1) (2 * i) 0 2)
  | .dspLayerSrc => [rng 31 16 0 8191, rng 15 0 0 8191]
  | .dspLayerDst => [rng 31 16 0 8191, rng 15 0 0 8191]
  | .dspLayerPos => [rng 31 16 0 8191, rng 15 0 0 8191]
  | .dspPortCtrl => [rng 29 28 0 2, rng 27 24 0 7]
  | .dspPortDsc => [rng 31 16 8 4320]
  | .csiCtrl => [rng 30 29 0 2, rng 15 12 1 15]
  | .csiWdog => [rng 31 16 1 65535, rng 15 0 1 65535]
  | .tdmCtrl => [rng 23 20 1 15, rng 17 16 0 2]
  | .tdmBlock => [rng 23 16 1 255, rng 12 0 16 4096]
  | .xspCmd => [rng 1 0 1 3]
  | .xltResolve => [rng 31 30 0 2]
  | _ => []

/-- A write of ARB_QUOTA: QUOTA ranges up to the window size. -/
def quotaOk (v : Word) : Bool := decide (1 ≤ wbits v 15 8) && decide (wbits v 15 8 ≤ 16 * 2 ^ wbits v 1 0)

/-- The data types of R540. -/
def csiTypes : List Nat := [0x2A, 0x2B, 0x2C, 0x2E, 0x1E]

/-- XLT_RESOLVE names a held fault that its action may resolve (R377, R384). -/
def resolveOk (x : Die) (v : Word) : Bool :=
  match x.heldFault (v.setWidth 20) with
  | none => false
  | some h => if wbits v 31 30 = 2 then h.ctx != 0 else if wbits v 31 30 = 1 then !wrungRefused x h else true

/-- The ring size that the next press would apply in a dimension: R405 and R428 do not say whether the size in force or the one
in the shadow of TOR_DIM is meant (DESIGN CHOICE, log 140). -/
def Die.pressedRing (x : Die) (l : Fin 3) : Nat := coordOf (wbits (x.shadowI .torDim []) 13 0) l + 1

/-- The value may be written to the register in the present state (R99). -/
def valueOk (x : Die) (r : Reg) (is : List Nat) (v : Word) : Bool :=
  (fieldRanges r).all (fun q => q.ok v) &&
  (match r with
   | .arbQuotaFabric => quotaOk v
   | .arbQuotaDram => quotaOk v
   | .arbQuotaLink => quotaOk v
   | .csiCtrl => csiTypes.contains (wbits v 21 16)
   | .dspPipePclk =>
     let n := wbits v 20 0
     (n == 0 && !(x.shadowI .dspPipeCtrl is).getLsbD 0) || (decide (25000 ≤ n) && decide (n ≤ 1100000))
   | .torRingHi => !v.getLsbD 31 || (decide (4 ≤ wbits v 28 24) && decide (wbits v 28 24 ≤ 16))
   | .xltInvCtrl => wbits v 31 30 % 2 == 0 || wbits v 29 20 != 0
   | .xltResolve => resolveOk x v
   | .ufsXferGo => !ufsGoRefused x v
   | .xspCmd => !xspRefused x (wbits v 1 0)
   | .torLinkCtrl => linkIds.all (fun l => !v.getLsbD l.val || decide (1 < x.pressedRing l))
   | .torDownX => decide (v.toNat < 2 ^ x.pressedRing 0)
   | .torDownY => decide (v.toNat < 2 ^ x.pressedRing 1)
   | .torDownZ => decide (v.toNat < 2 ^ x.pressedRing 2)
   | _ => true)

/-! ### Writes that act at once -/

/-- XLT_INV_CTRL (R364). -/
def invWrite (v : Word) (p x : Die) : Die :=
  let ctx := BitVec.ofNat 10 (wbits v 29 20)
  match wbits v 31 30 with
  | 0 => invalidate (performUnits (fun _ => true) p x) (fun _ => true) (fun _ => true)
  | 1 => invContextAfter ctx p x
  | 2 => invVmAfter (BitVec.ofNat 8 (wbits v 19 12)) p x
  | _ => invRangeAfter ctx (BitVec.ofNat 12 (wbits v 11 0)) p x

/-- XLT_RESOLVE (R377). -/
def resolveWrite (v : Word) (p x : Die) : Die :=
  let fid : BitVec 20 := v.setWidth 20
  match wbits v 31 30 with
  | 0 => replayDie fid p x
  | 1 => replayWrungDie fid p x
  | _ => killDie fid p x

/-- The ring of the context that TOR_RING_SEL selects takes a word in its shadow (R414). -/
def ringWrite (hi : Bool) (v : Word) (x : Die) : Die :=
  let c := x.fld .torRingSel [] 9 0
  let r := if hi then Reg.torRingHi else Reg.torRingLo
  let w := v &&& r.info.rwp
  let put : Ring → Ring := fun t => if hi then { t with shHi := w } else { t with shLo := w }
  let fresh : Ring :=
    { ctx := c, lo := 0, hi := 0, shLo := 0, shHi := 0, prLo := 0, prHi := 0, prod := 0, cons := 0, known := false }
  let rings := if x.torus.rings.any (fun t => t.ctx == c) then x.torus.rings else
    sortBy (fun a b => decide (a.ctx ≤ b.ctx)) (x.torus.rings ++ [fresh])
  { x with torus.rings := updWhere (fun t => t.ctx == c) put rings, press.dirty := x.press.dirty ||| bit44 40,
           press.shadowBad := x.press.shadowBad.filter (fun a => a != r.addr []) }

/-- A register's fields take a word by their access codes (R13, R14). -/
def plainWrite (r : Reg) (is : List Nat) (v : Word) (x : Die) : Die :=
  let f := r.info
  let old := x.regI r is
  let new := ((old &&& ~~~f.rw) ||| (v &&& f.rw)) &&& ~~~(v &&& f.w1c)
  let x := if new = old then x else x.setRegI r is new
  if f.rwp = 0 then x else x.writeShadow r is v

/-- One die's register takes a word. -/
def regWrite (p : Die) (r : Reg) (is : List Nat) (v : Word) (x : Die) : Die :=
  match r with
  | .xltInvCtrl => invWrite v p x
  | .xltResolve => resolveWrite v p x
  | .ownShareWord => shareWordAfter (Fin.ofNat 32 (is.headD 0)) v p x
  | .torRingLo => ringWrite false v x
  | .torRingHi => ringWrite true v x
  | .ufsXferGo => ufsGo x v
  | .xspCmd => xspStart (wbits v 1 0) x
  | _ => plainWrite r is v x

/-- A register of a paired display pipe (R310). -/
def pairedPipeReg (x : Die) (r : Reg) (is : List Nat) : Bool :=
  decide (0x500000 ≤ r.info.base) && decide (r.info.base < 0x540000) && x.pipeOfPair (Fin.ofNat 4 (is.headD 0))

/-- Die B's paired pipe takes the word that die A's took: the press that applies it is die A's (R310). -/
def followWrite (r : Reg) (is : List Nat) (v : Word) (x : Die) : Die :=
  let y := plainWrite r is v x
  { y with press.dirty := x.press.dirty }

/-- One word of the configuration space is written (R98): an address in a window without a register ignores it. A word for a
paired pipe reaches die B over a bridge that is up; where it is down, die A's pipe takes it alone (DESIGN CHOICE, log 155). -/
def cfgWriteWord (s : State) (d : DieId) (a : Nat) (v : Word) : State :=
  match regAt a with
  | none => s
  | some (r, is) =>
    if r = .cmdPairCfg then pairCfgWrite s d v else
    let both := decide (d = .a) && pairedPipeReg s.a r is && s.a.pair.bridgeUp && !s.a.pair.lost
    let s := s.onDie d (regWrite (s.die d.other) r is v)
    if both then s.onDie .b (followWrite r is v) else s

/-! ### CFG_WRITE (R99, R100) -/

/-- The first word of a range whose value is refused: every word is checked in the state before any is written (R99). -/
def cfgBadWord (x : Die) (a : Nat) (vs : List Word) : Option Nat :=
  (List.range vs.length).find? (fun i => match regAt (a + 4 * i) with
    | some (r, is) => !valueOk x r is (vs.getD i 0)
    | none => false)

/-- Words written in ascending address order. -/
def cfgWriteWords (d : DieId) (a : Nat) (vs : List Word) (s : State) : State :=
  (List.range vs.length).foldl (fun (t : State) i => cfgWriteWord t d (a + 4 * i) (vs.getD i 0)) s

/-- The range holds CMD_PAIR_CFG (R26). -/
def holdsPairCfg (a n : Nat) : Bool := decide (a ≤ 0x300) && decide (0x300 < a + 4 * n)

/-- The range holds a register of a pipe that die B follows (R310). -/
def holdsPairedPipe (x : Die) (a n : Nat) : Bool :=
  decide (x.id = .b) && (List.range n).any (fun i => match regAt (a + 4 * i) with
    | some (r, is) => pairedPipeReg x r is
    | none => false)

/-- CFG_WRITE executes: its status and DETAIL, and the new state (R26, R99, R100, R310). -/
def cfgWriteRun (s : State) (d : DieId) (a : Nat) (vs : List Word) : State × CmdRes :=
  let x := s.die d
  if holdsPairedPipe x a vs.length then (s, resErr stWrongState)
  else if holdsPairCfg a vs.length && x.pairCfgRefused then (s, resErr stPairRefused)
  else match cfgBadWord x a vs with
    | some i => (s, resBad (2 + i))
    | none => (cfgWriteWords d a vs s, resOk [])

end Sys2Proof.Machine
end

