-- ==== Sys2Proof/Machine/Debug.lean ====
section
/-! DEFINITION. Sys2Proof/Machine/Debug.lean: the TAP and the debug unlock (R521, R522). -/
namespace Sys2Proof.Machine

/-! ### TAP instructions (R521) -/

/-- The TAP takes an instruction, with what its data register shifts out. -/
def tapShift (s : State) (ir : Byte) (out : List Byte) : State := { s with tap := { s.tap with ir := ir, out := out } }

/-- What the boundary-scan chain captures, die A's part before die B's (R601): its cells are not stated. -/
def boundary (s : State) : List Byte := [Config.byte s.a.free 0, Config.byte s.b.free 1]

def tickBoth (s : State) : State := s.onBoth Die.tick

/-- EXTEST is refused in SCRAPPED. -/
def execExtest (s : State) : Out :=
  if s.a.sec.fuses.lc = 5 ∨ s.b.sec.fuses.lc = 5 then .next s else .next (tickBoth (tapShift s 0x00 (boundary s)))

/-- IDCODE of revision 0. -/
def execIdcode (s : State) : Out := .next (tapShift s 0x01 (leBytes 4 0x0C25A0F3))

def execSamplePreload (s : State) : Out := .next (tickBoth (tapShift s 0x02 (boundary s)))

/-- BYPASS: a register of one bit. -/
def execBypass (s : State) : Out := .next (tapShift s 0xFF [0])

/-! ### Unlocking (R522) -/

/-- The greatest level that a response unlocks, MAX_LEVEL: in BLANK it is granted without one (R515). -/
def maxLevel (lc : Nat) : Nat :=
  match lc with
  | 0 => 3
  | 1 => 3
  | 2 => 2
  | 3 => 1
  | 4 => 2
  | _ => 0

/-- The level in force. -/
def Die.debugLevel (x : Die) : Nat := if x.sec.fuses.lc = 0 then 3 else x.sec.dbgLevel

/-- DIE_ID, 0 while no identity is derived. -/
def Die.shownId (x : Die) : List Byte := if x.sec.idPub.isEmpty then List.replicate 64 0 else field x.dieId 0 64

/-- The security block answers the TAP: its outputs are inert in LOCKED and in reset. -/
def Die.debugOn (x : Die) : Bool := x.running && decide (x.dev ≠ .locked)

def dieOf (v : Nat) : Option DieId :=
  match v with
  | 0 => some .a
  | 1 => some .b
  | _ => none

/-- DBG_CHALLENGE: a new challenge of the die that the data register names. -/
def execDbgChallenge (sel : Byte) (s : State) : Out :=
  match dieOf sel.toNat with
  | none => .next (tapShift s 0x10 [])
  | some d =>
    let x := s.die d
    if !x.debugOn then .next (tapShift s 0x10 []) else
    let c := (List.range 32).map (Config.byte x.free)
    let out := c ++ x.shownId ++ [BitVec.ofNat 8 x.sec.fuses.lc, BitVec.ofNat 8 (maxLevel x.sec.fuses.lc)]
    let s := s.onDie d (fun x => { x.tick with sec.challenge := some (c, x.time) })
    .next { tapShift s 0x10 out with tap.sel := d }

/-- The response unlocks its level on the die. -/
def responseOk (x : Die) (r : List Byte) : Bool :=
  let pub := field r 0 2592
  let sig := field r 2592 4627
  let level := fieldNat r 7219 1
  programmed x.sec.fuses.debugKey && decide (Config.sha3_512 pub = x.sec.fuses.debugKey) &&
  decide (level ≤ maxLevel x.sec.fuses.lc) &&
  (match x.sec.challenge with
   | some (c, t) => !x.passed t 60000000 && Config.mlDsaVerify pub
       (Config.sha3_512 (c ++ x.shownId ++ [BitVec.ofNat 8 x.sec.fuses.lc] ++ field r 7219 2)) sig
   | none => false)

def responseDie (r : List Byte) (x : Die) : Die :=
  let level := fieldNat r 7219 1
  if responseOk x r then
    (({ x with sec.dbgLevel := level, sec.dbgEver := x.sec.dbgEver || decide (0 < level) } : Die).flag .secFlags 1).count
      .secDbgUnlockCnt
  else (({ x with sec.dbgFails := x.sec.dbgFails + 1 } : Die).flag .secFlags 2).count .secDbgFailCnt

/-- DBG_RESPONSE: after 8 failures since reset the die ignores it. -/
def execDbgResponse (resp : List Byte) (s : State) : Out :=
  match dieOf (fieldNat resp 7220 1) with
  | none => .next (tapShift s 0x11 [])
  | some d =>
    let x := s.die d
    if !x.debugOn || decide (8 ≤ x.sec.dbgFails) then .next (tapShift s 0x11 [])
    else .next { tapShift (s.onDie d (responseDie resp)) 0x11 [] with tap.sel := d }

/-! ### DBG_ACCESS (R522) -/

/-- A memory read as a context: nothing when its translation, its checks or its data fail. -/
def debugRead (p x : Die) (c va n : Nat) : Die × List Byte :=
  match tryUnit p x (.cmdProc c none) c [{ va := va, len := n, acc := accRead }] with
  | (x, .error _) => (x, [])
  | (x, .ok pm) =>
    let (x, good) := (piecesOf va n).foldl (fun (r : Die × Bool) q =>
      if r.2 then
        match l2ReadRange p r.1 (paOf pm q.1) q.2 with
        | (y, none) => (y, true)
        | (y, some _) => (y, false)
      else r) (x, true)
    (x, if good then viewBytes x pm va n else [])

/-- A memory write as a context. -/
def debugWrite (p x : Die) (c va : Nat) (bs : List Byte) : Die :=
  match tryUnit p x (.cmdProc c none) c [{ va := va, len := bs.length, acc := accWrite }] with
  | (x, .ok pm) => storeBytes p x c pm va bs
  | (x, .error _) => x

/-- Key digests: fields 0 to 3 FW_KEY, 4 to 7 MODEL_KEY, 8 LC_AUTH, 9 DEBUG_KEY. Fuses blow and never unblow. -/
def programKey (f : Fuses) (k : Nat) (digest : List Byte) : Fuses :=
  let blow := fun (old : List Byte) => (List.range 64).map (fun i => old.getD i 0 ||| digest.getD i 0)
  if k < 4 then { f with fwKeys := vmod f.fwKeys (Fin.ofNat 4 k) blow }
  else if k < 8 then { f with modelKeys := vmod f.modelKeys (Fin.ofNat 4 (k - 4)) blow }
  else if k = 8 then { f with lcAuth := blow f.lcAuth }
  else if k = 9 then { f with debugKey := blow f.debugKey }
  else f

/-- The level that an access needs. -/
def DbgOp.level (op : DbgOp) : Nat :=
  match op with
  | .cfgRead _ => 1
  | .cfgWrite _ _ => 2
  | .memRead _ _ _ => 2
  | .memWrite _ _ _ => 2
  | .programKey _ _ => 3
  | .manufacture => 3

/-- An access of a level that is granted: the new state and the bytes shifted out. -/
def accessRun (op : DbgOp) (d : DieId) (s : State) : State × List Byte :=
  let x := s.die d
  let p := s.die d.other
  match op with
  | .cfgRead a =>
    if (cfgRangeBad a.toNat 1).isSome then (s, []) else
    let (x, w) := cfgReadWord p x a.toNat
    (s.setDie d x, leBytes 4 w.toNat)
  | .cfgWrite a v => if (cfgRangeBad a.toNat 1).isSome then (s, []) else ((cfgWriteRun s d a.toNat [v]).1, [])
  | .memRead c va n =>
    let (x, bs) := debugRead p x c.toNat va.toNat n
    (s.setDie d x, bs)
  | .memWrite c va bs => (s.setDie d (debugWrite p x c.toNat va.toNat bs), [])
  | .programKey k digest => (s.onDie d (fun x => { x with sec.fuses := programKey x.sec.fuses k digest }), [])
  | .manufacture =>
    if x.sec.fuses.lc ≠ 0 ∨ 96 ≤ x.sec.fuses.ops.length then (s, []) else (resetAlone (s.onDie d (fun x => blowOp x 1 0)) d 8, [])

/-- DBG_ACCESS: level 3 works in BLANK and MANUFACTURE only. -/
def execDbgAccess (op : DbgOp) (s : State) : Out :=
  let d := s.tap.sel
  let x := s.die d
  let ok := x.debugOn && decide (DbgOp.level op ≤ x.debugLevel) && (DbgOp.level op != 3 || decide (x.sec.fuses.lc ≤ 1))
  if ok then
    let (s, out) := accessRun op d s
    .next (tapShift s 0x12 out)
  else .next (tapShift s 0x12 [])

end Sys2Proof.Machine
end

