-- ==== Sys2Proof/Machine/CmdEffects.lean ====
section
/-! DEFINITION. Sys2Proof/Machine/CmdEffects.lean: what the commands of a packet do (R80 to R92): the device stream's and
the context stream's, each as a new state and an answer. -/
namespace Sys2Proof.Machine

/-- What executing a command comes to: the new state, and its answer; none while the command is held (R74). -/
abbrev Eff := State × Option CmdRes

/-- An effect that is refused with a status and changes nothing. -/
def effRefuse (s : State) (st : Byte) : Eff := (s, some (resErr st))

/-- A context of die A that is paired also takes the command on die B (R29). -/
def onSibling (s : State) (d : DieId) (c : Nat) (f : Die → Die → Die) : State :=
  if s.pairedCtx d c then s.onDie d.other (f (s.die d)) else s

/-- A context of a pair is used on both dies: the dies that a command of it acts on. -/
def onCtxDies (s : State) (d : DieId) (c : Nat) (f : Die → Die → Die) : State :=
  let both := s.pairedCtx d c
  let t := s.onDie d (f (s.die d.other))
  if both then t.onDie d.other (f (t.die d)) else t

/-! ### Reads of the device (R80, R85) -/

def effPing (d : DieId) (s : State) : Eff := (s, some (resOk (leBytes 8 (s.die d).localTime.toNat)))

/-- Units that have not acknowledged the pending press (R85). -/
def Die.unitsBehind (x : Die) : Nat := ((List.range 44).filter (fun u => x.press.behind.getLsbD u)).length

/-- SFLAGS of R85. -/
def statusFlags (x : Die) : Nat :=
  b2n ((x.reg .fltQueueStatus).getLsbD 31) + 2 * b2n x.pair.degraded + 4 * b2n (decide (1 ≤ x.power.therm)) + 8 * b2n x.power.healthy

/-- The GET_STATUS payload (R85). -/
def statusPayload (x : Die) : List Byte :=
  leBytes 1 x.dev.code ++ leBytes 1 x.id.toNat ++ leBytes 1 x.sec.fuses.lc ++
    leBytes 1 (x.pair.mode.toNat + 16 * x.pair.role.code) ++ leBytes 2 x.node ++ leBytes 2 x.cmd.ctxs.length ++
    leBytes 4 x.press.activeEpoch.toNat ++ leBytes 4 x.press.epoch.toNat ++ leBytes 4 x.unitsBehind ++
    leBytes 2 x.flt.queue.length ++ leBytes 2 (statusFlags x) ++ leBytes 4 x.cmd.stream0.expected.toNat ++ leBytes 4 0

def effGetStatus (d : DieId) (s : State) : Eff := (s, some (resOk (statusPayload (s.die d))))

/-- CFG_READ (R97, R98). -/
def effCfgRead (d : DieId) (k : List Byte) (s : State) : Eff :=
  let (x, ws) := cfgReadWords (s.die d.other) (s.die d) (par k 0 4) (par k 4 2)
  (s.setDie d x, some (resOk ((ws.map (fun w => leBytes 4 w.toNat)).flatten)))

/-- The DATA words of a CFG_WRITE. -/
def cfgData (k : List Byte) : List Word :=
  (List.range (par k 4 2)).map (fun i => BitVec.ofNat 32 (par k (8 + 4 * i) 4))

/-- CFG_WRITE (R99, R100). -/
def effCfgWrite (d : DieId) (k : List Byte) (s : State) : Eff :=
  let (t, r) := cfgWriteRun s d (par k 0 4) (cfgData k)
  (t, some r)

/-- FAULT_READ (R381). -/
def effFaultRead (d : DieId) (k : List Byte) (s : State) : Eff :=
  let (x, rs) := takeRecords (s.die d) (par k 0 4)
  (s.setDie d x, some (resOk (leBytes 4 rs.length ++ (rs.map FaultRec.bytes).flatten)))

/-! ### PRESS (R16, R84, R467, R468) -/

/-- The epoch after another (R467). -/
def epochNext (e : Word) : Word := if e = 0xFFFFFFFF then 1 else e + 1

/-- The command processor applies its own fields at issue, unless their shadow failed parity (R467, R469, R481). -/
def pressOwn (x : Die) : Die :=
  if !x.press.dirty.getLsbD 36 then x
  else if x.shadowFails 36 then x
  else
    let x := x.activate (unitRegs 36)
    { x with press.dirty := x.press.dirty &&& ~~~bit44 36, press.cfgBad := x.press.cfgBad.filter (fun e => e.1 != 36) }

/-- The press is issued to every unit: the units in `dirty` are concerned and fall behind; every other unit acknowledges at
once and changes nothing (R468, R471). -/
def issuePress (x : Die) : Die :=
  let e := epochNext x.press.epoch
  let x := { x with press.epoch := e, press.pressed := x.shadow, press.issued := x.time, press.ioDone := 0, press.applied := 0,
                    torus.rings := x.torus.rings.map (fun r => { r with prLo := r.shLo, prHi := r.shHi }) }
  let x := pressOwn x
  let due := x.press.dirty &&& ~~~bit44 36
  let epochs := (List.range 44).map (fun u => if due.getLsbD u then x.unitEpoch u else e)
  let x := { x with press.behind := due, press.dirty := x.press.dirty &&& bit44 36, press.unitEpoch := epochs,
                    press.activeEpoch := if due = 0 then e else x.press.activeEpoch }
  x.count .clkPressCnt

/-- PRESS: BUSY while an earlier press is pending (R84); WRONG_STATE or PAIR_REFUSED for a pair configuration that R22, R24
or R25 refuses. -/
def effPress (d : DieId) (s : State) : Eff :=
  let x := s.die d
  if x.press.behind ≠ 0 then effRefuse s stBusy
  else match pairPressRefused (s.die d.other) x with
    | some st => effRefuse s st
    | none =>
      let x := issuePress x
      (s.setDie d x, some (resOk (leBytes 4 x.press.epoch.toNat)))

/-! ### Contexts (R67, R77 to R80) -/

/-- A context as OPEN_CONTEXT gives it (R67, R77). -/
def newCtx (k : List Byte) : Ctx :=
  { num := par k 0 2, state := .opened, attr := BitVec.ofNat 8 (par k 3 1), vmid := BitVec.ofNat 8 (par k 2 1),
    s1root := BitVec.ofNat 64 (par k 4 8), timeout := BitVec.ofNat 32 (par k 12 4), stream := Stream.reset, faultCnt := 0 }

/-- A die takes an open context; READY becomes ACTIVE, but on a standby (R76). -/
def addCtx (t : Ctx) (x : Die) : Die :=
  let dev := if x.dev = .ready ∧ x.pair.role ≠ .standby then .active else x.dev
  { x with cmd.ctxs := x.cmd.ctxs ++ [t], dev := dev }

/-- OPEN_CONTEXT. A paired context also exists on die B, while the bridge is up and the partner is not lost (R29). When
only die B has the number open, the answer is ALREADY_OPEN too, which R80 leaves open (DESIGN CHOICE, log 130). -/
def effOpen (d : DieId) (k : List Byte) (s : State) : Eff :=
  let t := newCtx k
  let x := s.die d
  let both := t.attr.getLsbD 0 && x.pair.mode == 1 && x.pair.bridgeUp && !x.pair.lost
  if (x.ctx? t.num).isSome || (both && ((s.die d.other).ctx? t.num).isSome) then effRefuse s stAlreadyOpen
  else (if both then s.onBoth (addCtx t) else s.onDie d (addCtx t), some (resOk []))

/-- A granule goes to the system tag and to the fill engine (R373); wiped granules are left. -/
def reclaimGranule (x : Die) (g : Nat) : Die :=
  let e := x.ownEntry g
  if ownState e = 0 then x else
  let x := (x.setOwn g (ownMake 4095 (ownKind e) false false (ownState e))).dropL1Granule g
  ({ x with dram.fill := x.dram.fill ++ [.granule g] } : Die).count .ownReclaimCnt

/-- The granules that a context owns. -/
def Die.ownedBy (x : Die) (c : Nat) : List Nat := (x.xlt.own.filter (fun e => ownOwner e.2 == c)).map (fun e => e.1)

/-- The remote requester's part of a close: EN is cleared at once, and the replies of transactions in flight will be
discarded (R428). -/
def closeRing (c : Nat) (x : Die) : Die :=
  let off : Ring → Ring := fun r =>
    { r with hi := r.hi &&& 0x7FFFFFFF, shHi := r.shHi &&& 0x7FFFFFFF, prHi := r.prHi &&& 0x7FFFFFFF, prod := 0, cons := 0,
             known := false }
  { x with torus.rings := updWhere (fun r => r.ctx == c) off x.torus.rings,
           torus.recs := x.torus.recs.filter (fun r => r.ctx != c), torus.trans := x.torus.trans.filter (fun t => t.ctx != c) }

/-- The context's jobs leave their slots without an end record (R78, R321). -/
def closeJobs (c : Nat) (x : Die) : Die :=
  let gone := fun (k : Nat) => x.jobs.list.any (fun j => j.slot == k && j.ctx == c)
  { x with jobs.list := x.jobs.list.filter (fun j => j.ctx != c), jobs.parked := x.jobs.parked.filter (fun e => !gone e.1),
           pair.tags := x.pair.tags.filter (fun t => match t.item with
             | .job k => !gone k
             | .pipe _ => true) }

/-- CLOSE_CONTEXT on one die (R76, R78, R294, R373, R375, R511). -/
def closeCtx (c : Nat) (p x : Die) : Die :=
  let x := endContextWork p x c false
  let x := closeRing c (closeJobs c (x.leaveGroups c))
  let x := (x.ownedBy c).foldl reclaimGranule x
  let shut : PendCmd → PendCmd := fun q => { q with closed := true }
  let mark : Option ModelEnt → Option ModelEnt := fun e => e.map (fun m => if m.ctx = c then { m with closed := true } else m)
  let rest := x.cmd.ctxs.filter (fun t => t.num != c)
  { x with cmd.pool := updWhere (fun q => q.ctx == c) shut x.cmd.pool, cmd.ctxs := rest,
           sec.models := x.sec.models.map mark, dev := if x.dev = .active ∧ rest = [] ∧ x.pair.role ≠ .standby then .ready else x.dev }

def effClose (d : DieId) (k : List Byte) (s : State) : Eff :=
  let c := par k 0 2
  if ((s.die d).ctx? c).isNone then effRefuse s stNoContext
  else (onCtxDies s d c (closeCtx c), some (resOk []))

/-- An engine that a suspended job holds is freed at the end of its unit; one that is frozen keeps its unit. -/
def pauseEngines (p x : Die) (slot : Nat) : Die :=
  let x := wringerIds.foldl (fun (y : Die) e =>
    if (y.wringers[e]).job == some slot && (y.wringers[e]).frozen.isNone then
      let y := writeWrgCounts p y e slot
      { y with wringers := vmod y.wringers e (fun _ => Wringer.reset) }
    else y) x
  { x with jobs.copies := x.jobs.copies.map (fun c => if c.job == some slot && c.frozen.isNone then CopyEng.reset else c) }

/-- The running jobs of a context fold at their next fold points (R77), through the wringer where FOLD_WRG is set
(R338). -/
def foldJob (p x : Die) (slot : Nat) : Die :=
  match x.job? slot with
  | none => x
  | some j =>
    let live := (j.shares.filter (fun h => decide (h.state = .live))).map (fun h => h.cl)
    let mark : Share → Share := fun h => if h.state = .live then { h with wring := dFoldWrg j.desc } else h
    let x := x.updJob slot (fun t => { t with shares := t.shares.map mark })
    pauseEngines p (live.foldl (fun y cl => requestFold y slot cl) x) slot

def Die.runningJobs (x : Die) (c : Nat) : List Job := x.jobs.list.filter (fun j => j.ctx == c && decide (j.state = .running))

def foldJobs (c : Nat) (p x : Die) : Die := (x.runningJobs c).foldl (fun y j => foldJob p y j.slot) x

/-- Every running job of the context has folded (R79). -/
def Die.allFolded (x : Die) (c : Nat) : Bool :=
  (x.runningJobs c).all (fun j =>
    j.shares.all (fun h => decide (h.state = .folded) || decide (h.state = .finished)) && !x.onWringer j.slot &&
    pipeIds.all (fun e => (x.jobs.copies[e]).job != some j.slot))

/-- SUSPEND_CONTEXT begins: the context is SUSPENDED from now on (R77, R79). -/
def suspendCtx (c : Nat) (p x : Die) : Die := foldJobs c p (x.updCtx c (fun t => { t with state := .suspended }))

/-- RESUME_CONTEXT (R77): RUNNING if jobs are queued, otherwise OPEN. Jobs that wait for no fence are released (R319). -/
def resumeCtx (c : Nat) (_p x : Die) : Die :=
  let x := (x.updCtx c (fun t => { t with state := .opened })).settleCtx c
  (x.jobs.list.filter (fun j => j.ctx == c && dWaitVa j.desc == 0)).foldl (fun (y : Die) j => y.releaseJob j.slot) x

def effResume (d : DieId) (k : List Byte) (s : State) : Eff :=
  let c := par k 0 2
  if ((s.die d).ctx? c).isNone then effRefuse s stNoContext
  else (onCtxDies s d c (resumeCtx c), some (resOk []))

/-! ### Granules and VMs (R354, R372, R373) -/

/-- COUNT of a granule range is not 0 and the range does not pass granule 524,287. -/
def rangeOk (first count : Nat) : Bool := decide (1 ≤ count) && decide (first + count ≤ 524288)

def granules (first count : Nat) : List Nat := (List.range count).map (fun i => first + i)

/-- A granule of a range may be granted to an owner: wiped, or live with that owner; backed and within the carve. -/
def grantable (x : Die) (owner g : Nat) : Bool :=
  let e := x.ownEntry g
  x.backed (262144 * g) && (ownState e == 0 || (ownState e == 1 && ownOwner e == owner))

/-- OWNER and ATTR may be granted: neither 0 nor reserved, no FREE context; TABLE and IMAGE not in the carve window, IMAGE
without the write right. -/
def ownerOk (x : Die) (first count owner attr : Nat) : Bool :=
  let kind := bitsOf attr 1 0
  decide (1 ≤ owner) && decide (owner < 3328) && (decide (1024 ≤ owner) || (x.ctx? owner).isSome) &&
  !(decide (2 ≤ kind) && decide (524224 < first + count)) && !(kind == 3 && bitOf attr 3)

/-- A granule is granted; the L1s hold no older line of it (R213). -/
def grantGranule (owner attr : Nat) (x : Die) (g : Nat) : Die :=
  (x.setOwn g (ownMake owner (bitsOf attr 1 0) (bitOf attr 2) (bitOf attr 3) 1)).dropL1Granule g

/-- GRANT_GRANULES on a die: the granted state, or DETAIL of the refusal. -/
def grantDie (k : List Byte) (x : Die) : Except Nat Die :=
  let first := par k 0 4
  let count := par k 4 4
  let owner := par k 8 2
  let attr := par k 10 2
  if !rangeOk first count then .error 1
  else if !(granules first count).all (grantable x owner) then .error 0
  else if !ownerOk x first count owner attr then .error 2
  else .ok (((granules first count).foldl (grantGranule owner attr) x).countN .ownGrantCnt count)

/-- RECLAIM_GRANULES on a die. -/
def reclaimDie (k : List Byte) (x : Die) : Except Nat Die :=
  let first := par k 0 4
  let count := par k 4 4
  if !rangeOk first count then .error 1
  else if (granules first count).any (fun g => ownState (x.ownEntry g) == 2 || decide (g < x.xlt.fwGranules)) then .error 0
  else .ok ((granules first count).foldl reclaimGranule x)

/-- An effect of one die that may be refused with BAD_PARAM. -/
def effDie (d : DieId) (s : State) (r : Except Nat Die) : Eff :=
  match r with
  | .ok x => (s.setDie d x, some (resOk []))
  | .error i => (s, some (resBad i))

/-- Units pre-walked before the change complete under the old entries, before it is acknowledged (R371). -/
def ownPerformed (d : DieId) (s : State) : Die := performUnits (fun _ => true) (s.die d.other) (s.die d)

def effGrant (d : DieId) (k : List Byte) (s : State) : Eff := effDie d s (grantDie k (ownPerformed d s))

def effReclaim (d : DieId) (k : List Byte) (s : State) : Eff := effDie d s (reclaimDie k (ownPerformed d s))

/-- VM_CONFIG (R354): the stage-2 root, after an invalidation of the VM. -/
def vmConfigDie (k : List Byte) (p x : Die) : Die :=
  let v := BitVec.ofNat 8 (par k 0 1)
  let x := invVmAfter v p x
  { x with xlt.vms := spSet (fun _ => (0 : DWord)) x.xlt.vms v.toNat (BitVec.ofNat 64 (par k 4 8)) }

def effVmConfig (d : DieId) (k : List Byte) (s : State) : Eff := (s.onDie d (vmConfigDie k (s.die d.other)), some (resOk []))

/-! ### HOLD and images (R508, R571, R573) -/

def effHoldEnter (d : DieId) (s : State) : Eff := (holdEnter s d, some (resOk []))

def effHoldExit (d : DieId) (s : State) : Eff := (holdExit s d, some (resOk []))

/-- LOAD_IMAGE (R80, R508). -/
def effLoadImage (d : DieId) (k : List Byte) (s : State) : Eff :=
  let c := par k 0 2
  if ((s.die d).ctx? c).isNone then effRefuse s stNoContext
  else (onCtxDies s d c (fun p x => loadImage p x c (par k 4 8) (par k 12 8) (par k 20 8) (BitVec.ofNat 64 (par k 28 8))),
    some (resOk []))

/-! ### Jobs (R83, R317, R318) -/

/-- Die B copies the descriptor of a paired context's job from its own memory (R29); a fault there is recorded. -/
def siblingSubmit (c va key : Nat) (id : Word) (p x : Die) : Die :=
  match x.freeJobSlot with
  | none => x
  | some slot =>
    let m : Master := .cmdProc c none
    match tryUnit p x m c [{ va := va, len := 256, acc := accRead }] with
    | (x, .ok pm) => copyJob p x c slot key (some id) va (viewBytes x pm va 256)
    | (x, .error (.fault cls v fl dt th)) => x.note cls m { flags := fl, ctx := c, va := v, detail := dt, thing := th }
    | (x, .error (.mig _ _ _ _ _ _)) => x

/-- SUBMIT (R83, R317): the descriptor is copied into the free slot of lowest index. -/
def effSubmit (d : DieId) (c : Nat) (k : List Byte) (s : State) : Eff :=
  let x := s.die d
  let va := par k 0 8
  match x.freeJobSlot with
  | none => effRefuse s stNoSpace
  | some slot =>
    match readUnit (s.die d.other) x (.cmdProc c none) c va 256 accRead with
    | (x, none) => (s.setDie d x, none)
    | (x, some b) =>
      let key := (x.jobs.order + 1) * 2 ^ 32
      let id : Word := BitVec.ofNat 32 (slot + 4096 * (x.jobs.serial + 1).toNat)
      let s := s.setDie d (copyJob (s.die d.other) x c slot key none va b)
      (onSibling s d c (siblingSubmit c va key id), some (resOk (leBytes 4 id.toNat)))

/-- CANCEL_JOB on a die (R318): a live job of the context ends CANCELLED; any other JOB_ID changes nothing. -/
def cancelDie (c : Nat) (id : Word) (p x : Die) : Die :=
  match x.jobs.list.find? (fun j => j.ctx == c && j.id == id && j.live) with
  | some j => endJob p x j.slot jsCancelled
  | none => x

def effCancel (d : DieId) (c : Nat) (k : List Byte) (s : State) : Eff :=
  (onCtxDies s d c (cancelDie c (BitVec.ofNat 32 (par k 0 4))), some (resOk []))

/-! ### Fences (R87 to R90) -/

/-- FENCE_SIGNAL: PREVIOUS is the value from before the signal. -/
def effFenceSignal (d : DieId) (c : Nat) (k : List Byte) (s : State) : Eff :=
  let m : Master := .cmdProc c none
  let va := par k 0 8
  let v : DWord := BitVec.ofNat 64 (par k 8 8)
  match signalUnit (s.die d.other) (s.die d) m c va v with
  | (x, none) => (s.setDie d x, none)
  | (x, some old) =>
    (onSibling (s.setDie d x) d c (fun p y => siblingSignal p y m c va v), some (resOk (leBytes 8 old.toNat)))

def effFenceRead (d : DieId) (c : Nat) (k : List Byte) (s : State) : Eff :=
  match fenceUnit (s.die d.other) (s.die d) (.cmdProc c none) c (par k 0 8) with
  | (x, none) => (s.setDie d x, none)
  | (x, some v) => (s.setDie d x, some (resOk (leBytes 8 v.toNat)))

/-! ### CTX_STATUS (R86) -/

/-- The CTX_STATUS payload of a context, with the job table that counts its jobs. -/
def ctxPayload (x : Die) (jobs : Jobs) (c : Nat) : List Byte :=
  let js := jobs.list.filter (fun j => j.ctx == c)
  let queued := (js.filter (fun j => decide (j.state = .waiting) || decide (j.state = .released))).length
  let run := (js.filter (fun j => decide (j.state = .running))).length
  match x.ctx? c with
  | some t =>
    leBytes 1 t.state.code ++ [t.attr] ++ leBytes 1 t.vmid.toNat ++ leBytes 1 0 ++ leBytes 4 t.stream.expected.toNat ++
      leBytes 2 queued ++ leBytes 2 run ++ leBytes 4 t.faultCnt.toNat
  | none => List.replicate 16 0

/-- A standby answers from its mirrored copy of the context (R38, R81). -/
def effCtxStatus (d : DieId) (c : Nat) (s : State) : Eff :=
  let x := s.die d
  let p := s.die d.other
  if x.pair.role = .standby ∧ x.pair.mirrorSync then
    let x := mirrorCtxs p x
    (s.setDie d x, some (resOk (ctxPayload x (mirroredJobs p x) c)))
  else (s, some (resOk (ctxPayload x x.jobs c)))

end Sys2Proof.Machine
end

