-- ==== Sys2Proof/Machine/Mirror.lean ====
section
/-! DEFINITION. Sys2Proof/Machine/Mirror.lean: the mirror stream of a SPARE pair, the loss of a partner, and takeover
(R38 to R49). -/
namespace Sys2Proof.Machine

/-! ### The mirror stream (R38, R39, R44) -/

/-- The class of R18 in which an item travels: a mirrored command, with its reply and number, over CTL. All items are
applied in the order sent, which R28 states for MIR alone (DEDUCED, log 135). -/
def MirItem.cls (i : MirItem) : BridgeClass :=
  match i with
  | .command _ _ _ => .ctl
  | .model _ _ => .ctl
  | .write _ _ => .mir
  | .spoil _ => .mir
  | .wipe _ => .mir

/-- A CFG_WRITE on the standby: every word but those of CMD_PAIR_CFG, which both dies have, and of registers that start
work of the active die. -/
def mirrorCfg (d : DieId) (k : List Byte) (s : State) : State :=
  let a := par k 0 4
  let ws := cfgData k
  (List.range ws.length).foldl (fun (t : State) i =>
    match regAt (a + 4 * i) with
    | some (r, _) =>
      if r = .cmdPairCfg ∨ r = .xltResolve ∨ r = .ufsXferGo ∨ r = .xspCmd then t
      else cfgWriteWord t d (a + 4 * i) (ws.getD i 0)
    | none => t) s

/-- A mirrored press is issued on the standby. Units that had not yet applied the press before it are concerned by both. The
pair configuration is not the standby's to press. -/
def mirrorPress (x : Die) : Die :=
  issuePress { x with press.dirty := (x.press.dirty ||| (x.press.behind &&& ~~~x.press.applied)) &&& ~~~bit44 43 }

/-- The effect on the standby of a command that the active die executed and answered OK. -/
def mirrorEffect (d : DieId) (k : List Byte) (s : State) : State :=
  match opOf (pktOp k) with
  | some .cfgWrite => mirrorCfg d k s
  | some .press => s.onDie d mirrorPress
  | some .openContext => s.onDie d (addCtx (newCtx k))
  | some .closeContext => s.onDie d (closeCtx (par k 0 2) (s.die d.other))
  | some .suspendContext => s.onDie d (fun x => x.updCtx (par k 0 2) (fun t => { t with state := .suspended }))
  | some .resumeContext => s.onDie d (resumeCtx (par k 0 2) (s.die d.other))
  | some .grantGranules => (effGrant d k s).1
  | some .reclaimGranules => (effReclaim d k s).1
  | some .vmConfig => (effVmConfig d k s).1
  | _ => s

/-- The reply is kept with its number in the mirrored stream (R44). -/
def mirrorReply (c : Nat) (k r : List Byte) (x : Die) : Die :=
  let n : Word := BitVec.ofNat 32 (pktSeq k)
  x.updStream c (fun t => { expected := seqNext n, hist := keepExecuted 32 ({ seq := n, reply := some r } :: t.hist) })

/-- A mirrored wipe ends the standby's own wipe of the granule. -/
def mirrorWipe (g : Nat) (x : Die) : Die :=
  let x := zeroRange x (262144 * g) 262144
  let x := { x with dram.fill := x.dram.fill.filter (fun f => decide (f ≠ .granule g)) }
  if ownState (x.ownEntry g) = 1 ∧ ownOwner (x.ownEntry g) = 4095 then
    (x.setOwn g (ownMake 4095 0 false false 0)).count .ownWipeCnt
  else x

/-- A mirrored write replaces the bytes and their parity. -/
def mirrorBytes (pa : Nat) (bs : List Byte) (x : Die) : Die :=
  { x with dram.cells := Mem.setBytes x.dram.cells pa bs,
           dram.spoiled := x.dram.spoiled.filter (fun w => decide (8 * w + 7 < pa) || decide (pa + bs.length ≤ 8 * w)) }

/-- One item of the mirror stream is applied on the standby. -/
def applyMirror (d : DieId) (i : MirItem) (s : State) : State :=
  match i with
  | .write pa bs => s.onDie d (mirrorBytes pa bs)
  | .spoil w => s.onDie d (fun x => x.spoilWord w)
  | .wipe g => s.onDie d (mirrorWipe g)
  | .model n e => s.onDie d (fun x => setEntry x n e)
  | .command c k r =>
    let ok := decide (r.getD 3 0 = stOk)
    (if ok then mirrorEffect d k s else s).onDie d (mirrorReply c k r)

/-- An item that is not applied yet: a press waits until the standby's units have dealt with the press before it (R84). -/
def mirrorWaits (x : Die) (i : MirItem) : Bool :=
  match i with
  | .command _ k _ => decide (opOf (pktOp k) = some .press) && decide (x.press.behind ≠ 0)
  | .write _ _ => false
  | .spoil _ => false
  | .wipe _ => false
  | .model _ _ => false

/-- The die receives the mirror stream: a standby, or the partner of the initial copy. -/
def Die.mirrored (p x : Die) : Bool :=
  x.pair.bridgeUp && !x.pair.lost && x.running && (p.pair.copying || (x.pair.mode == 2 && decide (x.pair.role = .standby)))

/-- MIRROR_WRITE (R38): the oldest item of the partner's mirror stream. One that travels over CTL shows that the partner is
alive (R41). -/
def execMirrorWrite (d : DieId) (s : State) : Out :=
  match (s.die d.other).pair.mirOut with
  | [] => .next s
  | i :: rest =>
    if !Die.mirrored (s.die d.other) (s.die d) || mirrorWaits (s.die d) i then .next s else
    let heard : Die → Die := fun x => if i.cls = .ctl then x.heardCtl else x
    .next (((applyMirror d i s).onDie d heard).onDie d.other (fun p => { p with pair.mirOut := rest }))

/-- A standby that takes over first applies what has reached it whole: every item that the lost die sent, so that a command
which that die had executed is not executed again (R42, R44; DEDUCED, log 136). -/
def drainMirror (d : DieId) (s : State) : State :=
  ((s.die d.other).pair.mirOut.foldl (fun (t : State) i => applyMirror d i t) s).onDie d.other (fun p =>
    { p with pair.mirOut := [] })

/-! ### Takeover (R42, R45, R47) -/

/-- A job that ran on the lost die goes back to its images, or to its start when a share of it has none; that is a restart
of it (R42, R341). -/
def restartMirrored (p : Die) (x : Die) (slot : Nat) : Die :=
  restarting p x slot (fun x j =>
    let left := j.shares.filter (fun h => decide (h.state ≠ .finished))
    if 2 ≤ dKind j.desc ∨ left.isEmpty ∨ left.any (fun h => h.image == 0) then restartWhole p x slot
    else if dKind j.desc = 1 then restartPass p x slot
    else left.foldl (fun y h => restartShare y slot h) x)

/-- A standby with MIRROR_SYNC becomes the active die (R42): the job table that it mirrored is that of the lost die; a reset
of that die has left it here. Its pipes wait for no leader any more (R313). -/
def takeOver (p x : Die) : Die :=
  let t := mirroredJobs p x
  let x := mirrorCtxs p x
  let x := { x with pair.role := .primary, dev := .active, pair.takeover := some x.time, pair.jobsRestarted := false,
                    pair.mirrorSync := false, cache.l2carve := [], jobs.list := t.list.map (fun j => { j with held := none }),
                    jobs.serial := t.serial, jobs.order := t.order, jobs.parked := t.parked,
                    torus.rings := x.torus.rings.map (fun r => { r with known := false }),
                    pipes := x.pipes.map (fun q => { q with startDue := false }) }
  let x := ((t.list.filter (fun j => decide (j.state = .running))).map (fun j => j.slot)).foldl (restartMirrored p) x
  ((x.flag .cmdPairFlags 3).count .cmdFailoverCnt).note clsFailover .pairLogic (FaultInfo.plain 0 0)

/-- The takeover of a die: the stream is drained, and the lost die's three links go down (R47), with a cause that the spec
leaves open (log 137). -/
def takeOverOn (d : DieId) (s : State) : State :=
  let s := if (s.die d).pair.lost then s else drainMirror d s
  let s := s.onDie d (takeOver (s.die d.other))
  s.onDie d.other (fun p => linksDown (BitVec.ofNat 3 (Config.choice p.free % 8)) p.tick)

/-- The active die gives way to its standby, whose host asked for it while the die was alive: it becomes the standby, and its
work goes (R23, R45; DEDUCED, log 138). -/
def stepDown (p x : Die) : Die :=
  let x := (x.jobs.list.map (fun j => j.slot)).foldl (fun y k => dropJobWork p y k) x
  { x with jobs := { Jobs.reset with serial := x.jobs.serial, order := x.jobs.order }, pair.role := .standby,
           pair.pulls := none, pair.mirrorSync := false, pair.degraded := true, pair.mirOut := [], pair.takeover := none,
           dev := if x.dev = .active then .ready else x.dev }

/-- FAILOVER (R42, R43): a standby with MIRROR_SYNC takes over, and mirroring stays off (R48). A die that is PRIMARY already,
and a standby without MIRROR_SYNC, changes nothing. The answer reports the role. -/
def effFailover (d : DieId) (s : State) : Eff :=
  let x := s.die d
  let done := some (resOk (leBytes 4 1))
  if x.pair.role = .primary then (s, done)
  else if !x.pair.mirrorSync then (s, some (resOk (leBytes 4 x.pair.role.code)))
  else
    let s := (takeOverOn d s).onDie d (fun x => { x with pair.degraded := true })
    (if x.pair.lost then s else s.onDie d.other (stepDown (s.die d)), done)

/-! ### Partner loss (R37, R41, R48, R49) -/

/-- A press that waits for the lost die: what the die-pair logic had applied is acknowledged, but a change of MODE is undone
(R49). One that it has not applied waits for PRESS_APPLY. -/
def settlePairPress (x : Die) : Die :=
  let waits := x.press.behind.getLsbD 43 && !x.lateUnit 43
  let ack : Die → Die := fun y => if waits && x.press.applied.getLsbD 43 then y.unitAcked 43 else y
  ack (undoPairCfg x)

/-- The partner is declared lost; `announced` is DETAIL of the record (R41). A standby keeps MIRROR_SYNC, for a FAILOVER. -/
def declareLost (p x : Die) (announced : Nat) : Die :=
  if x.pair.lost then x else
  let standby := x.pair.mode = 2 && decide (x.pair.role = .standby)
  let x := { x with pair.lost := true, pair.degraded := true, pair.mirrorSync := standby && x.pair.mirrorSync,
                    pair.copying := false, pair.mirOut := [], pair.ctlOut := [], pair.cmpOut := [],
                    pipes := x.pipes.map (fun (t : Pipe) => { t with pairLocked := false }) }
  let x := ((x.flag .cmdPairFlags 2).count .cmdPartnerLostCnt).note clsPartnerLost .pairLogic
    (FaultInfo.plain 0 announced)
  let x := pipeIds.foldl (fun (y : Die) q => if (y.pipes[q]).pairAckDue.isSome then
    (y.updPipe q (fun t => { t with pairAckDue := none })).unitAcks (22 + q.val) else y) (settlePairPress x)
  pairSurvivor p x

/-- A die loses its partner. A standby that is in step applies what it received; it takes over where AUTO_FAILOVER is 1, but
not out of SAFE or LOCKED (R42, R76). -/
def losePartner (d : DieId) (announced : Nat) (s : State) : State :=
  let x := s.die d
  if x.pair.lost then s else
  let inStep := x.pair.mode == 2 && decide (x.pair.role = .standby) && x.pair.mirrorSync
  let s := if inStep then drainMirror d s else s
  let s := s.onDie d (fun x => declareLost (s.die d.other) x announced)
  if inStep && cfgAutoFailover (x.reg .cmdPairCfg) && decide (x.dev = .ready) then takeOverOn d s else s

/-- The firmware of the die watches its partner (R41): READY, ACTIVE or SAFE. -/
def Die.watches (x : Die) : Bool :=
  x.running && (decide (x.dev = .ready) || decide (x.dev = .active) || decide (x.dev = .safe))

/-- PARTNER_LOST (R41): by a die whose firmware runs; the check is suspended across HOLD (R570). -/
def execPartnerLost (d : DieId) (s : State) : Out :=
  let x := s.die d
  if x.watches && !x.pair.suspended && x.partnerSilent then .next (losePartner d 0 s) else .next s

def CtlMsg.isSafe (m : CtlMsg) : Bool :=
  match m with
  | .safeAnnounce => true
  | _ => false

/-- PARTNER_SAFE_ANNOUNCE (R41): the partner's announcement over CTL is taken. -/
def execPartnerSafeAnnounce (d : DieId) (s : State) : Out :=
  let x := s.die d
  if x.watches && x.pair.bridgeUp && (s.die d.other).pair.ctlOut.any CtlMsg.isSafe then
    .next ((losePartner d 1 s).onDie d.other (fun p => { p with pair.ctlOut := dropFirst CtlMsg.isSafe p.pair.ctlOut }))
  else .next s

end Sys2Proof.Machine
end

