-- ==== Sys2Proof/Machine/Commands.lean ====
section
/-! DEFINITION. Sys2Proof/Machine/Commands.lean: the command processor (02_command_packets.md): endpoints, taking and
executing packets, data channels and fence waits (R52 to R95). -/
namespace Sys2Proof.Machine

/-! ### When the command processor works -/

/-- The command processor runs: from the core domains' clock, or in HOLD from the reference clock (R572). -/
def Die.cmdOn (x : Die) : Bool :=
  decide (x.dev ≠ .off) && !x.power.inReset && (x.power.pllLock || decide (x.dev = .hold) || decide (x.dev = .safe))

/-! ### Executing the command whose turn it is (R66, R71) -/

/-- A command is answered on its die. -/
def answerOn (d : DieId) (c : PendCmd) (r : CmdRes) (s : State) : State := s.onDie d (fun x => x.answerCmd c r)

/-- A command's effect and its answer; a command that is held has none. -/
def answerEff (d : DieId) (c : PendCmd) (e : Eff) : State :=
  match e.2 with
  | some r => answerOn d c r e.1
  | none => e.1

/-- The command that is next in a context, when it is of this opcode and has not started. A command that is no longer legal
is answered with WRONG_STATE, one of a context closed in the meantime with NO_CONTEXT (R66). -/
def runHead (d : DieId) (ctx : Nat) (op : Op) (act : PendCmd → State → State) (s : State) : State :=
  let x := s.die d
  match x.headCmd ctx with
  | none => s
  | some c =>
    if !x.cmdOn || c.phase ≠ .waiting || opOf (pktOp c.pkt) ≠ some op then s
    else if c.closed then answerOn d c (resErr stNoContext) s
    else if !(opLegal (s.die d.other) x op c.pkt && ctxLegal x op ctx c.pkt) then answerOn d c (resErr stWrongState) s
    else act c s

/-- A device-stream command that executes in one step. -/
def runDevice (d : DieId) (op : Op) (eff : List Byte → State → Eff) (s : State) : Out :=
  .next (runHead d 0 op (fun c s => answerEff d c (eff c.pkt s)) s)

/-- A context-stream command that executes in one step. -/
def runContext (d : DieId) (ctx : Nat) (op : Op) (eff : List Byte → State → Eff) (s : State) : Out :=
  if ctx = 0 then .next s else .next (runHead d ctx op (fun c s => answerEff d c (eff c.pkt s)) s)

/-! ### The device stream (R80) -/

def execPing (d : DieId) (s : State) : Out := runDevice d .ping (fun _ => effPing d) s
def execGetStatus (d : DieId) (s : State) : Out := runDevice d .getStatus (fun _ => effGetStatus d) s
def execCfgRead (d : DieId) (s : State) : Out := runDevice d .cfgRead (effCfgRead d) s
def execCfgWrite (d : DieId) (s : State) : Out := runDevice d .cfgWrite (effCfgWrite d) s
def execPress (d : DieId) (s : State) : Out := runDevice d .press (fun _ => effPress d) s
def execFaultRead (d : DieId) (s : State) : Out := runDevice d .faultRead (effFaultRead d) s
def execOpenContext (d : DieId) (s : State) : Out := runDevice d .openContext (effOpen d) s
def execCloseContext (d : DieId) (s : State) : Out := runDevice d .closeContext (effClose d) s
def execResumeContext (d : DieId) (s : State) : Out := runDevice d .resumeContext (effResume d) s
def execGrantGranules (d : DieId) (s : State) : Out := runDevice d .grantGranules (effGrant d) s
def execReclaimGranules (d : DieId) (s : State) : Out := runDevice d .reclaimGranules (effReclaim d) s
def execVmConfig (d : DieId) (s : State) : Out := runDevice d .vmConfig (effVmConfig d) s
def execHoldEnter (d : DieId) (s : State) : Out := runDevice d .holdEnter (fun _ => effHoldEnter d) s
def execHoldExit (d : DieId) (s : State) : Out := runDevice d .holdExit (fun _ => effHoldExit d) s
def execFailover (d : DieId) (s : State) : Out := runDevice d .failover (fun _ => effFailover d) s
def execLoadImage (d : DieId) (s : State) : Out := runDevice d .loadImage (effLoadImage d) s

/-- The command processor asks the suspended context's jobs to fold, and answers once all have (R79). -/
def suspendStep (d : DieId) (c : PendCmd) (s : State) : State :=
  let n := par c.pkt 0 2
  let both := s.pairedCtx d n
  let s := onCtxDies s d n (foldJobs n)
  if (s.die d).allFolded n && (!both || (s.die d.other).allFolded n) then answerOn d c (resOk []) s else s

/-- SUSPEND_CONTEXT executes (R77, R79). -/
def suspendStart (d : DieId) (c : PendCmd) (s : State) : State :=
  let n := par c.pkt 0 2
  if ((s.die d).ctx? n).isNone then answerOn d c (resErr stNoContext) s
  else
    let s := onCtxDies s d n (suspendCtx n)
    suspendStep d { c with phase := .folding } (s.onDie d (fun x => x.setPhase c .folding))

/-- SUSPEND_CONTEXT (R79). The command again, while its folds run, asks whether they have ended. -/
def execSuspendContext (d : DieId) (s : State) : Out :=
  .next (match (s.die d).headCmd 0 with
    | none => s
    | some c =>
      if c.phase = .folding then (if (s.die d).cmdOn then suspendStep d c s else s)
      else runHead d 0 .suspendContext (suspendStart d) s)

/-- A reset is scheduled for the reply at a place of the queue (R75). -/
def scheduleReset (scope place : Nat) (x : Die) : Die :=
  { x with power.resetDue := some (scope, x.localTime, x.cmd.replies.getD place []) }

/-- RESET_DEVICE (R75): answered first. -/
def execResetDevice (d : DieId) (s : State) : Out :=
  .next (runHead d 0 .resetDevice (fun c s =>
    (answerOn d c (resOk []) s).onDie d (scheduleReset (par c.pkt 0 4) (s.die d).cmd.replies.length)) s)

/-! ### Data channels (R72, R91 to R94) -/

/-- A data command takes its channel, or waits while the channel carries another transfer. -/
def assignChannel (ch : Fin 4) (c : PendCmd) (kind : XferKind) (ctx va len : Nat) (buf : List Byte) (x : Die) : Die :=
  let t : Xfer := { kind := kind, ctx := ctx, va := va, len := len, moved := 0, last := x.localTime, buf := buf,
                    frozen := none, heldAt := 0 }
  { x with cmd.xfers := vmod x.cmd.xfers ch (fun _ => some t) }.setPhase c (.transfer ch)

def chanOf (k : List Byte) (o : Nat) : Fin 4 := Fin.ofNat 4 (par k o 1)

/-- A data command starts on a channel that is free. -/
def startXfer (d : DieId) (ch : Fin 4) (f : Die → Die) (s : State) : State :=
  if (((s.die d).cmd.xfers)[ch]).isSome then s else s.onDie d f

/-- ATTEST (R513): the report is formed now, and sent on the channel. -/
def startAttest (c : PendCmd) (ch : Fin 4) (x : Die) : Die :=
  let r := attestReport x ((List.range 64).map (fun i => BitVec.ofNat 8 (par c.pkt (4 + i) 1)))
  (assignChannel ch c .attest 0 0 r.length r x).count .secAttestCnt

def execAttest (d : DieId) (s : State) : Out :=
  .next (runHead d 0 .attest (fun c s =>
    let ch := chanOf c.pkt 0
    startXfer d ch (startAttest c ch) s) s)

/-- LC_TRANSITION (R518, R519): the channel takes the authorisation. -/
def execLcTransition (d : DieId) (s : State) : Out :=
  .next (runHead d 0 .lcTransition (fun c s =>
    let ch := chanOf c.pkt 1
    startXfer d ch (assignChannel ch c .lcAuth 0 0 7348 []) s) s)

/-- ROM_LOAD (R506): the channel takes the image. -/
def execRomLoad (d : DieId) (s : State) : Out :=
  .next (runHead d 0 .romLoad (fun c s =>
    let ch := chanOf c.pkt 0
    startXfer d ch (assignChannel ch c .romImage 0 0 (par c.pkt 4 4) []) s) s)

/-- WRITE_MEM and READ_MEM (R92): the channel moves LEN bytes at VA. -/
def startMem (d : DieId) (ctx : Nat) (kind : XferKind) (c : PendCmd) (s : State) : State :=
  let ch := chanOf c.pkt 12
  startXfer d ch (assignChannel ch c kind ctx (par c.pkt 0 8) (par c.pkt 8 4) []) s

def execWriteMem (d : DieId) (ctx : Nat) (s : State) : Out :=
  if ctx = 0 then .next s else .next (runHead d ctx .writeMem (startMem d ctx .writeMem) s)

def execReadMem (d : DieId) (ctx : Nat) (s : State) : Out :=
  if ctx = 0 then .next s else .next (runHead d ctx .readMem (startMem d ctx .readMem) s)

/-- The command of a channel has received every byte of its authorisation: it is answered, and a life-cycle change schedules
a reset (R519). -/
def lcDone (x : Die) (ch : Fin 4) (auth : List Byte) : Die :=
  let target := ((x.xferCmd ch).map (fun c => par c.pkt 0 1)).getD 0
  let (x, r, changed) := lcAuthDone x auth target
  let place := x.cmd.replies.length
  let x := x.endXferWith ch r
  if changed then scheduleReset 2 place x else x

/-- The image of ROM_LOAD has arrived (R506). -/
def romDone (x : Die) (ch : Fin 4) (img : List Byte) : Die :=
  let (x, r) := romImageDone x img
  x.endXferWith ch r

/-- A packet of an authorisation or an image: its bytes within the length are kept; the transfer ends as R93 gives. -/
def collectPacket (x : Die) (ch : Fin 4) (t : Xfer) (pkt : List Byte) : Die :=
  let n := min pkt.length (t.len - t.moved)
  let buf := t.buf ++ pkt.take n
  let x := x.updXfer ch (fun u => { u with moved := u.moved + n, last := x.localTime, buf := buf })
  if t.len - t.moved < pkt.length then x.endXfer ch stDataOverrun
  else if t.moved + n = t.len then (if t.kind = .lcAuth then lcDone x ch buf else romDone x ch buf)
  else if pkt.length < x.usbMax then x.endXfer ch stDataShort
  else x

/-- The bytes of a packet that a transfer writes: die B writes them too for a paired context (R29). -/
def forwardPacket (s : State) (d : DieId) (ch : Fin 4) (t : Xfer) (pkt : List Byte) : State :=
  let n := min pkt.length (t.len - t.moved)
  if n = 0 then s else onSibling s d t.ctx (fun p y => siblingWrite p y (.usb ch) t.ctx (t.va + t.moved) (pkt.take n))

/-- The endpoints of a data channel (R52). -/
def outEp (ch : Fin 4) : Byte := BitVec.ofNat 8 (0x02 + ch.val)
def inEp (ch : Fin 4) : Byte := BitVec.ofNat 8 (0x82 + ch.val)

/-- An OUT packet of a channel whose transfer takes one. -/
def takeOut (s : State) (d : DieId) (ch : Fin 4) (t : Xfer) (pkt : List Byte) : State :=
  let ack : Die → Die := fun x => x.epServed (outEp ch) .ack
  if t.kind = .writeMem then
    (forwardPacket (s.onDie d (fun x => writePacket (s.die d.other) x ch t pkt)) d ch t pkt).onDie d ack
  else s.onDie d (fun x => ack (collectPacket x ch t pkt))

/-- DATA_PACKET_OUT (R91, R93): an endpoint that is not assigned to an OUT transfer, or is frozen, answers NAK; so does every endpoint in HOLD, where no
memory can be reached (R572). -/
def execDataPacketOut (d : DieId) (ch : Fin 4) (pkt : List Byte) (s : State) : Out :=
  let x := s.die d
  if !x.usbLive || decide (x.usbMax < pkt.length) then .next s else
  match x.cmd.xfers[ch] with
  | some t =>
    if !t.takesOut || !x.running then .next (s.onDie d (fun x => x.epBusy (outEp ch)))
    else .next (takeOut s d ch t pkt)
  | none => .next (s.onDie d (fun x => x.epBusy (outEp ch)))

/-- The next packet of a report. -/
def reportPacket (x : Die) (ch : Fin 4) (t : Xfer) : Die × Option (List Byte) :=
  let n := min x.usbMax (t.len - t.moved)
  let bs := (t.buf.drop t.moved).take n
  let x := x.updXfer ch (fun u => { u with moved := u.moved + n, last := x.localTime })
  (if t.moved + n = t.len then x.endXferWith ch (resOk (leBytes 4 t.len)) else x, some bs)

/-- DATA_PACKET_IN (R91, R93, R94): an endpoint without data to send answers NAK. -/
def dataInDie (ch : Fin 4) (p x : Die) : Die :=
  if !x.usbLive then x else
  let nak : Die → Die := fun x => x.epBusy (inEp ch)
  match x.cmd.xfers[ch] with
  | none => nak x
  | some t =>
    if !t.takesIn || !x.running then nak x else
    let r := match t.kind with
      | .readMem => readPacket p x ch t
      | .attest => reportPacket x ch t
      | .writeMem => (x, none)
      | .lcAuth => (x, none)
      | .romImage => (x, none)
    match r with
    | (x, some bs) => x.epServed (inEp ch) (.data bs)
    | (x, none) => nak x

def execDataPacketIn (d : DieId) (ch : Fin 4) (s : State) : Out := nextOn d (dataInDie ch (s.die d.other)) s

/-- DATA_TIMEOUT (R93, R74): no packet has moved for CMD_DATA_CFG × 100 local µs, on a channel that is not frozen;
it runs on in HOLD. -/
def dataTimeoutDie (ch : Fin 4) (x : Die) : Die :=
  match x.cmd.xfers[ch] with
  | none => x
  | some t =>
    if t.frozen.isSome || !x.cmdOn || !x.passedLocal t.last (100 * x.fld .cmdDataCfg [] 15 0) then x
    else (x.endXfer ch stDataTimeout).count .cmdDataTimeoutCnt

def execDataTimeout (d : DieId) (ch : Fin 4) (s : State) : Out := nextOn d (dataTimeoutDie ch) s

/-! ### The context stream (R82) -/

def execSubmit (d : DieId) (ctx : Nat) (s : State) : Out := runContext d ctx .submit (effSubmit d ctx) s
def execCancelJob (d : DieId) (ctx : Nat) (s : State) : Out := runContext d ctx .cancelJob (effCancel d ctx) s
def execFenceSignal (d : DieId) (ctx : Nat) (s : State) : Out := runContext d ctx .fenceSignal (effFenceSignal d ctx) s
def execFenceRead (d : DieId) (ctx : Nat) (s : State) : Out := runContext d ctx .fenceRead (effFenceRead d ctx) s
def execCtxStatus (d : DieId) (ctx : Nat) (s : State) : Out := runContext d ctx .ctxStatus (fun _ => effCtxStatus d ctx) s

/-- The command processor reads a waited fence: the wait ends when it has reached VALUE (R88, R89). -/
def waitRead (d : DieId) (ctx : Nat) (c : PendCmd) (s : State) : State :=
  match fenceUnit (s.die d.other) (s.die d) (.cmdProc ctx none) ctx (par c.pkt 0 8) with
  | (x, none) => s.setDie d x
  | (x, some v) =>
    let s := s.setDie d x
    if par c.pkt 8 8 ≤ v.toNat then answerOn d c (resOk (leBytes 8 v.toNat)) s else s

/-- FENCE_WAIT begins (R89), with a first read of the fence. -/
def waitStart (d : DieId) (ctx : Nat) (c : PendCmd) (s : State) : State :=
  let ph : Phase := .fenceWait (s.die d).localTime none
  waitRead d ctx { c with phase := ph } (s.onDie d (fun x => x.setPhase c ph))

def execFenceWait (d : DieId) (ctx : Nat) (s : State) : Out :=
  if ctx = 0 then .next s else .next (runHead d ctx .fenceWait (waitStart d ctx) s)

/-- The wait in progress in a context. -/
def Die.waiting (x : Die) (ctx : Nat) : Option (PendCmd × DWord) :=
  match x.headCmd ctx with
  | some c => (match c.phase with
    | .fenceWait t _ => some (c, t)
    | _ => none)
  | none => none

/-- FENCE_WAIT_POLL (R89): a wait whose read is held by a fault does not read again until it is resolved. -/
def execFenceWaitPoll (d : DieId) (ctx : Nat) (s : State) : Out :=
  .next (match (s.die d).waiting ctx with
    | some (c, _) => if (s.die d).running && !c.isFrozen then waitRead d ctx c s else s
    | none => s)

/-- FENCE_WAIT_TIMEOUT (R89): TIMEOUT runs on while a held fault stops the reads, which R74 does not exempt. -/
def execFenceWaitTimeout (d : DieId) (ctx : Nat) (s : State) : Out :=
  .next (match (s.die d).waiting ctx with
    | some (c, t) =>
      if (s.die d).cmdOn && (s.die d).passedLocal t (par c.pkt 16 4) then answerOn d c (resErr stWaitTimeout) s else s
    | none => s)

/-! ### Packets and replies (R53 to R58, R64 to R70) -/

/-- COMMAND_PACKET_RECEIVE (R54): the FIFO takes the packet, or the endpoint answers NAK. -/
def receiveDie (pkt : List Byte) (x : Die) : Die :=
  if !x.usbLive then x
  else if 256 ≤ x.cmd.fifo.length then (x.epBusy 0x01).count .cmdNakCnt
  else { x with cmd.fifo := x.cmd.fifo ++ [pkt] }.epServed 0x01 .ack

def execCommandPacketReceive (d : DieId) (pkt : List Byte) (s : State) : Out := nextOn d (receiveDie pkt) s

/-- REPLY_IN_TOKEN (R55): the oldest queued reply, or NAK. -/
def replyDie (x : Die) : Die :=
  if !x.usbLive then x else
  match x.cmd.replies with
  | [] => x.epBusy 0x81
  | r :: rs => { x with cmd.replies := rs }.epServed 0x81 (.data r)

def execReplyInToken (d : DieId) (s : State) : Out := nextOn d replyDie s

/-- USB_LINK_LOSS (R58). -/
def linkLossDie (x : Die) : Die := if x.io.usb.connected then { usbReset x with io.usb.lowPower := none } else x

def execUsbLinkLoss (d : DieId) (s : State) : Out := nextOn d linkLossDie s

/-- A packet is rejected at validation (R61, R64, R65). -/
def rejectPacket (k : List Byte) (st : Byte) (known : Bool) (detail : Nat) (payload : List Byte) (x : Die) : Die :=
  let cs := if known then (x.ctxState (pktContext k)).code else 0xFF
  let x := (x.queueReply (formReply k st x.dev.code cs detail payload)).count .cmdRejectCnt
  x.setReg .cmdLastReject (BitVec.ofNat 32 (st.toNat * 2 ^ 24 + pktOp k * 2 ^ 16 + pktContext k % 1024))

/-- A stored reply is sent again, now or once it is formed (R68). Such a packet is no rejection: it counts neither in
CMD_REJECT_CNT nor in CMD_LAST_REJECT, which R65 and R101 leave open (DESIGN CHOICE, log 129). -/
def repeatPacket (k : List Byte) (h : HistEnt) (x : Die) : Die :=
  match h.reply with
  | some r => x.sendAgain r
  | none =>
    let awaits : PendCmd → Bool := fun c => c.ctx == pktContext k && pktSeq c.pkt == h.seq.toNat && !c.closed
    { x with cmd.pool := updFirst awaits (fun c => { c with repeats := c.repeats + 1 }) x.cmd.pool }

/-- A validated packet enters the pending pool and consumes its number (R65, R68). -/
def acceptPacket (k : List Byte) (x : Die) : Die :=
  let c : PendCmd := { ctx := pktContext k, pkt := k, phase := .waiting, closed := false, repeats := 0 }
  { x.updStream c.ctx (fun t => t.take (BitVec.ofNat 32 (pktSeq k))) with cmd.pool := x.cmd.pool ++ [c] }

/-- What an unsequenced read executes (R70). -/
def effUnsequenced (d : DieId) (op : Op) (k : List Byte) (s : State) : Eff :=
  let c := pktContext k
  match op with
  | .ping => effPing d s
  | .getStatus => effGetStatus d s
  | .cfgRead => effCfgRead d k s
  | .ctxStatus => effCtxStatus d c s
  | .fenceRead => effFenceRead d c k s
  | _ => (s, none)

/-- An unsequenced read executes as it is taken, ahead of its context's commands (R70); one that faults is held in the pool
(R74). -/
def runUnsequenced (d : DieId) (op : Op) (k : List Byte) (s : State) : State :=
  let c : PendCmd := { ctx := pktContext k, pkt := k, phase := .waiting, closed := false, repeats := 0 }
  answerEff d c (effUnsequenced d op k (s.onDie d (fun x => { x with cmd.pool := c :: x.cmd.pool })))

/-- COMMAND_PACKET_TAKE (R57, R64): a reply slot is reserved, and for a packet that passes a place of the pool. -/
def takePacket (d : DieId) (s : State) : State :=
  let x := s.die d
  match x.cmd.fifo with
  | [] => s
  | k :: rest =>
    if !x.cmdOn || decide (512 ≤ x.replyLevel) then s else
    let took : Die → Die := fun x => ({ x with cmd.fifo := rest } : Die).count .cmdRxCnt
    match validate (s.die d.other) x k with
    | .reject st known detail payload => s.onDie d (fun x => rejectPacket k st known detail payload (took x))
    | .again h => s.onDie d (fun x => repeatPacket k h (took x))
    | .pass op seqd =>
      if 256 ≤ x.cmd.pool.length then s
      else if seqd then s.onDie d (fun x => acceptPacket k (took x))
      else runUnsequenced d op k (s.onDie d took)

def execCommandPacketTake (d : DieId) (s : State) : Out := .next (takePacket d s)

end Sys2Proof.Machine
end

