-- ==== Sys2Proof/Machine/Placing.lean ====
section
/-! DEFINITION. Sys2Proof/Machine/Placing.lean: JOB_START and SHARE_UNFOLD: the scheduler places jobs and unfolds, on both
dies together for a paired job (R327, R328, R330, R339, R340). -/
namespace Sys2Proof.Machine

/-- Firmware decides on a remote transaction that timed out while a share was folded: the context is killed, or the job goes
on (R339, R424). Which of the two is a free value (log 139). -/
def decideTimeout (p x : Die) (j : Job) : Die :=
  let y := x.tick
  if Config.choice x.free % 2 = 0 then killContext p y j.ctx
  else y.updJob j.slot (fun t => { t with timedOut := false })

/-- A folded share of the job may unfold (R327). -/
def Die.mayUnfold (x : Die) (j : Job) : Bool :=
  x.schedules && x.ctxStarts j.ctx && j.held.isNone && !j.timedOut && decide (j.state = .running) && x.isNext j

/-- The unfold of a share, by its number, that a die can begin now. -/
def Die.planOf (x : Die) (j : Job) (index : Nat) (want : Fin 6 → Bool) : Option (List (Share × Fin 6)) :=
  if !x.mayUnfold j then none else
  match j.shares.find? (fun h => h.index == index && decide (h.state = .folded)) with
  | none => none
  | some h => unfoldPlan x j h want

/-- A folded share of a job begins to unfold on a cluster that is wanted. A paired job unfolds on both dies or on neither. -/
def unfoldJob (d : DieId) (slot : Nat) (want : Fin 6 → Bool) (s : State) : State :=
  let x := s.die d
  match x.job? slot with
  | none => s
  | some j =>
    match j.foldedShare with
    | none => s
    | some h =>
      if j.timedOut ∧ x.schedules then s.onDie d (fun x => decideTimeout (s.die d.other) x j) else
      match x.planOf j h.index want with
      | none => s
      | some l =>
        let go := s.setDie d (beginUnfolds x j l)
        if !(j.paired && x.pairWorks) then go else
        match (s.die d.other).jobByKey j.ctx j.key with
        | none => s
        | some k => match (s.die d.other).planOf k h.index (fun _ => true) with
          | none => s
          | some m => go.onDie d.other (fun p => beginUnfolds p k m)

/-- JOB_START: a job starts, or a folded share of it unfolds. -/
def execJobStart (d : DieId) (slot : Nat) (s : State) : Out :=
  .next (unfoldJob d slot (fun _ => true) (s.onDie d (fun x => jobStartDie (s.die d.other) x slot)))

/-- SHARE_UNFOLD: a folded share begins to unfold on a cluster with room (R330). -/
def execShareUnfold (d : DieId) (slot : Nat) (cl : Fin 6) (s : State) : Out :=
  .next (unfoldJob d slot (fun c => decide (c = cl)) s)

end Sys2Proof.Machine
end

