-- ==== Sys2Proof/Machine/Quant.lean ====
section
/-! DEFINITION. Sys2Proof/Machine/Quant.lean: class 0x7: QUANT (R128, R186 to R190). -/
namespace Sys2Proof.Machine

def qSint (w : InstrBits) : Bool := bitOf (wImm w) 31
def qW2 (w : InstrBits) : Bool := bitOf (wImm w) 30
def qBs32 (w : InstrBits) : Bool := bitOf (wImm w) 29
def qAuto (w : InstrBits) : Bool := bitOf (wImm w) 28
def qSc (w : InstrBits) : Nat := wBits w 27 25
def qJ (w : InstrBits) : Nat := wBits w 24 23
def qKhalf (w : InstrBits) : Bool := bitOf (wImm w) 22

/-- Output elements of a row. -/
def qCols (w : InstrBits) : Nat := if qW2 w then 32 else 16

/-- The target is INT4 or FN4. -/
def qNarrow (op : Nat) : Bool := op == 1 || op == 3

/-- Destination registers of R188. -/
def qRegs (op : Nat) (w : InstrBits) : Nat :=
  if op = 4 then (if qW2 w then 4 else 2) else if qNarrow op then 1 else if qW2 w then 2 else 1

/-- Blocks of a row. -/
def qBlocks (w : InstrBits) : Nat := qCols w / blockSize (qBs32 w)

/-- R182 and R190. -/
def quantBad (op : Nat) (w : InstrBits) : Bool :=
  !mtxForm w || wSrc0 w % 4 != 0 || wBits w 21 0 != 0 || (qBs32 w && !qW2 w) || (qKhalf w && (!qNarrow op || qW2 w)) ||
  (if op = 4 then qAuto w || qBs32 w || qSc w != 0 || qJ w != 0 else decide (4 < qJ w + qBlocks w))

def quantPlan (op : Nat) (w : InstrBits) : Plan :=
  mtxPlan (quantBad op w) [(wDst w, qRegs op w)] [(wSrc0 w, if qW2 w then 8 else 4)]

/-- A source word as an exact value (R187). -/
def quantSrc (t : Group) (w : InstrBits) (m n : Nat) : FVal :=
  let v := (t.accWord (wSrc0 w + (if n < 16 then 0 else 4)) m (n % 16)).toNat
  if qSint w then (let i := signExtend 32 v; .fin (decide (i < 0)) i.natAbs 0) else readFloat fp32 v

/-- m × 2^(e-k) is at most Vmax of the target (R128). -/
def fitsMax (el : Elem) (m : Nat) (e k : Int) : Bool :=
  match el with
  | .int8 => !magAbove m (e - k) 127 0
  | .int4 => !magAbove m (e - k) 7 0
  | .fn8 => !magAbove (m ^ 8) (8 * (e - k)) 1 63
  | .fn4 => !magAbove (m ^ 2) (2 * (e - k)) 1 3

/-- The smallest exponent for which one magnitude fits, clamped: a search of two candidates about its octave. -/
def leastExp (el : Elem) (m : Nat) (e : Int) : Int :=
  let base : Int := (Nat.log2 m : Int) + e - (match el with
    | .int8 => 8
    | .int4 => 4
    | .fn8 => 9
    | .fn4 => 3)
  let k := ([0, 1, 2, 3].find? (fun i : Nat => fitsMax el m e (base + i))).getD 3
  max (-127) (min 127 (base + k))

/-- The block exponent of R128, step by step: the largest that a member of the block needs; a zero block takes 0. -/
def autoExp (el : Elem) (vs : List FVal) : Int :=
  if vs.any (fun v => match v with
    | .inf _ => true
    | .nan => false
    | .fin _ _ _ => false) then 127 else
  let es := vs.filterMap (fun v => match v with
    | .fin _ m e => if m = 0 then none else some (leastExp el m e)
    | .nan => none
    | .inf _ => none)
  match es with
  | [] => 0
  | k :: ks => ks.foldl max k

/-- The exponent code of block b of row m: chosen, or as the scale register holds it. -/
def quantExp (el : Elem) (t : Group) (w : InstrBits) (m b : Nat) : Nat :=
  if qAuto w then
    let bs := blockSize (qBs32 w)
    (autoExp el ((List.range bs).map (fun i => quantSrc t w m (b * bs + i))) + 127).toNat
  else ((t.scales.toList.getD (qSc w) (Vector.replicate 64 0x7F)).toList.getD (4 * m + qJ w + b) 0x7F).toNat

/-- One output element. -/
def quantConv (op : Nat) (t : Group) (w : InstrBits) (m n : Nat) : Conv :=
  if op = 4 then convFloat fp16 (quantSrc t w m n)
  else convElem (elemOf op) (quantExp (elemOf op) t w m (n / blockSize (qBs32 w))) (quantSrc t w m n)

def quantWidth (op : Nat) : Nat := if op = 4 then 16 else (elemOf op).width

/-- The place of output element n: the register after DST, and the row element in it (R188). -/
def quantPlace (op : Nat) (w : InstrBits) (n : Nat) : Nat × Nat :=
  if op = 4 then (n / 8, n % 8)
  else if qNarrow op then (0, if qKhalf w then n + 16 else n)
  else (n / 16, n % 16)

/-- A row element is replaced in a fragment register. -/
def Group.putElem (t : Group) (reg row e width v : Nat) : Group :=
  let bit := e * width
  let i := 4 * row + bit / 32
  let old := (t.lane reg i).toNat
  let sh := 2 ^ (bit % 32)
  t.setReg reg i (BitVec.ofNat 32 (old - old / sh % 2 ^ width * sh + v % 2 ^ width * sh))

/-- QUANT of one tile or two: elements, events, and the exponents chosen in automatic mode (R189). -/
def quantAct (op : Nat) (w : InstrBits) (x : Die) (t : Group) : Die :=
  let cells := ((List.range 16).map (fun m => (List.range (qCols w)).map (fun n => (m, n)))).flatten
  let cs := cells.map (fun q => (q, quantConv op t w q.1 q.2))
  let ev := convEvents (cs.map (fun c => c.2))
  let u := cs.foldl (fun u c =>
    let pl := quantPlace op w c.1.2
    u.putElem (wDst w + pl.1) c.1.1 pl.2 (quantWidth op) c.2.bits) t
  let u := if op ≠ 4 ∧ qAuto w then
      let old := t.scales.toList.getD (qSc w) (Vector.replicate 64 0x7F)
      let v : Vector Byte 64 := Vector.ofFn (fun k : Fin 64 =>
        let b := k.val % 4
        if qJ w ≤ b ∧ b < qJ w + qBlocks w then BitVec.ofNat 8 (quantExp (elemOf op) t w (k.val / 4) (b - qJ w)) else old[k])
      if h : qSc w < 8 then { u with scales := u.scales.set (qSc w) v } else u
    else u
  simple (fun _ => u.raise ev) ((x.countEvents ev).count .mtxQuantCnt) t

def aluQuant (d : DieId) (g : GrpLoc) (op : Nat) (w : InstrBits) (s : State) : Out :=
  onGroup d g 7 op .mtx w (fun _ => quantPlan op w) (quantAct op w) s

def execQuantInt8 (d : DieId) (g : GrpLoc) (w : InstrBits) (s : State) : Out := aluQuant d g 0x00 w s
def execQuantInt4 (d : DieId) (g : GrpLoc) (w : InstrBits) (s : State) : Out := aluQuant d g 0x01 w s
def execQuantFn8 (d : DieId) (g : GrpLoc) (w : InstrBits) (s : State) : Out := aluQuant d g 0x02 w s
def execQuantFn4 (d : DieId) (g : GrpLoc) (w : InstrBits) (s : State) : Out := aluQuant d g 0x03 w s
def execQuantBinary16 (d : DieId) (g : GrpLoc) (w : InstrBits) (s : State) : Out := aluQuant d g 0x04 w s

end Sys2Proof.Machine
end

