-- ==== Sys2Proof/Machine/ShaderMem.lean ====
section
/-! DEFINITION. Sys2Proof/Machine/ShaderMem.lean: classes 0x8 and 0x9: loads, stores, prefetches, carved L1, tile memory,
memory fences (R152 to R154, R160 to R162, R207 to R209, R214, R217, R221, R224). -/
namespace Sys2Proof.Machine

/-! ### Accesses (R152, R250) -/

/-- Threads of a fragment group that are helpers: their stores, atomics and outputs have no effect. -/
def Group.helpers (t : Group) : BitVec 64 :=
  (List.range t.frags.length).foldl (fun m i => match t.frags[i]? with
    | some f => if f.helper then m ||| ((1 : BitVec 64) <<< i) else m
    | none => m) 0

/-- Bytes of SIZE, and the registers that hold them. -/
def accBytes (w : InstrBits) : Nat := 2 ^ wSize w
def accRegs (w : InstrBits) : Nat := max 1 (accBytes w / 4)

/-- The first address that is not a multiple of the size (R152). -/
def firstMisaligned (n : Nat) (vas : List Nat) : Option Nat := vas.find? (fun v => v % n != 0)

/-- The bytes that a thread stores: from DATA upward. -/
def storeData (w : InstrBits) (t : Group) (i : Nat) : List Byte :=
  (((List.range (accRegs w)).map (fun k => leBytes 4 (t.lane (wData w + k) i).toNat)).flatten).take (accBytes w)

/-- The group has a load to come from a line that an access names: it waits, so that a thread's accesses to one address
stay in program order (R154). -/
def loadsAhead (t : Group) (vas : List Nat) : Bool :=
  t.loads.any (fun l => l.vas.any (fun v => vas.any (fun u => lineOf u == lineOf v)))

/-! ### LD, LDS and ST (R214) -/

/-- The first line of a load that its L1 holds fails parity as it is read (R234): it is invalidated, and will be fetched again
as a miss. -/
def lineFails (x : Die) (t : Group) (pas : List Nat) : Die :=
  let c := coreOf t.loc
  let u := x.l1 c
  let mine : L1Line → Bool := fun l => pas.any (fun pa => lineHits t.ctx (x.vmidOf t.ctx) (lineOf pa) l)
  match u.lines.find? mine with
  | some l => l1Error (x.setL1 { u with lines := u.lines.filter (fun k => k.pa != l.pa) }) c l.way (l1SetOf l.pa)
  | none => match u.side.find? mine with
    | some l => (x.setL1 { u with side := u.side.filter (fun k => k.pa != l.pa) }).count .locParityCnt
    | none => x

/-- A load: every page is checked, then the sectors are asked for; registers are written as they arrive. `par`: a line that
its L1 holds fails parity. -/
def loadAct (w : InstrBits) (sg par : Bool) (p x : Die) (t : Group) : Die :=
  let m := t.selected w
  let ths := threadsOf m
  let vas := ths.map (t.vaOf w)
  let n := accBytes w
  match firstMisaligned n vas with
  | some v => trapGroup x t clsMisaligned 0 v
  | none =>
    if ths.isEmpty then simple id x t else
    match prewalk p x (.group t.loc) t.ctx (vas.map (fun v => { va := v, len := n, acc := accRead })) with
    | (x, none) => x
    | (x, some pm) =>
      let pas := vas.map (paOf pm)
      let l : PendLoad := { dst := wDst w, size := n, signed := sg, mask := m, vas := vas, pas := pas,
                            sectors := (pas.map (fun pa => pa / 32 * 32)).eraseDups, got := [] }
      let x := if par then lineFails x t pas else x
      serveCore p (simple (fun t => { t with loads := t.loads ++ [l] }) x t) (coreOf t.loc)

def execLd (d : DieId) (g : GrpLoc) (l : LoadBits) (s : State) : Out :=
  onGroup d g 8 0x00 .mem l.word (fun _ => Plan.alu (!isM l.word || decide (4 < wSize l.word) || wData l.word != 0 || wHint l.word != 0)
    [(wDst l.word, accRegs l.word), (wAddr l.word, 2)]) (loadAct l.word false l.par (s.die d.other)) s

def execLds (d : DieId) (g : GrpLoc) (l : LoadBits) (s : State) : Out :=
  onGroup d g 8 0x01 .mem l.word (fun _ => Plan.alu (!isM l.word || decide (1 < wSize l.word) || wData l.word != 0 || wHint l.word != 0)
    [(wDst l.word, 1), (wAddr l.word, 2)]) (loadAct l.word true l.par (s.die d.other)) s

/-- Bytes by place, a later one in place of an earlier one. -/
def overBytes (old new : List (Nat × Byte)) : List (Nat × Byte) :=
  new ++ old.filter (fun q => !(new.any (fun r => r.1 == q.1)))

/-- The bytes of an access at consecutive places. -/
def placed (a : Nat) (bs : List Byte) : List (Nat × Byte) := (List.range bs.length).map (fun i => (a + i, bs.getD i 0))

/-- A store: threads in ascending index, so that the highest thread's bytes remain (R153). -/
def storeAct (w : InstrBits) (p x : Die) (t : Group) : Die :=
  let ths := threadsOf (t.selected w &&& ~~~t.helpers)
  let vas := ths.map (t.vaOf w)
  let n := accBytes w
  match firstMisaligned n ((threadsOf (t.selected w)).map (t.vaOf w)) with
  | some v => trapGroup x t clsMisaligned 0 v
  | none =>
    if ths.isEmpty then simple id x t else
    match prewalk p x (.group t.loc) t.ctx (vas.map (fun v => { va := v, len := n, acc := accWrite })) with
    | (x, none) => x
    | (x, some pm) =>
      let bytes := ths.foldl (fun l i => overBytes l (placed (paOf pm (t.vaOf w i)) (storeData w t i))) []
      let lines := (vas.map (fun v => lineOf (paOf pm v))).eraseDups
      let x := lines.foldl (fun y ln => l1Store p y (coreOf t.loc) t.ctx t.job ln
        ((bytes.filter (fun q => lineOf q.1 == ln)).map (fun q => (q.1 % 128, q.2)))) x
      simple id x t

def storePlan (w : InstrBits) (t : Group) : Plan :=
  { bad := !isM w || decide (4 < wSize w) || wDst w != 0 || wHint w != 0,
    wait := loadsAhead t ((threadsOf (t.selected w)).map (t.vaOf w)),
    regs := [(wData w, accRegs w), (wAddr w, 2)], accs := [] }

def execSt (d : DieId) (g : GrpLoc) (w : InstrBits) (s : State) : Out :=
  onGroup d g 8 0x02 .mem w (storePlan w) (storeAct w (s.die d.other)) s

/-! ### PF (R221) -/

/-- One thread's prefetch: a failing translation or check changes nothing but LOC_PF_DROP_CNT. -/
def prefetchOne (w : InstrBits) (p : Die) (t : Group) (x : Die) (va : Nat) : Die :=
  match tryUnit p x (.group t.loc) t.ctx [{ va := va, len := 1, acc := accRead }] with
  | (y, .ok pm) => if wHint w = 0 then l1Prefetch y (coreOf t.loc) t.ctx (lineOf (paOf pm va)) else l2Prefetch p y (coreOf t.loc) (lineOf (paOf pm va))
  | (_, .error _) => x.count .locPfDropCnt

def execPf (d : DieId) (g : GrpLoc) (w : InstrBits) (s : State) : Out :=
  onGroup d g 8 0x03 .mem w (fun _ => Plan.alu (!isM w || wSize w != 0 || wDst w != 0 || wData w != 0 || decide (1 < wHint w)) [(wAddr w, 2)])
    (fun x t => simple id ((((threadsOf (t.selected w)).map (t.vaOf w)).map lineOf).eraseDups.foldl (prefetchOne w (s.die d.other) t) x) t) s

/-! ### Carved L1 (R224) -/

/-- The first offset that is misaligned, or that lies outside `size` bytes. -/
def firstOutside (n size : Nat) (os : List Int) : Option Int := os.find? (fun o => decide (o < 0) || decide ((size : Int) < o + n))

/-- LOCAL_RANGE (R207, R224). -/
def localRange (x : Die) (t : Group) (r : Reg) (o : Int) (carved : Bool) : Die :=
  (trapGroup x t clsLocalRange 0 ((o % 2 ^ 32).toNat + (if carved then 2 ^ 32 else 0))).count r

/-- The checks of a local access: alignment, then range; `go` gets the offsets of the selected threads. A job without a
partition or carve there stops whatever is selected; where no thread is, the DETAIL is a free value (log 153). -/
def localAccess (w : InstrBits) (size : Nat) (r : Reg) (carved : Bool) (x : Die) (t : Group) (go : Die → List Nat → Die) : Die :=
  let os := (threadsOf (t.selected w)).map (t.ofsOf w)
  match os.find? (fun o => decide (o % (accBytes w : Int) ≠ 0)) with
  | some o => trapGroup x t clsMisaligned 0 (o % 2 ^ 32).toNat
  | none =>
    if size = 0 && os.isEmpty then localRange x.tick t r ((Config.dword x.free).toNat : Int) carved else
    match firstOutside (accBytes w) size os with
    | some o => localRange x t r o carved
    | none => go x (os.map (fun o => o.toNat))

/-- Bytes of a carve that a group's job holds on its core. -/
def carveSize (x : Die) (t : Group) : Nat :=
  let u := x.l1 (coreOf t.loc)
  if u.carveJob = some t.job then 32768 * u.carve else 0

/-- A register or a run of registers takes little-endian bytes in one thread. -/
def Group.takeBytes (t : Group) (w : InstrBits) (i : Nat) (bs : List Byte) : Group :=
  (List.range (accRegs w)).foldl (fun t k => t.setReg (wDst w + k) i (BitVec.ofNat 32 (fieldNat bs (4 * k) (min 4 (accBytes w))))) t

/-- Selected threads with their offsets. -/
def withOffsets (w : InstrBits) (t : Group) (os : List Nat) : List (Nat × Nat) := (threadsOf (t.selected w)).zip os

/-- LDC: `par` says that the read fails parity (R234). -/
def ldcAct (w : InstrBits) (par : Bool) (p x : Die) (t : Group) : Die :=
  localAccess w (carveSize x t) .locRangeCnt true x t (fun x os =>
    if par && !os.isEmpty then parityRestartDie t.loc (.carvedL1 (BitVec.ofNat 19 (os.headD 0))) p x else
    let mem := (x.l1 (coreOf t.loc)).carveMem
    simple (fun t => (withOffsets w t os).foldl (fun u q => u.takeBytes w q.1 (Mem.bytes mem q.2 (accBytes w))) t) x t)

def execLdc (d : DieId) (g : GrpLoc) (par : Bool) (w : InstrBits) (s : State) : Out :=
  onGroup d g 8 0x04 .mem w (fun _ => Plan.alu (!isM w || decide (4 < wSize w) || wData w != 0 || wHint w != 0)
    [(wDst w, accRegs w), (wAddr w, 1)]) (ldcAct w par (s.die d.other)) s

/-- STC: a store of part of a 32-bit word reads the word, and can meet a parity error. -/
def stcAct (w : InstrBits) (par : Bool) (p x : Die) (t : Group) : Die :=
  localAccess w (carveSize x t) .locRangeCnt true x t (fun x os =>
    if par && decide (wSize w < 2) && !os.isEmpty then
      parityRestartDie t.loc (.carvedL1 (BitVec.ofNat 19 (os.headD 0))) p x else
    let qs := (withOffsets w t os).filter (fun q => !t.helpers.getLsbD q.1)
    simple id (x.onL1 (coreOf t.loc) (fun u => { u with carveMem := qs.foldl (fun m q => Mem.setBytes m q.2 (storeData w t q.1)) u.carveMem })) t)

def execStc (d : DieId) (g : GrpLoc) (par : Bool) (w : InstrBits) (s : State) : Out :=
  onGroup d g 8 0x05 .mem w (fun _ => Plan.alu (!isM w || decide (4 < wSize w) || wDst w != 0 || wHint w != 0)
    [(wData w, accRegs w), (wAddr w, 1)]) (stcAct w par (s.die d.other)) s

/-! ### Tile memory (R203, R207) -/

/-- Bytes of the partition that a group's job holds on its cluster, and its steps. -/
def partMask (x : Die) (t : Group) : BitVec 16 := match x.part? t.job t.loc.cl with
  | some q => q.mask
  | none => 0

def maskSteps (m : BitVec 16) : Nat := (tlmSteps.filter (fun k => m.getLsbD k)).length

def physOf (m : BitVec 16) (o : Nat) : Nat := (tlmPhys m o).getD 0

def tldAct (w : InstrBits) (par : Bool) (p x : Die) (t : Group) : Die :=
  let m := partMask x t
  localAccess w (32768 * maskSteps m) .tlmRangeCnt false x t (fun x os =>
    if par && !os.isEmpty then parityRestartDie t.loc (.tileMemory (BitVec.ofNat 19 (physOf m (os.headD 0)))) p x else
    simple (fun t => (withOffsets w t os).foldl (fun u q =>
      u.takeBytes w q.1 (partBytes x m (coreOf t.loc) q.2 (accBytes w))) t) x t)

def execTld (d : DieId) (g : GrpLoc) (par : Bool) (w : InstrBits) (s : State) : Out :=
  onGroup d g 9 0x00 .mem w (fun _ => Plan.alu (!isM w || decide (4 < wSize w) || wData w != 0 || wHint w != 0)
    [(wDst w, accRegs w), (wAddr w, 1)]) (tldAct w par (s.die d.other)) s

def tstAct (w : InstrBits) (par : Bool) (p x : Die) (t : Group) : Die :=
  let m := partMask x t
  localAccess w (32768 * maskSteps m) .tlmRangeCnt false x t (fun x os =>
    if par && decide (wSize w < 2) && !os.isEmpty then
      parityRestartDie t.loc (.tileMemory (BitVec.ofNat 19 (physOf m (os.headD 0)))) p x else
    let qs := (withOffsets w t os).filter (fun q => !t.helpers.getLsbD q.1)
    simple id (qs.foldl (fun y q => setPartBytes y m (coreOf t.loc) q.2 (storeData w t q.1)) x) t)

def execTst (d : DieId) (g : GrpLoc) (par : Bool) (w : InstrBits) (s : State) : Out :=
  onGroup d g 9 0x01 .mem w (fun _ => Plan.alu (!isM w || decide (4 < wSize w) || wDst w != 0 || wHint w != 0)
    [(wData w, accRegs w), (wAddr w, 1)]) (tstAct w par (s.die d.other)) s

/-! ### Fences (R160, R161, R217) -/

/-- What a fence's acquire does. -/
def fenceAcquire (x : Die) (t : Group) (kind scope : Nat) : Die :=
  if kind ≠ 2 ∧ 2 ≤ scope then acquireCore x (coreOf t.loc) else x

/-- Every entry of a core's buffer is to drain. -/
def askL1 (x : Die) (c : CoreLoc) : Die := x.onL1 c (fun u => { u with merge := u.merge.map (fun e => { e with asked := true }) })

def sliceIds : List (Fin 16) := coreIds

/-- A release at package or system scope reaches the slices (R229). -/
def askL2 (x : Die) : Die :=
  sliceIds.foldl (fun (y : Die) sl => if (y.l2 sl).merge.isEmpty then y else
    y.onL2 sl (fun u => { u with merge := u.merge.map (fun e => { e with asked := true }) })) x

/-- FENCE: a release at cluster scope or wider waits for FENCE_COMPLETE; every other one is complete at once. -/
def fenceAct (w : InstrBits) (x : Die) (t : Group) : Die :=
  let kind := wSize w
  let scope := wHint w
  if kind ≠ 1 ∧ 2 ≤ scope then
    let f : FenceReq := { kind := kind, scope := scope, sent := false }
    simple (fun t => { t with fence := some f }) (askL1 x (coreOf t.loc)) t
  else simple id (fenceAcquire x t kind scope) t

def execFenceInstr (d : DieId) (g : GrpLoc) (w : InstrBits) (s : State) : Out :=
  onGroup d g 8 0x10 .mem w (fun _ => Plan.noRegs (!isM w || wSize w == 0 || decide (3 < wSize w) || decide (5 < wHint w) ||
    wAddr w != 0 || wDst w != 0 || wData w != 0 || wOfsU w != 0)) (fenceAct w) s

/-- No entry that a release asked to drain is left in a core's buffer, or in any slice's. -/
def l1Drained (x : Die) (c : CoreLoc) : Bool := (x.l1 c).merge.all (fun e => !e.asked)
def l2Drained (x : Die) : Bool := sliceIds.all (fun sl => (x.l2 sl).merge.all (fun e => !e.asked))

/-- FENCE_COMPLETE: the group's loads have returned and its stores are visible throughout the scope; a release at package
scope first reaches the slices. -/
def fenceCompleteDie (g : GrpLoc) (x : Die) : Die :=
  match x.group? g with
  | none => x
  | some t =>
    match t.fence with
    | none => x
    | some f =>
      if !x.running || !t.loads.isEmpty || !l1Drained x (coreOf g) then x
      else if 4 ≤ f.scope ∧ f.sent = false then
        askL2 (x.updGroup g (fun t => { t with fence := some { f with sent := true } }))
      else if 4 ≤ f.scope && !l2Drained x then x
      else if f.scope = 5 ∧ x.pair.mode = 2 ∧ ¬ x.pair.mirOut = [] then x
      else fenceAcquire (x.updGroup g (fun t => { t with fence := none })) t f.kind f.scope

def execFenceComplete (d : DieId) (g : GrpLoc) (s : State) : Out := nextOn d (fenceCompleteDie g) s

end Sys2Proof.Machine
end

