-- ==== Sys2Proof/Machine/ShaderAtomic.lean ====
section
/-! DEFINITION. Sys2Proof/Machine/ShaderAtomic.lean: class 0xA: combined atomics, exchange and compare-and-swap, performed at
the L2 slices (R155 to R159, R214). -/
namespace Sys2Proof.Machine

/-! ### Operands -/

def atomWide (w : InstrBits) : Bool := wSize w == 3
def atomBytes (w : InstrBits) : Nat := if atomWide w then 8 else 4
def atomReturns (w : InstrBits) : Bool := !bitOf (wHint w) 0

/-- An operand of an atomic in a thread: a register, or a pair. -/
def atomOperand (w : InstrBits) (t : Group) (r i : Nat) : Nat := if atomWide w then t.pair r i else (t.lane r i).toNat

/-- HINT[3:1] is 0, DST is 0 where nothing returns, SIZE is 2 or 3 (2 alone for FADD). `n`: operands in DATA. -/
def atomPlan (w : InstrBits) (n : Nat) (wideOk : Bool) (t : Group) : Plan :=
  let k := if atomWide w then 2 else 1
  { bad := !isM w || !(wSize w == 2 || (wideOk && wSize w == 3)) || decide (1 < wHint w) || (!atomReturns w && wDst w != 0),
    wait := loadsAhead t ((threadsOf (t.selected w)).map (t.vaOf w)),
    regs := [(wData w, n * k), (wAddr w, 2)] ++ (if atomReturns w then [(wDst w, k)] else []), accs := [] }

/-! ### At the slice -/

/-- A word as the slice holds it. -/
def sliceWord (x : Die) (pa n : Nat) : Nat := ofLe (x.l2Bytes pa n)

/-- A slice writes an atomic's result: to the window, or into its merging buffer. -/
def sliceWrite (p x : Die) (ctx pa n v : Nat) : Die :=
  if inWindow pa then { x with cache.l2carve := Mem.setBytes x.cache.l2carve (pa - windowBase) (leBytes n v) }
  else l2Merge p x ctx pa (leBytes n v) 0

/-- The core's copy of a line is stale (R214). -/
def staleLine (x : Die) (c : CoreLoc) (ln : Nat) : Die :=
  x.onL1 c (fun u => { u with lines := u.lines.map (fun l => if l.pa = ln then { l with stale := true } else l),
                              side := u.side.filter (fun l => l.pa != ln) })

/-- Every line that the instruction names has left the core's merging buffer and stands at its slice. -/
def atomLines (p x : Die) (t : Group) (pm : PageMap) (us : List URange) : Die × Bool :=
  us.foldl (fun (r : Die × Bool) u =>
    if r.2 then
      let ln := lineOf (paOf pm u.va)
      let y := staleLine (l1DrainLine p r.1 (coreOf t.loc) ln) (coreOf t.loc) ln
      fetchRange p y (.group t.loc) t.ctx pm u
    else r) (x, true)

/-- The performance of an atomic at one address on its threads, in the order given: the die, and each thread's value. -/
abbrev AtomRun := Die → (pa : Nat) → List Nat → Die × List (Nat × Nat)

/-- An atomic: alignment, the pre-walk, one performance for each distinct address, and the values that return with the
reply (R155, R157). Helper threads have no effect (R250). -/
def atomAct (w : InstrBits) (run : Die → Group → AtomRun) (p x : Die) (t : Group) : Die :=
  let n := atomBytes w
  let m := t.selected w &&& ~~~t.helpers
  let ths := threadsOf m
  match firstMisaligned n ((threadsOf (t.selected w)).map (t.vaOf w)) with
  | some v => trapGroup x t clsMisaligned 0 v
  | none =>
    if ths.isEmpty then simple id x t else
    let us : List URange := ths.map (fun i => { va := t.vaOf w i, len := n, acc := accAtomic })
    match prewalk p x (.group t.loc) t.ctx us with
    | (x, none) => x
    | (x, some pm) =>
      match atomLines p x t pm us with
      | (x, false) => x
      | (x, true) =>
        let addrs := (ths.map (t.vaOf w)).eraseDups
        let (x, vals) := addrs.foldl (fun (r : Die × List (Nat × Nat)) va =>
          let (y, vs) := run r.1 t r.1 (paOf pm va) (ths.filter (fun i => t.vaOf w i == va))
          (y, r.2 ++ vs)) (x, [])
        let pend : PendAtomic := { dst := wDst w, wide := atomWide w, mask := m,
                                   values := ths.map (fun i => BitVec.ofNat 64 ((vals.lookup i).getD 0)) }
        if atomReturns w then simple (fun t => { t with atomics := t.atomics ++ [pend] }) x t else simple id x t

/-! ### Integer atomics (R155, R156) -/

/-- One memory atomic for the threads of an address: thread t gets the word as it would stand before its own contribution,
in lane order. -/
def combined (w : InstrBits) (p : Die) (f : Nat → Nat → Nat → Nat) (_x : Die) (t : Group) : AtomRun := fun x pa ths =>
  let n := atomBytes w
  let old := sliceWord x pa n
  let (fin, vals) := ths.foldl (fun (r : Nat × List (Nat × Nat)) i =>
    (f (8 * n) r.1 (atomOperand w t (wData w) i), r.2 ++ [(i, r.1)])) (old, [])
  ((sliceWrite p x t.ctx pa n fin).count .grpAtomicCnt, vals)

def aluAtomic (d : DieId) (g : GrpLoc) (op : Nat) (w : InstrBits) (f : Nat → Nat → Nat → Nat) (s : State) : Out :=
  onGroup d g 0xA op .mem w (atomPlan w 1 true) (atomAct w (combined w (s.die d.other) f) (s.die d.other)) s

def execAtomAdd (d : DieId) (g : GrpLoc) (w : InstrBits) (s : State) : Out := aluAtomic d g 0x00 w addW s
def execAtomSmin (d : DieId) (g : GrpLoc) (w : InstrBits) (s : State) : Out := aluAtomic d g 0x01 w (minW true) s
def execAtomUmin (d : DieId) (g : GrpLoc) (w : InstrBits) (s : State) : Out := aluAtomic d g 0x02 w (minW false) s
def execAtomSmax (d : DieId) (g : GrpLoc) (w : InstrBits) (s : State) : Out := aluAtomic d g 0x03 w (maxW true) s
def execAtomUmax (d : DieId) (g : GrpLoc) (w : InstrBits) (s : State) : Out := aluAtomic d g 0x04 w (maxW false) s
def execAtomAnd (d : DieId) (g : GrpLoc) (w : InstrBits) (s : State) : Out := aluAtomic d g 0x05 w (fun _ a b => Nat.land a b) s
def execAtomOr (d : DieId) (g : GrpLoc) (w : InstrBits) (s : State) : Out := aluAtomic d g 0x06 w (fun _ a b => Nat.lor a b) s
def execAtomXor (d : DieId) (g : GrpLoc) (w : InstrBits) (s : State) : Out := aluAtomic d g 0x07 w (fun _ a b => Nat.xor a b) s

/-! ### FADD (R158) -/

/-- A list in an order that the device does not fix: a free value for each place from occurrence `n` on. -/
def freeOrder : Nat → Nat → List Nat → List Nat
  | 0, _, _ => []
  | k + 1, n, l => match l with
    | [] => []
    | h :: _ =>
      let v := l.getD (Config.choice n % l.length) h
      v :: freeOrder k (n + 1) (l.erase v)

def addFp32 (a b : Nat) : Nat := faddBits fp32 (readFloat fp32 a) (readFloat fp32 b)

/-- Partial sums before each thread, and the total. The first thread has no prefix. -/
def prefixes (v : Nat → Nat) (ths : List Nat) : List (Nat × Option Nat) × Option Nat :=
  ths.foldl (fun (r : List (Nat × Option Nat) × Option Nat) i =>
    (r.1 ++ [(i, r.2)], some (match r.2 with
      | none => v i
      | some a => addFp32 a (v i)))) ([], none)

/-- A paired job combines in lane order (R30); every other in an order that is a free value. -/
def combinedFadd (w : InstrBits) (p : Die) (_x : Die) (t : Group) : AtomRun := fun x pa ths =>
  let paired := match x.job? t.job with
    | some j => j.paired
    | none => false
  let order := if paired then ths else freeOrder ths.length x.free ths
  let x := { x with free := x.free + ths.length }
  let old := sliceWord x pa 4
  let (ps, total) := prefixes (fun i => (t.lane (wData w) i).toNat) order
  let join := fun (o : Option Nat) => match o with
    | none => old
    | some a => addFp32 old a
  ((sliceWrite p x t.ctx pa 4 (join total)).count .grpAtomicCnt, ps.map (fun q => (q.1, join q.2)))

def execAtomFadd (d : DieId) (g : GrpLoc) (w : InstrBits) (s : State) : Out :=
  onGroup d g 0xA 0x08 .mem w (atomPlan w 1 false) (atomAct w (combinedFadd w (s.die d.other)) (s.die d.other)) s

/-! ### XCHG and CAS (R159) -/

/-- Serialised in lane order: each thread sees the word as the previous one left it. -/
def serialised (w : InstrBits) (p : Die) (f : Group → Nat → Nat → Nat) (_x : Die) (t : Group) : AtomRun := fun x pa ths =>
  let n := atomBytes w
  let (fin, vals) := ths.foldl (fun (r : Nat × List (Nat × Nat)) i => (f t i r.1, r.2 ++ [(i, r.1)])) (sliceWord x pa n, [])
  ((sliceWrite p x t.ctx pa n fin).countN .grpAtomicCnt ths.length, vals)

def execXchg (d : DieId) (g : GrpLoc) (w : InstrBits) (s : State) : Out :=
  onGroup d g 0xA 0x09 .mem w (atomPlan w 1 true)
    (atomAct w (serialised w (s.die d.other) (fun t i _ => atomOperand w t (wData w) i)) (s.die d.other)) s

/-- The new value follows the compare value: in DATA + 1, or in the pair DATA + 2. -/
def casNew (w : InstrBits) : Nat := wData w + (if atomWide w then 2 else 1)

def execCas (d : DieId) (g : GrpLoc) (w : InstrBits) (s : State) : Out :=
  onGroup d g 0xA 0x0A .mem w (atomPlan w 2 true)
    (atomAct w (serialised w (s.die d.other) (fun t i v =>
      if v = atomOperand w t (wData w) i then atomOperand w t (casNew w) i else v)) (s.die d.other)) s

/-! ### ATOMIC_REPLY (R214) -/

/-- The values of the oldest atomic reach its threads. -/
def atomicReplyDie (g : GrpLoc) (x : Die) : Die :=
  x.updGroup g (fun t => match t.atomics with
    | [] => t
    | a :: as =>
      let ths := threadsOf a.mask
      let v : Nat → Nat := fun i => (((ths.zip a.values).lookup i).getD 0).toNat
      let t := { t with atomics := as }
      if a.wide then t.putPair a.mask a.dst v else t.putLanes a.mask a.dst (fun i => BitVec.ofNat 32 (v i)))

def execAtomicReply (d : DieId) (g : GrpLoc) (s : State) : Out :=
  nextOn d (fun x => if x.running then atomicReplyDie g x else x) s

end Sys2Proof.Machine
end

