-- ==== Sys2Proof/Machine/ShaderControl.lean ====
section
/-! DEFINITION. Sys2Proof/Machine/ShaderControl.lean: classes 0x0, 0xB and 0xC: control, barriers, lanes and special
registers (R136, R145 to R151, R169, R332). -/
namespace Sys2Proof.Machine

/-! ### Class 0x0 (R169) -/

/-- Every field of an R-format instruction is 0. -/
def bodyZero (w : InstrBits) : Bool := w.body == 0



/-- NOP. -/
def execNop (d : DieId) (g : GrpLoc) (w : InstrBits) (s : State) : Out :=
  onGroup d g 0 0 .alu w (fun _ => Plan.noRegs (!isR w || !bodyZero w)) (simple id) s

/-- NOP.FOLD (R332): a group of a folding share stops, and resumes after the instruction. -/
def nopFoldAct (x : Die) (t : Group) : Die :=
  if x.folding t.job t.loc.cl then settleGroup x { t.next with stopped := true } else simple id x t

/-- MODE is 1 and every other field is 0, PRED among them as 7. -/
def execNopFold (d : DieId) (g : GrpLoc) (w : InstrBits) (s : State) : Out :=
  onGroup d g 0 0 .alu w (fun _ => Plan.noRegs (!isR w || w.body != 0x100)) nopFoldAct s

/-- An address some instructions from another. -/
def pcOff (pc : BitVec 48) (n : Int) : BitVec 48 := pc + BitVec.ofInt 48 (8 * n)

/-- DETAIL of a trap that names a position, counted from the program's start where the group has one (R490). -/
def positionOf (x : Die) (t : Group) : Nat :=
  match t.stage with
  | .compute => (match x.job? t.job with
      | some j => posOf (dWorkVa j.desc) t.pc
      | none => 0)
  | .vertex p _ _ _ => (match x.passes[p] with
      | some q => posOf (wVsVa q.draw) t.pc
      | none => 0)
  | .fragment p _ _ n => (match x.passes[p] with
      | some q => posOf (wFsVa ((q.draws.lookup n).getD q.draw)) t.pc
      | none => 0)

/-- The branch of R146: taken, not taken, or both with the path that falls through stacked. -/
def branchTo (w : InstrBits) (x : Die) (t : Group) : Die :=
  let taken := t.selected w
  let fall := t.active &&& ~~~taken
  let target := pcOff t.pc (wTarget w)
  if fall = 0 then settleGroup x { t with pc := target }
  else if taken = 0 then settleGroup x t.next
  else if 32 ≤ t.stack.length then trapGroup x t clsStackOverflow 0 (positionOf x t)
  else
    let e : StackEnt := { reconv := pcOff t.pc (wReconv w), pendPc := t.pc + 8, pendMask := fall, outer := t.active }
    settleGroup x { t with stack := e :: t.stack, active := taken, pc := target }

def execBra (d : DieId) (g : GrpLoc) (w : InstrBits) (s : State) : Out :=
  onGroup d g 0 1 .alu w (fun _ => Plan.noRegs (!isB w || (w.pred == 7 && wReconvU w != 0))) (branchTo w) s

/-- The target that BRX reads in a thread. -/
def brxTarget (w : InstrBits) (t : Group) (i : Nat) : Nat := t.pair (wSrc0 w) i % 2 ^ 48

/-- The indirect branch of R147. -/
def brxAct (w : InstrBits) (x : Die) (t : Group) : Die :=
  let ts := (threadsOf t.active).map (brxTarget w t)
  let target := ts.headD 0
  if ts.all (fun v => v == target) then settleGroup x { t with pc := BitVec.ofNat 48 target }
  else trapGroup x t clsBadBranch 0 (positionOf x t)

def execBrx (d : DieId) (g : GrpLoc) (w : InstrBits) (s : State) : Out :=
  onGroup d g 0 2 .alu w (fun _ => Plan.alu (!isR w || !allPred w || wDst w != 0 || wImm w != 0) [(wSrc0 w, 2)]) (brxAct w) s

/-- CALL: every active thread branches, and the pair receives the address of the next instruction. -/
def callAct (w : InstrBits) (x : Die) (t : Group) : Die :=
  let back := (t.pc + 8).toNat
  let u := t.putPair t.active (wBits w 7 0) (fun _ => back)
  settleGroup x { u with pc := pcOff t.pc (wTarget w) }

def execCallInstr (d : DieId) (g : GrpLoc) (w : InstrBits) (s : State) : Out :=
  onGroup d g 0 3 .alu w (fun _ => Plan.alu (!isB w || !allPred w || wBits w 23 8 != 0) [(wBits w 7 0, 2)]) (callAct w) s

/-- Threads leave for the exited mask (R145). -/
def Group.exit (t : Group) (m : BitVec 64) : Group := { t with active := t.active &&& ~~~m, exited := t.exited ||| m }

def execExitInstr (d : DieId) (g : GrpLoc) (w : InstrBits) (s : State) : Out :=
  onGroup d g 0 4 .alu w (fun _ => Plan.noRegs (!isR w || !bodyZero w)) (fun x t => settleGroup x (t.exit (t.selected w)).next) s

/-- END: every active thread exits; threads that wait on stacked paths or at barriers go on (R145). -/
def execEndProg (d : DieId) (g : GrpLoc) (w : InstrBits) (s : State) : Out :=
  onGroup d g 0 5 .alu w (fun _ => Plan.noRegs (!isR w || !bodyZero w || !allPred w)) (fun x t => settleGroup x (t.exit t.active).next) s

/-! ### Class 0xB (R148 to R151) -/

/-- The selected threads park; the group goes on with its other threads, unless threads stand parked at that barrier from
another address, which freezes it (R150). -/
def parkAt (b : Fin 9) (w : InstrBits) (x : Die) (t : Group) : Die :=
  let m := t.selected w
  let rest := t.active &&& ~~~m
  if m = 0 then simple id x t
  else
    let u := { t with active := m }.park b
    let u := { u with active := rest, pc := if rest = 0 then t.pc else t.pc + 8 }
    if (u.arrivals[b]).mixed then
      let u := u.reconverge 66
      barrierDiverged (x.putGroup u) u
    else settleGroup x u

/-- SRC0[2:0] names the barrier; every other field is 0. -/
def execBar (d : DieId) (g : GrpLoc) (w : InstrBits) (s : State) : Out :=
  onGroup d g 0xB 0 .alu w (fun _ => Plan.noRegs (!isR w || wDst w != 0 || decide (8 ≤ wSrc0 w) || wImm w != 0))
    (parkAt (Fin.ofNat 9 (wSrc0 w % 8)) w) s

def execBarw (d : DieId) (g : GrpLoc) (w : InstrBits) (s : State) : Out :=
  onGroup d g 0xB 1 .alu w (fun _ => Plan.noRegs (!isR w || !bodyZero w)) (parkAt 8 w) s

/-! ### Class 0xC (R136, R168, R169) -/

/-- A special register in a thread, TIME apart (R136). -/
def specialReg (d : DieId) (t : Group) (code i : Nat) : Nat :=
  match code with
  | 0 => i
  | 1 => i % 16
  | 2 => t.idx
  | 3 => t.wg
  | 4 => t.rank
  | _ => grpLocation t.loc + 1024 * d.toNat

/-- MOVS: reading TIME_LO captures TIME_HI. -/
def movsAct (w : InstrBits) (x : Die) (t : Group) : Die :=
  let m := t.selected w
  let code := wImm w
  let r := wDst w
  if code = 6 then
    let lo := x.time.setWidth 32
    let hi : Word := (x.time >>> 32).setWidth 32
    simple (fun t => { t.putLanes m r (fun _ => lo) with timeHi := hi }) x t
  else if code = 7 then simple (fun t => t.putLanes m r (fun _ => t.timeHi)) x t
  else simple (fun t => t.putLanes m r (fun i => BitVec.ofNat 32 (specialReg x.id t code i))) x t

/-- A code above 7 names no special register: BAD_INSTRUCTION, as for an encoding that is not listed, which R136 leaves open
(DESIGN CHOICE, log 146). -/
def execMovs (d : DieId) (g : GrpLoc) (w : InstrBits) (s : State) : Out :=
  onGroup d g 0xC 0 .alu w (fun _ => Plan.alu (!isI w || wSrc0 w != 0 || decide (7 < wImm w)) [(wDst w, 1)]) (movsAct w) s

/-- SHFL: each thread reads the thread that its SRC1 names, active or not. -/
def shflAct (w : InstrBits) (t : Group) : Group :=
  t.putLanes (t.selected w) (wDst w) (fun i => t.lane (wSrc0 w) ((t.lane (wSrc1 w) i).toNat % 64))

def execShfl (d : DieId) (g : GrpLoc) (w : InstrBits) (s : State) : Out :=
  onGroup d g 0xC 1 .alu w (fun _ => Plan.alu (!isR w || wSrc2 w != 0 || wBits w 15 0 != 0)
    [(wDst w, 1), (wSrc0 w, 1), (wSrc1 w, 1)]) (simple (shflAct w)) s

/-- A mask into a register pair, the same in every thread. -/
def putMask (w : InstrBits) (t : Group) (m : BitVec 64) : Group := t.putPair (t.selected w) (wDst w) (fun _ => m.toNat)

def execMaska (d : DieId) (g : GrpLoc) (w : InstrBits) (s : State) : Out :=
  onGroup d g 0xC 2 .alu w (fun _ => Plan.alu (!isR w || wSrc0 w != 0 || wImm w != 0) [(wDst w, 2)])
    (simple (fun t => putMask w t t.active)) s

def execMaskx (d : DieId) (g : GrpLoc) (w : InstrBits) (s : State) : Out :=
  onGroup d g 0xC 3 .alu w (fun _ => Plan.alu (!isR w || wSrc0 w != 0 || wImm w != 0) [(wDst w, 2)])
    (simple (fun t => putMask w t t.exited)) s

def execBallot (d : DieId) (g : GrpLoc) (w : InstrBits) (s : State) : Out :=
  onGroup d g 0xC 4 .alu w (fun _ => Plan.alu (!isR w || decide (7 ≤ wSrc0 w) || wImm w != 0) [(wDst w, 2)])
    (simple (fun t => putMask w t (t.predicate (wSrc0 w) &&& t.active))) s

/-! ### ROUND_ROBIN_ROTATION (R142) -/

/-- A wait counter on a pipe has reached RR_WAIT: the port starts a rotation one slot above its last issue, unless one
runs. A pipe with a group of a paired job has no fall-back (R30); under R143 the rotation runs anyhow, and is not counted.
Where no group has issued on the port yet, the rotation starts at slot 0, which R142 leaves open (DESIGN CHOICE, log 149). -/
def rotateDie (c : CoreLoc) (pipe : Fin 4) (port : Port) (x : Die) : Die :=
  let g : GrpLoc := { cl := c.cl, core := c.core, pipe := pipe, slot := 0 }
  let k := portKey g port
  let limit := wbits (x.regU .grpSchedCfg c.cl.val) 9 0
  let always := x.alwaysRotates c pipe
  if (x.sh.rotation.lookup k).isSome || x.neverRotates c pipe ||
    !(always || (x.onPipe c pipe).any (fun t => decide (limit ≤ t.wait))) then x else
  let start := ((x.sh.lastIssue.lookup k).getD 15 + 1) % 16
  let y : Die := { x with sh.rotation := (k, rotationFrom start) :: x.sh.rotation }
  if always then y else y.count .grpRrRotationCnt

def execRoundRobinRotation (d : DieId) (c : CoreLoc) (pipe : Fin 4) (port : Port) (s : State) : Out :=
  nextOn d (rotateDie c pipe port) s

end Sys2Proof.Machine
end

