-- ==== Sys2Proof/Machine/ShaderFloat.lean ====
section
/-! DEFINITION. Sys2Proof/Machine/ShaderFloat.lean: classes 0x2, 0x3 and 0x5: FP32, binary16 pairs and the special functions
(R106 to R110, R166, R169). -/
namespace Sys2Proof.Machine

/-! ### Operands of classes 0x2 and 0x3 -/

def floatClass (half : Bool) : Nat := if half then 3 else 2

/-- An operation on FP32 words, or on both halves of binary16 pairs (R166). -/
def perHalf (half : Bool) (f : FFmt → List Nat → Nat) (vs : List Nat) : Nat :=
  if half then f fp16 (vs.map (fun v => v % 65536)) + f fp16 (vs.map (fun v => v / 65536)) * 65536 else f fp32 vs

/-- SRC1 in a thread, or IMM. -/
def floatSrc1 (w : InstrBits) (t : Group) (i : Nat) : Nat := if isI w then wImm w else (t.lane (wSrc1 w) i).toNat

/-- TYPE of the R form must be the class's; fields that a row does not use are 0. -/
def badFloat (half : Bool) (w : InstrBits) (three two modes : Bool) : Bool :=
  !(isR w || (isI w && two && !three)) ||
  (isR w && (wTypeR w != (if half then 5 else 4) || wLow w != 0 || (!three && wSrc2 w != 0) || (!two && wSrc1 w != 0) ||
    (if modes then decide (6 < wModeR w) else wModeR w != 0)))

/-- A row with SRC0 and SRC1. -/
def aluFloat2 (d : DieId) (g : GrpLoc) (half : Bool) (op : Nat) (w : InstrBits) (f : FFmt → FVal → FVal → Nat)
    (s : State) : Out :=
  let run : FFmt → List Nat → Nat := fun fm vs => f fm (readFloat fm (vs.getD 0 0)) (readFloat fm (vs.getD 1 0))
  onGroup d g (floatClass half) op .alu w
    (fun _ => Plan.alu (badFloat half w false true false) ([(wDst w, 1), (wSrc0 w, 1)] ++ (if isI w then [] else [(wSrc1 w, 1)])))
    (simple (fun t => t.putLanes (t.selected w) (wDst w) (fun i =>
      BitVec.ofNat 32 (perHalf half run [(t.lane (wSrc0 w) i).toNat, floatSrc1 w t i])))) s

/-- A row with SRC0 alone. -/
def aluFloat1 (d : DieId) (g : GrpLoc) (half : Bool) (op : Nat) (w : InstrBits) (f : FFmt → FVal → Nat) (s : State) : Out :=
  let run : FFmt → List Nat → Nat := fun fm vs => f fm (readFloat fm (vs.getD 0 0))
  onGroup d g (floatClass half) op .alu w
    (fun _ => Plan.alu (badFloat half w false false false) [(wDst w, 1), (wSrc0 w, 1)])
    (simple (fun t => t.putLanes (t.selected w) (wDst w) (fun i => BitVec.ofNat 32 (perHalf half run [(t.lane (wSrc0 w) i).toNat])))) s

/-! ### The rows -/

def execFadd (d : DieId) (g : GrpLoc) (half : Bool) (w : InstrBits) (s : State) : Out := aluFloat2 d g half 0x00 w faddBits s
def execFsub (d : DieId) (g : GrpLoc) (half : Bool) (w : InstrBits) (s : State) : Out :=
  aluFloat2 d g half 0x01 w (fun fm a b => faddBits fm a b.neg) s
def execFmul (d : DieId) (g : GrpLoc) (half : Bool) (w : InstrBits) (s : State) : Out := aluFloat2 d g half 0x02 w fmulBits s
def execFmin (d : DieId) (g : GrpLoc) (half : Bool) (w : InstrBits) (s : State) : Out :=
  aluFloat2 d g half 0x04 w (fun fm a b => fminBits fm false a b) s
def execFmax (d : DieId) (g : GrpLoc) (half : Bool) (w : InstrBits) (s : State) : Out :=
  aluFloat2 d g half 0x05 w (fun fm a b => fminBits fm true a b) s

/-- FFMA: SRC0 × SRC1 + SRC2. -/
def execFfma (d : DieId) (g : GrpLoc) (half : Bool) (w : InstrBits) (s : State) : Out :=
  let run : FFmt → List Nat → Nat := fun fm vs =>
    ffmaBits fm (readFloat fm (vs.getD 0 0)) (readFloat fm (vs.getD 1 0)) (readFloat fm (vs.getD 2 0))
  onGroup d g (floatClass half) 0x03 .alu w
    (fun _ => Plan.alu (badFloat half w true true false) [(wDst w, 1), (wSrc0 w, 1), (wSrc1 w, 1), (wSrc2 w, 1)])
    (simple (fun t => t.putLanes (t.selected w) (wDst w) (fun i => BitVec.ofNat 32 (perHalf half run
      [(t.lane (wSrc0 w) i).toNat, (t.lane (wSrc1 w) i).toNat, (t.lane (wSrc2 w) i).toNat])))) s

/-- A value without its sign. -/
def FVal.abs : FVal → FVal
  | .nan => .nan
  | .inf _ => .inf false
  | .fin _ m e => .fin false m e

def execFabs (d : DieId) (g : GrpLoc) (half : Bool) (w : InstrBits) (s : State) : Out :=
  aluFloat1 d g half 0x06 w (fun fm a => a.abs.bits fm) s
def execFneg (d : DieId) (g : GrpLoc) (half : Bool) (w : InstrBits) (s : State) : Out :=
  aluFloat1 d g half 0x07 w (fun fm a => a.neg.bits fm) s

/-- MODE of FSETP; a free value among 0 to 6 in the I form. -/
def fsetpMode (w : InstrBits) : Nat := if isI w then Config.immMode 0x28 (wImm w) % 7 else wModeR w

/-- FSETP; in class 0x3 the low halves are compared. -/
def fsetpAct (half : Bool) (w : InstrBits) (t : Group) : Group :=
  let fm := if half then fp16 else fp32
  let cut := fun (v : Nat) => if half then v % 65536 else v
  t.putPred (t.selected w) (wDst w) (fun i =>
    fcmp (fsetpMode w) (readFloat fm (cut (t.lane (wSrc0 w) i).toNat)) (readFloat fm (cut (floatSrc1 w t i))))

def execFsetp (d : DieId) (g : GrpLoc) (half : Bool) (w : InstrBits) (s : State) : Out :=
  onGroup d g (floatClass half) 0x08 .alu w
    (fun _ => Plan.alu (badFloat half w false true true || decide (7 ≤ wDst w)) ([(wSrc0 w, 1)] ++ (if isI w then [] else [(wSrc1 w, 1)])))
    (simple (fsetpAct half w)) s

/-! ### Class 0x5 (R110) -/

/-- RCP, RSQ, LG2 and EX2: TYPE 4, or TYPE 5 for both halves. -/
def aluApprox (d : DieId) (g : GrpLoc) (op : Nat) (w : InstrBits) (s : State) : Out :=
  let half := wTypeR w == 5
  let run : FFmt → List Nat → Nat := fun fm vs => approxBits fm op (vs.getD 0 0)
  onGroup d g 5 op .alu w
    (fun _ => Plan.alu (!isR w || !(wTypeR w == 4 || wTypeR w == 5) || wModeR w != 0 || wLow w != 0 || wSrc1 w != 0 || wSrc2 w != 0)
      [(wDst w, 1), (wSrc0 w, 1)])
    (simple (fun t => t.putLanes (t.selected w) (wDst w) (fun i => BitVec.ofNat 32 (perHalf half run [(t.lane (wSrc0 w) i).toNat])))) s

def execRcp (d : DieId) (g : GrpLoc) (w : InstrBits) (s : State) : Out := aluApprox d g 0 w s
def execRsq (d : DieId) (g : GrpLoc) (w : InstrBits) (s : State) : Out := aluApprox d g 1 w s
def execLg2 (d : DieId) (g : GrpLoc) (w : InstrBits) (s : State) : Out := aluApprox d g 2 w s
def execEx2 (d : DieId) (g : GrpLoc) (w : InstrBits) (s : State) : Out := aluApprox d g 3 w s

end Sys2Proof.Machine
end

