-- ==== Sys2Proof/Machine/ShaderOut.lean ====
section
/-! DEFINITION. Sys2Proof/Machine/ShaderOut.lean: classes 0xD and 0xE and the interlocks: textures (R271, R272), vertex and
fragment outputs (R269), ILK.ACQ and ILK.REL (R270). -/
namespace Sys2Proof.Machine

/-! ### The draw of a group -/

/-- The pass and draw that a vertex or fragment group shades for. -/
def drawOfGroup (x : Die) (t : Group) : Option (Fin 4 × Pass × List Byte) :=
  match t.stage with
  | .compute => none
  | .vertex p _ _ _ => (x.passes[p]).map (fun q => (p, q, q.draw))
  | .fragment p _ _ n => (x.passes[p]).map (fun q => (p, q, q.drawOf n))

def Group.isVertex (t : Group) : Bool :=
  match t.stage with
  | .vertex _ _ _ _ => true
  | .fragment _ _ _ _ => false
  | .compute => false

def Group.isFragment (t : Group) : Bool :=
  match t.stage with
  | .vertex _ _ _ _ => false
  | .fragment _ _ _ _ => true
  | .compute => false

def drawWord (x : Die) (t : Group) : List Byte :=
  match drawOfGroup x t with
  | some (_, _, w) => w
  | none => []

/-! ### Outputs (R269) -/

/-- Fields that an output does not use are 0: of DST, ADDR, DATA, SIZE, HINT and OFFSET, all but DATA and OFFSET. -/
def outFields (w : InstrBits) : Bool := isM w && wDst w == 0 && wAddr w == 0 && wSize w == 0 && wHint w == 0

/-- Outputs of the selected threads that are not helpers. -/
def putOut (w : InstrBits) (t : Group) (f : Nat → ShaderOut → ShaderOut) : Group :=
  let m := t.selected w &&& ~~~t.helpers
  { t with out := (List.range t.out.length).map (fun i => let o := t.out.getD i noOut; if m.getLsbD i then f i o else o) }

/-- Four registers of a thread, from DATA upward. -/
def fourRegs (w : InstrBits) (t : Group) (i : Nat) : List Word := (List.range 4).map (fun k => t.lane (wData w + k) i)

/-- A slot's value, in place of an earlier one. -/
def putSlot (l : List (Nat × List Word)) (k : Nat) (v : List Word) : List (Nat × List Word) := (k, v) :: l.filter (fun q => q.1 != k)

def execOutPos (d : DieId) (g : GrpLoc) (w : InstrBits) (s : State) : Out :=
  onGroup d g 0xE 0x00 .mem w (fun t => Plan.alu (!outFields w || wOfsU w != 0 || !t.isVertex) [(wData w, 4)])
    (simple (fun t => putOut w t (fun i o => { o with pos := some (fourRegs w t i) }))) s

/-- A slot outside 0 to V − 1 is no legal OFFSET. -/
def execOutVar (d : DieId) (g : GrpLoc) (w : InstrBits) (s : State) : Out :=
  onGroup d g 0xE 0x01 .mem w
    (fun t => Plan.alu (!outFields w || !t.isVertex || decide (wVaryings (drawWord (s.die d) t) ≤ wOfsU w)) [(wData w, 4)])
    (simple (fun t => putOut w t (fun i o => { o with vars := putSlot o.vars (wOfsU w) (fourRegs w t i) }))) s

def execOutCol (d : DieId) (g : GrpLoc) (w : InstrBits) (s : State) : Out :=
  onGroup d g 0xE 0x08 .mem w (fun t => Plan.alu (!outFields w || !t.isFragment || decide (3 < wOfsU w)) [(wData w, 4)])
    (simple (fun t => putOut w t (fun i o => { o with cols := putSlot o.cols (wOfsU w) (fourRegs w t i) }))) s

def execOutDepth (d : DieId) (g : GrpLoc) (w : InstrBits) (s : State) : Out :=
  onGroup d g 0xE 0x09 .mem w
    (fun t => Plan.alu (!outFields w || wOfsU w != 0 || !t.isFragment || !wLate (drawWord (s.die d) t)) [(wData w, 1)])
    (simple (fun t => putOut w t (fun i o => { o with depth := some (t.lane (wData w) i) }))) s

/-- The selected threads' samples become uncovered. -/
def uncover (w : InstrBits) (t : Group) : Group :=
  let m := t.selected w
  { t with frags := (List.range t.frags.length).filterMap (fun i => (t.frags[i]?).map (fun f =>
      if m.getLsbD i then { f with cover := 0 } else f)) }

def execDiscard (d : DieId) (g : GrpLoc) (w : InstrBits) (s : State) : Out :=
  onGroup d g 0xE 0x0B .mem w
    (fun t => Plan.noRegs (!outFields w || wData w != 0 || wOfsU w != 0 || !t.isFragment || !wLate (drawWord (s.die d) t)))
    (simple (uncover w)) s

/-! ### Interlocks (R270) -/

/-- Samples of the active threads, with the order of the triangle that covers them. -/
def heldSamples (fs : List FragThread) (keep : Nat → Bool) : List FragThread :=
  (List.range fs.length).filterMap (fun i => match fs[i]? with
    | some f => if keep i && f.cover != 0 then some f else none
    | none => none)

/-- A fragment of an earlier triangle that covers one of a fragment's samples. -/
def blocks (f g : FragThread) : Bool := f.x == g.x && f.y == g.y && f.cover &&& g.cover != 0 && decide (g.order < f.order)

/-- Fragments of the same tile that have not released: those still to be shaded, and those of other groups. -/
def ilkWaits (x : Die) (t : Group) : Bool :=
  match t.stage with
  | .fragment p tile _ _ =>
    let mine := heldSamples t.frags (fun i => t.active.getLsbD i)
    let quads := match x.flight? p tile with
      | some (_, f) => (f.quads.map (fun u => u.threads)).flatten
      | none => []
    let others := ((tileGroups x p tile).filter (fun u => decide (u.2.loc ≠ t.loc) && u.2.ilk != 2)).map (fun u => u.2.frags)
    mine.any (fun f => (quads ++ others.flatten).any (blocks f))
  | .vertex _ _ _ _ => false
  | .compute => false

/-- Fields of the class 0x9 interlocks: all 0. -/
def ilkFields (w : InstrBits) : Bool := outFields w && wData w == 0 && wOfsU w == 0

def ilkAcqBad (x : Die) (w : InstrBits) (t : Group) : Bool :=
  !ilkFields w || !t.isFragment || !wOrdered (drawWord x t) || t.ilk == 1

/-- ILK.ACQ: while it is not granted the group is not ready, and waits; its cycles are counted as time passes. -/
def execIlkAcq (d : DieId) (g : GrpLoc) (w : InstrBits) (s : State) : Out :=
  let x := s.die d
  match x.group? g with
  | none => .next s
  | some t =>
    if x.mayIssue t && t.fence.isNone && predLegal w && !ilkAcqBad x w t && ilkWaits x t then
      nextOn d (fun x => x.updGroup g (fun t => { t with ilkWait := true })) s
    else onGroup d g 9 0x30 .mem w (fun t => Plan.noRegs (ilkAcqBad x w t)) (simple (fun t => { t with ilk := 1, ilkWait := false })) s

def execIlkRel (d : DieId) (g : GrpLoc) (w : InstrBits) (s : State) : Out :=
  onGroup d g 9 0x31 .mem w (fun t => Plan.noRegs (!ilkFields w || t.ilk != 1)) (simple (fun t => { t with ilk := 2 })) s

/-! ### Texture descriptors (R271, R273) -/

def tVa (b : List Byte) : Nat := fieldNat b 0 8
def tWidth (b : List Byte) : Nat := fieldNat b 8 2
def tHeight (b : List Byte) : Nat := fieldNat b 0x0A 2
def tLevels (b : List Byte) : Nat := fieldNat b 0x0C 1
def tFormat (b : List Byte) : Nat := fieldNat b 0x0D 1
def tSampler (b : List Byte) : Nat := fieldNat b 0x0E 2
def tPitch (b : List Byte) : Nat := fieldNat b 0x10 4
def tBias (b : List Byte) : Nat := fieldNat b 0x14 2
def tMag (b : List Byte) : Bool := bitOf (tSampler b) 0
def tMin (b : List Byte) : Bool := bitOf (tSampler b) 1
def tMip (b : List Byte) : Bool := bitOf (tSampler b) 2
def tWrapU (b : List Byte) : Nat := bitsOf (tSampler b) 4 3
def tWrapV (b : List Byte) : Nat := bitsOf (tSampler b) 6 5

/-- Texels across and down a block, and its bytes; none for a code that no texture has. -/
def blockDims (f : Nat) : Option (Nat × Nat × Nat) :=
  if fmtIsColour f then some (1, 1, fmtBytes f)
  else if 0x20 ≤ f ∧ f ≤ 0x24 then some (4, 4, if f = 0x21 ∨ f = 0x24 then 16 else 8)
  else if 0x30 ≤ f ∧ f ≤ 0x3D then
    let (w, h) := ([(4, 4), (5, 4), (5, 5), (6, 5), (6, 6), (8, 5), (8, 6), (8, 8), (10, 5), (10, 6), (10, 8), (10, 10),
      (12, 10), (12, 12)] : List (Nat × Nat)).getD (f - 0x30) (4, 4)
    some (w, h, 16)
  else none

def texOk (b : List Byte) : Bool :=
  vaOk (tVa b) 256 && decide (1 ≤ tWidth b) && decide (tWidth b ≤ 16384) && decide (1 ≤ tHeight b) && decide (tHeight b ≤ 16384) &&
  decide (1 ≤ tLevels b) && decide (tLevels b ≤ 15) && (blockDims (tFormat b)).isSome && tSampler b / 128 == 0 &&
  tWrapU b != 3 && tWrapV b != 3 && tPitch b % 64 == 0 && allZero b 0x16 10

def levelDim (n i : Nat) : Nat := max 1 (n / 2 ^ i)

/-- Pitch and base of level `i`: each level follows the one before at the next 256-byte boundary. -/
def levelPlace (b : List Byte) : Nat → Nat × Nat
  | 0 => (tPitch b, tVa b)
  | i + 1 =>
    let (bw, bh, n) := (blockDims (tFormat b)).getD (1, 1, 1)
    let (pitch, base) := levelPlace b i
    let size := pitch * ceilDiv (levelDim (tHeight b) i) bh
    (ceilDiv (ceilDiv (levelDim (tWidth b) (i + 1)) bw * n) 64 * 64, ceilDiv (base + size) 256 * 256)

/-- A texel: level and coordinates. -/
structure Texel where
  lvl : Nat
  x : Nat
  y : Nat
  deriving DecidableEq, Repr

def texelVa (b : List Byte) (t : Texel) : Nat × Nat :=
  let (bw, bh, n) := (blockDims (tFormat b)).getD (1, 1, 1)
  let (pitch, base) := levelPlace b t.lvl
  (base + pitch * (t.y / bh) + t.x / bw * n, n)

/-- The components of a texel from the bytes of its sample or block. -/
def texelValue (b : List Byte) (t : Texel) (bs : List Byte) : List Word :=
  let f := tFormat b
  if fmtIsColour f then colourRead f (ofLe bs)
  else
    let (bw, bh, _) := (blockDims f).getD (1, 1, 1)
    (List.range 4).map (fun c => Config.compressedTexel f bs (t.x % bw) (t.y % bh) c)

/-! ### Filtering (R272) -/

/-- WRAP: repeat, mirror, clamp to edge. -/
def wrapCoord (mode n : Nat) (i : Int) : Nat :=
  match mode with
  | 0 => (i % n).toNat
  | 1 => let m := (i % (2 * n)).toNat; if n ≤ m then 2 * n - 1 - m else m
  | _ => min (n - 1) i.toNat

def Frac.floor (a : Frac) : Int := a.n / a.d

/-- Coordinates of the texels that one axis asks for. -/
def axisTexels (mode n : Nat) (linear : Bool) (u : Word) : List Nat :=
  let v := (fracOf u).mul (Frac.ofInt n)
  if linear then
    let i := (v.sub { n := 1, d := 2 }).floor
    [wrapCoord mode n i, wrapCoord mode n (i + 1)]
  else [wrapCoord mode n v.floor]

def levelTexels (b : List Byte) (lvl : Nat) (linear : Bool) (u v : Word) : List Texel :=
  ((axisTexels (tWrapV b) (levelDim (tHeight b) lvl) linear v).map (fun y =>
    (axisTexels (tWrapU b) (levelDim (tWidth b) lvl) linear u).map (fun x => { lvl := lvl, x := x, y := y }))).flatten

/-- Levels and filter for a level of detail: magnification up to 0; the nearest level, or the two around it. -/
def lodLevels (b : List Byte) (lod : Word) : List Nat × Bool :=
  let l := fracOf lod
  let top := tLevels b - 1
  if l.le (Frac.ofInt 0) then ([0], tMag b)
  else if tMip b then
    let i := min top l.floor.toNat
    (if i < top then [i, i + 1] else [i], tMin b)
  else ([min top (l.add { n := 1, d := 2 }).floor.toNat], tMin b)

/-- The level of detail of a thread: given, or from the quad's coordinates by a function that the spec does not state. -/
def lodOf (b : List Byte) (w : InstrBits) (t : Group) (i : Nat) : Word :=
  let base := if wHint w = 1 then t.lane (wData w) i
    else Config.quantity 6 (((List.range 4).map (fun k =>
      [t.lane (wAddr w) (i / 4 * 4 + k), t.lane (wAddr w + 1) (i / 4 * 4 + k)])).flatten ++ [BitVec.ofNat 32 (tWidth b + 2 ^ 16 * tHeight b)])
  BitVec.ofNat 32 (faddBits fp32 (readFloat fp32 base.toNat) (readFloat fp32 ((readFloat fp16 (tBias b)).bits fp32)))

/-- What a thread asks of a texture: texels, and how their values make its result. -/
structure TexAsk where
  texels : List Texel
  key : List Word
  deriving DecidableEq, Repr

def sampleAsk (b : List Byte) (w : InstrBits) (t : Group) (i : Nat) : TexAsk :=
  let u := t.lane (wAddr w) i
  let v := t.lane (wAddr w + 1) i
  let lod := lodOf b w t i
  let (ls, linear) := lodLevels b lod
  { texels := (ls.map (fun l => levelTexels b l linear u v)).flatten, key := [u, v, lod] ++ (List.range 8).map (fun i => word32 b (4 * i)) }

/-- FETCH outside the level asks for nothing and returns 0. -/
def fetchAsk (b : List Byte) (w : InstrBits) (t : Group) (i : Nat) : TexAsk :=
  let x := (t.lane (wAddr w) i).toNat
  let y := (t.lane (wAddr w + 1) i).toNat
  let l := (t.lane (wData w) i).toNat
  { texels := if l < tLevels b ∧ x < levelDim (tWidth b) l ∧ y < levelDim (tHeight b) l then [{ lvl := l, x := x, y := y }] else [],
    key := [] }

/-- The result: the texel itself where one is asked for; the weights of several are not stated, so that their mixture is a
free function of the texels, the coordinates and the descriptor. -/
def texResult (q : TexAsk) (vals : List (List Word)) (c : Nat) : Word :=
  match vals with
  | [] => 0
  | [v] => v.getD c 0
  | _ => Config.quantity (32 + c) (q.key ++ vals.map (fun v => v.getD c 0))

/-! ### Reading texels -/

/-- Bytes at a VA of a unit that has passed, line by line. -/
def textureBytes (p x : Die) (t : Group) (pm : PageMap) (va n : Nat) : Die × Option (List Byte) :=
  (List.range n).foldl (fun (r : Die × Option (List Byte)) i => match r.2 with
    | none => r
    | some bs =>
      let pa := paOf pm (va + i)
      if i = 0 ∨ pa % 128 = 0 then
        let k := min (n - i) (128 - pa % 128)
        match l1ReadLine p r.1 (coreOf t.loc) t.ctx (lineOf pa) ((pa % 128 + k - 1) / 32 + 1 - pa % 128 / 32) with
        | (x, none) => (parityStop x (.texture t.loc) t.ctx (va + i) (failedWord p x (lineOf pa) []) 0, none)
        | (x, some ln) => (x, some (bs ++ (ln.drop (pa % 128)).take k))
      else (r.1, some bs)) (x, some [])

/-- Texels of a thread. -/
def readTexels (p x : Die) (t : Group) (pm : PageMap) (b : List Byte) (ts : List Texel) : Die × Option (List (List Word)) :=
  ts.foldl (fun (r : Die × Option (List (List Word))) k => match r.2 with
    | none => r
    | some vs =>
      match textureBytes p r.1 t pm (texelVa b k).1 (texelVa b k).2 with
      | (x, none) => (x, none)
      | (x, some bs) => (x, some (vs ++ [texelValue b k bs]))) (x, some [])

/-- A texture instruction: the descriptor is read and checked; then every texel of the selected threads is one access unit;
then the results are written. -/
def textureAct (w : InstrBits) (ask : List Byte → Group → Nat → TexAsk) (p x : Die) (t : Group) : Die :=
  let dva := wResVa (drawWord x t) + 32 * (wOfsU w % 4096)
  match readUnit p x (.texture t.loc) t.ctx dva 32 accRead with
  | (x, none) => x
  | (x, some b) =>
    if !texOk b then trapGroup x t clsBadDescriptor 0 dva else
    let m := t.selected w
    let asks := (threadsOf m).map (fun i => (i, ask b t i))
    let us : List URange := ((asks.map (fun a => a.2.texels)).flatten.map (texelVa b)).eraseDups.map (fun q =>
      { va := q.1, len := q.2, acc := accRead })
    match prewalk p x (.texture t.loc) t.ctx us with
    | (x, none) => x
    | (x, some pm) =>
      let got := asks.foldl (fun (r : Die × Option (List (Nat × List Word))) a => match r.2 with
        | none => r
        | some l =>
          match readTexels p r.1 t pm b a.2.texels with
          | (x, none) => (x, none)
          | (x, some vs) => (x, some (l ++ [(a.1, (List.range 4).map (texResult a.2 vs))]))) (x, some [])
      match got with
      | (x, none) => x
      | (x, some res) =>
        simple (fun t => (List.range 4).foldl (fun (u : Group) c =>
          u.putLanes m (wDst w + c) (fun i => ((res.lookup i).getD []).getD c 0)) t) x t

/-- Fields of class 0xD that are not used are 0; the descriptor number is OFFSET[11:0]. -/
def texFields (w : InstrBits) : Bool := isM w && wSize w == 0 && decide (wOfsU w < 4096)

def execSample (d : DieId) (g : GrpLoc) (w : InstrBits) (s : State) : Out :=
  onGroup d g 0xD 0x00 .mem w
    (fun t => Plan.alu (!texFields w || decide (1 < wHint w) || (wHint w == 0 && (wData w != 0 || !t.isFragment)) || decide (t.stage = .compute))
      ([(wDst w, 4), (wAddr w, 2)] ++ (if wHint w = 1 then [(wData w, 1)] else [])))
    (textureAct w (fun b t i => sampleAsk b w t i) (s.die d.other)) s

def execFetchTexel (d : DieId) (g : GrpLoc) (w : InstrBits) (s : State) : Out :=
  onGroup d g 0xD 0x01 .mem w
    (fun t => Plan.alu (!texFields w || wHint w != 0 || decide (t.stage = .compute)) [(wDst w, 4), (wAddr w, 2), (wData w, 1)])
    (textureAct w (fun b t i => fetchAsk b w t i) (s.die d.other)) s

end Sys2Proof.Machine
end

