-- ==== Sys2Proof/Machine/Tiles.lean ====
section
/-! DEFINITION. Sys2Proof/Machine/Tiles.lean: the tile phase: fragment groups (R250), tiles loaded, drawn and stored (R246),
the rinse (R259, R260), and the end of a pass (R277). -/
namespace Sys2Proof.Machine

/-! ### FRAGMENT_GROUP_DISPATCH (R250) -/

/-- The next quads of a sub-tile and draw, at most 16, if a group of them may be dispatched: it is full, or no further quad
of theirs can come. -/
def groupQuads (q : Pass) (f : TileFlight) (sub drawNo : Nat) : List Quad :=
  let mine := f.quads.filter (fun u => u.sub == sub && u.drawNo == drawNo)
  let ready := mine.takeWhile (fun u => u.tested)
  let ended := f.listDone || decide (drawNo < f.upTo) || decide (q.phase = .folding) ||
    (q.direct && (decide (drawNo < q.drawNo) || q.drawVa == 0))
  if 16 ≤ ready.length then ready.take 16
  else if ended && ready.length == mine.length then ready
  else []

def fragmentGroup (q : Pass) (pp : Fin 4) (f : TileFlight) (qs : List Quad) (n : Nat) (l : GrpLoc) (stamp : Nat) : Group :=
  let u := qs.headD { sub := 0, drawNo := 0, prim := { drawNo := 0, id := 0, front := false, verts := [] }, threads := [], tested := true }
  let b := q.desc
  let w := q.drawOf u.drawNo
  let frags := (qs.map (fun v => v.threads.map (fun t => (v.prim, t)))).flatten
  let m := BitVec.ofNat 64 (2 ^ frags.length - 1)
  let t := newGroup n l q.job q.ctx stamp (wFsRegs w) 0 (BitVec.ofNat 48 (wFsVa w)) m (.fragment pp f.tile u.sub u.drawNo)
  let val := fun (g : Prim → FragThread → Nat) (i : Nat) => match frags[i]? with
    | some (r, t) => BitVec.ofNat 32 (g r t)
    | none => (0 : Word)
  let t := (t.putLanes m 0 (val (fun _ _ => wConstVa w))).putLanes m 1 (val (fun _ _ => wConstVa w / 2 ^ 32 % 2 ^ 16))
  let t := (t.putLanes m 2 (val (fun _ t => t.x + 2 ^ 16 * t.y))).putLanes m 3
    (val (fun _ t => t.cover.toNat + 16 * b2n t.front + 32 * b2n t.helper))
  let t := (t.putLanes m 4 (val (fun _ _ => if q.direct then 0 else f.slot * pSlotBytes b))).putLanes m 5
    (val (fun _ t => if q.direct then 0 else pixelInSub b t.x t.y))
  let t := t.putLanes m 6 (val (fun r _ => r.id))
  let t := (List.range (4 * wVaryings w)).foldl (fun (t : Group) i =>
    t.putLanes m (7 + i) (val (fun r k =>
      let ps := r.verts.map (fun v => v.1)
      let vals := r.verts.map (fun v => (v.2.getD (i / 4) []).getD (i % 4) 0)
      (varyingAt (triOf ps) ps vals (samplePoint 1 k.x k.y 0).1 (samplePoint 1 k.x k.y 0).2).toNat))) t
  { t with frags := frags.map (fun r => r.2), out := List.replicate 64 noOut }

/-- A list without some of its elements, each taken once. -/
def dropQuads (l gone : List Quad) : List Quad := gone.foldl (fun l u => l.erase u) l

def fragmentDispatchDie (pp : Fin 4) (cl : Fin 6) (p x : Die) : Die :=
  match frontPass x pp with
  | none => x
  | some (q0, _) =>
    if q0.haltedOn cl then x else
    let x := (q0.tiles.filter (fun f => decide (f.cl = cl))).foldl (fun y f => serveTile p y pp f.tile) x
    match frontPass x pp with
    | none => x
    | some (q, j) =>
      let fits := fun (u : Quad) =>
        (x.bestPipe { cl := cl, core := coreFin u.sub } (wFsRegs (q.drawOf u.drawNo)) 0).isSome
      let cand := ((q.tiles.filter (fun f => decide (f.cl = cl))).map (fun f => f.quads.map (fun u => (f, u)))).flatten
      match cand.find? (fun c => fits c.2 && !(groupQuads q c.1 c.2.sub c.2.drawNo).isEmpty) with
      | none => x
      | some (f, u) =>
        let qs := groupQuads q f u.sub u.drawNo
        let x := x.placeGroup { cl := cl, core := coreFin u.sub } (wFsRegs (q.drawOf u.drawNo)) 0
          (fun n l stamp => (fragmentGroup q pp f qs n l stamp).numbered j.dispatched)
        (x.updJob q.job Job.oneMore).updFlight pp f.tile (fun g => { g with quads := dropQuads g.quads qs })

def execFragmentGroupDispatch (d : DieId) (p : Fin 4) (cl : Fin 6) (s : State) : Out :=
  nextOn d (fragmentDispatchDie p cl (s.die d.other)) s

/-! ### Loading and storing tiles (R245, R246, R259) -/

/-- Rows of a core's sub-tile that lie in the render area: first pixel, pixels, and the sub-tile row. -/
def subRows (b : List Byte) (tile core : Nat) : List (Nat × Nat × Nat × Nat) :=
  let r := tileRect b tile
  let x0 := r.x0 + core % 4 * pSubW b
  let y0 := r.y0 + core / 4 * pSubH b
  let n := min (pSubW b) (pWidth b - x0)
  (List.range (pSubH b)).filterMap (fun i => if n = 0 ∨ pHeight b ≤ y0 + i then none else some (x0, y0 + i, n, i))

def regionOffset (b : List Byte) (slot i : Nat) : Nat := slot * pSlotBytes b + regionBase b i

/-- Bytes of one row of a sub-tile's region. -/
def rowOffset (b : List Byte) (t : Att) (row : Nat) : Nat := row * pSubW b * pSamples b * t.bpp

/-- The rinse area of a core's region: a tile slot in tile-memory layout. -/
def rinseVa (b : List Byte) (tile core i : Nat) : Nat :=
  pRinseVa b + 16 * pSlotBytes b * tile + pSlotBytes b * core + regionBase b i

/-- One region of a tile slot is initialised. -/
def loadRegion (p x : Die) (q : Pass) (mask : BitVec 16) (c : CoreLoc) (slot tile : Nat) (rinsed : Bool) (i : Nat) (t : Att) : Die × Bool :=
  let b := q.desc
  let m : Master := .stream c q.job
  let o := regionOffset b slot i
  if rinsed then
    match readUnit p x m q.ctx (rinseVa b tile c.core.val i) (regionSize b t) accRead with
    | (x, none) => (x, false)
    | (x, some bs) => (setPartBytes x mask c o bs, true)
  else if t.load = 2 then
    (setPartBytes x mask c o ((List.replicate (pSubPixels b * pSamples b) (t.clear.take t.bpp)).flatten), true)
  else if t.load = 1 then
    let rows := subRows b tile c.core.val
    match readsUnit p x m q.ctx (rows.map (fun r => (pixelVa b t r.1 r.2.1, r.2.2.1 * pSamples b * t.bpp))) with
    | (x, none) => (x, false)
    | (x, some bs) =>
      ((rows.zip bs).foldl (fun y r => setPartBytes y mask c (o + rowOffset b t r.1.2.2.2) r.2) x, true)
  else (x, true)

/-- Every region of a tile's 16 slots, in turn, until one is held by a fault. -/
def eachRegion (b : List Byte) (cl : Fin 6) (x : Die) (f : Die → CoreLoc → Nat → Att → Die × Bool) : Die × Bool :=
  coreIds.foldl (fun (r : Die × Bool) k => (pAtts b).foldl (fun (r : Die × Bool) a =>
    if r.2 then f r.1 { cl := cl, core := k } a.1 a.2 else r) r) (x, true)

/-- A resolved pixel: the mean of its four samples in the attachment's format. -/
def resolvePixel (fmt : Nat) (samples : List Nat) : Nat :=
  let cs := samples.map (colourRead fmt)
  colourWrite fmt 15 0 ((List.range 4).map (fun i => mean4 (cs.map (fun c => c.getD i 0))))

/-- One region of a finished tile is written to its images under STORE. -/
def storeRegion (p x : Die) (q : Pass) (mask : BitVec 16) (c : CoreLoc) (slot tile i : Nat) (t : Att) : Die × Bool :=
  let b := q.desc
  let m : Master := .stream c q.job
  let o := regionOffset b slot i
  let rows := subRows b tile c.core.val
  let bytes := fun (r : Nat × Nat × Nat × Nat) => partBytes x mask c (o + rowOffset b t r.2.2.2) (r.2.2.1 * pSamples b * t.bpp)
  let (x, ok) := if t.stores && !rows.isEmpty then
      writesUnit p x m q.ctx (rows.map (fun r => (pixelVa b t r.1 r.2.1, bytes r)))
    else (x, true)
  if !ok then (x, false)
  else if t.resolves && !rows.isEmpty then
    let px := fun (r : Nat × Nat × Nat × Nat) =>
      ((List.range r.2.2.1).map (fun k =>
        leBytes t.bpp (resolvePixel t.format ((List.range 4).map (fun s => fieldNat (bytes r) ((4 * k + s) * t.bpp) t.bpp))))).flatten
    writesUnit p x m q.ctx (rows.map (fun r => (t.resolveVa + 64 * t.rpitch * r.2.1 + r.1 * t.bpp, px r)))
  else (x, true)

/-- One region of a finished tile is written to the rinse area, in full. -/
def rinseRegion (p x : Die) (q : Pass) (mask : BitVec 16) (c : CoreLoc) (slot tile i : Nat) (t : Att) : Die × Bool :=
  let b := q.desc
  writeUnit p x (.stream c q.job) q.ctx (rinseVa b tile c.core.val i)
    (partBytes x mask c (regionOffset b slot i) (regionSize b t)) accWrite

/-! ### TILE_RENDER -/

def headVa (b : List Byte) (tile : Nat) : Nat := pHamperVa b + 16 * tile

/-- A tile that is rendered in this phase: a listed one in a rinse; at the end every tile but one never listed whose image
already holds its contents (R260). -/
def tileWanted (q : Pass) (count : Nat) (rinsed : Bool) : Bool :=
  if q.phase = .rinse then count != 0
  else count != 0 || rinsed || !((pAtts q.desc).all (fun a => a.2.load == 1 && a.2.store == 1))

def freeTileSlot (q : Pass) (j : Job) (cl : Fin 6) : Option Nat :=
  (List.range (pSlots q.desc (dSteps j.desc))).find? (fun k => !q.tiles.any (fun f => decide (f.cl = cl) && f.slot == k))

/-- The next tile, for the first cluster of the pass with a free slot. -/
def takeTile (p x : Die) (pp : Fin 4) (q : Pass) (j : Job) (cl : Fin 6) (mask : BitVec 16) : Die :=
  if pTiles q.desc ≤ q.nextTile ∨ (inOrder (liveClusters j)).find? (fun c => (freeTileSlot q j c).isSome) ≠ some cl then x else
  match freeTileSlot q j cl with
  | none => x
  | some slot =>
    let tile := q.nextTile
    match readUnit p x (.frontEnd pp) q.ctx (headVa q.desc tile) 16 accRead with
    | (x, none) => x
    | (x, some h) =>
      let first := fieldNat h 0 8 % 2 ^ 44 * 16
      let count := fieldNat h 8 4
      let rinsed := bitOf (fieldNat h 12 4) 0
      if !tileWanted q count rinsed then x.updPass pp (fun q => { q with nextTile := tile + 1 })
      else
        match eachRegion q.desc cl x (fun y c i t => loadRegion p y q mask c slot tile rinsed i t) with
        | (x, false) => x
        | (x, true) =>
          let f : TileFlight :=
            { cl := cl, tile := tile, slot := slot, segVa := first, entry := 0, drawn := 0, listDone := count == 0 || first == 0,
              upTo := 0, quads := [], pendingFrags := [], done := [], nextOrder := 0 }
          x.updPass pp (fun q => { q with nextTile := tile + 1, tiles := q.tiles ++ [f] })

/-- A primitive record as read (R254). -/
def recordPrim (drawNo v : Nat) (b : List Byte) : Prim :=
  let words := fun (o n : Nat) => (List.range n).map (fun i => word32 b (o + 4 * i))
  { drawNo := drawNo, id := fieldNat b 0 4, front := bitOf (fieldNat b 4 4) 0,
    verts := [0, 1, 2].map (fun k =>
      let o := 16 + k * (16 + 16 * v)
      (words o 4, (List.range v).map (fun s => words (o + 16 + 16 * s) 4))) }

/-- The next list entry of a tile is drawn. -/
def drawEntry (p x : Die) (pp : Fin 4) (q : Pass) (f : TileFlight) : Die :=
  let m : Master := .raster f.cl pp
  match readUnit p x m q.ctx (f.segVa + 8 * f.entry) 8 accRead with
  | (x, none) => x
  | (x, some e) =>
    let ref := fieldNat e 0 8 % 2 ^ 44 * 16
    let draw := fieldNat e 0 8 / 2 ^ 44
    if draw = linkMark then
      x.updFlight pp f.tile (fun g => if ref = 0 then { g with listDone := true } else { g with segVa := ref, entry := 0 })
    else
      let w := q.drawOf draw
      match readUnit p x m q.ctx ref (64 + 48 * wVaryings w) accRead with
      | (x, none) => x
      | (x, some b) =>
        let r := recordPrim draw (wVaryings w) b
        let qs := quadsIn q.desc w r f.nextOrder (tileRect q.desc f.tile) (subOfPixel q.desc)
        serveTile p (x.updFlight pp f.tile (fun g =>
          { g.takeQuads w r qs with entry := g.entry + 1, drawn := g.drawn + 1 })) pp f.tile

/-- A tile whose list is drawn and whose fragments are applied is written out. -/
def storeTile (p x : Die) (pp : Fin 4) (q : Pass) (f : TileFlight) (mask : BitVec 16) : Die :=
  let (x, ok) := if q.phase = .rinse then
      match eachRegion q.desc f.cl x (fun y c i t => rinseRegion p y q mask c f.slot f.tile i t) with
      | (x, false) => (x, false)
      | (x, true) => writeUnit p x (.frontEnd pp) q.ctx (headVa q.desc f.tile + 12) (leBytes 4 1) accWrite
    else eachRegion q.desc f.cl x (fun y c i t => storeRegion p y q mask c f.slot f.tile i t)
  if !ok then x else
  ((x.updPass pp (fun q =>
    { q with tiles := q.tiles.filter (fun g => g.tile != f.tile), tilesRendered := q.tilesRendered + 1 })).updJob q.job (fun j =>
    { j with done := j.done + 1 })).count .gfxTileCnt

/-- The raster path of a cluster goes on with a pass: fragments are applied and quads tested; then a finished tile is
stored, or a tile draws its next triangle, or the next tile is taken. -/
def tileRenderDie (pp : Fin 4) (cl : Fin 6) (p x : Die) : Die :=
  match frontPass x pp with
  | none => x
  | some (q0, _) =>
    if x.unitFrozen cl.val || q0.haltedOn cl then x else
    let x := (q0.tiles.filter (fun f => decide (f.cl = cl))).foldl (fun y f => serveTile p y pp f.tile) x
    match frontPass x pp with
    | none => x
    | some (q, j) =>
      if !(decide (q.phase = .tile) || decide (q.phase = .rinse)) || !(liveClusters j).contains cl then x else
      match x.part? q.job cl with
      | none => x
      | some r =>
        let mine := q.tiles.filter (fun f => decide (f.cl = cl))
        match mine.find? (fun f => f.listDone && f.settled), mine.find? (fun f => !f.listDone) with
        | some f, _ => storeTile p x pp q f r.mask
        | none, some f => drawEntry p x pp q f
        | none, none => takeTile p x pp q j cl r.mask

def execTileRender (d : DieId) (p : Fin 4) (cl : Fin 6) (s : State) : Out := nextOn d (tileRenderDie p cl (s.die d.other)) s

/-! ### RINSE (R259) -/

/-- Steps 4 and 5: every listed tile is in the rinse area; the hamper is emptied and binning resumes. -/
def rinseDie (pp : Fin 4) (p x : Die) : Die :=
  match frontPass x pp with
  | none => x
  | some (q, _) =>
    if decide (q.phase ≠ .rinse) || decide (q.nextTile < pTiles q.desc) || !q.tiles.isEmpty then x else
    thenOk (writeList p x (.frontEnd pp) q.ctx (q.tails.map (fun t => (headVa q.desc t.1, List.replicate 12 0)))) (fun x =>
      thenOk (returnChunks p x pp q) (fun x =>
        let g : Pass → Pass := fun q =>
          { q.enter .binning with segment := q.segment + 1, rinses := q.rinses + 1, tails := [], nextChunk := headChunks q.desc,
                                  chunksUsed := headChunks q.desc, vChunk := 0, vOfs := 0, lChunk := 0, lSeg := 0, nextTile := 0 }
        (x.updPass pp g).count .gfxRinseCnt))

def execRinse (d : DieId) (p : Fin 4) (s : State) : Out := nextOn d (rinseDie p (s.die d.other)) s

/-! ### PASS_COMPLETE (R277) -/

/-- The statistics record. -/
def statBytes (q : Pass) : List Byte :=
  leBytes 8 q.primsIn ++ leBytes 8 q.primsBinned ++ leBytes 8 q.primsCulled ++ leBytes 4 q.tilesRendered ++ leBytes 4 q.rinses ++
    leBytes 4 q.extGranted ++ leBytes 4 q.extRefused ++ leBytes 4 q.peak ++ leBytes 4 (q.rinses + 1) ++
    leBytes 8 q.samplesPassed ++ leBytes 8 0

def passCompleteDie (pp : Fin 4) (p x : Die) : Die :=
  match frontPass x pp with
  | none => x
  | some (q, _) =>
    if q.desc.isEmpty || !q.drawn || x.sh.groups.any (fun t => t.job == q.job) || !x.storesDone q.job then x else
    let (x, ok) := if pStatVa q.desc = 0 then (x, true) else writeUnit p x (.frontEnd pp) q.ctx (pStatVa q.desc) (statBytes q) accWrite
    if !ok then x else
    match returnChunks p x pp q with
    | (x, false) => x
    | (x, true) => finishJob p (if q.direct then x.count .gfxDirectPassCnt else x) q.job

def execPassComplete (d : DieId) (p : Fin 4) (s : State) : Out := nextOn d (passCompleteDie p (s.die d.other)) s

end Sys2Proof.Machine
end

