-- ==== Sys2Proof/Machine/Dispatch.lean ====
section
/-! DEFINITION. Sys2Proof/Machine/Dispatch.lean: which meaning each command has, one arm per constructor. -/
namespace Sys2Proof.Machine

def exec (i : Instr) (s : State) : Host.Outcome State Fault Refusal :=
  match i with
  | .commandPacketReceive d pkt => Sys2Proof.Machine.execCommandPacketReceive d pkt s
  | .commandPacketTake d => Sys2Proof.Machine.execCommandPacketTake d s
  | .replyInToken d => Sys2Proof.Machine.execReplyInToken d s
  | .usbLinkLoss d => Sys2Proof.Machine.execUsbLinkLoss d s
  | .dataPacketOut d ch pkt => Sys2Proof.Machine.execDataPacketOut d ch pkt s
  | .dataPacketIn d ch => Sys2Proof.Machine.execDataPacketIn d ch s
  | .dataTimeout d ch => Sys2Proof.Machine.execDataTimeout d ch s
  | .ping d => Sys2Proof.Machine.execPing d s
  | .getStatus d => Sys2Proof.Machine.execGetStatus d s
  | .cfgRead d => Sys2Proof.Machine.execCfgRead d s
  | .cfgWrite d => Sys2Proof.Machine.execCfgWrite d s
  | .press d => Sys2Proof.Machine.execPress d s
  | .faultRead d => Sys2Proof.Machine.execFaultRead d s
  | .openContext d => Sys2Proof.Machine.execOpenContext d s
  | .closeContext d => Sys2Proof.Machine.execCloseContext d s
  | .suspendContext d => Sys2Proof.Machine.execSuspendContext d s
  | .resumeContext d => Sys2Proof.Machine.execResumeContext d s
  | .grantGranules d => Sys2Proof.Machine.execGrantGranules d s
  | .reclaimGranules d => Sys2Proof.Machine.execReclaimGranules d s
  | .vmConfig d => Sys2Proof.Machine.execVmConfig d s
  | .holdEnter d => Sys2Proof.Machine.execHoldEnter d s
  | .holdExit d => Sys2Proof.Machine.execHoldExit d s
  | .failover d => Sys2Proof.Machine.execFailover d s
  | .resetDevice d => Sys2Proof.Machine.execResetDevice d s
  | .resetDeviceBegin d => Sys2Proof.Machine.execResetDeviceBegin d s
  | .attest d => Sys2Proof.Machine.execAttest d s
  | .loadImage d => Sys2Proof.Machine.execLoadImage d s
  | .lcTransition d => Sys2Proof.Machine.execLcTransition d s
  | .romLoad d => Sys2Proof.Machine.execRomLoad d s
  | .writeMem d ctx => Sys2Proof.Machine.execWriteMem d ctx s
  | .readMem d ctx => Sys2Proof.Machine.execReadMem d ctx s
  | .submit d ctx => Sys2Proof.Machine.execSubmit d ctx s
  | .cancelJob d ctx => Sys2Proof.Machine.execCancelJob d ctx s
  | .fenceSignal d ctx => Sys2Proof.Machine.execFenceSignal d ctx s
  | .fenceRead d ctx => Sys2Proof.Machine.execFenceRead d ctx s
  | .fenceWait d ctx => Sys2Proof.Machine.execFenceWait d ctx s
  | .fenceWaitPoll d ctx => Sys2Proof.Machine.execFenceWaitPoll d ctx s
  | .fenceWaitTimeout d ctx => Sys2Proof.Machine.execFenceWaitTimeout d ctx s
  | .ctxStatus d ctx => Sys2Proof.Machine.execCtxStatus d ctx s
  | .cmdPairCfgWrite d v => Sys2Proof.Machine.execCmdPairCfgWrite d v s
  | .bridgeSlotReceive d cls slot => Sys2Proof.Machine.execBridgeSlotReceive d cls slot s
  | .aliveWireToggle d => Sys2Proof.Machine.execAliveWireToggle d s
  | .partnerLost d => Sys2Proof.Machine.execPartnerLost d s
  | .partnerSafeAnnounce d => Sys2Proof.Machine.execPartnerSafeAnnounce d s
  | .takeoverOutputOwner d => Sys2Proof.Machine.execTakeoverOutputOwner d s
  | .takeoverJobRestart d => Sys2Proof.Machine.execTakeoverJobRestart d s
  | .outputOwnerRelease d => Sys2Proof.Machine.execOutputOwnerRelease d s
  | .pairCheckDone d slot => Sys2Proof.Machine.execPairCheckDone d slot s
  | .pairTagsReceive d => Sys2Proof.Machine.execPairTagsReceive d s
  | .pairCompareTimeout d item => Sys2Proof.Machine.execPairCompareTimeout d item s
  | .pairCfgConfirm d => Sys2Proof.Machine.execPairCfgConfirm d s
  | .deadlineProgressExchange d => Sys2Proof.Machine.execDeadlineProgressExchange d s
  | .spareInitialCopyDone d => Sys2Proof.Machine.execSpareInitialCopyDone d s
  | .mirrorWrite d => Sys2Proof.Machine.execMirrorWrite d s
  | .movs d g w => Sys2Proof.Machine.execMovs d g w s
  | .nop d g w => Sys2Proof.Machine.execNop d g w s
  | .nopFold d g w => Sys2Proof.Machine.execNopFold d g w s
  | .bra d g w => Sys2Proof.Machine.execBra d g w s
  | .brx d g w => Sys2Proof.Machine.execBrx d g w s
  | .callInstr d g w => Sys2Proof.Machine.execCallInstr d g w s
  | .exitInstr d g w => Sys2Proof.Machine.execExitInstr d g w s
  | .endProg d g w => Sys2Proof.Machine.execEndProg d g w s
  | .add d g w => Sys2Proof.Machine.execAdd d g w s
  | .sub d g w => Sys2Proof.Machine.execSub d g w s
  | .mul d g w => Sys2Proof.Machine.execMul d g w s
  | .mulhi d g w => Sys2Proof.Machine.execMulhi d g w s
  | .shl d g w => Sys2Proof.Machine.execShl d g w s
  | .shr d g w => Sys2Proof.Machine.execShr d g w s
  | .andInstr d g w => Sys2Proof.Machine.execAndInstr d g w s
  | .orInstr d g w => Sys2Proof.Machine.execOrInstr d g w s
  | .xorInstr d g w => Sys2Proof.Machine.execXorInstr d g w s
  | .notInstr d g w => Sys2Proof.Machine.execNotInstr d g w s
  | .minInstr d g w => Sys2Proof.Machine.execMinInstr d g w s
  | .maxInstr d g w => Sys2Proof.Machine.execMaxInstr d g w s
  | .sel d g w => Sys2Proof.Machine.execSel d g w s
  | .mov d g w => Sys2Proof.Machine.execMov d g w s
  | .setp d g w => Sys2Proof.Machine.execSetp d g w s
  | .plop d g w => Sys2Proof.Machine.execPlop d g w s
  | .fadd d g half w => Sys2Proof.Machine.execFadd d g half w s
  | .fsub d g half w => Sys2Proof.Machine.execFsub d g half w s
  | .fmul d g half w => Sys2Proof.Machine.execFmul d g half w s
  | .ffma d g half w => Sys2Proof.Machine.execFfma d g half w s
  | .fmin d g half w => Sys2Proof.Machine.execFmin d g half w s
  | .fmax d g half w => Sys2Proof.Machine.execFmax d g half w s
  | .fabs d g half w => Sys2Proof.Machine.execFabs d g half w s
  | .fneg d g half w => Sys2Proof.Machine.execFneg d g half w s
  | .fsetp d g half w => Sys2Proof.Machine.execFsetp d g half w s
  | .cvt d g w => Sys2Proof.Machine.execCvt d g w s
  | .pack d g w => Sys2Proof.Machine.execPack d g w s
  | .unpack d g w => Sys2Proof.Machine.execUnpack d g w s
  | .fn8to4 d g w => Sys2Proof.Machine.execFn8to4 d g w s
  | .rcp d g w => Sys2Proof.Machine.execRcp d g w s
  | .rsq d g w => Sys2Proof.Machine.execRsq d g w s
  | .lg2 d g w => Sys2Proof.Machine.execLg2 d g w s
  | .ex2 d g w => Sys2Proof.Machine.execEx2 d g w s
  | .ld d g w => Sys2Proof.Machine.execLd d g w s
  | .lds d g w => Sys2Proof.Machine.execLds d g w s
  | .st d g w => Sys2Proof.Machine.execSt d g w s
  | .pf d g w => Sys2Proof.Machine.execPf d g w s
  | .ldc d g par w => Sys2Proof.Machine.execLdc d g par w s
  | .stc d g par w => Sys2Proof.Machine.execStc d g par w s
  | .fenceInstr d g w => Sys2Proof.Machine.execFenceInstr d g w s
  | .fenceComplete d g => Sys2Proof.Machine.execFenceComplete d g s
  | .tld d g par w => Sys2Proof.Machine.execTld d g par w s
  | .tst d g par w => Sys2Proof.Machine.execTst d g par w s
  | .ilkAcq d g w => Sys2Proof.Machine.execIlkAcq d g w s
  | .ilkRel d g w => Sys2Proof.Machine.execIlkRel d g w s
  | .atomAdd d g w => Sys2Proof.Machine.execAtomAdd d g w s
  | .atomSmin d g w => Sys2Proof.Machine.execAtomSmin d g w s
  | .atomUmin d g w => Sys2Proof.Machine.execAtomUmin d g w s
  | .atomSmax d g w => Sys2Proof.Machine.execAtomSmax d g w s
  | .atomUmax d g w => Sys2Proof.Machine.execAtomUmax d g w s
  | .atomAnd d g w => Sys2Proof.Machine.execAtomAnd d g w s
  | .atomOr d g w => Sys2Proof.Machine.execAtomOr d g w s
  | .atomXor d g w => Sys2Proof.Machine.execAtomXor d g w s
  | .atomFadd d g w => Sys2Proof.Machine.execAtomFadd d g w s
  | .xchg d g w => Sys2Proof.Machine.execXchg d g w s
  | .cas d g w => Sys2Proof.Machine.execCas d g w s
  | .atomicReply d g => Sys2Proof.Machine.execAtomicReply d g s
  | .bar d g w => Sys2Proof.Machine.execBar d g w s
  | .barw d g w => Sys2Proof.Machine.execBarw d g w s
  | .shfl d g w => Sys2Proof.Machine.execShfl d g w s
  | .maska d g w => Sys2Proof.Machine.execMaska d g w s
  | .maskx d g w => Sys2Proof.Machine.execMaskx d g w s
  | .ballot d g w => Sys2Proof.Machine.execBallot d g w s
  | .mmaI8i8 d g w => Sys2Proof.Machine.execMmaI8i8 d g w s
  | .mmaI8i4 d g w => Sys2Proof.Machine.execMmaI8i4 d g w s
  | .mmaI4i8 d g w => Sys2Proof.Machine.execMmaI4i8 d g w s
  | .mmaI4i4 d g w => Sys2Proof.Machine.execMmaI4i4 d g w s
  | .mmaF8f8 d g w => Sys2Proof.Machine.execMmaF8f8 d g w s
  | .mmaF8f4 d g w => Sys2Proof.Machine.execMmaF8f4 d g w s
  | .mmaF4f8 d g w => Sys2Proof.Machine.execMmaF4f8 d g w s
  | .mmaF4f4 d g w => Sys2Proof.Machine.execMmaF4f4 d g w s
  | .mmaH d g w => Sys2Proof.Machine.execMmaH d g w s
  | .movaR d g w => Sys2Proof.Machine.execMovaR d g w s
  | .movaWI32 d g w => Sys2Proof.Machine.execMovaWI32 d g w s
  | .movaWF32 d g w => Sys2Proof.Machine.execMovaWF32 d g w s
  | .zacc d g w => Sys2Proof.Machine.execZacc d g w s
  | .scw d g w => Sys2Proof.Machine.execScw d g w s
  | .scr d g w => Sys2Proof.Machine.execScr d g w s
  | .mstatRd d g w => Sys2Proof.Machine.execMstatRd d g w s
  | .mstatClr d g w => Sys2Proof.Machine.execMstatClr d g w s
  | .quantInt8 d g w => Sys2Proof.Machine.execQuantInt8 d g w s
  | .quantInt4 d g w => Sys2Proof.Machine.execQuantInt4 d g w s
  | .quantFn8 d g w => Sys2Proof.Machine.execQuantFn8 d g w s
  | .quantFn4 d g w => Sys2Proof.Machine.execQuantFn4 d g w s
  | .quantBinary16 d g w => Sys2Proof.Machine.execQuantBinary16 d g w s
  | .sample d g w => Sys2Proof.Machine.execSample d g w s
  | .fetchTexel d g w => Sys2Proof.Machine.execFetchTexel d g w s
  | .outPos d g w => Sys2Proof.Machine.execOutPos d g w s
  | .outVar d g w => Sys2Proof.Machine.execOutVar d g w s
  | .outCol d g w => Sys2Proof.Machine.execOutCol d g w s
  | .outDepth d g w => Sys2Proof.Machine.execOutDepth d g w s
  | .discard d g w => Sys2Proof.Machine.execDiscard d g w s
  | .groupDispatch d slot => Sys2Proof.Machine.execGroupDispatch d slot s
  | .roundRobinRotation d c pipe port => Sys2Proof.Machine.execRoundRobinRotation d c pipe port s
  | .l1LineFill d c mr par => Sys2Proof.Machine.execL1LineFill d c mr par s
  | .l1MergeDrain d c => Sys2Proof.Machine.execL1MergeDrain d c s
  | .l1MergeWriteDone d c par => Sys2Proof.Machine.execL1MergeWriteDone d c par s
  | .l2LineFill d sl mr fails par => Sys2Proof.Machine.execL2LineFill d sl mr fails par s
  | .l2MergeDrain d sl => Sys2Proof.Machine.execL2MergeDrain d sl s
  | .l2MergeCommit d sl par fails => Sys2Proof.Machine.execL2MergeCommit d sl par fails s
  | .sideBufferFill d buf => Sys2Proof.Machine.execSideBufferFill d buf s
  | .stepZeroDone d cl => Sys2Proof.Machine.execStepZeroDone d cl s
  | .tlmStarveTake d c who pipe => Sys2Proof.Machine.execTlmStarveTake d c who pipe s
  | .l2CarveApply d sl => Sys2Proof.Machine.execL2CarveApply d sl s
  | .passStart d p => Sys2Proof.Machine.execPassStart d p s
  | .drawCheck d p => Sys2Proof.Machine.execDrawCheck d p s
  | .vertexGroupDispatch d p => Sys2Proof.Machine.execVertexGroupDispatch d p s
  | .triangleBin d p => Sys2Proof.Machine.execTriangleBin d p s
  | .extAnswer d p grant => Sys2Proof.Machine.execExtAnswer d p grant s
  | .extWaitTimeout d p => Sys2Proof.Machine.execExtWaitTimeout d p s
  | .rinse d p => Sys2Proof.Machine.execRinse d p s
  | .tileRender d p cl => Sys2Proof.Machine.execTileRender d p cl s
  | .fragmentGroupDispatch d p cl => Sys2Proof.Machine.execFragmentGroupDispatch d p cl s
  | .passComplete d p => Sys2Proof.Machine.execPassComplete d p s
  | .frameBoundary d p => Sys2Proof.Machine.execFrameBoundary d p s
  | .layerConfigFix d p => Sys2Proof.Machine.execLayerConfigFix d p s
  | .frameVerdict d p => Sys2Proof.Machine.execFrameVerdict d p s
  | .frameStartMessage d p => Sys2Proof.Machine.execFrameStartMessage d p s
  | .layerLineFetch d p line => Sys2Proof.Machine.execLayerLineFetch d p line s
  | .fetchUnderrun d p layer => Sys2Proof.Machine.execFetchUnderrun d p layer s
  | .writebackFrameDone d p => Sys2Proof.Machine.execWritebackFrameDone d p s
  | .pipePressApplyDisabled d p => Sys2Proof.Machine.execPipePressApplyDisabled d p s
  | .pixelPllRelock d p => Sys2Proof.Machine.execPixelPllRelock d p s
  | .jobWaitPoll d slot => Sys2Proof.Machine.execJobWaitPoll d slot s
  | .jobStart d slot => Sys2Proof.Machine.execJobStart d slot s
  | .preemptWaitExpiry d slot => Sys2Proof.Machine.execPreemptWaitExpiry d slot s
  | .shareFold d slot cl => Sys2Proof.Machine.execShareFold d slot cl s
  | .foldDone d slot cl => Sys2Proof.Machine.execFoldDone d slot cl s
  | .shareUnfold d slot cl => Sys2Proof.Machine.execShareUnfold d slot cl s
  | .foldLate d g => Sys2Proof.Machine.execFoldLate d g s
  | .copyUnit d e => Sys2Proof.Machine.execCopyUnit d e s
  | .jobWorkDone d slot => Sys2Proof.Machine.execJobWorkDone d slot s
  | .jobEndSequence d slot => Sys2Proof.Machine.execJobEndSequence d slot s
  | .deadlineCheckpoint d slot => Sys2Proof.Machine.execDeadlineCheckpoint d slot s
  | .deadlineExpiry d slot => Sys2Proof.Machine.execDeadlineExpiry d slot s
  | .parityRestart d g what => Sys2Proof.Machine.execParityRestart d g what s
  | .replay d fid => Sys2Proof.Machine.execReplay d fid s
  | .replayWrung d fid => Sys2Proof.Machine.execReplayWrung d fid s
  | .kill d fid => Sys2Proof.Machine.execKill d fid s
  | .invAll d => Sys2Proof.Machine.execInvAll d s
  | .invContext d ctx => Sys2Proof.Machine.execInvContext d ctx s
  | .invVm d vm => Sys2Proof.Machine.execInvVm d vm s
  | .invRange d ctx pages => Sys2Proof.Machine.execInvRange d ctx pages s
  | .ownShareWordWrite d word v => Sys2Proof.Machine.execOwnShareWordWrite d word v s
  | .migrationFillDone d ctx page reply => Sys2Proof.Machine.execMigrationFillDone d ctx page reply s
  | .darnerReport d => Sys2Proof.Machine.execDarnerReport d s
  | .darnerRecordClose d place => Sys2Proof.Machine.execDarnerRecordClose d place s
  | .heldRecordEnqueue d => Sys2Proof.Machine.execHeldRecordEnqueue d s
  | .ownEntryParityRepair d granule copyOk => Sys2Proof.Machine.execOwnEntryParityRepair d granule copyOk s
  | .laneLock d l lane hdrs => Sys2Proof.Machine.execLaneLock d l lane hdrs s
  | .trainingBlockReceive d l blk => Sys2Proof.Machine.execTrainingBlockReceive d l blk s
  | .linkTrainProgress d l found => Sys2Proof.Machine.execLinkTrainProgress d l found s
  | .linkTrainTimeout d l => Sys2Proof.Machine.execLinkTrainTimeout d l s
  | .linkRetrain d l => Sys2Proof.Machine.execLinkRetrain d l s
  | .linkDown d l cause => Sys2Proof.Machine.execLinkDown d l cause s
  | .flitReceive d l flit blockErr => Sys2Proof.Machine.execFlitReceive d l flit blockErr s
  | .linkControlBlock d l blk => Sys2Proof.Machine.execLinkControlBlock d l blk s
  | .linkControlLoss d l => Sys2Proof.Machine.execLinkControlLoss d l s
  | .packetRoute d src => Sys2Proof.Machine.execPacketRoute d src s
  | .ringPoll d => Sys2Proof.Machine.execRingPoll d s
  | .recordIssue d ctx => Sys2Proof.Machine.execRecordIssue d ctx s
  | .remoteTargetOp d => Sys2Proof.Machine.execRemoteTargetOp d s
  | .remoteReply d => Sys2Proof.Machine.execRemoteReply d s
  | .remoteTimeout d tag => Sys2Proof.Machine.execRemoteTimeout d tag s
  | .wringerBlock d e => Sys2Proof.Machine.execWringerBlock d e s
  | .wringerYield d e => Sys2Proof.Machine.execWringerYield d e s
  | .refLost d => Sys2Proof.Machine.execRefLost d s
  | .arbWindowEnd d arb ready => Sys2Proof.Machine.execArbWindowEnd d arb ready s
  | .emergencyGrant d arb holding => Sys2Proof.Machine.execEmergencyGrant d arb holding s
  | .arbWatchdog d arb holder => Sys2Proof.Machine.execArbWatchdog d arb holder s
  | .pressApply d u => Sys2Proof.Machine.execPressApply d u s
  | .pressAck d u => Sys2Proof.Machine.execPressAck d u s
  | .pressTimeout d => Sys2Proof.Machine.execPressTimeout d s
  | .boot d => Sys2Proof.Machine.execBoot d s
  | .tamper d cause => Sys2Proof.Machine.execTamper d cause s
  | .imageLoadDone d readOk image => Sys2Proof.Machine.execImageLoadDone d readOk image s
  | .extest => Sys2Proof.Machine.execExtest s
  | .idcode => Sys2Proof.Machine.execIdcode s
  | .samplePreload => Sys2Proof.Machine.execSamplePreload s
  | .dbgChallenge sel => Sys2Proof.Machine.execDbgChallenge sel s
  | .dbgResponse resp => Sys2Proof.Machine.execDbgResponse resp s
  | .dbgAccess op => Sys2Proof.Machine.execDbgAccess op s
  | .bypass => Sys2Proof.Machine.execBypass s
  | .dramTrainingDone d res => Sys2Proof.Machine.execDramTrainingDone d res s
  | .dramRefresh d ch => Sys2Proof.Machine.execDramRefresh d ch s
  | .fillWipeDone d => Sys2Proof.Machine.execFillWipeDone d s
  | .usbLowPowerRequest d req => Sys2Proof.Machine.execUsbLowPowerRequest d req s
  | .usbReconnect d speed => Sys2Proof.Machine.execUsbReconnect d speed s
  | .hpdChange d p ev => Sys2Proof.Machine.execHpdChange d p ev s
  | .dpLinkTrain d p trains => Sys2Proof.Machine.execDpLinkTrain d p trains s
  | .csiPacket d p hdr => Sys2Proof.Machine.execCsiPacket d p hdr s
  | .csiFrameStart d p => Sys2Proof.Machine.execCsiFrameStart d p s
  | .csiLine d p payload crcOk overflow => Sys2Proof.Machine.execCsiLine d p payload crcOk overflow s
  | .csiFrameEnd d p => Sys2Proof.Machine.execCsiFrameEnd d p s
  | .csiLineWatchdog d p => Sys2Proof.Machine.execCsiLineWatchdog d p s
  | .csiFrameWatchdog d p => Sys2Proof.Machine.execCsiFrameWatchdog d p s
  | .tdmBlockDone d p samples => Sys2Proof.Machine.execTdmBlockDone d p samples s
  | .tdmClockLoss d p bclk fsync => Sys2Proof.Machine.execTdmClockLoss d p bclk fsync s
  | .tdmResume d p => Sys2Proof.Machine.execTdmResume d p s
  | .ufsXferGo d v => Sys2Proof.Machine.execUfsXferGo d v s
  | .ufsXferDone d readOk data => Sys2Proof.Machine.execUfsXferDone d readOk data s
  | .xspErase d => Sys2Proof.Machine.execXspErase d s
  | .xspProgram d => Sys2Proof.Machine.execXspProgram d s
  | .xspRead d => Sys2Proof.Machine.execXspRead d s
  | .xspBusyTimeout d => Sys2Proof.Machine.execXspBusyTimeout d s
  | .entdaa d addr => Sys2Proof.Machine.execEntdaa d addr s
  | .setdasa d static addr => Sys2Proof.Machine.execSetdasa d static addr s
  | .rstdaa d => Sys2Proof.Machine.execRstdaa d s
  | .getpid d => Sys2Proof.Machine.execGetpid d s
  | .getbcr d => Sys2Proof.Machine.execGetbcr d s
  | .getdcr d => Sys2Proof.Machine.execGetdcr d s
  | .getstatus d => Sys2Proof.Machine.execGetstatus d s
  | .enec d => Sys2Proof.Machine.execEnec d s
  | .disec d => Sys2Proof.Machine.execDisec d s
  | .i3cPrivateWrite d bytes => Sys2Proof.Machine.execI3cPrivateWrite d bytes s
  | .i3cPrivateRead d words => Sys2Proof.Machine.execI3cPrivateRead d words s
  | .telemetrySnapshot d => Sys2Proof.Machine.execTelemetrySnapshot d s
  | .healthyRefreshTimeout d => Sys2Proof.Machine.execHealthyRefreshTimeout d s
  | .mtxKmacLoRead d => Sys2Proof.Machine.execMtxKmacLoRead d s
  | .csiFrameLoRead d p => Sys2Proof.Machine.execCsiFrameLoRead d p s
  | .pwrSlotLoRead d => Sys2Proof.Machine.execPwrSlotLoRead d s
  | .pwrGatedLoRead d => Sys2Proof.Machine.execPwrGatedLoRead d s
  | .resetSource src => Sys2Proof.Machine.execResetSource src s
  | .rootPllLock d => Sys2Proof.Machine.execRootPllLock d s
  | .sramInitDone d => Sys2Proof.Machine.execSramInitDone d s
  | .startupReady d => Sys2Proof.Machine.execStartupReady d s
  | .powerCapStep d mw => Sys2Proof.Machine.execPowerCapStep d mw s
  | .thermalSample d readings => Sys2Proof.Machine.execThermalSample d readings s
  | .thermalTrip d hot => Sys2Proof.Machine.execThermalTrip d hot s
  | .ctrlParity d what => Sys2Proof.Machine.execCtrlParity d what s
  | .cfgParity d addr shadow => Sys2Proof.Machine.execCfgParity d addr shadow s
  | .xspCmdDone d ok => Sys2Proof.Machine.execXspCmdDone d ok s
  | .unfoldDone d slot cl => Sys2Proof.Machine.execUnfoldDone d slot cl s
  | .pairedPipePressAck p => Sys2Proof.Machine.execPairedPipePressAck p s
  | .pairedDeadlineDecision slot => Sys2Proof.Machine.execPairedDeadlineDecision slot s
  | .l2CarveZeroDone d sl => Sys2Proof.Machine.execL2CarveZeroDone d sl s
  | .powerOff d => Sys2Proof.Machine.execPowerOff d s

end Sys2Proof.Machine
end

