-- ==== Sys2Proof/Safety.lean ====
section
/-! DEFINITION. Sys2Proof/Safety.lean: what a safe run is, and the words that claims use: the block never stops, its queue
holds well-formed commands, and the conditions under which a command has its effect. -/
namespace Sys2Proof.Machine

/-- The command answers a next state. -/
def Completes (c : Instr) (s : State) : Prop := ∃ t, exec c s = .next t

/-- The instruction codes of R521. -/
def tapCodes : List Byte := [0x00, 0x01, 0x02, 0x10, 0x11, 0x12, 0xFF]

/-- What every step keeps: each die stays the die it is, every command that waits is well formed, and the instruction
register of the TAP holds a code of R521. -/
structure State.Inv (s : State) : Prop where
  dieA : s.a.id = .a
  dieB : s.b.id = .b
  queue : ∀ c ∈ s.pending, c.wellFormed = true
  tap : s.tap.ir ∈ tapCodes

/-! ### The command processor -/

/-- It is the turn of a command of a context, and nothing refuses it (R66, R71): the command processor runs, the command
is the next of its context, has not started, is of this opcode and legal, and its context has not been closed. -/
def turn (s : State) (d : DieId) (ctx : Nat) (op : Op) (c : PendCmd) : Bool :=
  decide ((s.die d).headCmd ctx = some c) && (s.die d).cmdOn && decide (c.phase = .waiting) &&
  decide (opOf (pktOp c.pkt) = some op) && !c.closed &&
  opLegal (s.die d.other) (s.die d) op c.pkt && ctxLegal (s.die d) op ctx c.pkt

/-! ### Shader groups -/

/-- The die once a group's next instruction has been fetched through both guards (R359). -/
def fetched (s : State) (d : DieId) (t : Group) : Die := (fetchCheck (s.die d.other) (s.die d) t).1

/-- A group stands ready for an instruction on a port (R140), and its fetch passes both guards. -/
def groupReady (s : State) (d : DieId) (g : GrpLoc) (port : Port) (t : Group) : Bool :=
  decide ((s.die d).group? g = some t) && (s.die d).mayIssue t && !(port == .mem && t.fence.isSome) &&
  (fetchCheck (s.die d.other) (s.die d) t).2

/-- The instruction is encoded as R167 asks, its registers exist, and none of them awaits a load (R139, R140). -/
def planRuns (t : Group) (w : InstrBits) (q : Plan) : Bool :=
  !t.busy q && !q.wait && !q.bad && predLegal w && q.inRange t

/-- The die as an instruction's effect finds it: fetched, and with its issue counted (R142). -/
def atIssue (s : State) (d : DieId) (port : Port) (t : Group) : Die := (fetched s d t).issued t port

/-- What an instruction leaves that brought its die to `y` and its group to `u`: the group stands at the next instruction,
reconverged (R146). -/
def onward (s : State) (d : DieId) (y : Die) (t u : Group) : State :=
  s.setDie d (settleGroup y { u with wait := 0, pc := t.pc + 8 })

/-- What an instruction leaves that changed its group alone. -/
def goesOn (s : State) (d : DieId) (port : Port) (t u : Group) : State := onward s d (atIssue s d port t) t u

end Sys2Proof.Machine
end

