-- ==== Sys2Proof/Certificates/Slice0/Obligations.lean ====
section
/-! DEFINITION. Sys2Proof/Certificates/Slice0/Obligations.lean: the statements about the block, for the provers. -/
open Sys2Proof Sys2Proof.Machine

/-- A step runs the command at the front of the queue on the state whose queue is the rest. -/
def Obligations.StepRunsTheFrontCommand : Prop :=
  ∀ (s : State) (c : Instr) (rest : List Instr),
    step { s with pending := c :: rest } = exec c { s with pending := rest }

/-- Every step takes exactly one command from the queue, in order, and puts none into it. On an empty queue the block
idles for one local µs (the model's choice, log entry 1): the step answers a next state with an empty queue. Local
time goes on by 400 SCLK cycles on a die whose core domains run and that is in neither HOLD nor SAFE, and stands still
on one whose core domains do not run. Every register but three counters of cycles waited keeps its value, and the
shadows, the command processor, the presses, memory, tile memory, translation, the fault unit, the jobs, the links,
the flash and the input ports of both dies stay. -/
def Obligations.AStepTakesOneCommandOrIdles : Prop :=
  (∀ s t : State, step s = .next t → t.pending = s.pending.tail) ∧
  (∀ s : State, s.pending = [] → ∃ t, step s = .next t ∧ t.pending = [] ∧ t.tap = s.tap ∧
    ∀ d, let x := s.die d
      let y := t.die d
      (x.running = true → x.dev ≠ .hold → x.dev ≠ .safe → y.time = x.time + 400) ∧
      (x.running = false → y.time = x.time) ∧
      (∀ r is, (∀ q ∈ [Reg.locMrFullCnt, .l2cMrFullCnt, .gfxIlkWaitCnt], r.addr is ≠ q.addr []) → y.regI r is = x.regI r is) ∧
      y.shadow = x.shadow ∧ y.cmd = x.cmd ∧ y.press = x.press ∧ y.dram = x.dram ∧ y.xlt = x.xlt ∧ y.flt = x.flt ∧
      y.jobs = x.jobs ∧ y.cache = x.cache ∧ y.torus = x.torus ∧ y.sec = x.sec ∧ y.io.flash = x.io.flash ∧
      y.io.csi = x.io.csi ∧ y.io.tdm = x.io.tdm ∧ y.io.ufs = x.io.ufs ∧ y.sh.tlm = x.sh.tlm)

/-- The block never stops: whatever the command and the state, a next state is answered; misuse is reported by the
device. -/
def Obligations.EveryCommandAnswersANextState : Prop := ∀ (c : Instr) (s : State), ∃ t, exec c s = .next t

/-- What every step keeps, from every state that has it: each die stays the die it is wired to be (DIE of R85), every
waiting command is well formed, and the TAP holds an instruction code of R521. -/
def Obligations.StepKeepsTheBlockInvariant : Prop := ∀ s t : State, s.Inv → step s = .next t → t.Inv

/-- The state after reset has the invariant that every step keeps. -/
def Obligations.ResetHoldsTheBlockInvariant : Prop := State.reset.Inv

/-- What reset leaves on each die, as R566, R567, R67, R454, R467 and R24 give it: every register at the reset value
of its field map, every memory zero, local time 0, no context, no job, no group and no partition, the pair in SPLIT
mode, every link disabled, every pipe and port off, epoch 0, and the next expected number of the device stream 1. -/
def Obligations.ResetLeavesTheStatedValues : Prop :=
  ∀ d, let x := State.reset.die d
    (∀ r is, x.regI r is = r.info.reset ∧ x.shadowI r is = r.info.reset) ∧
    (∀ pa, Mem.byte x.dram.cells pa = 0 ∧ Mem.byte x.sh.tlm pa = 0 ∧ Mem.byte x.cache.l2carve pa = 0) ∧
    x.dev = .rom ∧ x.time = 0 ∧ x.cmd.ctxs = [] ∧ x.cmd.fifo = [] ∧ x.cmd.replies = [] ∧ x.cmd.pool = [] ∧
    x.cmd.stream0.expected = 1 ∧ x.press.epoch = 0 ∧ x.press.activeEpoch = 0 ∧ x.jobs.list = [] ∧ x.sh.groups = [] ∧
    x.sh.parts = [] ∧ x.pair.mode = 0 ∧ x.pair.pulls = none ∧ x.power.healthy = false ∧ x.io.usb.connected = false ∧
    x.io.ufs.linkUp = false ∧ (∀ l : Fin 3, (x.torus.links[l]).state = .disabled) ∧ (∀ p : Fin 4, (x.pipes[p]).en = false) ∧
    x.flt.queue = [] ∧ x.sec.models = []

/-- While the USB port exchanges packets: the command FIFO of 256 packets takes a packet whole at its end and
acknowledges it; when the FIFO is full endpoint 0x01 refuses the packet, the FIFO stays, and CMD_NAK_CNT counts it
(R54). An IN token of endpoint 0x81 is refused while no reply is queued, and otherwise answered with the oldest queued
reply, which leaves the queue (R55). A refusal is NAK at High-Speed; in SuperSpeed operation it is NRDY, and the
endpoint then owes an ERDY, which it owes no longer once it is served (R56). The other die stays. Completes
COMMAND_PACKET_RECEIVE and REPLY_IN_TOKEN. A USB link loss discards the packets of the command FIFO, keeps every reply
already queued and in its place, leaves no channel with a transfer, and counts the reset (R58). Where no transfer is
in progress the pending pool, the replies and every stream stay. Where one transfer is in progress, on channel `ch`
for command `c`, one reply follows those queued: LINK_LOST with the bytes moved, for `c`, which leaves the pool.
Memory and the other die stay. Completes USB_LINK_LOSS. -/
def Obligations.EndpointsAnswerTokensAndLoseTheLink : Prop :=
  (∀ (s : State) (d : DieId) (pkt : List Byte), let x := s.die d
    let others := fun (ep : Byte) (l : List Byte) => l.filter fun e => e != ep
    let served := fun (y : Die) (ep : Byte) (a : UsbAnswer) =>
      ({ y with cmd.answer := a,
                io.usb.owed := others ep y.io.usb.owed, io.usb.erdy := others ep y.io.usb.erdy } : Die)
    let refused := fun (y : Die) (ep : Byte) => (if y.io.usb.speed = .highSpeed then { y with cmd.answer := .nak }
      else { y with cmd.answer := .nrdy, io.usb.owed := ep :: others ep y.io.usb.owed,
                    io.usb.erdy := others ep y.io.usb.erdy } : Die)
    x.usbLive = true →
    (x.cmd.fifo.length < 256 → exec (.commandPacketReceive d pkt) s =
      .next (s.setDie d (served { x with cmd.fifo := x.cmd.fifo ++ [pkt] } 0x01 .ack))) ∧
    (256 ≤ x.cmd.fifo.length → exec (.commandPacketReceive d pkt) s =
      .next (s.setDie d ((refused x 0x01).setReg .cmdNakCnt (x.reg .cmdNakCnt + 1)))) ∧
    (x.cmd.replies = [] → exec (.replyInToken d) s = .next (s.setDie d (refused x 0x81))) ∧
    (∀ r rs, x.cmd.replies = r :: rs → exec (.replyInToken d) s =
      .next (s.setDie d (served { x with cmd.replies := rs } 0x81 (.data r))))) ∧
  (∀ (s : State) (d : DieId), let x := s.die d
    x.io.usb.connected = true → ∃ t, exec (.usbLinkLoss d) s = .next t ∧
    (t.die d).cmd.fifo = [] ∧ x.cmd.replies <+: (t.die d).cmd.replies ∧
    (∀ ch : Fin 4, (t.die d).cmd.xfers[ch] = none) ∧
    (t.die d).reg .cmdUsbResetCnt = x.reg .cmdUsbResetCnt + 1 ∧
    ((∀ ch : Fin 4, x.cmd.xfers[ch] = none) → (t.die d).cmd.pool = x.cmd.pool ∧
      (t.die d).cmd.replies = x.cmd.replies ∧ (t.die d).cmd.stream0 = x.cmd.stream0 ∧ (t.die d).cmd.ctxs = x.cmd.ctxs) ∧
    (∀ (ch : Fin 4) (xf : Xfer) (c : PendCmd), x.cmd.xfers[ch] = some xf → (∀ k : Fin 4, k ≠ ch → x.cmd.xfers[k] = none) →
      x.xferCmd ch = some c → c.closed = false → (x.cmd.pool.find? (isPend c)).map (fun q => q.repeats) = some 0 →
      (t.die d).cmd.replies = x.cmd.replies ++
        [formReply c.pkt 0x24 x.dev.code (x.ctxState c.ctx).code 0 (leBytes 4 xf.moved)] ∧
      (t.die d).cmd.pool = dropFirst (isPend c) x.cmd.pool) ∧
    (t.die d).dram = x.dram ∧ (t.die d).io.usb.lowPower = none ∧ t.die d.other = s.die d.other)

/-- The command processor takes the oldest packet of the FIFO while it can reserve a reply slot and, for a packet that
passes validation, a place in the pool (R57). A sequenced packet that passes enters the pool as a waiting command and
its context's stream expects the next number (R65, R68). A rejected packet leaves the pool and every stream as they
were and gets one reply with its status, which CMD_LAST_REJECT and CMD_REJECT_CNT record (R64, R101). A repeat of an
executed number gets the stored reply again, marked REPEAT (R68); one whose reply is not formed yet gets none now. An
unsequenced PING that passes is answered at once (R70). In each case CMD_RX_CNT counts the packet, and memory stays.
Completes COMMAND_PACKET_TAKE. An answered command leaves the pending pool, and one reply with its status and payload
joins the queue, followed by one repeat of it for each time it was asked for before it was formed (R61, R68).
CMD_REPLY_CNT counts each of them and CMD_REPEAT_CNT the repeats (R101). A sequenced command of an open context has
its reply stored for its number (R69). The FIFO, memory, the shader state and the other die stay as they were. -/
def Obligations.TakingAPacketValidatesItAndAnswers : Prop :=
  (∀ (s : State) (d : DieId) (k : List Byte) (rest : List (List Byte)), let x := s.die d
    x.cmd.fifo = k :: rest → x.cmdOn = true → x.replyLevel < 512 →
    (∀ op, validate (s.die d.other) x k = .pass op true → x.cmd.pool.length < 256 →
      ∃ t, exec (.commandPacketTake d) s = .next t ∧ (t.die d).cmd.fifo = rest ∧
        (t.die d).cmd.pool = x.cmd.pool ++ [{ ctx := pktContext k, pkt := k, phase := .waiting, closed := false, repeats := 0 }] ∧
        (t.die d).cmd.replies = x.cmd.replies ∧ (t.die d).reg .cmdRxCnt = x.reg .cmdRxCnt + 1 ∧
        (pktContext k = 0 ∨ (x.ctx? (pktContext k)).isSome = true →
          ((t.die d).stream (pktContext k)).expected = seqNext (BitVec.ofNat 32 (pktSeq k))) ∧
        (t.die d).dram = x.dram ∧ t.die d.other = s.die d.other) ∧
    (∀ st known detail payload, validate (s.die d.other) x k = .reject st known detail payload →
      ∃ t, exec (.commandPacketTake d) s = .next t ∧ (t.die d).cmd.fifo = rest ∧ (t.die d).cmd.pool = x.cmd.pool ∧
        (t.die d).cmd.stream0 = x.cmd.stream0 ∧ (t.die d).cmd.ctxs = x.cmd.ctxs ∧
        (t.die d).cmd.replies = x.cmd.replies ++ [formReply k st x.dev.code
          (if known then (x.ctxState (pktContext k)).code else 0xFF) detail payload] ∧
        (t.die d).reg .cmdLastReject =
          BitVec.ofNat 32 (st.toNat * 2 ^ 24 + pktOp k * 2 ^ 16 + pktContext k % 1024) ∧
        (t.die d).reg .cmdRejectCnt = x.reg .cmdRejectCnt + 1 ∧ (t.die d).reg .cmdRxCnt = x.reg .cmdRxCnt + 1 ∧
        (t.die d).dram = x.dram ∧ t.die d.other = s.die d.other) ∧
    (∀ h : HistEnt, validate (s.die d.other) x k = .again h → ∃ t, exec (.commandPacketTake d) s = .next t ∧
      (t.die d).cmd.fifo = rest ∧ (t.die d).cmd.stream0 = x.cmd.stream0 ∧ (t.die d).cmd.ctxs = x.cmd.ctxs ∧
      (∀ r, h.reply = some r → (t.die d).cmd.pool = x.cmd.pool ∧ (t.die d).cmd.replies = x.cmd.replies ++ [repeatReply r] ∧
        (t.die d).reg .cmdRepeatCnt = x.reg .cmdRepeatCnt + 1) ∧
      (h.reply = none → (t.die d).cmd.replies = x.cmd.replies) ∧
      (t.die d).reg .cmdRxCnt = x.reg .cmdRxCnt + 1 ∧ (t.die d).dram = x.dram ∧ t.die d.other = s.die d.other) ∧
    (validate (s.die d.other) x k = .pass .ping false → pktContext k = 0 → pktSeq k = 0 → x.cmd.pool.length < 256 →
      ∃ t, exec (.commandPacketTake d) s = .next t ∧
      (t.die d).cmd.fifo = rest ∧ (t.die d).cmd.pool = x.cmd.pool ∧ (t.die d).cmd.replies = x.cmd.replies ++
        [formReply k 0 x.dev.code 1 0 (leBytes 8 x.localTime.toNat)] ∧
      (t.die d).reg .cmdRxCnt = x.reg .cmdRxCnt + 1 ∧ (t.die d).dram = x.dram ∧ t.die d.other = s.die d.other)) ∧
  (∀ (s : State) (d : DieId) (c : PendCmd) (r : CmdRes), let x := s.die d
    let y := (answerOn d c r s).die d
    let reply := formReply c.pkt r.status x.dev.code (if c.closed then 0 else (x.ctxState c.ctx).code) r.detail r.payload
    let again := ((x.cmd.pool.find? (isPend c)).map fun q => q.repeats).getD c.repeats
    y.cmd.replies = x.cmd.replies ++ reply :: List.replicate again (repeatReply reply) ∧
    y.reg .cmdReplyCnt = x.reg .cmdReplyCnt + BitVec.ofNat 32 (again + 1) ∧
    y.reg .cmdRepeatCnt = x.reg .cmdRepeatCnt + BitVec.ofNat 32 again ∧
    (c.closed = false → pktSeq c.pkt ≠ 0 → c.ctx = 0 → y.cmd.stream0 = x.cmd.stream0.store (pktSeq c.pkt) reply) ∧
    ((c.closed = true ∨ pktSeq c.pkt = 0) → y.cmd.stream0 = x.cmd.stream0 ∧ y.cmd.ctxs = x.cmd.ctxs) ∧
    y.cmd.pool = dropFirst (isPend c) x.cmd.pool ∧ y.cmd.fifo = x.cmd.fifo ∧ y.dram = x.dram ∧ y.sh = x.sh ∧
    (answerOn d c r s).die d.other = s.die d.other ∧ (answerOn d c r s).pending = s.pending)

/-- When it is the turn of a PING, GET_STATUS, CFG_READ or FAULT_READ, it is answered OK: PING with the local time
(R454), GET_STATUS with the fields of R85 in their order, CFG_READ with as many words as COUNT asks, read one after
another at ascending addresses (R98), FAULT_READ with the oldest records of the fault queue, at most MAX of them,
which leave the queue (R381). Completes PING, GET_STATUS, CFG_READ and FAULT_READ. CFG_WRITE checks every word in the
state before any is written (R99): when each is accepted, the words are written one after another at ascending
addresses and the answer is OK; when one is refused none is written and the answer is BAD_PARAM, DETAIL naming the
first refused word. A range that holds CMD_PAIR_CFG in a state where R25 refuses it is answered PAIR_REFUSED, and one
of a pipe that die B follows WRONG_STATE (R310), with nothing written. PRESS while an earlier press is pending is
answered BUSY and changes nothing (R84); otherwise it takes the next epoch, which its reply carries, holds the shadows
as they stand for the units that it concerns (R16), which fall behind, and every other unit acknowledges at once
(R467, R468). Completes CFG_WRITE and PRESS. -/
def Obligations.ReadsConfigurationAndPressesAnswer : Prop :=
  (∀ (s : State) (d : DieId) (c : PendCmd), let x := s.die d
    let p := s.die d.other
    (turn s d 0 .ping c = true → exec (.ping d) s =
      .next (answerOn d c (resOk (leBytes 8 x.localTime.toNat)) s)) ∧
    (turn s d 0 .getStatus c = true → exec (.getStatus d) s =
      .next (answerOn d c (resOk (leBytes 1 x.dev.code ++ leBytes 1 x.id.toNat ++ leBytes 1 x.sec.fuses.lc ++
        leBytes 1 (x.pair.mode.toNat + 16 * x.pair.role.code) ++ leBytes 2 x.node ++ leBytes 2 x.cmd.ctxs.length ++
        leBytes 4 x.press.activeEpoch.toNat ++ leBytes 4 x.press.epoch.toNat ++
        leBytes 4 ((List.range 44).filter fun u => x.press.behind.getLsbD u).length ++ leBytes 2 x.flt.queue.length ++
        leBytes 2 (b2n ((x.reg .fltQueueStatus).getLsbD 31) + 2 * b2n x.pair.degraded +
          4 * b2n (decide (1 ≤ x.power.therm)) + 8 * b2n x.power.healthy) ++
        leBytes 4 x.cmd.stream0.expected.toNat ++ leBytes 4 0)) s)) ∧
    (turn s d 0 .cfgRead c = true → ∃ y ws, cfgReadWords p x (par c.pkt 0 4) (par c.pkt 4 2) = (y, ws) ∧
      ws.length = par c.pkt 4 2 ∧
      exec (.cfgRead d) s = .next (answerOn d c (resOk ((ws.map fun w => leBytes 4 w.toNat).flatten)) (s.setDie d y))) ∧
    (∀ a, cfgReadWords p x a 0 = (x, [])) ∧
    (∀ a n y ws, cfgReadWords p x a n = (y, ws) → cfgReadWords p x a (n + 1) =
      ((cfgReadWord p y (a + 4 * n)).1, ws ++ [(cfgReadWord p y (a + 4 * n)).2])) ∧
    (turn s d 0 .faultRead c = true → exec (.faultRead d) s =
      .next (answerOn d c (resOk (leBytes 4 (x.flt.queue.take (par c.pkt 0 4)).length ++
          ((x.flt.queue.take (par c.pkt 0 4)).map FaultRec.bytes).flatten))
        (s.onDie d fun x => { x with flt.queue := x.flt.queue.drop (par c.pkt 0 4) })))) ∧
  (∀ (s : State) (d : DieId) (c : PendCmd), let x := s.die d
    let a := par c.pkt 0 4
    let n := par c.pkt 4 2
    (turn s d 0 .cfgWrite c = true → holdsPairedPipe x a n = true →
      exec (.cfgWrite d) s = .next (answerOn d c (resErr 0x19) s)) ∧
    (turn s d 0 .cfgWrite c = true → holdsPairedPipe x a n = false → (holdsPairCfg a n && x.pairCfgRefused) = true →
      exec (.cfgWrite d) s = .next (answerOn d c (resErr 0x1C) s)) ∧
    (turn s d 0 .cfgWrite c = true → holdsPairedPipe x a n = false → (holdsPairCfg a n && x.pairCfgRefused) = false →
      (cfgBadWord x a (cfgData c.pkt) = none →
        exec (.cfgWrite d) s = .next (answerOn d c (resOk []) (cfgWriteWords d a (cfgData c.pkt) s))) ∧
      (∀ i, cfgBadWord x a (cfgData c.pkt) = some i → exec (.cfgWrite d) s = .next (answerOn d c (resBad (2 + i)) s) ∧
        (∀ k r is, k < i → regAt (a + 4 * k) = some (r, is) → valueOk x r is ((cfgData c.pkt).getD k 0) = true))) ∧
    cfgWriteWords d a [] s = s ∧
    (∀ vs v, cfgWriteWords d a (vs ++ [v]) s = cfgWriteWord (cfgWriteWords d a vs s) d (a + 4 * vs.length) v) ∧
    (turn s d 0 .press c = true → x.press.behind ≠ 0 →
      exec (.press d) s = .next (answerOn d c (resErr 0x1A) s)) ∧
    (turn s d 0 .press c = true → x.press.behind = 0 → ∀ st, pairPressRefused (s.die d.other) x = some st →
      exec (.press d) s = .next (answerOn d c (resErr st) s)) ∧
    (turn s d 0 .press c = true → x.press.behind = 0 → pairPressRefused (s.die d.other) x = none →
      ∃ y, exec (.press d) s = .next (answerOn d c (resOk (leBytes 4 y.press.epoch.toNat)) (s.setDie d y)) ∧
        y.press.epoch = (if x.press.epoch = 0xFFFFFFFF then 1 else x.press.epoch + 1) ∧
        y.shadow = x.shadow ∧ y.press.pressed = x.shadow ∧
        (∀ r ∈ y.torus.rings, r.prLo = r.shLo ∧ r.prHi = r.shHi) ∧
        (y.press.behind = 0 → y.press.activeEpoch = y.press.epoch) ∧
        (∀ u < 44, y.press.behind.getLsbD u = false → y.unitEpoch u = y.press.epoch) ∧
        (∀ u < 44, y.press.behind.getLsbD u = true → y.unitEpoch u = x.unitEpoch u) ∧
        (∀ u < 44, u ≠ 36 → y.press.behind.getLsbD u = x.press.dirty.getLsbD u) ∧
        y.reg .clkPressCnt = x.reg .clkPressCnt + 1))

/-- A command whose turn it is but which is no longer legal is answered with WRONG_STATE, and one whose context has
been closed in the meantime with NO_CONTEXT, and neither has another effect (R66): for the row of every opcode of both
streams. -/
def Obligations.AnIllegalCommandHasNoEffect : Prop :=
  ∀ (s : State) (d : DieId) (ctx : Nat) (c : PendCmd) (op : Op) (row : Instr), (s.die d).cmdOn = true → c.phase = .waiting →
    (s.die d).headCmd ctx = some c → opOf (pktOp c.pkt) = some op →
    ((ctx = 0 ∧ (op, row) ∈ [(.ping, .ping d), (.getStatus, .getStatus d), (.cfgRead, .cfgRead d), (.cfgWrite, .cfgWrite d),
        (.press, .press d), (.faultRead, .faultRead d), (.openContext, .openContext d), (.closeContext, .closeContext d),
        (.suspendContext, .suspendContext d), (.resumeContext, .resumeContext d), (.grantGranules, .grantGranules d),
        (.reclaimGranules, .reclaimGranules d), (.vmConfig, .vmConfig d), (.holdEnter, .holdEnter d), (.holdExit, .holdExit d),
        (.failover, .failover d), (.resetDevice, .resetDevice d), (.attest, .attest d), (.loadImage, .loadImage d),
        (.lcTransition, .lcTransition d), (.romLoad, .romLoad d)]) ∨
      (ctx ≠ 0 ∧ (op, row) ∈ [(.submit, .submit d ctx), (.cancelJob, .cancelJob d ctx), (.fenceSignal, .fenceSignal d ctx),
        (.fenceRead, .fenceRead d ctx), (.fenceWait, .fenceWait d ctx), (.ctxStatus, .ctxStatus d ctx),
        (.writeMem, .writeMem d ctx), (.readMem, .readMem d ctx)])) →
    (c.closed = true → exec row s = .next (answerOn d c (resErr 0x15) s)) ∧
    (c.closed = false → (opLegal (s.die d.other) (s.die d) op c.pkt && ctxLegal (s.die d) op ctx c.pkt) = false →
      exec row s = .next (answerOn d c (resErr 0x19) s))

/-- The context commands. OPEN_CONTEXT gives a FREE context its attributes, root and a fresh stream, on both dies for
a paired one, and makes a READY die that is no standby ACTIVE (R67, R76, R77); a number that is open is answered
ALREADY_OPEN (also one that only die B has open, the model's choice of log entry 130). CLOSE_CONTEXT ends the context,
and makes the die READY when it was the last one and the die no standby. SUSPEND_CONTEXT suspends it, asks its jobs to
fold, and is answered once all have folded, at once where none runs (R79). RESUME_CONTEXT opens it again, RUNNING if
jobs are queued. CLOSE, SUSPEND and RESUME of a FREE context are answered NO_CONTEXT. Completes OPEN_CONTEXT,
CLOSE_CONTEXT, SUSPEND_CONTEXT and RESUME_CONTEXT. Once every access unit walked before has been performed (R371):
GRANT_GRANULES of a legal range gives each granule, wiped or live with the owner, to OWNER with the kind and rights of
ATTR (R372); RECLAIM_GRANULES of one sends every granule of the range that is not wiped to the fill engine under the
system tag (R373). Each leaves every granule outside the range, and every byte of memory, and is otherwise refused
whole with BAD_PARAM. VM_CONFIG sets the stage-2 root of its VM alone and drops the VM's translations (R354).
Completes GRANT_GRANULES, RECLAIM_GRANULES and VM_CONFIG. -/
def Obligations.ContextAndGranuleCommands : Prop :=
  (∀ (s : State) (d : DieId) (c : PendCmd), let n := par c.pkt 0 2
    let x := s.die d
    let t : Ctx := { num := n, state := .opened, attr := BitVec.ofNat 8 (par c.pkt 3 1),
                     vmid := BitVec.ofNat 8 (par c.pkt 2 1), s1root := BitVec.ofNat 64 (par c.pkt 4 8),
                     timeout := BitVec.ofNat 32 (par c.pkt 12 4), stream := { expected := 1, hist := [] }, faultCnt := 0 }
    let both := t.attr.getLsbD 0 && x.pair.mode == 1 && x.pair.bridgeUp && !x.pair.lost
    (turn s d 0 .openContext c = true → x.ctx? n = none → (both && ((s.die d.other).ctx? n).isSome) = false →
      exec (.openContext d) s = .next (answerOn d c (resOk []) (if both then s.onBoth (addCtx t) else s.onDie d (addCtx t)))) ∧
    (∀ y : Die, addCtx t y = { y with cmd.ctxs := y.cmd.ctxs ++ [t],
                                      dev := if y.dev = .ready ∧ y.pair.role ≠ .standby then .active else y.dev }) ∧
    (turn s d 0 .openContext c = true → ((x.ctx? n).isSome || (both && ((s.die d.other).ctx? n).isSome)) = true →
      exec (.openContext d) s = .next (answerOn d c (resErr 0x1B) s)) ∧
    (turn s d 0 .closeContext c = true → (x.ctx? n).isSome = true →
      exec (.closeContext d) s = .next (answerOn d c (resOk []) (onCtxDies s d n (closeCtx n)))) ∧
    (∀ p y : Die, (closeCtx n p y).ctx? n = none ∧ (∀ j ∈ (closeCtx n p y).jobs.list, j.ctx ≠ n) ∧
      ((closeCtx n p y).cmd.ctxs = [] → (closeCtx n p y).pair.role ≠ .standby → (closeCtx n p y).dev ≠ .active)) ∧
    (turn s d 0 .suspendContext c = true → (x.ctx? n).isSome = true →
      let u := onCtxDies ((onCtxDies s d n (suspendCtx n)).onDie d fun x => x.setPhase c .folding) d n (foldJobs n)
      let done := (u.die d).allFolded n &&
        (!((onCtxDies s d n (suspendCtx n)).onDie d fun x => x.setPhase c .folding).pairedCtx d n || (u.die d.other).allFolded n)
      exec (.suspendContext d) s = .next (if done then answerOn d { c with phase := .folding } (resOk []) u else u)) ∧
    (∀ p y : Die, n ≠ 0 → (y.ctx? n).isSome = true → y.runningJobs n = [] → (suspendCtx n p y).ctxState n = .suspended ∧
      foldJobs n p y = y ∧ y.allFolded n = true) ∧
    (turn s d 0 .resumeContext c = true → (x.ctx? n).isSome = true →
      exec (.resumeContext d) s = .next (answerOn d c (resOk []) (onCtxDies s d n (resumeCtx n)))) ∧
    (∀ p y : Die, n ≠ 0 → (y.ctx? n).isSome = true → (∀ j ∈ y.jobs.list, j.ctx ≠ n) → (resumeCtx n p y).ctxState n = .opened) ∧
    (∀ row ∈ [(Op.closeContext, Instr.closeContext d), (.suspendContext, .suspendContext d), (.resumeContext, .resumeContext d)],
      turn s d 0 row.1 c = true → x.ctx? n = none → exec row.2 s = .next (answerOn d c (resErr 0x15) s))) ∧
  (∀ (s : State) (d : DieId) (c : PendCmd), let x := ownPerformed d s
    let first := par c.pkt 0 4
    let count := par c.pkt 4 4
    let inside := fun (g : Nat) => first ≤ g ∧ g < first + count
    let legal := 1 ≤ count ∧ first + count ≤ 524288
    (turn s d 0 .grantGranules c = true → legal → (∀ g, inside g → grantable x (par c.pkt 8 2) g = true) →
      ownerOk x first count (par c.pkt 8 2) (par c.pkt 10 2) = true →
      ∃ y, exec (.grantGranules d) s = .next (answerOn d c (resOk []) (s.setDie d y)) ∧
      (∀ g, inside g → y.ownEntry g = ownMake (par c.pkt 8 2)
        (bitsOf (par c.pkt 10 2) 1 0) (bitOf (par c.pkt 10 2) 2) (bitOf (par c.pkt 10 2) 3) 1) ∧
      (∀ g, ¬ inside g → y.ownEntry g = x.ownEntry g) ∧ y.dram = x.dram ∧
      y.reg .ownGrantCnt = x.reg .ownGrantCnt + BitVec.ofNat 32 count) ∧
    (turn s d 0 .grantGranules c = true →
      (¬ legal → exec (.grantGranules d) s = .next (answerOn d c (resBad 1) s)) ∧
      (legal → ∀ g, inside g → grantable x (par c.pkt 8 2) g = false →
        exec (.grantGranules d) s = .next (answerOn d c (resBad 0) s))) ∧
    (turn s d 0 .reclaimGranules c = true → legal →
      (∀ g, inside g → ownState (x.ownEntry g) ≠ 2 ∧ x.xlt.fwGranules ≤ g) →
      ∃ y, exec (.reclaimGranules d) s = .next (answerOn d c (resOk []) (s.setDie d y)) ∧
      (∀ g, inside g → ownState (x.ownEntry g) ≠ 0 → ownOwner (y.ownEntry g) = 4095 ∧ .granule g ∈ y.dram.fill) ∧
      (∀ g, ¬ inside g ∨ ownState (x.ownEntry g) = 0 → y.ownEntry g = x.ownEntry g) ∧ y.dram.cells = x.dram.cells) ∧
    (turn s d 0 .reclaimGranules c = true →
      (¬ legal → exec (.reclaimGranules d) s = .next (answerOn d c (resBad 1) s)) ∧
      (legal → ∀ g, inside g → (ownState (x.ownEntry g) = 2 ∨ g < x.xlt.fwGranules) →
        exec (.reclaimGranules d) s = .next (answerOn d c (resBad 0) s))) ∧
    (turn s d 0 .vmConfig c = true → let v := BitVec.ofNat 8 (par c.pkt 0 1)
      let z := performUnits (fun k => (s.die d).vmidOf k == v) (s.die d.other) (s.die d)
      ∃ y, exec (.vmConfig d) s = .next (answerOn d c (resOk []) (s.setDie d y)) ∧
      (∀ w : BitVec 8, y.s2root w = if w = v then par c.pkt 4 8 else z.s2root w) ∧
      (∀ t ∈ y.xlt.tlb, t.vmid ≠ v) ∧ (∀ t ∈ y.xlt.walk, t.vmid ≠ v) ∧ y.xlt.own = z.xlt.own ∧ y.dram = z.dram))

/-- HOLD_ENTER puts the die into HOLD, with its DRAM in self-refresh, its PLL out of use, its state saved, no group,
no identity key, HEALTHY low and the bridge stopped, and is answered OK (R571); HOLD_EXIT starts the die again and
returns it to the state it left, or to SAFE when its firmware does not verify again (R573). FAILOVER on a standby that
is in step makes it PRIMARY and ACTIVE and the pair DEGRADED, mirroring off, and a partner that is alive its standby
(R42, R43, R48; the partner's part is the model's reading of log entry 138); on a die that is PRIMARY it changes
nothing and reports PRIMARY. RESET_DEVICE is answered first and its reset scheduled for that reply (R75). Completes
HOLD_ENTER, HOLD_EXIT, FAILOVER and RESET_DEVICE. -/
def Obligations.HoldFailoverAndReset : Prop :=
  ∀ (s : State) (d : DieId) (c : PendCmd), let x := s.die d
    (turn s d 0 .holdEnter c = true → ∃ u, exec (.holdEnter d) s = .next (answerOn d c (resOk []) u) ∧ (u.die d).dev = .hold ∧
      (u.die d).dram.selfRefresh = true ∧ (u.die d).power.pllLock = false ∧ (u.die d).power.healthy = false ∧
      (u.die d).saved.isSome = true ∧ (u.die d).pair.bridgeUp = false ∧ (u.die d).sh.groups = [] ∧ (u.die d).sec.idKey = none) ∧
    (turn s d 0 .holdExit c = true → ∃ t, exec (.holdExit d) s = .next t ∧
      (t.die d).dev = (if (reverify { x with power.pllLock := true, dram.selfRefresh := false, dram.trained := true,
                                             time := x.localTime }).2 then x.power.heldState else .safe) ∧
      (t.die d).power.holdMaster = false) ∧
    (turn s d 0 .failover c = true → x.pair.role = .standby → x.pair.mirrorSync = true →
      ∃ u, exec (.failover d) s = .next (answerOn d c (resOk [1, 0, 0, 0]) u) ∧ (u.die d).pair.role = .primary ∧
        (u.die d).dev = .active ∧ (u.die d).pair.degraded = true ∧ (u.die d).pair.mirrorSync = false ∧
        (x.pair.lost = false → (u.die d.other).pair.role = .standby ∧ (u.die d.other).pair.mirrorSync = false ∧
          (u.die d.other).dev ≠ .active)) ∧
    (turn s d 0 .failover c = true → x.pair.role = .primary →
      exec (.failover d) s = .next (answerOn d c (resOk [1, 0, 0, 0]) s)) ∧
    (turn s d 0 .resetDevice c = true → ∃ y, exec (.resetDevice d) s = .next (s.setDie d y) ∧
      y.power.resetDue = some (par c.pkt 0 4, x.localTime, y.cmd.replies.getD x.cmd.replies.length []) ∧
      x.cmd.replies.length < y.cmd.replies.length ∧ y.dram = x.dram ∧ y.dev = x.dev)

/-- A data command starts on its channel when the channel is free: WRITE_MEM and READ_MEM with their VA and LEN (R92),
ATTEST with the report that it sends (R513), LC_TRANSITION and ROM_LOAD to collect the bytes they take (R506, R518);
nothing but the command's phase and the channel changes, and ATTEST's count. While the channel carries another
transfer the command waits and nothing changes (R91). LOAD_IMAGE for an open context reserves the first free entry,
queues the load and is answered OK; memory stays (R508). Completes WRITE_MEM, READ_MEM, ATTEST, LC_TRANSITION,
ROM_LOAD and LOAD_IMAGE. The data channels' packets (R91, R93, R94). An endpoint without a transfer that takes or has
a packet refuses: NAK, or NRDY in SuperSpeed operation (R56). A packet of an authorisation or an image that does not
end the transfer is kept and counted. A packet of WRITE_MEM within its length whose access unit passes is
acknowledged, and its bytes are written; the channel is free once all bytes have moved, and otherwise counts them. An
IN token of READ_MEM whose unit passes is answered with the bytes read, one of ATTEST with the next bytes of the
report; the channel is free after the last. A channel that is not held and on which nothing has moved for the
configured time is freed, counted, and its command answered DATA_TIMEOUT with the bytes moved. Completes
DATA_PACKET_OUT, DATA_PACKET_IN and DATA_TIMEOUT. -/
def Obligations.DataCommandsAndPackets : Prop :=
  (∀ (s : State) (d : DieId) (c : PendCmd) (ctx : Nat), let x := s.die d
    let took := fun (ch : Fin 4) (kind : XferKind) (n va len : Nat) (buf : List Byte) =>
      let f : Xfer := { kind := kind, ctx := n, va := va, len := len, moved := 0, last := x.localTime, buf := buf,
                        frozen := none, heldAt := 0 }
      ({ x with cmd.xfers := vmod x.cmd.xfers ch fun _ => some f } : Die).setPhase c (.transfer ch)
    let ch12 := Fin.ofNat 4 (par c.pkt 12 1)
    let ch0 := Fin.ofNat 4 (par c.pkt 0 1)
    let ch1 := Fin.ofNat 4 (par c.pkt 1 1)
    (ctx ≠ 0 → turn s d ctx .writeMem c = true →
      (x.cmd.xfers[ch12] = none → exec (.writeMem d ctx) s =
        .next (s.setDie d (took ch12 .writeMem ctx (par c.pkt 0 8) (par c.pkt 8 4) []))) ∧
      ((x.cmd.xfers[ch12]).isSome = true → exec (.writeMem d ctx) s = .next s)) ∧
    (ctx ≠ 0 → turn s d ctx .readMem c = true →
      (x.cmd.xfers[ch12] = none → exec (.readMem d ctx) s =
        .next (s.setDie d (took ch12 .readMem ctx (par c.pkt 0 8) (par c.pkt 8 4) []))) ∧
      ((x.cmd.xfers[ch12]).isSome = true → exec (.readMem d ctx) s = .next s)) ∧
    (turn s d 0 .lcTransition c = true →
      (x.cmd.xfers[ch1] = none → exec (.lcTransition d) s = .next (s.setDie d (took ch1 .lcAuth 0 0 7348 []))) ∧
      ((x.cmd.xfers[ch1]).isSome = true → exec (.lcTransition d) s = .next s)) ∧
    (turn s d 0 .romLoad c = true →
      (x.cmd.xfers[ch0] = none → exec (.romLoad d) s =
        .next (s.setDie d (took ch0 .romImage 0 0 (par c.pkt 4 4) []))) ∧
      ((x.cmd.xfers[ch0]).isSome = true → exec (.romLoad d) s = .next s)) ∧
    (turn s d 0 .attest c = true →
      let r := attestReport x ((List.range 64).map fun i => BitVec.ofNat 8 (par c.pkt (4 + i) 1))
      (x.cmd.xfers[ch0] = none → exec (.attest d) s =
        .next (s.setDie d ((took ch0 .attest 0 0 r.length r).count .secAttestCnt))) ∧
      ((x.cmd.xfers[ch0]).isSome = true → exec (.attest d) s = .next s)) ∧
    (turn s d 0 .loadImage c = true → (x.ctx? (par c.pkt 0 2)).isSome = true →
      ∀ i, freeEntry x = some i →
      let l : LoadReq := { ctx := par c.pkt 0 2, lba := par c.pkt 4 8, dest := par c.pkt 12 8, fence := par c.pkt 20 8,
                           value := BitVec.ofNat 64 (par c.pkt 28 8), entry := i, frozen := none }
      ∃ u, exec (.loadImage d) s = .next (answerOn d c (resOk []) u) ∧ (u.die d).sec.loads = x.sec.loads ++ [l] ∧
        ((u.die d).sec.models.getD i none).isSome = true ∧ (u.die d).dram = x.dram)) ∧
  (∀ (s : State) (d : DieId) (ch : Fin 4) (pkt : List Byte), let x := s.die d
    let p := s.die d.other
    (x.usbLive = true → pkt.length ≤ x.usbMax → (∀ xf, x.cmd.xfers[ch] = some xf → (xf.takesOut && x.running) = false) →
      exec (.dataPacketOut d ch pkt) s = .next (s.onDie d fun x => x.epBusy (BitVec.ofNat 8 (2 + ch.val)))) ∧
    (x.usbLive = true → (∀ xf, x.cmd.xfers[ch] = some xf → (xf.takesIn && x.running) = false) →
      exec (.dataPacketIn d ch) s = .next (s.onDie d fun x => x.epBusy (BitVec.ofNat 8 (0x82 + ch.val)))) ∧
    (∀ xf : Xfer, x.usbLive = true → x.running = true → pkt.length = x.usbMax → x.cmd.xfers[ch] = some xf →
      xf.frozen = none → (xf.kind = .lcAuth ∨ xf.kind = .romImage) → xf.moved + pkt.length < xf.len →
      ∃ t, exec (.dataPacketOut d ch pkt) s = .next t ∧ (t.die d).cmd.answer = .ack ∧
        (t.die d).cmd.xfers[ch] = some { xf with moved := xf.moved + pkt.length, last := x.localTime, buf := xf.buf ++ pkt } ∧
        (t.die d).cmd.replies = x.cmd.replies ∧ (t.die d).dram = x.dram ∧ t.die d.other = p) ∧
    (∀ (xf : Xfer) (y : Die), x.usbLive = true → x.running = true → pkt.length ≤ x.usbMax → x.cmd.xfers[ch] = some xf →
      xf.frozen = none → xf.kind = .writeMem → 1 ≤ pkt.length → xf.moved + pkt.length ≤ xf.len →
      writeUnit p x (.usb ch) xf.ctx (xf.va + xf.moved) pkt accWrite = (y, true) →
      ∃ t, exec (.dataPacketOut d ch pkt) s = .next t ∧ (t.die d).cmd.answer = .ack ∧ (t.die d).dram = y.dram ∧
        (t.die d).cache = y.cache ∧ (t.die d).xlt = y.xlt ∧
        (xf.moved + pkt.length = xf.len → (t.die d).cmd.xfers[ch] = none) ∧
        (xf.moved + pkt.length < xf.len → pkt.length = x.usbMax → (t.die d).cmd.xfers[ch] = (y.cmd.xfers[ch]).map fun u =>
          { u with moved := u.moved + pkt.length, last := y.localTime, buf := [] })) ∧
    (∀ (xf : Xfer) (y : Die) (bs : List Byte), x.usbLive = true → x.running = true → x.cmd.xfers[ch] = some xf →
      xf.frozen = none → xf.kind = .readMem →
      readUnit p x (.usb ch) xf.ctx (xf.va + xf.moved) (min x.usbMax (xf.len - xf.moved)) accRead = (y, some bs) →
      ∃ t, exec (.dataPacketIn d ch) s = .next t ∧ (t.die d).cmd.answer = .data bs ∧ (t.die d).dram = y.dram ∧
        (xf.moved + min x.usbMax (xf.len - xf.moved) = xf.len → (t.die d).cmd.xfers[ch] = none) ∧ t.die d.other = p) ∧
    (∀ xf : Xfer, x.usbLive = true → x.running = true → x.cmd.xfers[ch] = some xf → xf.frozen = none → xf.kind = .attest →
      ∃ t, exec (.dataPacketIn d ch) s = .next t ∧
        (t.die d).cmd.answer = .data ((xf.buf.drop xf.moved).take (min x.usbMax (xf.len - xf.moved))) ∧
        (xf.moved + min x.usbMax (xf.len - xf.moved) = xf.len → (t.die d).cmd.xfers[ch] = none) ∧
        (t.die d).dram = x.dram ∧ t.die d.other = p) ∧
    (∀ xf : Xfer, x.cmdOn = true → x.cmd.xfers[ch] = some xf → xf.frozen = none →
      100 * x.fld .cmdDataCfg [] 15 0 * 400 ≤ (x.localTime - xf.last).toNat →
      ∃ t, exec (.dataTimeout d ch) s = .next t ∧ (t.die d).cmd.xfers[ch] = none ∧
        (t.die d).reg .cmdDataTimeoutCnt = x.reg .cmdDataTimeoutCnt + 1 ∧ (t.die d).dram = x.dram ∧
        (x.xferCmd ch = none → (t.die d).cmd.replies = x.cmd.replies) ∧
        (∀ c, x.xferCmd ch = some c → x.cmd.replies ++ [formReply c.pkt 0x21 x.dev.code
          (if c.closed then 0 else (x.ctxState c.ctx).code) 0 (leBytes 4 xf.moved)] <+: (t.die d).cmd.replies)))

/-- SUBMIT copies the descriptor, once read, into the free slot of lowest index and is answered with the job's ID, or
is answered NO_SPACE when there is none (R83, R317); a job whose descriptor passes its checks and names a wait fence
stands there WAITING. CANCEL_JOB ends a live job of the context CANCELLED, and any other ID changes nothing; it is
answered OK (R318). CTX_STATUS of a die that is no standby is answered with the context's fields (R86). Completes
SUBMIT, CANCEL_JOB and CTX_STATUS. -/
def Obligations.JobCommands : Prop :=
  ∀ (s : State) (d : DieId) (ctx : Nat) (c : PendCmd), ctx ≠ 0 → let x := s.die d
    (turn s d ctx .submit c = true → x.freeJobSlot = none →
      exec (.submit d ctx) s = .next (answerOn d c (resErr 0x28) s)) ∧
    (turn s d ctx .submit c = true → ∀ slot y b, x.freeJobSlot = some slot →
      readUnit (s.die d.other) x (.cmdProc ctx none) ctx (par c.pkt 0 8) 256 accRead = (y, some b) →
      let id : Word := BitVec.ofNat 32 (slot + 4096 * (y.jobs.serial + 1).toNat)
      let key := (y.jobs.order + 1) * 2 ^ 32
      exec (.submit d ctx) s = .next (answerOn d c (resOk (leBytes 4 id.toNat))
        (onSibling (s.setDie d (copyJob (s.die d.other) y ctx slot key none (par c.pkt 0 8) b)) d ctx
          (siblingSubmit ctx (par c.pkt 0 8) key id)))) ∧
    (∀ slot, x.freeJobSlot = some slot → slot < 4096 ∧ (∀ j ∈ x.jobs.list, j.slot ≠ slot) ∧
      ∀ k < slot, ∃ j ∈ x.jobs.list, j.slot = k) ∧
    (∀ (p y : Die) (slot key va : Nat) (b : List Byte), (∀ j ∈ y.jobs.list, j.slot ≠ slot) →
      descOk ({ y with jobs.serial := y.jobs.serial + 1, jobs.order := y.jobs.order + 1,
                       jobs.list := y.jobs.list ++ [mkJob slot (BitVec.ofNat 32 (slot + 4096 * (y.jobs.serial + 1).toNat)) ctx
                         (y.jobs.order + 1) key b (y.runsPaired ctx b)] } : Die) ctx false b = true → dWaitVa b ≠ 0 →
      (copyJob p y ctx slot key none va b).jobs.list = y.jobs.list ++
        [mkJob slot (BitVec.ofNat 32 (slot + 4096 * (y.jobs.serial + 1).toNat)) ctx (y.jobs.order + 1) key b (y.runsPaired ctx b)]) ∧
    (turn s d ctx .cancelJob c = true →
      exec (.cancelJob d ctx) s = .next (answerOn d c (resOk [])
        (onCtxDies s d ctx fun p y => match y.jobs.list.find? fun j =>
            j.ctx == ctx && j.id == BitVec.ofNat 32 (par c.pkt 0 4) && j.live with
          | some j => endJob p y j.slot 0x11
          | none => y))) ∧
    (∀ t, turn s d ctx .ctxStatus c = true → x.pair.role ≠ .standby → x.ctx? ctx = some t →
      exec (.ctxStatus d ctx) s = .next (answerOn d c (resOk (leBytes 1 t.state.code ++ [t.attr] ++ leBytes 1 t.vmid.toNat ++
        leBytes 1 0 ++ leBytes 4 t.stream.expected.toNat ++
        leBytes 2 ((x.jobs.list.filter fun j => j.ctx == ctx).filter fun j =>
          decide (j.state = .waiting) || decide (j.state = .released)).length ++
        leBytes 2 ((x.jobs.list.filter fun j => j.ctx == ctx).filter fun j => decide (j.state = .running)).length ++
        leBytes 4 t.faultCnt.toNat)) s))

/-- A fence signal is an atomic unsigned maximum, whose answer is the value from before it (R87): of the die `w` as
its translation and its fetch leave it, it stores the value only where the fence was below it, after every earlier
write of a mirrored die has been committed (R39). The fence commands of a context, whose units pass: FENCE_SIGNAL
signals, on both dies for a paired context (R29), and is answered with PREVIOUS (R87); FENCE_READ is answered with the
value; FENCE_WAIT is answered at once when the fence has reached VALUE, and otherwise waits (R88, R89); a poll answers
a wait whose fence has reached VALUE; and a wait whose TIMEOUT local µs have passed is answered WAIT_TIMEOUT.
Completes FENCE_SIGNAL, FENCE_READ, FENCE_WAIT, FENCE_WAIT_POLL and FENCE_WAIT_TIMEOUT. -/
def Obligations.FencesReachTheirValues : Prop :=
  (∀ (p x y : Die) (m : Master) (c va : Nat) (v old : DWord), signalUnit p x m c va v = (y, some old) →
    ∃ w pm, old = BitVec.ofNat 64 (ofLe (viewBytes w pm va 8)) ∧
      let z := if mirrors p w then commitAll p w else w
      y = (if old.toNat < v.toNat then storeBytes p z c pm va (leBytes 8 v.toNat) else z)) ∧
  (∀ (s : State) (d : DieId) (ctx : Nat) (c : PendCmd) (y : Die) (v : DWord), ctx ≠ 0 → let x := s.die d
    let p := s.die d.other
    let m : Master := .cmdProc ctx none
    (turn s d ctx .fenceSignal c = true →
      signalUnit p x m ctx (par c.pkt 0 8) (BitVec.ofNat 64 (par c.pkt 8 8)) = (y, some v) →
      exec (.fenceSignal d ctx) s = .next (answerOn d c (resOk (leBytes 8 v.toNat)) (onSibling (s.setDie d y) d ctx
        fun p z => siblingSignal p z m ctx (par c.pkt 0 8) (BitVec.ofNat 64 (par c.pkt 8 8))))) ∧
    (turn s d ctx .fenceRead c = true → fenceUnit p x m ctx (par c.pkt 0 8) = (y, some v) →
      exec (.fenceRead d ctx) s = .next (answerOn d c (resOk (leBytes 8 v.toNat)) (s.setDie d y))) ∧
    (turn s d ctx .fenceWait c = true → x.id = d →
      fenceUnit p (x.setPhase c (.fenceWait x.localTime none)) m ctx (par c.pkt 0 8) = (y, some v) →
      exec (.fenceWait d ctx) s = .next (if par c.pkt 8 8 ≤ v.toNat
        then answerOn d { c with phase := .fenceWait x.localTime none } (resOk (leBytes 8 v.toNat)) (s.setDie d y)
        else s.setDie d y)) ∧
    (∀ since, x.running = true → x.waiting ctx = some (c, since) → c.isFrozen = false →
      fenceUnit p x m ctx (par c.pkt 0 8) = (y, some v) →
      exec (.fenceWaitPoll d ctx) s = .next (if par c.pkt 8 8 ≤ v.toNat
        then answerOn d c (resOk (leBytes 8 v.toNat)) (s.setDie d y) else s.setDie d y)) ∧
    (∀ since, x.cmdOn = true → x.waiting ctx = some (c, since) → par c.pkt 16 4 * 400 ≤ (x.localTime - since).toNat →
      exec (.fenceWaitTimeout d ctx) s = .next (answerOn d c (resErr 0x20) s)) ∧
    (∀ since, x.waiting ctx = some (c, since) → (x.localTime - since).toNat < par c.pkt 16 4 * 400 →
      exec (.fenceWaitTimeout d ctx) s = .next s))

/-- CMD_PAIR_CFG takes its value on both dies' shadows at once, the active words staying until a press; a write
through die B's window within one bridge latency of one through die A's leaves die A's value (R26). A slot of the
bridge whose CRC passes ends its class's run of failures, and on CTL shows the partner alive; one that fails is resent
and counted by its sender, and the failure after 16 in a row marks the bridge down on both dies, with a record, and
empties the messages over it (R17, R19, R41; that a class's slot is the one that failed there is the model's, log
entry 131). A toggle of the alive wire sets the time at which it was last seen. The partner's confirmation of the
pending pair configuration makes the die-pair logic acknowledge the press (R50). Completes CMD_PAIR_CFG_WRITE,
BRIDGE_SLOT_RECEIVE, ALIVE_WIRE_TOGGLE and PAIR_CFG_CONFIRM. A die that is mirrored applies the oldest item of its
partner's mirror stream, which leaves the stream (R38): a write gives every byte of its range its mirrored value, and
leaves all other bytes, the registers, the command processor and the partner's memory. Completes MIRROR_WRITE. -/
def Obligations.PairConfigurationBridgeAndMirror : Prop :=
  (∀ (s : State) (d : DieId) (v : BitVec 32) (cls : BridgeClass) (slot : List Byte), let x := s.die d
    let row := bridgeRow cls
    (x.running = true → pairCfgBad v = false → x.pairCfgRefused = false → (d = .b → s.b.cfgTied = false) →
      ∃ t, exec (.cmdPairCfgWrite d v) s = .next t ∧
      ∀ e, (t.die e).shadowI .cmdPairCfg [] = rwpMerge .cmdPairCfg ((s.die e).shadowI .cmdPairCfg []) v ∧
        (t.die e).regs = (s.die e).regs ∧ (t.die e).pair.mode = (s.die e).pair.mode ∧
        (t.die e).press.dirty = (s.die e).press.dirty ||| bits44 (Reg.cmdPairCfg.units [])) ∧
    (s.b.cfgTied = true → exec (.cmdPairCfgWrite .b v) s = .next s) ∧
    (x.pair.bridgeUp = true → slotPasses slot = true → exec (.bridgeSlotReceive d cls slot) s =
      .next (s.onDie d fun x => let y : Die := { x with pair.slotFails := vmod x.pair.slotFails row fun _ => 0 }
        if cls = .ctl then { y with pair.lastCtl := x.time, pair.heard := true } else y)) ∧
    (x.pair.bridgeUp = true → slotPasses slot = false → x.pair.slotFails[row] < 16 →
      ∃ t, exec (.bridgeSlotReceive d cls slot) s = .next t ∧
        (t.die d).pair = { x.pair with slotFails := vmod x.pair.slotFails row (· + 1) } ∧
        (t.die d.other).reg .cmdBridgeReplayCnt = (s.die d.other).reg .cmdBridgeReplayCnt + 1 ∧
        (t.die d).dram = x.dram ∧ (t.die d.other).dram = (s.die d.other).dram) ∧
    (x.pair.bridgeUp = true → slotPasses slot = false → 16 ≤ x.pair.slotFails[row] →
      ∃ t, exec (.bridgeSlotReceive d cls slot) s = .next t ∧
        ∀ e, (t.die e).pair.bridgeUp = false ∧ (t.die e).pair.ctlOut = [] ∧ (t.die e).pair.cmpOut = [] ∧
          (t.die e).pair.mirOut = [] ∧ (t.die e).flt.reports.map (fun r => r.cls) =
            (s.die e).flt.reports.map (fun r => r.cls) ++ [clsBridgeDown]) ∧
    (exec (.aliveWireToggle d) s =
      .next (s.onDie d fun x => { x with pair.lastAlive := x.time, pair.heard := true })) ∧
    (∀ m, (s.die d.other).pair.ctlOut.find? (fun m => m.applied.isSome) = some m → x.pair.bridgeUp = true →
      m.applied = some x.press.epoch → x.press.behind.getLsbD 43 = true → x.press.applied.getLsbD 43 = true →
      x.lateUnit 43 = false → ∃ t, exec (.pairCfgConfirm d) s = .next t ∧
        (t.die d).press.behind = x.press.behind &&& ~~~bit44 43 ∧ (t.die d).pair.confirmed = m.applied ∧
        ((t.die d).press.behind = 0 → (t.die d).press.activeEpoch = (t.die d).press.epoch) ∧
        (t.die d.other).pair.ctlOut = dropFirst (fun m => m.applied.isSome) (s.die d.other).pair.ctlOut ∧
        (t.die d).regs = x.regs ∧ (t.die d).dram = x.dram)) ∧
  (∀ (s : State) (d : DieId) (pa : Nat) (bs : List Byte) (rest : List MirItem),
    (s.die d.other).pair.mirOut = .write pa bs :: rest → Die.mirrored (s.die d.other) (s.die d) = true →
    ∃ t, exec (.mirrorWrite d) s = .next t ∧ (t.die d.other).pair.mirOut = rest ∧
      (∀ i < bs.length, Mem.byte (t.die d).dram.cells (pa + i) = bs.getD i 0) ∧
      (∀ a, a < pa ∨ pa + bs.length ≤ a → Mem.byte (t.die d).dram.cells a = Mem.byte (s.die d).dram.cells a) ∧
      (t.die d).regs = (s.die d).regs ∧ (t.die d).cmd = (s.die d).cmd ∧ (t.die d).xlt = (s.die d).xlt ∧
      (t.die d.other).dram = (s.die d.other).dram)

/-- The end of the initial copy into SPARE: the other die holds the memory, granules, shares, VMs, remote rings,
models and contexts of the die that copied, the contexts with their streams as far as executed, both dies take the
pressed pair configuration, and the mirror is in step, with nothing queued (R27). Completes SPARE_INITIAL_COPY_DONE. A
partner that has been silent on its alive wire and on CTL for HB_LIMIT × 4 local µs is declared lost by a die in
READY, ACTIVE or SAFE that is not across a HOLD (R41, R570); a partner's SAFE announcement over CTL declares it lost
at once and is taken. Either sets PARTNER_LOST and DEGRADED, ends an initial copy and is counted: of a die that is no
standby, and of every die but die B of a PAIRED pair, which also gives up its copies of the paired contexts (R37). A
READY standby in step, to which nothing more is on its way, takes over where AUTO_FAILOVER is 1: it is PRIMARY and
ACTIVE, its takeover runs from now, and mirroring has ended (R42). Completes PARTNER_LOST and PARTNER_SAFE_ANNOUNCE.
After a takeover: from 10 local µs die B, ACTIVE and PRIMARY, pulls PK_OUTPUT_OWNER low and refreshes it (R42, R45);
from 20 local µs the jobs may be started again; and a pull that has not been refreshed for 40 local µs is released,
not earlier. Nothing else changes. Completes TAKEOVER_OUTPUT_OWNER, TAKEOVER_JOB_RESTART and OUTPUT_OWNER_RELEASE. -/
def Obligations.InitialCopyLossAndTakeover : Prop :=
  (∀ (s : State) (d : DieId), (s.die d).pair.copying = true → (s.die d).pair.bridgeUp = true → (s.die d).pair.lost = false →
    ∃ t, exec (.spareInitialCopyDone d) s = .next t ∧ (t.die d).pair.copying = false ∧
      (t.die d).pair.mirrorSync = true ∧ (t.die d.other).pair.mirrorSync = true ∧ (t.die d).pair.mirOut = [] ∧
      (t.die d.other).dram.cells = (t.die d).dram.cells ∧ (t.die d.other).xlt.own = (t.die d).xlt.own ∧
      (t.die d.other).xlt.share = (t.die d).xlt.share ∧ (t.die d.other).xlt.vms = (t.die d).xlt.vms ∧
      (t.die d.other).torus.rings = (t.die d).torus.rings ∧
      (t.die d.other).sec.models = (t.die d).sec.models.map keepVerified ∧
      (t.die d.other).cmd.ctxs = (t.die d).cmd.ctxs.map (fun c => { c with stream := c.stream.executed }) ∧
      (t.die d).pair.mode = (t.die d.other).pair.mode) ∧
  (∀ (s : State) (d : DieId), let x := s.die d
    let declared := fun (t : State) => (t.die d).pair.lost = true ∧ (t.die d).pair.degraded = true ∧
      (t.die d).pair.copying = false ∧ (t.die d).reg .cmdPartnerLostCnt = x.reg .cmdPartnerLostCnt + 1 ∧
      ((t.die d).reg .cmdPairFlags).getLsbD 2 = true
    let plain := x.pair.role ≠ .standby ∧ (x.pair.mode = 1 → x.id = .a)
    let took := fun (t : State) => (t.die d).pair.role = .primary ∧ (t.die d).dev = .active ∧ (t.die d).pair.lost = true ∧
      (t.die d).pair.takeover = some x.time ∧ (t.die d).pair.mirrorSync = false
    let spare := x.pair.mode = 2 ∧ x.pair.role = .standby ∧ x.pair.mirrorSync = true ∧ x.dev = .ready ∧
      cfgAutoFailover (x.reg .cmdPairCfg) = true ∧ (s.die d.other).pair.mirOut = []
    x.running = true → (x.dev = .ready ∨ x.dev = .active ∨ x.dev = .safe) → x.pair.lost = false →
    (x.pair.suspended = false →
      4 * cfgHbLimit (x.reg .cmdPairCfg) * 400 ≤ (x.time - x.pair.lastAlive).toNat →
      4 * cfgHbLimit (x.reg .cmdPairCfg) * 400 ≤ (x.time - x.pair.lastCtl).toNat →
      ∃ t, exec (.partnerLost d) s = .next t ∧ (plain → declared t ∧ t.die d.other = s.die d.other) ∧ (spare → took t)) ∧
    (x.pair.bridgeUp = true → (s.die d.other).pair.ctlOut.any CtlMsg.isSafe = true →
      ∃ t, exec (.partnerSafeAnnounce d) s = .next t ∧ (plain → declared t) ∧ (spare → took t) ∧
        (plain → (t.die d.other).pair.ctlOut = dropFirst CtlMsg.isSafe (s.die d.other).pair.ctlOut))) ∧
  (∀ (s : State) (d : DieId) (since : DWord), let x := s.die d
    (x.pair.takeover = some since → x.id = .b → x.pair.role = .primary → x.dev = .active →
      10 * 400 ≤ (x.time - since).toNat →
      exec (.takeoverOutputOwner d) s = .next (s.onDie d fun x => { x with pair.pulls := some x.time })) ∧
    (x.pair.takeover = some since → x.dev = .active → 20 * 400 ≤ (x.time - since).toNat →
      exec (.takeoverJobRestart d) s = .next (s.onDie d fun x => { x with pair.jobsRestarted := true })) ∧
    (x.pair.pulls = some since → 40 * 400 ≤ (x.time - since).toNat →
      exec (.outputOwnerRelease d) s = .next (s.onDie d fun x => { x with pair.pulls := none })) ∧
    (x.pair.pulls = some since → (x.time - since).toNat < 40 * 400 → (exec (.outputOwnerRelease d) s = .next (s.onDie d id))))

/-- A paired job that has ended OK has its tags formed and sent over CMP, and waits for the partner's (R33). The
partner's tags of a job that has been tagged are compared with the die's own and the die's vote goes over CMP: where
they agree the job is released once the partner's vote agrees as well, and not before; where they differ it ends with
PAIR_MISMATCH, flagged and counted (R34). A partner's vote releases a job on which this die's comparison agreed. Tags
or a vote that stay away for CMP_TIMEOUT × 4 local µs end the job with PAIR_MISMATCH and PAIR_TIMEOUT (R35). Completes
PAIR_CHECK_DONE, PAIR_TAGS_RECEIVE and PAIR_COMPARE_TIMEOUT. The partner's projection at a checkpoint is kept with the
job it names, and taken from the stream; once this die has its own of that checkpoint too, the later of the two
decides, both are spent, and a job that it does not miss goes on (R32). Die A's decision that a job has missed its
deadline reaches die B's copy of the job, which is then decided there as well: a job without a kid that does not stop
on a miss only shows it (R348). Completes DEADLINE_PROGRESS_EXCHANGE and PAIRED_DEADLINE_DECISION. -/
def Obligations.PairedJobsAndDeadlinesAreShared : Prop :=
  (∀ (s : State) (d : DieId) (j : Job), let x := s.die d
    let p := s.die d.other
    (∀ y ts, x.job? j.slot = some j → j.paired = true → j.state = .ended → j.status = some 0x00 → j.tagged = false →
      j.pairOk = none → j.held = none → j.theirTags = none → x.running = true → x.pair.lost = false →
      formTags p x j = (y, some ts) → ∃ t, exec (.pairCheckDone d j.slot) s = .next t ∧
        (t.die d).pair.cmpOut = y.pair.cmpOut ++ [.job j.ctx j.key ts] ∧
        (t.die d).pair.tags = y.pair.tags ++
          [{ item := .job j.slot, frame := 0, tags := ts.map some, passed := 0, since := y.time }]) ∧
    (∀ c k ts, x.running = true → x.pair.bridgeUp = true → p.pair.cmpOut.find? (cmpReady x) = some (.job c k ts) →
      x.jobByKey c k = some j → x.job? j.slot = some j → j.pairOk = none → j.tagged = true →
      ∃ t, exec (.pairTagsReceive d) s = .next t ∧
        (t.die d.other).pair.cmpOut = dropFirst (cmpReady x) p.pair.cmpOut ∧
        (j.myTags = ts → (t.die d).pair.cmpOut = x.pair.cmpOut ++ [.vote j.ctx j.key .agree] ∧
          (j.theirVote = none → (t.die d).job? j.slot = some { j with myVote := some .agree, theirTags := none }) ∧
          (j.theirVote = some .agree → (t.die d).job? j.slot =
            some { j with myVote := some .agree, theirTags := none, pairOk := some true })) ∧
        (j.myTags ≠ ts → (t.die d).pair.cmpOut = x.pair.cmpOut ++ [.vote j.ctx j.key .mismatch] ∧
          (t.die d).job? j.slot = some { j with myVote := some .mismatch, theirTags := none, status := some 0x13,
                                                pairOk := some false } ∧
          (t.die d).reg .cmdPairMismatchCnt = x.reg .cmdPairMismatchCnt + 1 ∧ ((t.die d).reg .cmdPairFlags).getLsbD 0 = true)) ∧
    (∀ c k, x.running = true → x.pair.bridgeUp = true → p.pair.cmpOut.find? (cmpReady x) = some (.vote c k .agree) →
      x.jobByKey c k = some j → x.job? j.slot = some j → j.pairOk = none → j.myVote = some .agree →
      ∃ t, exec (.pairTagsReceive d) s = .next t ∧
        (t.die d).job? j.slot = some { j with theirVote := some .agree, pairOk := some true }) ∧
    (∀ w, x.pair.tags.find? (fun t => decide (t.item = .job j.slot)) = some w → x.job? j.slot = some j →
      4 * cfgCmpTimeout (x.reg .cmdPairCfg) * 400 ≤ (x.time - w.since).toNat →
      ∃ t, exec (.pairCompareTimeout d (.job j.slot)) s = .next t ∧
        (t.die d).job? j.slot = some { j with myVote := some .timeout, theirTags := none, status := some 0x13,
                                              pairOk := some false, flags := j.flags ||| 0x10 } ∧
        (t.die d).reg .cmdPairTimeoutCnt = x.reg .cmdPairTimeoutCnt + 1 ∧ ((t.die d).reg .cmdPairFlags).getLsbD 1 = true)) ∧
  (∀ (s : State) (d : DieId) (j : Job) (c k chk f : Nat) (rest : List CtlMsg), let x := s.die d
    ((s.die d.other).pair.ctlOut = .progress c k chk f :: rest → x.jobByKey c k = some j → x.job? j.slot = some j →
      ∃ t, exec (.deadlineProgressExchange d) s = .next t ∧ (t.die d.other).pair.ctlOut = rest ∧
        (j.mine.lookup chk = none → (t.die d).job? j.slot = some { j with theirs := j.theirs ++ [(chk, f)] } ∧
          (t.die d).regs = x.regs ∧ (t.die d).dram = x.dram) ∧
        (∀ g, j.mine.lookup chk = some g → j.theirs = [] → missed x j (max g f) = false →
          (t.die d).job? j.slot = some { j with mine := j.mine.filter fun e => e.1 != chk, theirs := [] })) ∧
    (∀ slot, s.a.pair.ctlOut = .deadline c k true :: rest → s.b.job? slot = some j → j.ctx = c → j.key = k →
      j.state ≠ .ended → j.isKid = false → dKidVa j.desc = 0 → dOnMiss j.desc = false →
      ∃ t dl, exec (.pairedDeadlineDecision slot) s = .next t ∧ t.a.pair.ctlOut = rest ∧
        t.b.job? slot = some { j with expired := true, projected := 0xFFFFFFFFFFFFFFFF, deadline := dl } ∧
        t.b.regs = s.b.regs ∧ t.b.dram = s.b.dram))

/-- A waiting job is released when its fence has reached its value, or at once where it waits on none (R319): its
state becomes released, with the present local time. One whose fence is below the value goes on waiting, and so does
one whose context is suspended. Completes JOB_WAIT_POLL. The scheduler starts a released job that no earlier job keeps
waiting (R326 to R328): a compute job, or a render pass that finds a free slot of the front end, gets a partition on
the first CL_COUNT clusters with room, and its shares run from now; a copy job takes the lowest idle copy engine, and
a wringer job the lowest idle engine of JOB_MASK once its parameter block has been read and found good (R331, R441).
Completes JOB_START. GROUP_DISPATCH places the next workgroup of a running compute job on the core that R132 chooses:
the lowest index to be dispatched again after a restart, or the next in index order, its groups together. A group of a
workgroup of one starts at the program's first instruction with every thread active and the argument's address in its
first two registers (R135, R326). With no room on any core that no earlier job holds the wait for preemption begins
(R329). Completes GROUP_DISPATCH. -/
def Obligations.JobsAreReleasedStartedAndDispatched : Prop :=
  (∀ (s : State) (d : DieId) (slot : Nat) (j : Job), let x := s.die d
    x.job? slot = some j → j.state = .waiting → j.held = none →
    (x.ctxState j.ctx = .suspended → exec (.jobWaitPoll d slot) s = .next (s.onDie d id)) ∧
    (x.ctxState j.ctx ≠ .suspended → x.pair.role ≠ .standby →
      (dWaitVa j.desc = 0 → exec (.jobWaitPoll d slot) s = .next (s.onDie d fun x => x.updJob slot fun q =>
        { q with state := .released, released := x.time })) ∧
      (∀ y v q, dWaitVa j.desc ≠ 0 →
        fenceUnit (s.die d.other) x (.cmdProc j.ctx (some slot)) j.ctx (dWaitVa j.desc) = (y, some v) →
        y.job? slot = some q → q.state = .waiting → y.ctxState q.ctx ≠ .suspended →
        exec (.jobWaitPoll d slot) s = .next (s.setDie d (if dWaitValue j.desc ≤ v.toNat
          then y.updJob slot fun q => { q with state := .released, released := y.time } else y))))) ∧
  (∀ (s : State) (d : DieId) (slot : Nat) (j : Job), let x := s.die d
    x.job? slot = some j → x.schedules = true → x.ctxStarts j.ctx = true → j.held = none → j.state = .released →
    (let cls := (x.clustersFor j).take (dClCount j.desc);
      (dKind j.desc = 0 ∨ dKind j.desc = 1 ∧ x.freePass ≠ none) → x.isNext j = true → j.claims = [] →
      dClCount j.desc ≤ (x.clustersFor j).length → x.epochsAgree j cls = true →
      exec (.jobStart d slot) s = .next (s.onDie d fun x => startShares x j cls) ∧
      (startShares x j cls).sh.parts.length = x.sh.parts.length + cls.length ∧
      (∀ q ∈ (startShares x j cls).jobs.list, q.slot = j.slot →
        q.state = .running ∧ q.shares.map (fun h => h.cl) = cls ∧ ∀ h ∈ q.shares, h.state = .live ∧ h.started = x.time) ∧
      ∀ p, dKind j.desc = 1 → x.freePass = some p → (startShares x j cls).passes[p] = some (Pass.fresh j.slot j.ctx)) ∧
    (∀ e, dKind j.desc = 2 → x.engineNext j = true → j.done ≠ dCount j.desc → j.shares = [] →
      (∀ c : Fin 4, (x.jobs.copies[c]).job ≠ some j.slot) → pipeIds.find? (fun c => (x.jobs.copies[c]).job == none) = some e →
      ∃ t, exec (.jobStart d slot) s = .next t ∧
        (t.die d).jobs.copies[e] = { job := some j.slot, taken := x.time, frozen := none } ∧ (t.die d).dram = x.dram) ∧
    (∀ e y b, dKind j.desc = 3 → x.engineNext j = true → j.wrg.par = [] → j.shares = [] → x.freeWringer = some e →
      readUnit (s.die d.other) x (.cmdProc j.ctx (some j.slot)) j.ctx (dWorkVa j.desc) 64 accRead = (y, some b) →
      y.job? slot = some j → wrgParOk b = true → ∃ t, exec (.jobStart d slot) s = .next t ∧
        (t.die d).wringers[e] = { Wringer.reset with job := some j.slot, use := 1 + fieldNat b 0 1, ctx := j.ctx,
                                                     taken := x.time } ∧
        (t.die d).dram = y.dram)) ∧
  (∀ (s : State) (d : DieId) (slot : Nat) (j : Job), let x := s.die d
    let cls := (inOrder (liveClusters j)).filter fun cl => !x.heldFor j cl
    x.job? slot = some j → x.schedules = true → x.ctxStarts j.ctx = true → j.held = none → j.state = .running →
    dKind j.desc = 0 → (j.dispatched < dCount j.desc ∨ j.again ≠ []) →
    (∀ c, x.bestCore cls slot (dCarve j.desc) (dRegs j.desc) (dAccs j.desc) (dWg j.desc) = some c →
      ∃ t, exec (.groupDispatch d slot) s = .next t ∧
        (t.die d).sh = (placeWorkgroup (x.carveCore c slot (dCarve j.desc)) j c (j.again.getD 0 j.dispatched) (dWg j.desc)).sh ∧
        (t.die d).jobs.list = updWhere (fun q => q.slot == slot) (fun q =>
          { q with dispatched := if j.again = [] then j.dispatched + dWg j.desc else j.dispatched, again := q.again.drop 1,
                   preemptSince := none, claims := [], shares := q.shares.map fun h => if h.cl = c.cl then
                     { h with fresh := h.fresh ++ (List.range (dWg j.desc)).map fun k => j.again.getD 0 j.dispatched + k }
                     else h }) x.jobs.list) ∧
    (∀ c p n, j.again = [] → dWg j.desc = 1 → 2 ≤ dRegs j.desc →
      x.bestCore cls slot (dCarve j.desc) (dRegs j.desc) (dAccs j.desc) 1 = some c →
      (x.carveCore c slot (dCarve j.desc)).bestPipe c (dRegs j.desc) (dAccs j.desc) = some (p, n) →
      ∃ t g, exec (.groupDispatch d slot) s = .next t ∧ (t.die d).sh.groups = x.sh.groups ++ [g] ∧ g.job = j.slot ∧
        g.ctx = j.ctx ∧ g.idx = j.dispatched ∧ g.loc.cl = c.cl ∧ g.loc.core = c.core ∧ g.loc.pipe = p ∧
        g.pc = BitVec.ofNat 48 (dWorkVa j.desc) ∧ g.active = BitVec.allOnes 64 ∧ g.exited = 0 ∧
        g.regs.length = dRegs j.desc ∧ g.accs.length = dAccs j.desc ∧ g.stack = [] ∧ g.frozen = none ∧
        (∀ l : Fin 64, ((g.regs.getD 0 (Vector.replicate 64 0))[l]) = BitVec.ofNat 32 (dArgVa j.desc) ∧
          ((g.regs.getD 1 (Vector.replicate 64 0))[l]) = BitVec.ofNat 32 (dArgVa j.desc / 2 ^ 32 % 2 ^ 16))) ∧
    (x.bestCore cls slot (dCarve j.desc) (dRegs j.desc) (dAccs j.desc) (dWg j.desc) = none →
      exec (.groupDispatch d slot) s = .next (s.onDie d fun x => x.updJob slot fun q =>
        { q with preemptSince := some (q.preemptSince.getD x.time) })))

/-- Preemption and requests to fold (R329, R335, R336, R340): when the wait of a job has expired the latest share of a
higher CLASS whose folding makes room is asked to fold, the job's claim holds the cluster, and JOB_PREEMPT_CNT counts
it; a request for a live share of an unpaired compute job marks the share and its partition folding, and starts
FP_LIMIT for its groups; a request that the partner sent for a paired one is taken from its message; a group that has
not reached a fold point within FP_LIMIT ends the job FOLD_LATE, with a record. Completes PREEMPT_WAIT_EXPIRY,
SHARE_FOLD and FOLD_LATE. A folding share of a compute job whose groups have all stopped is saved and its resources
are taken back: its partition bytes and group records go to its core regions, and its directory entry to the save area
(R335, R342, R343). One with no group left saves nothing: it finishes, or is folded without an image while its job has
groups to dispatch (R341). A share that has begun to unfold and whose regions have been read gets its partition's
bytes and its groups back, and is live and counted (R330, R333); a folded share begins to unfold on a cluster with
room (R330). Completes FOLD_DONE, UNFOLD_DONE and SHARE_UNFOLD. -/
def Obligations.SharesFoldAndUnfold : Prop :=
  (∀ (s : State) (d : DieId) (slot : Nat) (j : Job), let x := s.die d
    (∀ since cl v, x.job? slot = some j → j.preemptSince = some since → x.schedules = true →
      x.fld .jobCfg [] 15 8 * 400 ≤ (x.time - since).toNat → inOrder (liveClusters j) = [cl] →
      (x.victims j cl).find? (fun v => (x.without cl [v.1.slot]).wgFits j cl) = some v →
      exec (.preemptWaitExpiry d slot) s = .next (s.onDie d fun x =>
        ((requestFold x v.1.slot cl).count .jobPreemptCnt).updJob slot fun q =>
          { q with preemptSince := some x.time, claims := [cl] })) ∧
    (∀ cl h, x.job? slot = some j → (s.die d.other).pair.ctlOut = [] →
      j.shares.find? (fun h => decide (h.cl = cl) && decide (h.state = .live)) = some h → dKind j.desc = 0 → j.paired = false →
      ∃ t, exec (.shareFold d slot cl) s = .next t ∧
        (∀ q ∈ (t.die d).jobs.list, q.slot = slot → ∀ u ∈ q.shares, u.cl = cl → u.state ≠ .live) ∧
        (∀ r ∈ (t.die d).sh.parts, r.job = slot → r.cl = cl → r.kind = 2) ∧
        (∀ g ∈ (t.die d).sh.groups, g.job = slot → g.loc.cl = cl → g.foldTime = 0) ∧
        (t.die d).dram = x.dram ∧ (t.die d).regs = x.regs) ∧
    (∀ cl h rest, x.job? slot = some j → (s.die d.other).pair.ctlOut = .foldRequest j.ctx j.key h.index :: rest →
      j.shares.find? (fun u => u.index == h.index) = some h → h.state = .live → dKind j.desc = 0 →
      ∃ t, exec (.shareFold d slot cl) s = .next t ∧
        ((s.die d.other).pair.bridgeUp = true → (t.die d.other).pair.ctlOut = rest) ∧
        (∀ q ∈ (t.die d).jobs.list, q.slot = slot → ∀ u ∈ q.shares, u.cl = h.cl → u.state ≠ .live)) ∧
    (∀ g t, x.group? g = some t → x.folding t.job g.cl = true → t.stopped = false → t.frozen = none →
      64 * x.fld .jobCfg [] 4 0 ≤ t.foldTime → x.job? t.job = some j →
      exec (.foldLate d g) s = .next (s.onDie d fun x => (endJob (s.die d.other) x t.job 0x16).note 0x18
        (.cmdProc j.ctx (some j.slot)) { flags := 0, ctx := j.ctx, va := 0, detail := j.id.toNat, thing := 0 }))) ∧
  (∀ (s : State) (d : DieId) (slot : Nat) (cl : Fin 6) (j : Job) (h : Share), let x := s.die d
    x.job? slot = some j → j.held = none → dKind j.desc = 0 →
    (∀ q, j.shares.find? (fun h => decide (h.cl = cl) && decide (h.state = .folding)) = some h → x.part? slot cl = some q →
      x.running = true → x.dev ≠ .safe → foldReady x j h = true →
      (shareEmpty x j h = true → exec (.foldDone d slot cl) s = .next (s.onDie d fun x => (x.takeShare slot cl).updJob slot
        fun t => { t with shares := updWhere (fun u => u.index == h.index) (fun u =>
          { u with state := if j.dispatched < dCount j.desc ∨ j.again ≠ [] then .folded else .finished, image := 0,
                   cores := [], fresh := [], ended := 0, wring := false }) t.shares })) ∧
      (shareEmpty x j h = false → h.wring = false → ∀ y z,
        let counts := coreIds.map fun k => (x.coreGroups slot { cl := cl, core := k }).length
        let ws := plainWrites x j h q.mask
        writeRegions (s.die d.other) x j cl false ws = (y, true) →
        writeDirectory (s.die d.other) y j h 1 (writtenBytes ws) counts = (z, true) →
        exec (.foldDone d slot cl) s = .next (s.setDie d (shareFolded z j h 1 counts)))) ∧
    (∀ q y z dir regs, j.shares.find? (fun h => decide (h.cl = cl) && decide (h.state = .unfolding)) = some h →
      x.part? slot cl = some q → x.running = true → x.dev ≠ .safe →
      readUnit (s.die d.other) x (.stream { cl := cl, core := 0 } slot) j.ctx (dSaveVa j.desc + 0x20 + 128 * h.index) 128
        accRead = (y, some dir) →
      readRegions (s.die d.other) y j cl h.index dir = (z, some regs) → (regs.any fun r => r.2.isNone) = false →
      let w := regs.foldl (fun v r => restoreCore v j q.mask { cl := cl, core := r.1 } (fieldNat dir (0x10 + r.1.val) 1)
        (r.2.getD [])) z
      ∃ t, exec (.unfoldDone d slot cl) s = .next t ∧ (t.die d).sh.groups = w.sh.groups ∧ (t.die d).sh.tlm = w.sh.tlm ∧
        (t.die d).jobs.list = updWhere (fun q => q.slot == slot) (fun q => { q with shares := q.shares.map fun u =>
          if u.index = h.index then { u with state := .live, fresh := [], ended := 0 } else u }) z.jobs.list ∧
        (t.die d).reg .jobUnfoldCnt = z.reg .jobUnfoldCnt + 1 ∧
        (∀ r ∈ (t.die d).sh.parts, r.job = slot → r.cl = cl → r.kind = 0) ∧ (t.die d).dram = z.dram) ∧
    (j.foldedShare = some h → x.mayUnfold j = true → j.paired = false → (x.unfoldClusters j h).contains cl = true →
      x.epochsAgree j (cl :: (j.shares.filter fun t => decide (t.state ≠ .folded) && decide (t.state ≠ .finished)).map
        fun t => t.cl) = true →
      (h.image ≠ 0 → exec (.shareUnfold d slot cl) s = .next (s.onDie d fun x =>
        (x.givePart cl j.slot j.ctx 2 (dSteps j.desc)).updJob j.slot fun t => { t with shares := t.shares.map fun u =>
          if u.index = h.index then { u with cl := cl, state := .unfolding, started := x.time } else u })) ∧
      (h.image = 0 → exec (.shareUnfold d slot cl) s = .next (s.onDie d fun x =>
        (x.givePart cl j.slot j.ctx 0 (dSteps j.desc)).updJob j.slot fun t => { t with shares := t.shares.map fun u =>
          if u.index = h.index then { u with cl := cl, state := .live, started := x.time } else u }))))

/-- A copy engine moves the next unit of its job, at most 4 KiB, from source to destination as one access unit, and
goes idle after the last (R331, R365). A running job whose work is done and whose stores have all been performed ends
OK, with DEGRADED for a kid and LATE once its deadline has passed, which JOB_LATE_CNT counts for an unpaired job
(R320, R323, R351). An ended job writes its end record, signals its fence where it ended OK, each where it has one,
and with no follow-on frees its slot (R321). Completes COPY_UNIT, JOB_WORK_DONE and JOB_END_SEQUENCE. Ending a job
fixes its status and end time, gives back its groups, partitions, pass and engines, and counts it (R319, R322): no
group of it stays resident and no partition stays with it. -/
def Obligations.JobsMoveEndAndLeave : Prop :=
  (∀ (s : State) (d : DieId) (slot : Nat) (j : Job), let x := s.die d
    let p := s.die d.other
    let m : Master := .cmdProc j.ctx (some slot)
    x.job? slot = some j → j.held = none →
    (∀ (e : Fin 4) y z pm, let n := min 4096 (dCount j.desc - j.done)
      (x.jobs.copies[e]).job = some slot → (x.jobs.copies[e]).frozen = none → x.schedules = true →
      x.ctxStarts j.ctx = true → x.power.therm ≠ 2 → prewalk p x (.copy e) j.ctx
        [{ va := dWorkVa j.desc + j.done, len := n, acc := accRead }, { va := dArgVa j.desc + j.done, len := n, acc := accWrite }] =
          (y, some pm) →
      fetchRange p y (.copy e) j.ctx pm { va := dWorkVa j.desc + j.done, len := n, acc := accRead } = (z, true) →
      let w := storeBytes p z j.ctx pm (dArgVa j.desc + j.done) (viewBytes z pm (dWorkVa j.desc + j.done) n)
      ∃ t, exec (.copyUnit d e) s = .next t ∧ (t.die d).dram = w.dram ∧ (t.die d).cache = w.cache ∧
        (t.die d).jobs.list = updWhere (fun q => q.slot == slot) (fun q => { q with done := q.done + n }) w.jobs.list ∧
        (j.done + n = dCount j.desc → (t.die d).jobs.copies[e] = CopyEng.reset)) ∧
    (let late := decide (dDlMode j.desc ≠ 0) && x.deadlinePassed j 1;
      j.state = .running → x.workDone j = true → x.storesDone slot = true →
      exec (.jobWorkDone d slot) s = .next (s.onDie d fun x =>
        let y := endJob p (x.updJob slot fun q =>
          { q with flags := q.flags ||| ((if j.isKid then 1 else 0) ||| (if late then 4 else 0)) }) slot 0x00
        if late && !j.paired then y.count .jobLateCnt else y)) ∧
    (let freed : Die → State → Prop := fun z t => (t.die d).job? slot = none ∧
        (∀ k, k ≠ slot → (t.die d).job? k = z.job? k) ∧ (t.die d).dram = z.dram ∧ (t.die d).regs = z.regs;
      j.state = .ended → j.paired = false → j.endStep = 0 → dNextVa j.desc = 0 →
      (dStatusVa j.desc = 0 → dSigVa j.desc = 0 → ∃ t, exec (.jobEndSequence d slot) s = .next t ∧ freed x t) ∧
      (∀ y w z, dStatusVa j.desc ≠ 0 → dStatusVa j.desc % 64 = 0 → dSigVa j.desc = 0 →
        readProgress p x j = (y, some w) → writeUnit p y m j.ctx (dStatusVa j.desc) (endRecord j w) accWrite = (z, true) →
        z.job? slot = some j → ∃ t, exec (.jobEndSequence d slot) s = .next t ∧ freed z t) ∧
      (∀ z v, dStatusVa j.desc = 0 → dSigVa j.desc ≠ 0 → dSigVa j.desc % 8 = 0 → j.status = some 0x00 →
        signalUnit p (x.updJob slot fun q => { q with endStep := 1 }) m j.ctx (dSigVa j.desc)
          (BitVec.ofNat 64 (dSigValue j.desc)) = (z, some v) →
        z.job? slot = some { j with endStep := 1 } → ∃ t, exec (.jobEndSequence d slot) s = .next t ∧ freed z t))) ∧
  (∀ (p x : Die) (slot : Nat) (st : Byte) (j : Job), x.job? slot = some j → j.state ≠ .ended →
    (∀ q ∈ (endJob p x slot st).jobs.list, q.slot = slot → q.state = .ended ∧ q.status = some st ∧ q.shares = []) ∧
    (∀ t ∈ (endJob p x slot st).sh.groups, t.job ≠ slot) ∧ (∀ r ∈ (endJob p x slot st).sh.parts, r.job ≠ slot) ∧
    (∀ q, some q ∈ (endJob p x slot st).passes.toList → q.job ≠ slot) ∧
    (∀ e : Fin 4, ((endJob p x slot st).jobs.copies[e]).job ≠ some slot) ∧
    (∀ e : Fin 8, ((endJob p x slot st).wringers[e]).job ≠ some slot))

/-- The deadline monitor (R345 to R349), for a job that is not paired: a checkpoint that is due records itself and its
deadline, and a projected end past D + MARGIN acts on the miss; a checkpoint of a job whose work is done passes; the
evaluation at D + MARGIN is taken once, and acts. A parity error in what a group reads freezes it, is counted and
reported, and restarts its share, and one in tile memory that a stream engine reads restarts its job likewise (R234,
R341, R476): the restart is counted and flagged, a share with a fold image goes back to it with its groups ended since
no longer done, a compute job without one begins again, and a fourth restart ends the job with PARITY. Completes
DEADLINE_CHECKPOINT, DEADLINE_EXPIRY and PARITY_RESTART. -/
def Obligations.DeadlinesAndRestarts : Prop :=
  ∀ (s : State) (d : DieId) (slot : Nat) (j : Job), let x := s.die d
    let p := s.die d.other
    (x.job? slot = some j → j.held = none → j.paired = false → x.running = true → x.dev ≠ .safe → dDlMode j.desc ≠ 0 →
      j.state = .running →
      (j.kidDue = false → j.nextChk < dChkCount j.desc → j.checkpointAt j.nextChk ≤ x.time.toNat →
        (x.workOver j = true → exec (.deadlineCheckpoint d slot) s = .next (s.onDie d fun x => x.updJob slot fun q =>
          { q with nextChk := j.nextChk + 1 })) ∧
        (∀ y w, x.workOver j = false → readProgress p x j = (y, some w) →
          let z := y.updJob slot fun q => { q with nextChk := j.nextChk + 1, lastChk := BitVec.ofNat 8 j.nextChk,
                                                   deadline := dwordOfInt ((y.deadlineOf j).getD (y.time.toNat : Int)) }
          exec (.deadlineCheckpoint d slot) s = .next (s.setDie d (if missed z j (projection y j j.nextChk w) then
            onMiss p z slot (projection y j j.nextChk w) true else z)))) ∧
      (∀ y w, j.expired = false → x.deadlinePassed j (marginCycles j) = true → x.workOver j = false →
        readProgress p x j = (y, some w) →
        exec (.deadlineExpiry d slot) s = .next (s.setDie d (onMiss p
          (y.updJob slot fun q => { q with expired := true }) slot (projectedEnd y j w) true)))) ∧
    (∀ g t what, (∀ n o, what ≠ .streamRead n o) → x.group? g = some t → let q := parityOf x what
      exec (.parityRestart d g what) s = .next (s.onDie d fun x => restartJob p
        (((x.tick.count q.2.2).freezeGroup g q.1).report q.1 (.group g)
          { flags := 0, ctx := t.ctx, va := 0, detail := q.2.1, thing := 0 } true) t.job g.cl)) ∧
    (∀ g n o q, x.job? n.toNat = some j → x.part? n.toNat g.cl = some q →
      exec (.parityRestart d g (.streamRead n o)) s = .next (s.onDie d fun x => restartJob p
        ((x.count .tlmParityCnt).report 0x22 (.stream (coreOf g) n.toNat)
          { flags := 0, ctx := j.ctx, va := 0, detail := o.toNat, thing := 0 } true) n.toNat g.cl)) ∧
    (∀ p x : Die, ∀ cl, x.job? slot = some j →
      (3 ≤ j.restarts → restartJob p x slot cl = endJob p x slot 0x17) ∧
      (∀ h, j.restarts < 3 → j.shares.find? (fun h => decide (h.cl = cl) && decide (h.state ≠ .folded)) = some h →
        dKind j.desc = 0 → let y := restartJob p x slot cl
        (h.image ≠ 0 → y.reg .jobRestartCnt = x.reg .jobRestartCnt + 1 ∧ ∃ q, y.job? slot = some q ∧
          q.restarts = j.restarts + 1 ∧ q.flags = j.flags ||| 0x08 ∧ q.state = j.state ∧ q.done = j.done - h.ended ∧
          q.again = (h.fresh.filter fun i => i % dWg j.desc == 0) ++ j.again ∧
          ∀ u ∈ q.shares, u.index = h.index → u.state = .folded) ∧
        (h.image = 0 → ∀ q ∈ y.jobs.list, q.slot = slot → q.state = .released ∧ q.shares = [] ∧ q.dispatched = 0 ∧
          q.done = 0 ∧ q.again = [] ∧ q.held = none)))

/-- The oldest report at the darner: with the key of an open shared place it merges into that place, whose COUNT rises
and saturates at 0xFFFF; with a new key and fewer than 48 shared places in use it opens a place with COUNT 1 and the
next FAULT_ID, and a held report becomes a held fault (R486, R487, R488). Either way FLT_REPORT_CNT of its class
counts it and it leaves the reports. A report of a source with a reserved place opens that place when it is free; with
another key than the place holds it is suppressed and counted. A report that is alone, with a new key, of another
class than the pair's, and finds 48 shared places in use waits. Completes DARNER_REPORT. When the window of WINDOW × 4
FCLK cycles of an open place has passed, its record enters the fault queue of 1,024 records and the place frees; with
the queue full, or with a record already held, it is held in its place and the overflow is flagged and counted (R381,
R382, R487). A window that has not passed changes nothing. Once the queue has room, the first held record enters it
with FLAGS bit 5 set. Completes DARNER_RECORD_CLOSE and HELD_RECORD_ENQUEUE. -/
def Obligations.TheDarnerTakesAndQueuesReports : Prop :=
  (∀ (s : State) (d : DieId) (r : Report) (rs : List Report), let x := s.die d
    let same : Place → Bool := fun q => !q.reserved && !q.held && q.matches r
    let mine : Place → Bool := fun q => q.reserved && sourceId q.who == sourceId r.who
    x.flt.reports = r :: rs →
    (reservedSource r.who r.cls = true →
      (x.flt.darner.any mine = false → ∃ t q, exec (.darnerReport d) s = .next t ∧ (t.die d).flt.reports = rs ∧
        (t.die d).flt.darner = x.flt.darner ++ [q] ∧ q.reserved = true ∧ q.record.cls = r.cls ∧ q.record.count = 1 ∧
        (t.die d).flt.serial = x.flt.serial + 1) ∧
      (x.flt.darner.any mine = true → (x.flt.darner.any fun q => mine q && q.matches r) = false →
        ∃ t, exec (.darnerReport d) s = .next t ∧ (t.die d).flt.reports = rs ∧ (t.die d).flt.darner = x.flt.darner ∧
          (t.die d).reg .fltSuppressCnt = x.reg .fltSuppressCnt + 1)) ∧
    (reservedSource r.who r.cls = false →
    (∀ q, x.flt.darner.find? same = some q → ∃ t, exec (.darnerReport d) s = .next t ∧ (t.die d).flt.reports = rs ∧
      (t.die d).flt.darner = updFirst same (fun q => q.merge x.id x.time r) x.flt.darner ∧
      (q.merge x.id x.time r).record.count = (if q.record.count = 0xFFFF then 0xFFFF else q.record.count + 1) ∧
      (t.die d).flt.serial = x.flt.serial ∧ (t.die d).flt.queue = x.flt.queue ∧
      (t.die d).regI .fltReportCnt [r.cls.toNat % 64] = x.regI .fltReportCnt [r.cls.toNat % 64] + 1) ∧
    (x.flt.darner.any same = false → x.sharedBusy < 48 → ∃ t q, exec (.darnerReport d) s = .next t ∧
      (t.die d).flt.reports = rs ∧ (t.die d).flt.darner = x.flt.darner ++ [q] ∧ q.record.cls = r.cls ∧
      q.record.count = 1 ∧ q.record.epoch = r.epoch ∧ q.record.detail = r.detail ∧ q.record.flags = r.flags ∧
      q.record.id = BitVec.ofNat 32 (x.flt.serial.toNat + r.ctx * 2 ^ 20) ∧ q.opened = x.time ∧
      (t.die d).flt.serial = x.flt.serial + 1 ∧ (t.die d).flt.queue = x.flt.queue ∧
      (t.die d).flt.faults = x.flt.faults ++ (if r.held then
        [{ fid := x.flt.serial, cls := r.cls, ctx := r.ctx, reporters := if r.gone then [] else [r.who], page := r.va.toNat }]
        else [])) ∧
    (x.flt.darner.any same = false → 48 ≤ x.sharedBusy → rs = [] → r.cls ≠ 0x30 → r.cls ≠ 0x31 →
      exec (.darnerReport d) s = .next (s.onDie d id)))) ∧
  (∀ (s : State) (d : DieId), let x := s.die d
    (∀ i q, x.flt.darner[i]? = some q → q.held = false → x.windowPassed q = true → x.flt.queue.length < 1024 →
      (x.flt.darner.any fun t => t.held) = false → ∃ t, exec (.darnerRecordClose d i) s = .next t ∧
        (t.die d).flt.queue = x.flt.queue ++ [q.record] ∧ (t.die d).flt.darner = x.flt.darner.eraseIdx i ∧
        (t.die d).reg .fltRecordCnt = x.reg .fltRecordCnt + 1) ∧
    (∀ i q, x.flt.darner[i]? = some q → q.held = false → x.windowPassed q = true →
      (1024 ≤ x.flt.queue.length ∨ (x.flt.darner.any fun t => t.held) = true) →
      ∃ t, exec (.darnerRecordClose d i) s = .next t ∧ (t.die d).flt.queue = x.flt.queue ∧
        (t.die d).flt.darner = x.flt.darner.eraseIdx i ++ [{ q with held := true, opened := x.time }] ∧
        ((t.die d).reg .fltQueueStatus).getLsbD 31 = true) ∧
    (∀ i q, x.flt.darner[i]? = some q → x.windowPassed q = false → exec (.darnerRecordClose d i) s = .next (s.onDie d id)) ∧
    (∀ i q, x.flt.queue.length < 1024 → nextHeld x.flt.darner 0 none = some (i, q) →
      ∃ t, exec (.heldRecordEnqueue d) s = .next t ∧
        (t.die d).flt.queue = x.flt.queue ++ [{ q.record with flags := q.record.flags ||| 0x20 }] ∧
        (t.die d).flt.darner = x.flt.darner.eraseIdx i))

/-- Resolutions (R377, R384): REPLAY of a held fault drops it, counts it, and unfreezes its reporters, or finishes the
migration that a MIG_HOST fault names. REPLAY_WRUNG acts as REPLAY where no migration is named; for one of a page
below 2 MiB it first decompresses the page in its frame, a failed check is counted and leaves the fault held, and a 2
MiB page is refused. KILL of a fault of a tenant's context makes that context FAULTED, ends its work and is counted; a
FAULT_ID that names no held fault, and KILL of context 0, change nothing. Completes REPLAY, REPLAY_WRUNG and KILL. A
group that a fault froze runs again when its fault is replayed, and nothing else of it changes (R366, R482). -/
def Obligations.HeldFaultsAreResolved : Prop :=
  (∀ (s : State) (d : DieId) (fid : BitVec 20) (h : HeldFault), let x := s.die d
    let p := s.die d.other
    let y := ({ x with flt.faults := x.flt.faults.filter fun f => f.fid != h.fid } : Die).count .xltReplayCnt
    (x.heldFault fid = some h →
      (x.faultMig h = none →
        exec (.replay d fid) s = .next (s.setDie d (h.reporters.foldl (fun y m => unfreeze p y m) y)) ∧
        exec (.replayWrung d fid) s = .next (s.setDie d (h.reporters.foldl (fun y m => unfreeze p y m) y))) ∧
      (∀ g, x.faultMig h = some g →
        exec (.replay d fid) s = .next (s.setDie d (finishMigration p y g)) ∧
        (g.size = 2097152 → exec (.replayWrung d fid) s = .next (s.onDie d id)) ∧
        (∀ pas z bad, g.size ≠ 2097152 → framePas x g.ctx g.frameIpa g.size = some pas →
          l2ReadRange p x (pas.getD 0 0) g.size = (z, bad) →
          (∀ out, bad = none → unwringPage (z.l2Bytes (pas.getD 0 0) g.size) g.size = some out →
            exec (.replayWrung d fid) s = .next (s.setDie d (replayFault p (fillFrame p z g.ctx g.size pas out) h))) ∧
          (unwringPage (z.l2Bytes (pas.getD 0 0) g.size) g.size = none →
            exec (.replayWrung d fid) s = .next (s.setDie d ((z.flag .xltFlags 0).count .xltWrungFailCnt))))) ∧
      (h.ctx ≠ 0 → exec (.kill d fid) s = .next (s.onDie d fun x =>
        (endContextWork p (x.updCtx h.ctx fun t => { t with state := .faulted }) h.ctx true).count .xltKillCnt)) ∧
      (h.ctx = 0 → exec (.kill d fid) s = .next (s.onDie d id))) ∧
    (x.heldFault fid = none → exec (.replay d fid) s = .next (s.onDie d id) ∧
      exec (.replayWrung d fid) s = .next (s.onDie d id) ∧ exec (.kill d fid) s = .next (s.onDie d id))) ∧
  (∀ (p x : Die) (g : GrpLoc), (unfreeze p x (.group g)).sh.groups =
      updWhere (fun t => decide (t.loc = g)) (fun t => { t with frozen := none }) x.sh.groups ∧
    (unfreeze p x (.group g)).dram = x.dram ∧ (unfreeze p x (.group g)).regs = x.regs)

/-- Invalidations (R364): once the access units pre-walked before of the contexts concerned have been performed, each
drops exactly the translations of its scope, at every level, and the entries of the walk caches, counts itself, and
leaves the tables, the ownership table and memory as they are: scope 0 all, scope 1 a context's, scope 2 a VM's, scope
3 those of a context that overlap the range, with all of that context's walk-cache entries (log entry 70: they hold no
VAs). Scopes 1 and 3 of context 0 are refused. Completes INV_ALL, INV_CONTEXT, INV_VM and INV_RANGE. Once every access
unit pre-walked before has been performed, a word of the selected share group's map takes its new value, bit 0 of word
0 excepted, and the other words keep theirs; the L1s keep no line of a context whose bit has been cleared (R371,
R375). Completes OWN_SHARE_WORD_WRITE. -/
def Obligations.InvalidationsAndShareWords : Prop :=
  (∀ (s : State) (d : DieId) (ctx : BitVec 10) (vm : BitVec 8) (pages : BitVec 12), let x := s.die d
    let drops := fun (c : Instr) (who : Nat → Bool) (gone : TlbEnt → Bool) (walks : WalkEnt → Bool) =>
      let z := performUnits who (s.die d.other) x
      ∃ t, exec c s = .next t ∧ (t.die d).xlt.tlb = z.xlt.tlb.filter (fun e => !gone e) ∧
        (∀ n ∈ (t.die d).xlt.near, ∀ e ∈ n.ents, gone e = false) ∧
        (t.die d).xlt.walk = z.xlt.walk.filter (fun e => !walks e) ∧
        (t.die d).reg .xltInvCnt = z.reg .xltInvCnt + 1 ∧ (t.die d).xlt.own = z.xlt.own ∧ (t.die d).xlt.vms = z.xlt.vms ∧
        (t.die d).dram = z.dram ∧ (t.die d).cmd = z.cmd ∧ t.die d.other = s.die d.other
    let z := performUnits (fun c => c == ctx.toNat) (s.die d.other) x
    drops (.invAll d) (fun _ => true) (fun _ => true) (fun _ => true) ∧
    drops (.invVm d vm) (fun c => x.vmidOf c == vm) (fun e => e.vmid == vm) (fun e => e.vmid == vm) ∧
    (ctx ≠ 0 → drops (.invContext d ctx) (fun c => c == ctx.toNat) (fun e => e.ctx == ctx.toNat)
        (fun e => e.stage == 1 && e.ctx == ctx.toNat) ∧
      drops (.invRange d ctx pages) (fun c => c == ctx.toNat) (fun e => e.ctx == ctx.toNat &&
        decide (e.va < z.invVa + 4096 * (pages.toNat + 1)) && decide (z.invVa < e.va + e.len))
        (fun e => e.stage == 1 && e.ctx == ctx.toNat)) ∧
    exec (.invContext d 0) s = .next (s.onDie d id) ∧ exec (.invRange d 0 pages) s = .next (s.onDie d id)) ∧
  (∀ (s : State) (d : DieId) (i : Fin 32) (v : BitVec 32), ∃ t, exec (.ownShareWordWrite d i v) s = .next t ∧
    let z := performUnits (fun _ => true) (s.die d.other) (s.die d)
    let k := z.fld .ownShareSel [] 10 0 * 32 + i.val
    let old := spGet (fun _ => (0 : Word)) z.xlt.share k
    let new := if i = 0 then v &&& 0xFFFFFFFE else v
    spGet (fun _ => 0) (t.die d).xlt.share k = new ∧
    (∀ j, j ≠ k → spGet (fun _ => (0 : Word)) (t.die d).xlt.share j = spGet (fun _ => 0) z.xlt.share j) ∧
    (∀ c, c / 32 = i.val → bitOf (old &&& ~~~new).toNat (c % 32) = true →
      ∀ l ∈ (t.die d).cache.l1s, ∀ q ∈ l.lines, q.ctx ≠ c) ∧
    (t.die d).dram = z.dram ∧ (t.die d).xlt.own = z.xlt.own)

/-- The filling of a migrating frame has ended (R383, R385): a ZERO fill, or a PEER reply of the page's size, onto a
frame that stage 2 still maps finishes the migration, and one onto a frame that it does not map fails it with cause 1;
a PEER fault or timeout fails it with its cause. Firmware's write of the entry that fails its ownership check fails it
too (the model's choice, log entry 156). An error of an ownership entry that the copy repairs is counted; one that the
copy cannot repair sends OWN_TABLE_PARITY, and a READY or ACTIVE die enters SAFE (R479). Completes MIGRATION_FILL_DONE
and OWN_ENTRY_PARITY_REPAIR. A migration that finishes leaves the migrations in progress, writes its entry valid with
TYPE 3, its rights and its address kept (R383 step 6), and counts its kind. -/
def Obligations.MigrationsAndTableErrorsEnd : Prop :=
  (∀ (s : State) (d : DieId) (ctx page : Nat) (g : Migration) (pas : List Nat) (bs : List Byte), let x := s.die d
    let p := s.die d.other
    x.xlt.migs.find? (fun g => g.ctx == ctx && g.page == page) = some g →
    (g.kind = 1 → framePas x g.ctx g.frameIpa g.size = some pas → exec (.migrationFillDone d ctx page .zeroDone) s =
      .next (s.onDie d fun x => finishMigration p (zeroFrame p x (min g.size 262144) pas) g)) ∧
    (g.kind = 3 → bs.length = g.size → framePas x g.ctx g.frameIpa g.size = some pas →
      exec (.migrationFillDone d ctx page (.peerData bs)) s =
        .next (s.onDie d fun x => finishMigration p (fillFrame p x g.ctx (min g.size 262144) pas bs) g)) ∧
    (framePas x g.ctx g.frameIpa g.size = none →
      (g.kind = 1 → exec (.migrationFillDone d ctx page .zeroDone) s = .next (s.onDie d fun x => failMigration p x g 1)) ∧
      (g.kind = 3 → bs.length = g.size →
        exec (.migrationFillDone d ctx page (.peerData bs)) s = .next (s.onDie d fun x => failMigration p x g 1))) ∧
    (∀ y cls, y.ownCheck g.entryPa g.ctx (y.vmidOf g.ctx) accWrite .migration = some cls →
      finishMigration p y g = failMigration p (y.countFault cls) g 1) ∧
    (g.kind = 3 → exec (.migrationFillDone d ctx page .peerTimeout) s = .next (s.onDie d fun x => failMigration p x g 2) ∧
      exec (.migrationFillDone d ctx page .peerFault) s = .next (s.onDie d fun x => failMigration p x g 3)) ∧
    (∀ granule, (∃ t, exec (.ownEntryParityRepair d granule true) s = .next t ∧
        (t.die d).reg .fltOwnParityCnt = x.reg .fltOwnParityCnt + 1 ∧ (t.die d).xlt = x.xlt) ∧
      ∃ t r, exec (.ownEntryParityRepair d granule false) s = .next t ∧ (t.die d).flt.reports = x.flt.reports ++ [r] ∧
        r.cls = 0x28 ∧ r.detail = BitVec.ofNat 64 (granule % 524288) ∧
        ((x.dev = .ready ∨ x.dev = .active) → (t.die d).dev = .safe))) ∧
  ((∀ (x : Die) (g : Migration), (dropMig x g).xlt.migs = dropFirst (isMig g) x.xlt.migs) ∧
  (∀ e : DWord, let n := BitVec.ofNat 64 (validEntry e)
    entV n = true ∧ entType n = 3 ∧ entR n = entR e ∧ entW n = entW e ∧ entX n = entX e ∧ entAddr n = entAddr e ∧ entCont n = 0))

/-- The line of an L1 miss register arrives once its slice has answered: it is installed with the context and VMID of
its request, stale after an acquire fence, its register frees and each load that asked for a sector of it receives the
bytes (R216, R217). A line that fails parity as the core reads it is counted, not kept, and asked for again; one that
fails in the slice leaves it and is asked for again, and one of the carved L2 stops its requests (R234). The line of
an L2 miss register arrives from DRAM: its register frees and every core that waits on it is answered with the line's
bytes, DRAM keeping its contents (R228); one whose words cannot be read stops the requests that wait on it (R477).
Completes L1_LINE_FILL and L2_LINE_FILL. -/
def Obligations.MissedLinesArrive : Prop :=
  ∀ (s : State) (d : DieId), let x := s.die d
    let p := s.die d.other
    (∀ (c : CoreLoc) (mr : Nat) (m : MissReg) (bs : List Byte), (x.l1 c).miss[mr]? = some m → m.answer = some bs →
      let line : L1Line := { pa := m.pa, way := 0, ctx := m.ctx, vmid := m.vmid, stale := m.fenced, data := coreLine x c m.pa }
      let y := (l1Install x c line).1.onL1 c fun t => { t with miss := t.miss.filter fun k => k.pa != m.pa }
      let give : Die → GrpLoc → Die := fun y g =>
        y.updGroup g fun t => t.receive (m.reqs.filter fun r => decide (r.grp = g)) m.pa line.data
      exec (.l1LineFill d c mr .good) s = .next (s.setDie d (serveCore p ((m.reqs.map (fun r => r.grp)).eraseDups.foldl give y) c)) ∧
      (∃ t, exec (.l1LineFill d c mr .core) s = .next t ∧ (t.die d).dram.cells = x.dram.cells ∧
        (t.die d).reg .locParityCnt = x.reg .locParityCnt + 1 ∧ (∀ l ∈ ((t.die d).l1 c).lines, l.pa ≠ m.pa)) ∧
      (∀ l, inWindow m.pa = false → (x.l2 (sliceOf m.pa)).lines.find? (fun l => l.pa == m.pa) = some l →
        ∃ t, exec (.l1LineFill d c mr .slice) s = .next t ∧ (t.die d).dram.cells = x.dram.cells ∧
          (t.die d).reg .l2cParityCnt = x.reg .l2cParityCnt + 1) ∧
      (inWindow m.pa = true → ∃ t, exec (.l1LineFill d c mr .slice) s = .next t ∧
        (t.die d).reg .l2cParityCnt = x.reg .l2cParityCnt + 1 ∧ ∀ k ∈ ((t.die d).l1 c).miss, k.pa ≠ m.pa)) ∧
    (∀ (c : CoreLoc) (mr : Nat) (par : FillParity) (m : MissReg), (x.l1 c).miss[mr]? = some m → m.answer = none →
      exec (.l1LineFill d c mr par) s = .next (s.onDie d fun x => l2Request x c m.pa)) ∧
    (∀ (sl : Fin 16) (mr : Nat) (m : L2Miss), ((x.l2 sl).miss.filter realMiss)[mr]? = some m → sliceOf m.pa = sl →
      ((∀ e ∈ (x.l2 sl).merge, e.pa ≠ m.pa) → (∀ w ∈ x.dram.spoiled, w / 16 ≠ m.pa / 128) → m.pa % 128 = 0 →
        (∃ t, exec (.l2LineFill d sl mr [] false) s = .next t ∧ (t.die d).dram.cells = x.dram.cells ∧
          ((t.die d).l2 sl).miss = (x.l2 sl).miss.filter (fun k => !realMiss k || k.pa != m.pa) ∧
          ((t.die d).l2 sl).merge = (x.l2 sl).merge ∧
          ∀ c : CoreLoc, L2Waiter.core c ∈ m.waiters → ((t.die d).l1 c).miss =
            updWhere (fun k => k.pa == m.pa && k.answer.isNone)
              (fun k => { k with answer := some (x.l2Bytes m.pa 128) }) (x.l1 c).miss) ∧
        ∃ t, exec (.l2LineFill d sl mr [] true) s = .next t ∧ (t.die d).dram.cells = x.dram.cells ∧
          ((t.die d).l2 sl).miss = (x.l2 sl).miss) ∧
      (∀ fails par z, readLine p ((drainLine p x m.pa).parityLine m.pa) m.pa fails = (z, false) →
        exec (.l2LineFill d sl mr fails par) s = .next (s.setDie d (failLine 0x24
          (z.onL2 sl fun t => { t with miss := t.miss.filter fun k => !realMiss k || k.pa != m.pa }) m.pa
          (failedWord p z m.pa fails) (waiterCores m.waiters)))))

/-- Merging buffers (R218 to R220, R229): the oldest entry of a buffer starts to drain when the buffer holds WB_HIGH
entries, when the entry is WB_AGE old, or when a fence or a request asks for it, and not before. An L1 entry that
drains is written at its slice and frees: the bytes it holds are then what the slice's masters read, and no other byte
changes. An L2 entry that drains reaches DRAM and frees: what a master reads at any address stays as it was. An entry
of the carved L2's window stores its bytes there. Words of an entry that failed parity are counted and reach DRAM with
wrong parity (R234). Completes L1_MERGE_DRAIN, L1_MERGE_WRITE_DONE, L2_MERGE_DRAIN and L2_MERGE_COMMIT. -/
def Obligations.MergingBuffersDrain : Prop :=
  ∀ (s : State) (d : DieId), let x := s.die d
    (∀ (c : CoreLoc) (e : MergeEnt) (es : List MergeEnt), (x.l1 c).merge = e :: es → let cfg := x.regU .locCfg c.cl.val
      let due := wbits cfg 20 16 ≤ (x.l1 c).merge.length ∨ wbits cfg 15 8 ≤ x.aclkSince e.born ∨ e.asked = true
      (e.closed = false → due → ∃ t, exec (.l1MergeDrain d c) s = .next t ∧
        ((t.die d).l1 c) = { x.l1 c with merge := { e with closed := true } :: es } ∧
        (t.die d).dram = x.dram ∧ (t.die d).cache.l2s = x.cache.l2s) ∧
      (¬ due → exec (.l1MergeDrain d c) s = .next (s.onDie d id)) ∧
      (e.closed = false → ∀ par, exec (.l1MergeWriteDone d c par) s = .next (s.onDie d id)) ∧
      (∀ par, e.closed = true → inWindow e.pa = false → par ≠ 0 → ∃ t, exec (.l1MergeWriteDone d c par) s = .next t ∧
        ((t.die d).l1 c).merge = es ∧ (t.die d).reg .locParityCnt = x.reg .locParityCnt + 1 ∧
        ∀ l ∈ ((t.die d).l2 (sliceOf e.pa)).lines, l.pa ≠ e.pa) ∧
      (e.closed = true → inWindow e.pa = true → ∃ t, exec (.l1MergeWriteDone d c 0) s = .next t ∧
        ((t.die d).l1 c).merge = es ∧ (t.die d).dram = x.dram ∧ ∀ a, Mem.byte (t.die d).cache.l2carve a =
          Mem.byte (e.bytes.foldl (fun m b => Mem.setByte m (e.pa - windowBase + b.1) b.2) x.cache.l2carve) a) ∧
      (e.closed = true → inWindow e.pa = false → e.pa % 128 = 0 → (x.l2 (sliceOf e.pa)).merge.length < 32 →
        (∀ m ∈ (x.l2 (sliceOf e.pa)).merge, m.pa = e.pa → m.closed = true) →
        ∃ t, exec (.l1MergeWriteDone d c 0) s = .next t ∧ ((t.die d).l1 c).merge = es ∧ (t.die d).dram = x.dram ∧
          ∀ pa, (t.die d).l2Byte pa =
            if lineOf pa = e.pa then (e.bytes.lookup (pa % 128)).getD (x.l2Byte pa) else x.l2Byte pa)) ∧
    (∀ (sl : Fin 16) (e : MergeEnt) (es : List MergeEnt), (x.l2 sl).merge = e :: es →
      let cfg := x.regU .l2cCfg (6 + sl.val)
      let due := wbits cfg 20 16 ≤ (x.l2 sl).merge.length ∨ 10 * wbits cfg 15 8 ≤ x.since e.born ∨ e.asked = true
      (e.closed = false → due → ∃ t, exec (.l2MergeDrain d sl) s = .next t ∧
        ((t.die d).l2 sl) = { x.l2 sl with merge := { e with closed := true } :: es } ∧
        (t.die d).dram = x.dram ∧ (t.die d).cache.l1s = x.cache.l1s) ∧
      (¬ due → exec (.l2MergeDrain d sl) s = .next (s.onDie d id)) ∧
      (e.closed = false → ∀ par fails, exec (.l2MergeCommit d sl par fails) s = .next (s.onDie d id)) ∧
      (∀ par, e.closed = true → par ≠ 0 → ∃ t, exec (.l2MergeCommit d sl par []) s = .next t ∧
        (t.die d).reg .l2cParityCnt = x.reg .l2cParityCnt + 1 ∧ ((t.die d).reg .l2cFlags).getLsbD 1 = true) ∧
      (e.closed = true → e.spoil = 0 → e.pa % 128 = 0 → sliceOf e.pa = sl → (∀ w ∈ x.dram.spoiled, w / 16 ≠ e.pa / 128) →
        ∃ t, exec (.l2MergeCommit d sl 0 []) s = .next t ∧ ((t.die d).l2 sl).merge = es ∧
          (∀ i, i < 128 → Mem.byte (t.die d).dram.cells (e.pa + i) =
            (e.bytes.lookup i).getD (Mem.byte x.dram.cells (e.pa + i))) ∧
          (∀ a, lineOf a ≠ e.pa → Mem.byte (t.die d).dram.cells a = Mem.byte x.dram.cells a) ∧
          ∀ pa, (t.die d).l2Byte pa = x.l2Byte pa))

/-- A prefetched line enters the side buffer of its core or slice while the buffer has room (R222, R230); tile-memory
steps that have been zeroed hold zeros in every core of the cluster, with every other byte as before, and free (R206);
a bank cycle taken from a starved user is counted (R210); a pipe port on which no rotation runs starts one when a
group of the pipe has waited for GRP_SCHED_CFG's limit, counted (R142), and on a pipe whose jobs ask for it at once,
not counted (R143), from the slot after the one that last issued there (from slot 0 where none has, log entry 149); a
pipe with a group of a paired job starts none (R30). Completes SIDE_BUFFER_FILL, STEP_ZERO_DONE, TLM_STARVE_TAKE and
ROUND_ROBIN_ROTATION. A pressed L2C_CFG reaches a slice (R231 to R233): an increase of the carve first drops the
slice's lines of the added ways and zeroes them, and the slice acknowledges when that has ended, the window growing
with the last slice; a decrease whose granules are all wiped, and an unchanged carve, apply at once; a decrease onto a
granule that is not wiped is refused, flagged and counted. A slice of which nothing is asked does nothing. Completes
L2_CARVE_APPLY and L2_CARVE_ZERO_DONE. -/
def Obligations.BuffersTilesRotationsAndTheCarve : Prop :=
  (∀ (s : State) (d : DieId), let x := s.die d
    let p := s.die d.other
    (∀ (c : CoreLoc) (ln ctx : Nat) (v : BitVec 8) (fs : List (Nat × Nat × BitVec 8)) (y : Die),
      (x.l1 c).fetching = (ln, ctx, v) :: fs → (∀ e ∈ (x.l1 c).merge, e.pa ≠ ln) →
      l2ReadLine p (x.onL1 c (fun t => { t with fetching := fs })) ln = (y, true) →
      (∀ l ∈ (y.l1 c).lines ++ (y.l1 c).side, l.pa ≠ ln) → (y.l1 c).side.length < 16 →
      let l : L1Line := { pa := ln, way := 0, ctx := ctx, vmid := v, stale := false, data := y.l2Bytes ln 128 }
      exec (.sideBufferFill d (.l1 c)) s = .next (s.setDie d (y.onL1 c fun t => { t with side := t.side ++ [l] }))) ∧
    (∀ (sl : Fin 16) (m : L2Miss), (x.l2 sl).miss.find? (fun m => !realMiss m) = some m → sliceOf m.pa = sl →
      (∀ e ∈ (x.l2 sl).merge, e.pa ≠ m.pa) → (∀ w ∈ x.dram.spoiled, w / 16 ≠ m.pa / 128) → m.pa % 128 = 0 →
      (∀ l ∈ (x.l2 sl).lines, l.pa ≠ m.pa) → (x.l2 sl).side.length < 64 → ∃ t, exec (.sideBufferFill d (.l2 sl)) s = .next t ∧
        ((t.die d).l2 sl).side = (x.l2 sl).side ++ [{ pa := m.pa, way := 0 }] ∧
        ((t.die d).l2 sl).miss = (x.l2 sl).miss.filter (fun k => realMiss k || k.pa != m.pa) ∧
        (t.die d).dram.cells = x.dram.cells) ∧
    (∀ (cl : Fin 6) (k : Nat), tlmSteps.find? (fun k => (x.sh.zeroing[cl]).getLsbD k) = some k →
      ∃ t, exec (.stepZeroDone d cl) s = .next t ∧
        (∀ core ∈ coreIds, ∀ i, i < 32768 →
          Mem.byte (t.die d).sh.tlm (tlmAddr { cl := cl, core := core } (32768 * k) + i) = 0) ∧
        (∀ a, (∀ core ∈ coreIds, ∀ i, i < 32768 → a ≠ tlmAddr { cl := cl, core := core } (32768 * k) + i) →
          Mem.byte (t.die d).sh.tlm a = Mem.byte x.sh.tlm a) ∧
        (∀ j : Nat, j < 16 → ((t.die d).sh.zeroing[cl]).getLsbD j = ((x.sh.zeroing[cl]).getLsbD j && decide (j ≠ k))) ∧
        (∀ c : Fin 6, c ≠ cl → (t.die d).sh.zeroing[c] = x.sh.zeroing[c]) ∧
        (t.die d).reg .tlmZeroCnt = x.reg .tlmZeroCnt + 1) ∧
    (∀ (c : CoreLoc) (who : BankUser) (pipe : Fin 4), x.running = true →
      exec (.tlmStarveTake d c who pipe) s = .next (s.onDie d fun x => x.count .tlmStarveCnt)) ∧
    (∀ (c : CoreLoc) (pipe : Fin 4) (port : Port), let g : GrpLoc := { cl := c.cl, core := c.core, pipe := pipe, slot := 0 }
      let k := portKey g port
      let from' := ((x.sh.lastIssue.lookup k).getD 15 + 1) % 16
      (x.neverRotates c pipe = true → exec (.roundRobinRotation d c pipe port) s = .next (s.onDie d id)) ∧
      (x.sh.rotation.lookup k = none → x.neverRotates c pipe = false →
        (x.alwaysRotates c pipe = true → exec (.roundRobinRotation d c pipe port) s = .next (s.onDie d fun x =>
          { x with sh.rotation := (k, rotationFrom from') :: x.sh.rotation })) ∧
        (x.alwaysRotates c pipe = false →
          (∃ u ∈ x.onPipe c pipe, wbits (x.regU .grpSchedCfg c.cl.val) 9 0 ≤ u.wait) →
          ∃ t, exec (.roundRobinRotation d c pipe port) s = .next t ∧
            (t.die d).sh.rotation = (k, rotationFrom from') :: x.sh.rotation ∧
            (t.die d).sh.groups = x.sh.groups ∧ (t.die d).reg .grpRrRotationCnt = x.reg .grpRrRotationCnt + 1)))) ∧
  (∀ (s : State) (d : DieId) (sl : Fin 16), let x := s.die d
    let u := 6 + sl.val
    let new := wbits (x.pressedI .l2cCfg []) 2 0
    let old := x.cache.carveActive
    (x.unitWaits u = false → exec (.l2CarveApply d sl) s = .next (s.onDie d id)) ∧
    (x.unitWaits u = true → (x.l2 sl).zeroing = none → x.shadowFails u = false →
      (old < new → exec (.l2CarveApply d sl) s = .next (s.onDie d fun x => x.onL2 sl fun t =>
        { t with zeroing := some new, lines := t.lines.filter fun l => decide (l.way < 16 - 2 * new) })) ∧
      (new = old → exec (.l2CarveApply d sl) s = .next (s.onDie d fun x => x.unitApplies u)) ∧
      (new < old → carveWiped x new old = true → ∃ t, exec (.l2CarveApply d sl) s = .next t ∧
        (t.die d).cache.carveActive = new ∧ (t.die d).dram = x.dram ∧
        ∀ a, Mem.byte (t.die d).cache.l2carve a =
          if 4194304 * new ≤ a ∧ a < 4194304 * old then 0 else Mem.byte x.cache.l2carve a) ∧
      (new < old → carveWiped x new old = false → ∃ t, exec (.l2CarveApply d sl) s = .next t ∧
        (t.die d).cache = x.cache ∧ (t.die d).unitWaits u = false ∧
        (t.die d).reg .l2cCarveRefusedCnt = x.reg .l2cCarveRefusedCnt + 1 ∧
        ((t.die d).reg .l2cFlags).getLsbD 0 = true)) ∧
    (∀ n, (x.l2 sl).zeroing = some n → let y := (x.onL2 sl fun t => { t with zeroing := none }).unitApplies u
      exec (.l2CarveZeroDone d sl) s = .next (s.setDie d
        (if (unitGroup u).all (fun v => y.unitDone v) then { y with cache.carveActive := n } else y))))

/-- What group instructions write (R138, R165): a register takes the new words in the threads of the mask and keeps
its others, and every other register keeps all of its words; a pair takes the low and the high word; a predicate takes
the new bits in the threads of the mask, the other predicates keep theirs. -/
def Obligations.MaskedWritesKeepOtherLanes : Prop :=
  ∀ (t : Group) (m : BitVec 64) (r : Nat), r < t.regs.length →
    (∀ (f : Nat → Word) (q i : Nat), i < 64 →
      (t.putLanes m r f).lane q i = if q = r ∧ m.getLsbD i = true then f i else t.lane q i) ∧
    (∀ (f : Nat → Nat) (i : Nat), i < 64 → r + 1 < t.regs.length →
      (t.putPair m r f).pair r i = if m.getLsbD i = true then f i % 2 ^ 64 else t.pair r i) ∧
    (∀ (f : Nat → Bool) (n k i : Nat), n < 7 → i < 64 →
      ((t.putPred m n f).predicate k).getLsbD i = if k = n ∧ m.getLsbD i = true then f i else (t.predicate k).getLsbD i) ∧
    (∀ (l : PendLoad) (k i : Nat), l.size ≤ 4 → l.dst = r → (threadsOf l.mask)[k]? = some i →
      (t.takeLoad l).lane r i = extend32 l.signed l.size (ofLe (loadValue l k)))

/-- An instruction that only goes on touches its own group alone (R142, R146): with a thread active and nothing
stacked, the group takes the state the instruction gives it, no other group changes but for its wait counter, and
memory, caches, jobs, registers and the other die are as the fetch left them. -/
def Obligations.AnInstructionTouchesItsGroupAlone : Prop :=
  ∀ (s : State) (d : DieId) (g : GrpLoc) (port : Port) (t u : Group),
    (s.die d).group? g = some t → u.loc = t.loc → u.stack = [] → u.active ≠ 0 → u.exited ≠ BitVec.allOnes 64 →
    let r := goesOn s d port t u
    let x := fetched s d t
    r.die d.other = s.die d.other ∧ (r.die d).dram = x.dram ∧ (r.die d).cache = x.cache ∧ (r.die d).jobs = x.jobs ∧
    (r.die d).regs = x.regs ∧ (r.die d).flt = x.flt ∧ (r.die d).xlt = x.xlt ∧ (r.die d).sh.tlm = x.sh.tlm ∧
    (r.die d).passes = x.passes ∧
    (∀ v ∈ (r.die d).sh.groups, v.loc = t.loc → v = { u with wait := 0, pc := t.pc + 8 }) ∧
    (r.die d).sh.groups.map (fun v => v.loc) = x.sh.groups.map (fun v => v.loc) ∧
    (r.die d).sh.groups.filter (fun v => decide (v.loc ≠ t.loc)) =
      (x.sh.groups.filter (fun v => decide (v.loc ≠ t.loc))).map (waitMore t)

/-- Control (R145 to R149, R169, R332): NOP changes nothing; NOP.FOLD stops a group of a folding share at the next
instruction and is otherwise a NOP; BRA goes to its target, falls through, or stacks the path that falls through; a
33rd entry, and a BRX whose threads disagree, freeze the group; CALL stores the address of the next instruction; EXIT
and END make threads leave; BAR and BARW park the selected threads, none being a NOP, and freeze the group where
threads stand parked there from another address (R150). Completes NOP, NOP_FOLD, BRA, BRX, CALL, EXIT, END, BAR and
BARW. -/
def Obligations.ControlInstructions : Prop :=
  ∀ (s : State) (d : DieId) (g : GrpLoc) (w : InstrBits) (t : Group), groupReady s d g .alu t = true →
    let y := atIssue s d .alu t
    let t0 : Group := { t with wait := 0 }
    let m := t.selected w
    let leaves : BitVec 64 → Group := fun k => { t with active := t.active &&& ~~~k, exited := t.exited ||| k }
    let goto : Group → BitVec 48 → Out := fun u a => .next (s.setDie d (settleGroup y { u with wait := 0, pc := a }))
    let apart : Fin 9 → Prop := fun b => (t.arrivals[b]).mixed = true ∨ (t.arrivals[b]).mask ≠ 0 ∧ (t.arrivals[b]).pc ≠ t.pc
    let parks : Instr → Fin 9 → Prop := fun c b =>
      (m = 0 → exec c s = .next (goesOn s d .alu t t)) ∧
      (m ≠ 0 → ¬ apart b → m ≠ t.active → exec c s =
        .next (goesOn s d .alu t { { t with active := m }.park b with active := t.active &&& ~~~m })) ∧
      (m ≠ 0 → ¬ apart b → m = t.active → exec c s = goto (t0.park b) t.pc) ∧
      (m ≠ 0 → apart b →
        let after : BitVec 48 := if t.active &&& ~~~m = 0 then t.pc else t.pc + 8
        let v := Group.reconverge 66 { ({ t0 with active := m } : Group).park b with active := t.active &&& ~~~m, pc := after }
        exec c s = .next (s.setDie d (barrierDiverged (y.putGroup v) v)))
    (planRuns t w (Plan.noRegs (!isR w || !bodyZero w)) = true →
      exec (.nop d g w) s = .next (goesOn s d .alu t t) ∧ exec (.exitInstr d g w) s = .next (goesOn s d .alu t (leaves m)) ∧
      (allPred w = true → exec (.endProg d g w) s = .next (goesOn s d .alu t (leaves t.active))) ∧
      parks (.barw d g w) 8) ∧
    (planRuns t w (Plan.noRegs (!isR w || w.body != 0x100)) = true →
      (y.folding t.job t.loc.cl = false → exec (.nopFold d g w) s = .next (goesOn s d .alu t t)) ∧
      (y.folding t.job t.loc.cl = true → exec (.nopFold d g w) s =
        .next (s.setDie d (settleGroup y { t0.next with stopped := true })))) ∧
    (planRuns t w (Plan.noRegs (!isB w || (w.pred == 7 && wReconvU w != 0))) = true →
      let target := t.pc + BitVec.ofInt 48 (8 * wTarget w)
      (t.active &&& ~~~m = 0 → exec (.bra d g w) s = goto t target) ∧
      (t.active &&& ~~~m ≠ 0 → m = 0 → exec (.bra d g w) s = .next (goesOn s d .alu t t)) ∧
      (t.active &&& ~~~m ≠ 0 → m ≠ 0 → t.stack.length < 32 → exec (.bra d g w) s =
        let e : StackEnt := { reconv := t.pc + BitVec.ofInt 48 (8 * wReconv w), pendPc := t.pc + 8,
                              pendMask := t.active &&& ~~~m, outer := t.active }
        goto { t with stack := e :: t.stack, active := m } target) ∧
      (t.active &&& ~~~m ≠ 0 → m ≠ 0 → 32 ≤ t.stack.length → exec (.bra d g w) s =
        .next (s.setDie d (trapGroup y t0 clsStackOverflow 0 (positionOf y t0))))) ∧
    (planRuns t w (Plan.alu (!isR w || !allPred w || wDst w != 0 || wImm w != 0) [(wSrc0 w, 2)]) = true →
      let ts := (threadsOf t.active).map fun i => t.pair (wSrc0 w) i % 2 ^ 48
      ((∀ v ∈ ts, v = ts.headD 0) → exec (.brx d g w) s = goto t (BitVec.ofNat 48 (ts.headD 0))) ∧
      ((∃ v ∈ ts, v ≠ ts.headD 0) → exec (.brx d g w) s =
        .next (s.setDie d (trapGroup y t0 clsBadBranch 0 (positionOf y t0))))) ∧
    (planRuns t w (Plan.alu (!isB w || !allPred w || wBits w 23 8 != 0) [(wBits w 7 0, 2)]) = true →
      exec (.callInstr d g w) s =
        goto (t.putPair t.active (wBits w 7 0) fun _ => (t.pc + 8).toNat) (t.pc + BitVec.ofInt 48 (8 * wTarget w))) ∧
    (planRuns t w (Plan.noRegs (!isR w || wDst w != 0 || decide (8 ≤ wSrc0 w) || wImm w != 0)) = true →
      parks (.bar d g w) (Fin.ofNat 9 (wSrc0 w % 8)))

/-- Special registers, lanes and masks (R136, R168, R169): MOVS writes the special register that its code names,
TIME_LO capturing TIME_HI; SHFL gives each thread the word of the thread that its SRC1 names; MASKA, MASKX and BALLOT
write a mask into a pair, the same in every selected thread; PLOP combines two predicates. A code of MOVS above 7
freezes the group with BAD_INSTRUCTION (the model's choice, log entry 146). Completes MOVS, SHFL, MASKA, MASKX, BALLOT
and PLOP. -/
def Obligations.LaneAndMaskInstructions : Prop :=
  ∀ (s : State) (d : DieId) (g : GrpLoc) (w : InstrBits) (t : Group), groupReady s d g .alu t = true →
    let m := t.selected w
    let dst := wDst w
    (t.busy (Plan.alu true [(dst, 1)]) = false → 7 < wImm w → exec (.movs d g w) s =
      .next (s.setDie d (trapGroup (fetched s d t) t clsBadInstruction 0 (instrWord 0xC 0 w)))) ∧
    (planRuns t w (Plan.alu (!isI w || wSrc0 w != 0 || decide (7 < wImm w)) [(dst, 1)]) = true →
      let now := (fetched s d t).time
      let gives : (Nat → Nat) → Prop := fun f =>
        exec (.movs d g w) s = .next (goesOn s d .alu t (t.putLanes m dst fun i => BitVec.ofNat 32 (f i)))
      (wImm w = 0 → gives fun i => i) ∧ (wImm w = 1 → gives fun i => i % 16) ∧ (wImm w = 2 → gives fun _ => t.idx) ∧
      (wImm w = 3 → gives fun _ => t.wg) ∧ (wImm w = 4 → gives fun _ => t.rank) ∧
      (wImm w = 5 → (fetched s d t).id = d → gives fun _ => grpLocation t.loc + 1024 * d.toNat) ∧
      (wImm w = 6 → exec (.movs d g w) s = .next (goesOn s d .alu t
        { t.putLanes m dst (fun _ => now.setWidth 32) with timeHi := (now >>> 32).setWidth 32 })) ∧
      (wImm w = 7 → exec (.movs d g w) s = .next (goesOn s d .alu t (t.putLanes m dst fun _ => t.timeHi)))) ∧
    (planRuns t w (Plan.alu (!isR w || wSrc2 w != 0 || wBits w 15 0 != 0) [(dst, 1), (wSrc0 w, 1), (wSrc1 w, 1)]) = true →
      exec (.shfl d g w) s = .next (goesOn s d .alu t
        (t.putLanes m dst fun i => t.lane (wSrc0 w) ((t.lane (wSrc1 w) i).toNat % 64)))) ∧
    (planRuns t w (Plan.alu (!isR w || wSrc0 w != 0 || wImm w != 0) [(dst, 2)]) = true →
      exec (.maska d g w) s = .next (goesOn s d .alu t (t.putPair m dst fun _ => t.active.toNat)) ∧
      exec (.maskx d g w) s = .next (goesOn s d .alu t (t.putPair m dst fun _ => t.exited.toNat))) ∧
    (planRuns t w (Plan.alu (!isR w || decide (7 ≤ wSrc0 w) || wImm w != 0) [(dst, 2)]) = true →
      exec (.ballot d g w) s = .next (goesOn s d .alu t
        (t.putPair m dst fun _ => (t.predicate (wSrc0 w) &&& t.active).toNat))) ∧
    (planRuns t w (Plan.noRegs (!isR w || wTypeR w != 0 || decide (3 < wModeR w) || wSrc2 w != 0 || wLow w != 0 ||
        decide (7 ≤ dst) || decide (7 ≤ wSrc0 w) || decide (7 ≤ wSrc1 w))) = true →
      let a := t.predicate (wSrc0 w)
      let b := t.predicate (wSrc1 w)
      ∀ mode v, (mode, v) ∈ [(0, a &&& b), (1, a ||| b), (2, a ^^^ b), (3, a &&& ~~~b)] → wModeR w = mode →
        exec (.plop d g w) s = .next (goesOn s d .alu t (t.putPred m dst fun i => v.getLsbD i)))

/-- Integer instructions (R165, R168, R169): in every selected thread DST takes the row's function of SRC0 and SRC1,
or of IMM, at the width of the type, signed where the type is; a type that says neither leaves the signed rows' result
free. A group whose registers await a load stays where it is; an encoding that R167 forbids freezes the group with
BAD_INSTRUCTION, a register it does not have with REG_RANGE, BAD_INSTRUCTION coming first (the model's choice, log
entry 148; the type of an I-form instruction is the model's free value, log entry 48). Completes ADD, SUB, MUL, MULHI,
SHL, SHR, AND, OR, XOR, NOT, MIN, MAX and MOV. -/
def Obligations.IntegerInstructions : Prop :=
  ∀ (s : State) (d : DieId) (g : GrpLoc) (w : InstrBits) (t : Group), groupReady s d g .alu t = true →
    let m := t.selected w
    let plain : List (Instr × Nat × (Nat → Nat → Nat → Nat)) :=
      [(.add d g w, 0x00, fun n a b => (a + b) % 2 ^ n), (.sub d g w, 0x01, fun n a b => (((a : Int) - b) % 2 ^ n).toNat),
       (.mul d g w, 0x02, fun n a b => a * b % 2 ^ n), (.shl d g w, 0x04, fun n a b => a * 2 ^ (b % n) % 2 ^ n),
       (.andInstr d g w, 0x06, fun _ a b => Nat.land a b), (.orInstr d g w, 0x07, fun _ a b => Nat.lor a b),
       (.xorInstr d g w, 0x08, fun _ a b => Nat.xor a b)]
    let signedRows : List (Instr × Nat × (Bool → Nat → Nat → Nat → Nat)) :=
      [(.mulhi d g w, 0x03, fun sg n a b => (asInt sg n a * asInt sg n b / 2 ^ n % 2 ^ n).toNat),
       (.shr d g w, 0x05, fun sg n a b => (asInt sg n a / 2 ^ (b % n) % 2 ^ n).toNat),
       (.minInstr d g w, 0x0A, fun sg n a b => if asInt sg n a ≤ asInt sg n b then a else b),
       (.maxInstr d g w, 0x0B, fun sg n a b => if asInt sg n a ≤ asInt sg n b then b else a)]
    let runs := fun (c : Instr) (op : Nat) (f : Nat → Nat → Nat → Nat) => planRuns t w (binaryPlan op w) = true →
      let ty := intType op w
      exec c s = .next (goesOn s d .alu t
        (t.putResult ty w fun i => f (widthOf ty) (t.operand ty (wSrc0 w) i) (t.operand1 ty w i)))
    let stops := fun (c : Instr) (op : Nat) =>
      (t.busy (binaryPlan op w) = true → exec c s = .next (s.onDie d id)) ∧
      (t.busy (binaryPlan op w) = false → badBinary w = true ∨ predLegal w = false →
        exec c s = .next (s.setDie d (trapGroup (fetched s d t) t clsBadInstruction 0 (instrWord 1 op w)))) ∧
      (t.busy (binaryPlan op w) = false → badBinary w = false → predLegal w = true → (binaryPlan op w).inRange t = false →
        exec c s = .next (s.setDie d (trapGroup (fetched s d t) t clsRegRange 0 (instrWord 1 op w))))
    (∀ c op f, (c, op, f) ∈ plain → runs c op f ∧ stops c op) ∧
    (∀ c op f, (c, op, f) ∈ signedRows → (∀ sg, signedness (intType op w) = some sg → runs c op (f sg)) ∧ stops c op ∧
      (signedness (intType op w) = none → planRuns t w (binaryPlan op w) = true → ∃ v : Nat → Word,
        exec c s = .next (onward s d (atIssue s d .alu t).tick t (t.putLanes m (wDst w) v)))) ∧
    (planRuns t w (Plan.alu (badBinary w || !isR w || wSrc1 w != 0)
        [(wDst w, regsOf (wTypeR w)), (wSrc0 w, regsOf (wTypeR w))]) = true →
      exec (.notInstr d g w) s = .next (goesOn s d .alu t (t.putResult (wTypeR w) w fun i =>
        2 ^ widthOf (wTypeR w) - 1 - t.operand (wTypeR w) (wSrc0 w) i))) ∧
    (let ty := intType 0x0D w;
      planRuns t w (Plan.alu (badBinary w || (if isI w then wSrc0 w != 0 else wSrc1 w != 0))
        ([(wDst w, regsOf ty)] ++ (if isI w then [] else [(wSrc0 w, regsOf ty)]))) = true →
      exec (.mov d g w) s = .next (goesOn s d .alu t (t.putResult ty w fun i =>
        if isI w then t.operand1 ty w i else t.operand ty (wSrc0 w) i)))

/-- Predicates and selection (R168, R169): SETP compares at the width of the type, signed where the type is, FSETP
compares FP32 words or the low binary16 halves, each into a predicate in the selected threads; an order comparison
under a type that says neither is free; SEL takes SRC0 where its predicate holds and SRC1 elsewhere. Completes SETP,
FSETP and SEL. -/
def Obligations.CompareAndSelectInstructions : Prop :=
  ∀ (s : State) (d : DieId) (g : GrpLoc) (w : InstrBits) (t : Group), groupReady s d g .alu t = true →
    let m := t.selected w
    (let ty := intType 0x0E w;
      planRuns t w (Plan.alu (!(isR w || isI w) ||
          (isR w && (decide (5 < wTypeR w) || decide (5 < wModeR w) || wSrc2 w != 0 || wLow w != 0)) || decide (7 ≤ wDst w))
        ([(wSrc0 w, regsOf ty)] ++ (if isI w then [] else [(wSrc1 w, regsOf ty)]))) = true →
      let cmp := fun (sg : Bool) (i : Nat) => cmpInt (setpMode w) (asInt sg (widthOf ty) (t.operand ty (wSrc0 w) i))
        (asInt sg (widthOf ty) (t.operand1 ty w i))
      (∀ sg, signedness ty = some sg → exec (.setp d g w) s = .next (goesOn s d .alu t (t.putPred m (wDst w) (cmp sg)))) ∧
      (signedness ty = none → setpMode w ≤ 1 →
        exec (.setp d g w) s = .next (goesOn s d .alu t (t.putPred m (wDst w) (cmp false)))) ∧
      (signedness ty = none → 1 < setpMode w → ∃ f : Nat → Bool, exec (.setp d g w) s =
        .next (onward s d (atIssue s d .alu t).tick t (t.putPred m (wDst w) f)))) ∧
    (∀ half, planRuns t w (Plan.alu (badFloat half w false true true || decide (7 ≤ wDst w))
        ([(wSrc0 w, 1)] ++ (if isI w then [] else [(wSrc1 w, 1)]))) = true →
      let read : Nat → FVal := fun v => if half then readFloat fp16 (v % 65536) else readFloat fp32 v
      exec (.fsetp d g half w) s = .next (goesOn s d .alu t (t.putPred m (wDst w) fun i =>
        fcmp (fsetpMode w) (read (t.lane (wSrc0 w) i).toNat) (read (floatSrc1 w t i))))) ∧
    (planRuns t w (Plan.alu (!isR w || decide (5 < wTypeR w) || wModeR w != 0 || decide (7 ≤ wSrc2 w) || wLow w != 0)
        [(wDst w, regsOf (wTypeR w)), (wSrc0 w, regsOf (wTypeR w)), (wSrc1 w, regsOf (wTypeR w))]) = true →
      exec (.sel d g w) s = .next (goesOn s d .alu t (t.putResult (wTypeR w) w fun i =>
        if (t.predicate (wSrc2 w)).getLsbD i then t.operand (wTypeR w) (wSrc0 w) i
        else t.operand (wTypeR w) (wSrc1 w) i))) ∧
    (∀ a b : Int, (cmpInt 0 a b = true ↔ a = b) ∧ (cmpInt 1 a b = true ↔ a ≠ b) ∧ (cmpInt 2 a b = true ↔ a < b) ∧
      (cmpInt 3 a b = true ↔ a ≤ b) ∧ (cmpInt 4 a b = true ↔ b < a) ∧ (cmpInt 5 a b = true ↔ b ≤ a)) ∧
    (∀ a mode, fcmp mode .nan a = (mode == 1 || decide (5 < mode)) ∧ fcmp mode a .nan = (mode == 1 || decide (5 < mode)))

/-- Float instructions (R107 to R110, R165, R166, R169): FADD, FSUB, FMUL and FFMA give the exact value rounded once,
FMIN and FMAX the smaller and larger operand, FABS and FNEG the operand without and with the other sign, and RCP, RSQ,
LG2 and EX2 their approximations (free values within R109's bounds), on the FP32 word or on both binary16 halves, in
every selected thread. A wrong encoding of the first five freezes the group. Completes FADD, FSUB, FMUL, FFMA, FMIN,
FMAX, FABS, FNEG, RCP, RSQ, LG2 and EX2. -/
def Obligations.FloatInstructions : Prop :=
  ∀ (s : State) (d : DieId) (g : GrpLoc) (w : InstrBits) (t : Group) (half : Bool), groupReady s d g .alu t = true →
    let each : Bool → (FFmt → Nat → Nat → Nat → Nat) → (Nat → Nat) → (Nat → Nat) → (Nat → Nat) → Group := fun h f a b c =>
      t.putLanes (t.selected w) (wDst w) fun i => BitVec.ofNat 32 (
        if h then f fp16 (a i % 65536) (b i % 65536) (c i % 65536) + f fp16 (a i / 65536) (b i / 65536) (c i / 65536) * 65536
        else f fp32 (a i) (b i) (c i))
    let src : Nat → Nat → Nat := fun r i => (t.lane r i).toNat
    (∀ c f, (c, f) ∈ ([(.fadd d g half w, fun fm a b => faddBits fm (readFloat fm a) (readFloat fm b)),
        (.fsub d g half w, fun fm a b => faddBits fm (readFloat fm a) (readFloat fm b).neg),
        (.fmul d g half w, fun fm a b => ((readFloat fm a).times (readFloat fm b)).bits fm),
        (.fmin d g half w, fun fm a b => fminBits fm false (readFloat fm a) (readFloat fm b)),
        (.fmax d g half w, fun fm a b => fminBits fm true (readFloat fm a) (readFloat fm b))] :
          List (Instr × (FFmt → Nat → Nat → Nat))) →
      planRuns t w (Plan.alu (badFloat half w false true false)
        ([(wDst w, 1), (wSrc0 w, 1)] ++ (if isI w then [] else [(wSrc1 w, 1)]))) = true →
      exec c s = .next (goesOn s d .alu t (each half (fun fm a b _ => f fm a b) (src (wSrc0 w)) (floatSrc1 w t) fun _ => 0))) ∧
    (∀ op c, (op, c) ∈ [(0, Instr.fadd d g half w), (1, .fsub d g half w), (2, .fmul d g half w), (4, .fmin d g half w),
        (5, .fmax d g half w)] → (badFloat half w false true false = true ∨ predLegal w = false) →
      t.awaited = [] → exec c s = .next (s.setDie d
        (trapGroup (fetched s d t) t clsBadInstruction 0 (instrWord (if half then 3 else 2) op w)))) ∧
    (planRuns t w (Plan.alu (badFloat half w true true false) [(wDst w, 1), (wSrc0 w, 1), (wSrc1 w, 1), (wSrc2 w, 1)]) = true →
      exec (.ffma d g half w) s = .next (goesOn s d .alu t (each half
        (fun fm a b c => faddBits fm ((readFloat fm a).times (readFloat fm b)) (readFloat fm c))
        (src (wSrc0 w)) (src (wSrc1 w)) (src (wSrc2 w))))) ∧
    (planRuns t w (Plan.alu (badFloat half w false false false) [(wDst w, 1), (wSrc0 w, 1)]) = true →
      exec (.fabs d g half w) s = .next (goesOn s d .alu t (each half
        (fun fm a _ _ => (readFloat fm a).abs.bits fm) (src (wSrc0 w)) (fun _ => 0) fun _ => 0)) ∧
      exec (.fneg d g half w) s = .next (goesOn s d .alu t (each half
        (fun fm a _ _ => (readFloat fm a).neg.bits fm) (src (wSrc0 w)) (fun _ => 0) fun _ => 0))) ∧
    (∀ c code, (c, code) ∈ ([(.rcp d g w, 0), (.rsq d g w, 1), (.lg2 d g w, 2), (.ex2 d g w, 3)] : List (Instr × Nat)) →
      planRuns t w (Plan.alu (!isR w || !(wTypeR w == 4 || wTypeR w == 5) || wModeR w != 0 || wLow w != 0 || wSrc1 w != 0 ||
        wSrc2 w != 0) [(wDst w, 1), (wSrc0 w, 1)]) = true →
      exec c s = .next (goesOn s d .alu t (each (wTypeR w == 5) (fun fm a _ _ => approxBits fm code a)
        (src (wSrc0 w)) (fun _ => 0) fun _ => 0)))

/-- Conversions (R115, R125 to R129, R169): CVT, PACK, UNPACK and FN8TO4 write the converted value in every selected
thread, and their saturations and NaNs count in the group's status and in the die's counters. PACK and FN8TO4 replace
one element of the destination and keep its others. Completes CVT, PACK, UNPACK and FN8TO4. -/
def Obligations.ConversionInstructions : Prop :=
  ∀ (s : State) (d : DieId) (g : GrpLoc) (w : InstrBits) (t : Group), groupReady s d g .alu t = true →
    let m := t.selected w
    let y := atIssue s d .alu t
    let counts : (Nat → Conv) → Events := fun f => convEvents ((threadsOf m).map f)
    let done := fun (c : Instr) (f : Nat → Conv) (u : Group) =>
      exec c s = .next (onward s d (y.countEvents (counts f)) t (u.raise (counts f)))
    (planRuns t w (Plan.alu (!isR w || decide (5 < wTypeR w) || decide (5 < cvtDst w) || decide (16 ≤ wSrc2 w) || wSrc1 w != 0 ||
        wLow w != 0 || decide (1 < wModeR w) || (decide (4 ≤ cvtDst w) && wModeR w != 0))
        [(wDst w, regsOf (cvtDst w)), (wSrc0 w, regsOf (wTypeR w))]) = true →
      let f := fun i => cvtTo (cvtDst w) (wModeR w) (readSrc (wTypeR w) t (wSrc0 w) i)
      done (.cvt d g w) f (t.putResult (cvtDst w) w fun i => (f i).bits)) ∧
    (planRuns t w (Plan.alu (!isR w || !(wTypeR w == 0 || wTypeR w == 1 || wTypeR w == 4) || badElem w || wModeR w != 0 ||
        wLow w != 0) [(wDst w, 1), (wSrc0 w, 1), (wSrc1 w, 1)]) = true →
      let f := fun i => convElem (packElem w) ((t.lane (wSrc1 w) i).toNat % 256) (readSrc (wTypeR w) t (wSrc0 w) i)
      done (.pack d g w) f (t.putLanes m (wDst w) fun i =>
        BitVec.ofNat 32 (setElem (packElem w) (packIndex w) (t.lane (wDst w) i).toNat (f i).bits))) ∧
    (planRuns t w (Plan.alu (!isR w || wTypeR w != 4 || badElem w || wModeR w != 0 || wLow w != 0)
        [(wDst w, 1), (wSrc0 w, 1), (wSrc1 w, 1)]) = true →
      let f := fun i => unpackConv (packElem w) (elemAt (packElem w) (packIndex w) (t.lane (wSrc0 w) i).toNat)
        ((t.lane (wSrc1 w) i).toNat % 256)
      done (.unpack d g w) f (t.putLanes m (wDst w) fun i => BitVec.ofNat 32 (f i).bits)) ∧
    (planRuns t w (Plan.alu (!isR w || wTypeR w != 0 || wSrc2 w / 64 != 0 || wSrc2 w % 16 != 0 || decide (8 ≤ wModeR w) ||
        wLow w != 0) [(wDst w, 1), (wSrc0 w, 1), (wSrc1 w, 1)]) = true →
      let f := fun i => fn8to4 (elemAt .fn8 (wSrc2 w / 16) (t.lane (wSrc0 w) i).toNat) ((t.lane (wSrc1 w) i).toNat % 256)
        ((t.lane (wSrc1 w) i).toNat / 256 % 256)
      done (.fn8to4 d g w) f (t.putLanes m (wDst w) fun i =>
        BitVec.ofNat 32 (setElem .fn4 (wModeR w) (t.lane (wDst w) i).toNat (f i).bits))) ∧
    (∀ (el : Elem) (k j old v : Nat), el.width * (k + 1) ≤ 32 → el.width * (j + 1) ≤ 32 → old < 2 ^ 32 →
      elemAt el j (setElem el k old v) = if j = k then v % 2 ^ el.width else elemAt el j old)

/-- Loads, stores and prefetches (R152 to R154, R214, R215, R221): an address that is no multiple of the size freezes
the group with MISALIGNED; without a selected thread nothing happens; else, once every page has passed the guards, a
load's sectors are asked for and its registers wait, and a store's bytes, a higher thread's over a lower one's, enter
the core's lines and merging buffer line by line. A line that fails parity as the load reads it leaves the L1 first
(R234). A prefetch changes no register and never freezes its group. Completes LD, LDS, ST and PF. Fences (R160, R161,
R217, R229): a release at cluster scope or wider asks every entry of its core's merging buffer to drain and waits;
every other fence is complete at once, and an acquire at cluster scope or wider makes the core's lines stale. A
waiting fence whose loads and entries are done completes: at once below package scope; at package scope and above it
first asks the slices' entries to drain, and while an entry that was asked to drain is left it goes on waiting, in
SPARE mode at system scope until the mirror is empty too (R39). Completes FENCE and FENCE_COMPLETE. -/
def Obligations.MemoryAndFenceInstructions : Prop :=
  (∀ (s : State) (d : DieId) (g : GrpLoc) (w : InstrBits) (t : Group), groupReady s d g .mem t = true →
    let p := s.die d.other
    let y := atIssue s d .mem t
    let n := accBytes w
    let vas := (threadsOf (t.selected w)).map (t.vaOf w)
    let stores := threadsOf (t.selected w &&& ~~~t.helpers)
    let loads := Plan.alu (!isM w || decide (4 < wSize w) || wData w != 0 || wHint w != 0) [(wDst w, accRegs w), (wAddr w, 2)]
    let loadsSigned := Plan.alu (!isM w || decide (1 < wSize w) || wData w != 0 || wHint w != 0) [(wDst w, 1), (wAddr w, 2)]
    (∀ par c sg q, (c, sg, q) ∈ [(Instr.ld d g ⟨w, par⟩, false, loads), (Instr.lds d g ⟨w, par⟩, true, loadsSigned)] →
      planRuns t w q = true →
      (∀ v, vas.find? (fun v => v % n != 0) = some v →
        exec c s = .next (s.setDie d (trapGroup y { t with wait := 0 } clsMisaligned 0 v))) ∧
      ((∀ v ∈ vas, v % n = 0) → vas = [] → exec c s = .next (goesOn s d .mem t t)) ∧
      (∀ z pm, (∀ v ∈ vas, v % n = 0) → vas ≠ [] →
        prewalk p y (.group t.loc) t.ctx (vas.map fun v => { va := v, len := n, acc := accRead }) = (z, some pm) →
        let pas := vas.map (paOf pm)
        let l : PendLoad := { dst := wDst w, size := n, signed := sg, mask := t.selected w, vas := vas, pas := pas,
                              sectors := (pas.map fun pa => pa / 32 * 32).eraseDups, got := [] }
        exec c s = .next (s.setDie d (serveCore p
          (settleGroup (if par then lineFails z t pas else z) { t with loads := t.loads ++ [l], wait := 0, pc := t.pc + 8 }) (coreOf t.loc))))) ∧
    (planRuns t w (storePlan w t) = true →
      (∀ v, vas.find? (fun v => v % n != 0) = some v →
        exec (.st d g w) s = .next (s.setDie d (trapGroup y { t with wait := 0 } clsMisaligned 0 v))) ∧
      ((∀ v ∈ vas, v % n = 0) → stores = [] → exec (.st d g w) s = .next (goesOn s d .mem t t)) ∧
      (∀ z pm, (∀ v ∈ vas, v % n = 0) → stores ≠ [] →
        prewalk p y (.group t.loc) t.ctx ((stores.map (t.vaOf w)).map fun v => { va := v, len := n, acc := accWrite }) =
          (z, some pm) →
        let bytes := stores.foldl (fun l i => overBytes l (placed (paOf pm (t.vaOf w i)) (storeData w t i))) []
        exec (.st d g w) s = .next (onward s d (((((stores.map (t.vaOf w)).map fun v => lineOf (paOf pm v)).eraseDups).foldl
          (fun z ln => l1Store p z (coreOf t.loc) t.ctx t.job ln
            ((bytes.filter fun q => lineOf q.1 == ln).map fun q => (q.1 % 128, q.2))) z)) t t))) ∧
    (planRuns t w (Plan.alu (!isM w || wSize w != 0 || wDst w != 0 || wData w != 0 || decide (1 < wHint w)) [(wAddr w, 2)]) =
        true →
      exec (.pf d g w) s = .next (onward s d ((vas.map lineOf).eraseDups.foldl (prefetchOne w p { t with wait := 0 }) y) t t)) ∧
    (∀ (old new : List (Nat × Byte)) (a : Nat), (overBytes old new).lookup a = (new.lookup a).or (old.lookup a))) ∧
  (∀ (s : State) (d : DieId) (g : GrpLoc) (w : InstrBits) (t : Group),
    (groupReady s d g .mem t = true → planRuns t w (Plan.noRegs (!isM w || wSize w == 0 || decide (3 < wSize w) ||
        decide (5 < wHint w) || wAddr w != 0 || wDst w != 0 || wData w != 0 || wOfsU w != 0)) = true →
      let y := atIssue s d .mem t
      (wSize w ≠ 1 → 2 ≤ wHint w → exec (.fenceInstr d g w) s = .next (onward s d (askL1 y (coreOf t.loc)) t
        { t with fence := some { kind := wSize w, scope := wHint w, sent := false } })) ∧
      (wSize w = 1 → 2 ≤ wHint w → exec (.fenceInstr d g w) s = .next (onward s d (acquireCore y (coreOf t.loc)) t t)) ∧
      (wHint w < 2 → exec (.fenceInstr d g w) s = .next (goesOn s d .mem t t))) ∧
    (∀ f, let x := s.die d
      x.group? g = some t → t.fence = some f → x.running = true →
      let done := fenceAcquire (x.updGroup g fun t => { t with fence := none }) t f.kind f.scope
      ((t.loads ≠ [] ∨ l1Drained x (coreOf g) = false) → exec (.fenceComplete d g) s = .next (s.onDie d id)) ∧
      (t.loads = [] → l1Drained x (coreOf g) = true →
        (f.scope < 4 → exec (.fenceComplete d g) s = .next (s.setDie d done)) ∧
        (4 ≤ f.scope → f.sent = false → exec (.fenceComplete d g) s = .next (s.setDie d
          (askL2 (x.updGroup g fun t => { t with fence := some { f with sent := true } })))) ∧
        (4 ≤ f.scope → f.sent = true → l2Drained x = false → exec (.fenceComplete d g) s = .next (s.onDie d id)) ∧
        (f.scope = 5 → f.sent = true → l2Drained x = true → x.pair.mode = 2 → x.pair.mirOut ≠ [] →
          exec (.fenceComplete d g) s = .next (s.onDie d id)) ∧
        (4 ≤ f.scope → f.sent = true → l2Drained x = true → (f.scope = 5 → x.pair.mode = 2 → x.pair.mirOut = []) →
          exec (.fenceComplete d g) s = .next (s.setDie d done)))) ∧
    (∀ (x : Die) (c : CoreLoc), (∀ e ∈ ((askL1 x c).l1 c).merge, e.asked = true) ∧ (askL1 x c).dram = x.dram))

/-- Carved L1 and tile memory (R203, R207, R224, R234): offsets that are aligned and lie inside the carve or partition
are loaded and stored; the first misaligned offset freezes the group with MISALIGNED, the first one outside with
LOCAL_RANGE, which is counted, and so does every access of a job without a carve or partition there, whatever is
selected (the DETAIL is then free, log entry 153); a read that fails parity, of a load or of a store of part of a
word, restarts the job. A byte stored is read back, and every other byte of the carve keeps its value. Completes LDC,
STC, TLD and TST. -/
def Obligations.LocalMemoryInstructions : Prop :=
  ∀ (s : State) (d : DieId) (g : GrpLoc) (w : InstrBits) (t : Group), groupReady s d g .mem t = true →
    let p := s.die d.other
    let y := atIssue s d .mem t
    let t0 : Group := { t with wait := 0 }
    let n := accBytes w
    let ths := threadsOf (t.selected w)
    let os := ths.map (t.ofsOf w)
    let ats := os.map fun o => o.toNat
    let writers := (ths.zip ats).filter fun q => !t.helpers.getLsbD q.1
    let inside : Nat → Prop := fun size => 0 < size ∧ ∀ o ∈ os, o % (n : Int) = 0 ∧ 0 ≤ o ∧ o + n ≤ size
    let aligned := ∀ o ∈ os, o % (n : Int) = 0
    let out : Nat → Int → Prop := fun size o => os.find? (fun o => decide (o < 0) || decide ((size : Int) < o + n)) = some o
    let carve := carveSize y t
    let tile := partMask y t
    let ldPlan := Plan.alu (!isM w || decide (4 < wSize w) || wData w != 0 || wHint w != 0) [(wDst w, accRegs w), (wAddr w, 1)]
    let stPlan := Plan.alu (!isM w || decide (4 < wSize w) || wDst w != 0 || wHint w != 0) [(wData w, accRegs w), (wAddr w, 1)]
    (∀ par c size reg carved q, (c, size, reg, carved, q) ∈ [(Instr.ldc d g par w, carve, Reg.locRangeCnt, true, ldPlan),
        (.stc d g par w, carve, .locRangeCnt, true, stPlan), (.tld d g par w, 32768 * maskSteps tile, .tlmRangeCnt, false, ldPlan),
        (.tst d g par w, 32768 * maskSteps tile, .tlmRangeCnt, false, stPlan)] → planRuns t w q = true →
      (∀ o, os.find? (fun o => decide (o % (n : Int) ≠ 0)) = some o →
        exec c s = .next (s.setDie d (trapGroup y t0 clsMisaligned 0 (o % 2 ^ 32).toNat))) ∧
      (∀ o, aligned → out size o → exec c s = .next (s.setDie d
        ((trapGroup y t0 clsLocalRange 0 ((o % 2 ^ 32).toNat + (if carved then 2 ^ 32 else 0))).count reg))) ∧
      (size = 0 → os = [] → ∃ v, exec c s = .next (s.setDie d ((trapGroup y.tick t0 clsLocalRange 0 v).count reg)))) ∧
    (planRuns t w ldPlan = true →
      (inside carve → exec (.ldc d g false w) s = .next (goesOn s d .mem t
        ((ths.zip ats).foldl (fun u q => u.takeBytes w q.1 (Mem.bytes (y.l1 (coreOf t.loc)).carveMem q.2 n)) t))) ∧
      (inside carve → ats ≠ [] → exec (.ldc d g true w) s = .next (s.setDie d
        (parityRestartDie t.loc (.carvedL1 (BitVec.ofNat 19 (ats.headD 0))) p y))) ∧
      (inside (32768 * maskSteps tile) → exec (.tld d g false w) s = .next (goesOn s d .mem t
        ((ths.zip ats).foldl (fun u q => u.takeBytes w q.1 (partBytes y tile (coreOf t.loc) q.2 n)) t))) ∧
      (inside (32768 * maskSteps tile) → ats ≠ [] → exec (.tld d g true w) s = .next (s.setDie d
        (parityRestartDie t.loc (.tileMemory (BitVec.ofNat 19 (physOf tile (ats.headD 0)))) p y)))) ∧
    (planRuns t w stPlan = true → wSize w < 2 → ats ≠ [] →
      (inside carve → exec (.stc d g true w) s = .next (s.setDie d
        (parityRestartDie t.loc (.carvedL1 (BitVec.ofNat 19 (ats.headD 0))) p y))) ∧
      (inside (32768 * maskSteps tile) → exec (.tst d g true w) s = .next (s.setDie d
        (parityRestartDie t.loc (.tileMemory (BitVec.ofNat 19 (physOf tile (ats.headD 0)))) p y)))) ∧
    (∀ par, planRuns t w stPlan = true → (par = false ∨ 2 ≤ wSize w) →
      (inside carve → exec (.stc d g par w) s = .next (onward s d (y.onL1 (coreOf t.loc) fun u =>
        { u with carveMem := writers.foldl (fun m q => Mem.setBytes m q.2 (storeData w t q.1)) u.carveMem }) t t)) ∧
      (inside (32768 * maskSteps tile) → exec (.tst d g par w) s = .next (onward s d (writers.foldl
        (fun z q => setPartBytes z tile (coreOf t.loc) q.2 (storeData w t q.1)) y) t t))) ∧
    (∀ (m : Mem) (a : Nat) (bs : List Byte),
      (∀ i, i < bs.length → Mem.byte (Mem.setBytes m a bs) (a + i) = bs.getD i 0) ∧
      (∀ b, b < a ∨ a + bs.length ≤ b → Mem.byte (Mem.setBytes m a bs) b = Mem.byte m b))

/-- Atomics (R154 to R159, R214, R250): once alignment, pages and lines are good, the threads of each address are
combined, in order of first use, into one read-modify-write at its slice: an integer row applies its function thread
by thread in lane order, XCHG and CAS see the word as the previous thread left it, FADD adds the threads' sum in lane
order for a paired job and in some order otherwise. Each combined access, and each serialised one, counts. Where the
row returns values, they wait for ATOMIC_REPLY; for threads of one address they are the word as it stood before each
thread's own contribution. A misaligned address freezes the group; without a selected thread nothing happens.
ATOMIC_REPLY writes the oldest values into their threads' registers. Completes ATOM_ADD, ATOM_SMIN, ATOM_UMIN,
ATOM_SMAX, ATOM_UMAX, ATOM_AND, ATOM_OR, ATOM_XOR, ATOM_FADD, XCHG, CAS and ATOMIC_REPLY. -/
def Obligations.AtomicInstructions : Prop :=
  ∀ (s : State) (d : DieId) (g : GrpLoc) (w : InstrBits) (t : Group), groupReady s d g .mem t = true →
    let p := s.die d.other
    let y := atIssue s d .mem t
    let n := atomBytes w
    let m := t.selected w &&& ~~~t.helpers
    let ths := threadsOf m
    let vas := ths.map (t.vaOf w)
    let us : List URange := ths.map fun i => { va := t.vaOf w i, len := n, acc := accAtomic }
    let val := atomOperand w t (wData w)
    let combine : List (Instr × (Nat → Nat → Nat)) :=
      [(.atomAdd d g w, fun v a => (v + a) % 2 ^ (8 * n)), (.atomSmin d g w, minW true (8 * n)),
       (.atomUmin d g w, fun v a => min v a), (.atomSmax d g w, maxW true (8 * n)), (.atomUmax d g w, fun v a => max v a),
       (.atomAnd d g w, fun v a => Nat.land v a), (.atomOr d g w, fun v a => Nat.lor v a), (.atomXor d g w, fun v a => Nat.xor v a)]
    let serial : List (Instr × Nat × (Nat → Nat → Nat)) :=
      [(.xchg d g w, 1, fun i _ => val i),
       (.cas d g w, 2, fun i v => if v = val i then atomOperand w t (casNew w) i else v)]
    let waits : PendAtomic → Group := fun q => if atomReturns w then { t with atomics := t.atomics ++ [q] } else t
    let one : (Nat → Nat → Nat) → Nat → PendAtomic := fun f old =>
      { dst := wDst w, wide := atomWide w, mask := m, values := (List.range ths.length).map fun k =>
          BitVec.ofNat 64 ((ths.take k).foldl (fun v i => f i v) old) }
    let good := fun (z zz : Die) (pm : PageMap) =>
      (∀ v ∈ (threadsOf (t.selected w)).map (t.vaOf w), v % n = 0) ∧ ths ≠ [] ∧
      prewalk p y (.group t.loc) t.ctx us = (z, some pm) ∧ atomLines p z { t with wait := 0 } pm us = (zz, true)
    let write := fun (z : Die) (pa v : Nat) => sliceWrite p z t.ctx pa n v
    (∀ c k wide, (c, k, wide) ∈ (combine.map fun q => (q.1, 1, true)) ++ (serial.map fun q => (q.1, q.2.1, true)) ++
        [(Instr.atomFadd d g w, 1, false)] → planRuns t w (atomPlan w k wide t) = true →
      (∀ v, ((threadsOf (t.selected w)).map (t.vaOf w)).find? (fun v => v % n != 0) = some v →
        exec c s = .next (s.setDie d (trapGroup y { t with wait := 0 } clsMisaligned 0 v))) ∧
      ((∀ v ∈ (threadsOf (t.selected w)).map (t.vaOf w), v % n = 0) → ths = [] → exec c s = .next (goesOn s d .mem t t))) ∧
    (∀ c f z zz pm, (c, f) ∈ combine → planRuns t w (atomPlan w 1 true t) = true → good z zz pm →
      (∃ q, q.dst = wDst w ∧ q.wide = atomWide w ∧ q.mask = m ∧ q.values.length = ths.length ∧
        exec c s = .next (onward s d (vas.eraseDups.foldl (fun z va => (write z (paOf pm va)
          ((ths.filter fun i => t.vaOf w i == va).foldl (fun v i => f v (val i)) (sliceWord z (paOf pm va) n))).count
          .grpAtomicCnt) zz) t (waits q))) ∧
      (∀ va, vas.eraseDups = [va] → let old := sliceWord zz (paOf pm va) n
        exec c s = .next (onward s d ((write zz (paOf pm va) (ths.foldl (fun v i => f v (val i)) old)).count .grpAtomicCnt) t
          (waits (one (fun i v => f v (val i)) old))))) ∧
    (∀ c k f z zz pm, (c, k, f) ∈ serial → planRuns t w (atomPlan w k true t) = true → good z zz pm →
      (∃ q, q.dst = wDst w ∧ q.wide = atomWide w ∧ q.mask = m ∧ q.values.length = ths.length ∧
        exec c s = .next (onward s d (vas.eraseDups.foldl (fun z va => let mine := ths.filter fun i => t.vaOf w i == va
          (write z (paOf pm va) (mine.foldl (fun v i => f i v) (sliceWord z (paOf pm va) n))).countN .grpAtomicCnt
            mine.length) zz) t (waits q))) ∧
      (∀ va, vas.eraseDups = [va] → let old := sliceWord zz (paOf pm va) n
        exec c s = .next (onward s d ((write zz (paOf pm va) (ths.foldl (fun v i => f i v) old)).countN .grpAtomicCnt ths.length)
          t (waits (one f old))))) ∧
    (∀ z zz pm, planRuns t w (atomPlan w 1 false t) = true → good z zz pm →
      (∃ zzz q, exec (.atomFadd d g w) s = .next (onward s d zzz t (waits q)) ∧ q.mask = m ∧ q.values.length = ths.length) ∧
      ∀ va, vas.eraseDups = [va] → ∃ (order : List Nat) (q : PendAtomic), order.Perm ths ∧ q.mask = m ∧ q.dst = wDst w ∧
        (∀ j, zz.job? t.job = some j → j.paired = true → order = ths) ∧
        let add := fun (a b : Nat) => faddBits fp32 (readFloat fp32 a) (readFloat fp32 b)
        let contributions := order.map fun i => (t.lane (wData w) i).toNat
        let x : Die := { zz with free := zz.free + ths.length }
        exec (.atomFadd d g w) s = .next (onward s d ((write x (paOf pm va)
          (add (sliceWord zz (paOf pm va) n) (contributions.tail.foldl add (contributions.headD 0)))).count .grpAtomicCnt)
          t (waits q))) ∧
    ((s.die d).running = true → ∀ (u : Group) (a : PendAtomic) (as : List PendAtomic), (s.die d).group? g = some u →
      u.atomics = a :: as → let v : Nat → Nat := fun i => ((((threadsOf a.mask).zip a.values).lookup i).getD 0).toNat
      ∃ r, exec (.atomicReply d g) s = .next r ∧ (r.die d).group? g = some (
        if a.wide then ({ u with atomics := as } : Group).putPair a.mask a.dst v
        else ({ u with atomics := as } : Group).putLanes a.mask a.dst fun i => BitVec.ofNat 32 (v i)) ∧
        (r.die d).dram = (s.die d).dram)

/-- Matrix instructions (R116 to R124, R172 to R185, R194 to R198): an MMA of any of the nine rows writes the 16 × 16
words of its accumulator tile, counts itself, its MACs and its numeric events, and reads nothing of memory; each word
is the start value with the segments of products added in ascending reduction index. For unscaled integer operands,
which form one segment, that is the saturating INT32 sum of the start value and the products. MOVA, ZACC, SCW and SCR
move words and scales; MSTAT reads and clears the group's numeric status. Completes MMA_I8I8, MMA_I8I4, MMA_I4I8,
MMA_I4I4, MMA_F8F8, MMA_F8F4, MMA_F4F8, MMA_F4F4, MMA_H, MOVA_R, MOVA_W_I32, MOVA_W_F32, ZACC, SCW, SCR, MSTAT_RD and
MSTAT_CLR. -/
def Obligations.MatrixInstructions : Prop :=
  ∀ (s : State) (d : DieId) (g : GrpLoc) (w : InstrBits) (t : Group), groupReady s d g .mtx t = true →
    let y := atIssue s d .mtx t
    let go : Instr → Group → Prop := fun c u => exec c s = .next (goesOn s d .mtx t u)
    (∀ c op, (c, op) ∈ [(Instr.mmaI8i8 d g w, 0), (.mmaI8i4 d g w, 1), (.mmaI4i8 d g w, 2), (.mmaI4i4 d g w, 3),
        (.mmaF8f8 d g w, 4), (.mmaF8f4 d g w, 5), (.mmaF4f8 d g w, 6), (.mmaF4f4 d g w, 7), (.mmaH d g w, 8)] →
      let r := mmaRow op
      (planRuns t w (mmaPlan op w) = true → ∃ (ws : List Nat) (ev : Events) (z : Die),
        exec c s = .next (onward s d ((z.countEvents ev).count .mtxMmaCnt) t ((t.putTile (wDst w) ws).raise ev)) ∧
        z.sh.kmac = y.sh.kmac + BitVec.ofNat 64 r.kmac ∧ z.dram = y.dram ∧ z.regs = y.regs ∧ z.sh.groups = y.sh.groups ∧
        ∀ m n, m < 16 → n < 16 → ∃ opn, ws.getD (16 * m + n) 0 = (mmaElement t w r opn m n).1) ∧
      (t.busy (mmaPlan op w) = false → mmaBad op w = true → exec c s =
        .next (s.setDie d (trapGroup (fetched s d t) t clsBadInstruction 0 (instrWord 6 op w))))) ∧
    (∀ r ∈ mmaRows, intAccumulate r w = true → ∀ opn m n ea eb, r.a = .el ea → r.b = .el eb →
      mmaElement t w r opn m n =
        let q := intAdd (if mZero w then 0 else (t.accWord (wDst w) m n).toNat) ((List.range r.k).map fun k =>
          signExtend ea.width (operandElem t r r.a (wSrc0 w) (mKhalf w) m k) *
          signExtend eb.width (operandElem t r r.b (mBreg w) (mKhalf w) n k)).sum
        (q.1, if q.2 then 1 else 0)) ∧
    (planRuns t w (mtxPlan (!mtxForm w || wImm w != 0) [(wDst w, 1)] [(wSrc0 w, 1)]) = true →
      go (.movaR d g w) { t with regs := t.regs.set (wDst w) (t.accs.getD (wSrc0 w) zeroLanes) }) ∧
    (planRuns t w (mtxPlan (!mtxForm w || wImm w != 0) [(wSrc0 w, 1)] [(wDst w, 1)]) = true →
      go (.movaWI32 d g w) { t with accs := t.accs.set (wDst w) (t.regs.getD (wSrc0 w) zeroLanes) } ∧
      ∃ (v : Lanes) (ev : Events), exec (.movaWF32 d g w) s = .next (onward s d (y.countEvents ev) t
        (({ t with accs := t.accs.set (wDst w) v } : Group).raise ev)) ∧
        ∀ i : Fin 64, v[i] = BitVec.ofNat 32 (readAccF32 (t.lane (wSrc0 w) i.val).toNat).bits) ∧
    (planRuns t w (mtxPlan (!mtxForm w || wImm w != 0 || wSrc0 w != 0 || wDst w % 4 != 0) [] [(wDst w, 4)]) = true →
      ∃ u : Group, go (.zacc d g w) u ∧ (∀ m n, m < 16 → n < 16 → u.accWord (wDst w) m n = 0) ∧ u.regs = t.regs ∧
        ∀ k, (k < wDst w ∨ wDst w + 4 ≤ k) → u.accs[k]? = t.accs[k]?) ∧
    (planRuns t w (mtxPlan (!mtxForm w || decide (8 ≤ wDst w) || decide (4 ≤ wImm w)) [(wSrc0 w, 1)] []) = true →
      ∀ h : wDst w < 8, go (.scw d g w) { t with scales := t.scales.set (wDst w) (Vector.ofFn fun k : Fin 64 =>
        BitVec.ofNat 8 ((t.lane (wSrc0 w) (16 * wImm w + k.val / 4)).toNat / 2 ^ (8 * (k.val % 4)))) }) ∧
    (planRuns t w (mtxPlan (!mtxForm w || decide (8 ≤ wSrc0 w) || decide (4 ≤ wImm w)) [(wDst w, 1)] []) = true →
      let sc := (t.scales.toList.getD (wSrc0 w) (Vector.replicate 64 0x7F)).toList
      go (.scr d g w) (t.putLanes ((0xFFFF : BitVec 64) <<< (16 * wImm w)) (wDst w) fun i =>
        BitVec.ofNat 32 (fieldNat sc (4 * (i % 16)) 4))) ∧
    (planRuns t w (mtxPlan (!mtxForm w || wSrc0 w != 0 || decide (4 ≤ wImm w)) [(wDst w, 1)] []) = true →
      let v : Word := if wImm w = 0 then t.gstat.setWidth 32 else if wImm w = 1 then t.ovf else if wImm w = 2 then t.sat else t.nan
      go (.mstatRd d g w) (t.putLanes (BitVec.allOnes 64) (wDst w) fun _ => v)) ∧
    (planRuns t w (mtxPlan (!mtxForm w || wDst w != 0 || wSrc0 w != 0 || decide (8 ≤ wImm w)) [] []) = true →
      go (.mstatClr d g w) { t with gstat := t.gstat &&& ~~~(BitVec.ofNat 3 (wImm w)) })

/-- Quantisation (R128, R186 to R190): each of the five rows writes its elements, counts itself and its events, leaves
the accumulators and every register outside its destination as they were, and changes a scale register only in
automatic mode; in automatic mode no smaller exponent would fit a member of a block. A wrong encoding freezes the
group. Completes QUANT_INT8, QUANT_INT4, QUANT_FN8, QUANT_FN4 and QUANT_BINARY16. -/
def Obligations.QuantInstructions : Prop :=
  ∀ (s : State) (d : DieId) (g : GrpLoc) (w : InstrBits) (t : Group), groupReady s d g .mtx t = true →
    let y := atIssue s d .mtx t
    (∀ c op, (c, op) ∈ [(Instr.quantInt8 d g w, 0), (.quantInt4 d g w, 1), (.quantFn8 d g w, 2), (.quantFn4 d g w, 3),
        (.quantBinary16 d g w, 4)] →
      (planRuns t w (quantPlan op w) = true → ∃ (u : Group) (ev : Events),
        exec c s = .next (onward s d ((y.countEvents ev).count .mtxQuantCnt) t (u.raise ev)) ∧
        u.accs = t.accs ∧ u.preds = t.preds ∧ u.active = t.active ∧ u.stack = t.stack ∧
        (qAuto w = false → u.scales = t.scales) ∧ (∀ k, k ≠ qSc w → u.scales.toList[k]? = t.scales.toList[k]?) ∧
        (∀ r, (r < wDst w ∨ wDst w + qRegs op w ≤ r) → u.regs[r]? = t.regs[r]?) ∧
        ev.sat = (((List.range 16).map fun m => ((List.range (qCols w)).map fun n => (quantConv op t w m n).sat).sum).sum) ∧
        ev.nan = (((List.range 16).map fun m => ((List.range (qCols w)).map fun n => (quantConv op t w m n).nan).sum).sum)) ∧
      (t.busy (quantPlan op w) = false → quantBad op w = true → exec c s =
        .next (s.setDie d (trapGroup (fetched s d t) t clsBadInstruction 0 (instrWord 7 op w))))) ∧
    (∀ (el : Elem) (m : Nat) (e : Int), m ≠ 0 → -127 < leastExp el m e → leastExp el m e < 127 →
      fitsMax el m e (leastExp el m e) = true ∧ fitsMax el m e (leastExp el m e - 1) = false)

/-- Outputs, textures and interlocks (R250, R269 to R272): OUT.POS, OUT.VAR, OUT.COL and OUT.DEPTH set the outputs of
the selected threads that are no helpers; DISCARD uncovers the selected threads' samples; ILK.ACQ is granted unless a
fragment of an earlier triangle that covers one of its samples has not released, and the group is marked as waiting
while one has; ILK.REL releases. SAMPLE and FETCH read a good descriptor and write four registers in the selected
threads, 0 where no texel is asked for; a bad descriptor freezes the group. Completes OUT_POS, OUT_VAR, OUT_COL,
OUT_DEPTH, DISCARD, ILK_ACQ, ILK_REL, SAMPLE and FETCH. -/
def Obligations.OutputAndTextureInstructions : Prop :=
  ∀ (s : State) (d : DieId) (g : GrpLoc) (w : InstrBits) (t : Group), groupReady s d g .mem t = true →
    let x := s.die d
    let y := atIssue s d .mem t
    let m := t.selected w &&& ~~~t.helpers
    let go : Instr → Group → Prop := fun c u => exec c s = .next (goesOn s d .mem t u)
    let kept : (Nat → ShaderOut → ShaderOut) → Nat → ShaderOut := fun f i =>
      if m.getLsbD i then f i (t.out.getD i noOut) else t.out.getD i noOut
    let puts : (Nat → ShaderOut → ShaderOut) → Group := fun f => { t with out := (List.range t.out.length).map (kept f) }
    let four : Nat → List Word := fun i => (List.range 4).map fun k => t.lane (wData w + k) i
    (planRuns t w (Plan.alu (!outFields w || wOfsU w != 0 || !t.isVertex) [(wData w, 4)]) = true →
      go (.outPos d g w) (puts fun i o => { o with pos := some (four i) })) ∧
    (planRuns t w (Plan.alu (!outFields w || !t.isVertex || decide (wVaryings (drawWord x t) ≤ wOfsU w)) [(wData w, 4)]) = true →
      go (.outVar d g w) (puts fun i o => { o with vars := putSlot o.vars (wOfsU w) (four i) })) ∧
    (planRuns t w (Plan.alu (!outFields w || !t.isFragment || decide (3 < wOfsU w)) [(wData w, 4)]) = true →
      go (.outCol d g w) (puts fun i o => { o with cols := putSlot o.cols (wOfsU w) (four i) })) ∧
    (planRuns t w (Plan.alu (!outFields w || wOfsU w != 0 || !t.isFragment || !wLate (drawWord x t)) [(wData w, 1)]) = true →
      go (.outDepth d g w) (puts fun i o => { o with depth := some (t.lane (wData w) i) })) ∧
    (planRuns t w (Plan.noRegs (!outFields w || wData w != 0 || wOfsU w != 0 || !t.isFragment || !wLate (drawWord x t))) = true →
      ∃ u : Group, go (.discard d g w) u ∧ u.regs = t.regs ∧ u.out = t.out ∧ u.active = t.active ∧
        ∀ i : Nat, u.frags[i]? = (t.frags[i]?).map fun f => if (t.selected w).getLsbD i then { f with cover := 0 } else f) ∧
    (planRuns t w (Plan.noRegs (ilkAcqBad x w t)) = true →
      (ilkWaits x t = true → exec (.ilkAcq d g w) s = .next (s.onDie d fun x => x.updGroup g fun t => { t with ilkWait := true })) ∧
      (ilkWaits x t = false → go (.ilkAcq d g w) { t with ilk := 1, ilkWait := false })) ∧
    (planRuns t w (Plan.noRegs (!ilkFields w || t.ilk != 1)) = true → go (.ilkRel d g w) { t with ilk := 2 }) ∧
    (∀ c plan ask, (c, plan, ask) ∈ ([(.sample d g w, Plan.alu (!texFields w || decide (1 < wHint w) || (wHint w == 0 &&
          (wData w != 0 || !t.isFragment)) || decide (t.stage = .compute))
          ([(wDst w, 4), (wAddr w, 2)] ++ (if wHint w = 1 then [(wData w, 1)] else [])), fun b i => sampleAsk b w t i),
        (.fetchTexel d g w, Plan.alu (!texFields w || wHint w != 0 || decide (t.stage = .compute))
          [(wDst w, 4), (wAddr w, 2), (wData w, 1)], fun b i => fetchAsk b w t i)] :
          List (Instr × Plan × (List Byte → Nat → TexAsk))) →
      planRuns t w plan = true → ∀ z b, let dva := wResVa (drawWord y t) + 32 * (wOfsU w % 4096)
      readUnit (s.die d.other) y (.texture t.loc) t.ctx dva 32 accRead = (z, some b) →
      (texOk b = false → exec c s = .next (s.setDie d (trapGroup z { t with wait := 0 } clsBadDescriptor 0 dva))) ∧
      (texOk b = true → (∀ i ∈ threadsOf (t.selected w), (ask b i).texels = []) → ∃ z', exec c s = .next (onward s d z' t
        ((List.range 4).foldl (fun u k => u.putLanes (t.selected w) (wDst w + k) fun _ => 0) t))) ∧
      (∀ zz pm zzz res, texOk b = true → let asks := (threadsOf (t.selected w)).map fun i => (i, ask b i)
        prewalk (s.die d.other) z (.texture t.loc) t.ctx (((asks.map fun a => a.2.texels).flatten.map (texelVa b)).eraseDups.map
          fun q => { va := q.1, len := q.2, acc := accRead }) = (zz, some pm) →
        asks.foldl (fun (r : Die × Option (List (Nat × List Word))) a => match r.2 with
          | none => r
          | some l => match readTexels (s.die d.other) r.1 { t with wait := 0 } pm b a.2.texels with
            | (v, none) => (v, none)
            | (v, some vs) => (v, some (l ++ [(a.1, (List.range 4).map (texResult a.2 vs))]))) (zz, some []) = (zzz, some res) →
        exec c s = .next (onward s d zzz t
          ((List.range 4).foldl (fun u k => u.putLanes (t.selected w) (wDst w + k) fun i => ((res.lookup i).getD []).getD k 0) t))))

/-- The geometry front end (R239, R242, R248, R249, R261 to R263). A pass starts by reading its descriptor: a bad one
freezes it with BAD_DESCRIPTOR; a good one of a binned pass zeroes the head table and begins binning, or the tile
phase where no draw is chained. A draw that is good is bound with its viewport; one without vertices gives way to the
next. A vertex group shades the next 64 positions at most on the chosen core, its registers holding the constants, the
index and the instance. The front end serves the pass at a primitive: the next triangle is assembled, clipped, culled
and binned; past the last one the next instance, or draw, comes; triangles that await room come first. The group's
GROUP_IDX is the count of the job's groups dispatched before (log 150, the model's choice). Completes PASS_START,
DRAW_CHECK, VERTEX_GROUP_DISPATCH, TRIANGLE_BIN. -/
def Obligations.TheFrontEndServesPasses : Prop :=
  ∀ (s : State) (d : DieId) (pp : Fin 4) (q : Pass) (j : Job), let x := s.die d
    let p := s.die d.other
    frontPass x pp = some (q, j) →
    (∀ y b, q.desc = [] → q.phase ≠ .folding →
      readUnit p x (.frontEnd pp) q.ctx (dWorkVa j.desc) 256 accRead = (y, some b) →
      (passOk b (dSteps j.desc) = false →
        exec (.passStart d pp) s = .next (s.setDie d (badPassDesc y pp q.ctx (dWorkVa j.desc)))) ∧
      (∀ z, passOk b (dSteps j.desc) = true → pDirect b = false → writeList p y (.frontEnd pp) q.ctx
          (splitBytes (pHamperVa b) (List.replicate (16 * pTiles b) 0)) = (z, true) → z.passes[pp] = some q →
        ∃ t r, exec (.passStart d pp) s = .next t ∧ (t.die d).passes[pp] = some r ∧ r.desc = b ∧ r.segment = 1 ∧
          r.nextChunk = headChunks b ∧ r.tiles = [] ∧ r.phase = (if pDrawVa b = 0 then .tile else .binning) ∧
          r.drawVa = pDrawVa b ∧ (t.die d).dram = z.dram) ∧
      (∀ z, passOk b (dSteps j.desc) = true → pDirect b = true →
          clearImages p y pp q.ctx ((shareClusters j).headD 0) b = (z, true) → z.passes[pp] = some q →
        ∃ t r, exec (.passStart d pp) s = .next t ∧ (t.die d).passes[pp] = some r ∧ r.desc = b ∧ r.phase = .direct ∧
          r.drawVa = pDrawVa b ∧ r.tiles.map (fun f => f.cl) = shareClusters j ∧ (t.die d).dram = z.dram)) ∧
    (∀ y w, q.desc ≠ [] → q.checked = false → q.drawVa ≠ 0 → (q.phase = .binning ∨ q.phase = .direct) →
      readUnit p x (.frontEnd pp) q.ctx q.drawVa 128 accRead = (y, some w) →
      (drawOk q.desc w = false → exec (.drawCheck d pp) s = .next (s.setDie d (badPassDesc y pp q.ctx q.drawVa))) ∧
      (∀ z vp, drawOk q.desc w = true → q.drawNo ≤ 1048574 →
        readUnit p y (.frontEnd pp) q.ctx (pViewportsVa q.desc + 24 * wViewport w) 24 accRead = (z, some vp) →
        (wCount w ≠ 0 → exec (.drawCheck d pp) s = .next (s.setDie d (z.updPass pp fun q =>
          { q with draw := w ++ vp, checked := true, draws := (q.drawNo, w ++ vp) :: q.draws }))) ∧
        (wCount w = 0 → exec (.drawCheck d pp) s = .next (s.setDie d (z.updPass pp fun q => Pass.nextDraw
          { q with draw := w ++ vp, checked := true, draws := (q.drawNo, w ++ vp) :: q.draws }))))) ∧
    (q.checked = true → (q.phase = .binning ∨ q.phase = .direct) → q.position < wCount q.draw → x.schedules = true →
      let n := min 64 (wCount q.draw - q.position)
      (x.bestCore (inOrder (liveClusters j)) q.job 0 (wVsRegs q.draw) 0 1 = none →
        exec (.vertexGroupDispatch d pp) s = .next (s.onDie d id)) ∧
      ∀ c y vals, x.bestCore (inOrder (liveClusters j)) q.job 0 (wVsRegs q.draw) 0 1 = some c →
        indexValues p x pp q n = (y, some vals) →
        exec (.vertexGroupDispatch d pp) s = .next (s.setDie d
          (((y.placeGroup c (wVsRegs q.draw) 0 fun f l st => (vertexGroup q pp vals f l st).numbered j.dispatched).updJob
            q.job Job.oneMore).updPass pp fun r => { r with
            position := r.position + n,
            cuts := r.cuts ++ ((List.range n).filter fun i => isRestart q.draw (vals.getD i 0)).map fun i => q.position + i }))) ∧
    (∀ vals k l st, 4 ≤ wVsRegs q.draw → let g := vertexGroup q pp vals k l st
      g.pc = BitVec.ofNat 48 (wVsVa q.draw) ∧ g.active = BitVec.ofNat 64 (2 ^ vals.length - 1) ∧ g.exited = ~~~g.active ∧
      ∀ i, i < 64 → g.lane 0 i = BitVec.ofNat 32 (wConstVa q.draw) ∧
        g.lane 1 i = BitVec.ofNat 32 (wConstVa q.draw / 2 ^ 32 % 2 ^ 16) ∧
        g.lane 2 i = BitVec.ofNat 32 (vals.getD i 0 + wBaseVertex q.draw) ∧
        g.lane 3 i = BitVec.ofNat 32 (wFirstInstance q.draw + q.inst)) ∧
    (q.hasWork = true → x.frontServes pp q j = true → q.fan ≠ [] → exec (.triangleBin d pp) s = .next (s.setDie d
      (binFan p pp q.fan (x.updPass pp fun r => { r with served := x.serviceCount + 1 })))) ∧
    (q.hasWork = true → x.frontServes pp q j = true → q.fan = [] →
      let y := x.updPass pp fun r => { r with served := x.serviceCount + 1 }
      (q.nextTri = .over → exec (.triangleBin d pp) s = .next (s.setDie d (y.updPass pp Pass.nextInstance))) ∧
      (∀ a k cs vs, q.nextTri = .tri a k cs vs → exec (.triangleBin d pp) s = .next (s.setDie d
        (binFan p pp (shapeTriangle q.draw q.drawNo q.tri vs).1 (countCulled ((y.updPass pp fun r =>
          { r with primsIn := r.primsIn + 1, tri := r.tri + 1, stripStart := a, stripTri := k + 1, cuts := cs }).count .gfxPrimInCnt)
          pp (shapeTriangle q.draw q.drawNo q.tri vs).2))))) ∧
    ((q.hasWork = false ∨ x.frontServes pp q j = false) → exec (.triangleBin d pp) s = .next (s.onDie d id))

/-- The hamper and the tiles (R250, R255 to R260, R277). A request for an extension chunk that is the oldest is
answered from the context's reserve: the lowest free chunk, its MAP bit set, and counted; with none free, or when
EXT_WAIT has passed, it is refused and counted, and while one is free no other answer than a grant is taken. A refused
pass rinses where it may and ends as exhausted where it may not. A rinse that has written every listed tile empties
the lists and resumes binning in a new segment. On a cluster a finished tile is stored before a tile draws its next
entry, and that before a new tile is taken. Ready fragments leave their tile as one group of 16 quads at most. A pass
that is drawn writes its statistics, returns its chunks and finishes. Completes EXT_ANSWER, EXT_WAIT_TIMEOUT, RINSE,
TILE_RENDER, FRAGMENT_GROUP_DISPATCH, PASS_COMPLETE. -/
def Obligations.HamperTilesAndCompletion : Prop :=
  ∀ (s : State) (d : DieId) (pp : Fin 4) (q : Pass), let x := s.die d
    let p := s.die d.other
    (∀ since y base n m, x.passes[pp] = some q → q.extWait = some since → x.running = true → x.oldestExt since = true →
      q.frozen = none → readReserve p x pp q = (y, some (base, n, m)) →
      let free := (List.range n).find? fun c => !(m.getD (c / 8) 0).getLsbD (c % 8)
      (∀ grant, free = none → exec (.extAnswer d pp grant) s = .next (s.setDie d (extRefused p y pp q))) ∧
      (∀ c, free = some c → exec (.extAnswer d pp false) s = .next (s.setDie d y)) ∧
      (∀ c, free = some c → y.passed since y.extWaitUs = true →
        exec (.extAnswer d pp true) s = .next (s.setDie d (extRefused p y pp q))) ∧
      ∀ c z, free = some c → y.passed since y.extWaitUs = false → writeMap p y pp q (mapBits m [c] true) = (z, true) →
        exec (.extAnswer d pp true) s = .next (s.setDie d ((z.updPass pp fun r =>
          { r with extWait := none, exts := r.exts ++ [c], extBase := base, extGranted := r.extGranted + 1 }).count
          .gfxExtGrantCnt))) ∧
    (∀ since, x.passes[pp] = some q → q.extWait = some since → x.running = true → q.frozen = none →
      exec (.extWaitTimeout d pp) s = .next (s.setDie d (if x.passed since x.extWaitUs then extRefused p x pp q else x))) ∧
    (∀ y : Die, y.passes[pp] = some q → pAllowRinse q.desc = true → q.phase ≠ .folding →
      let z := extRefused p y pp q
      z.reg .gfxExtRefusedCnt = y.reg .gfxExtRefusedCnt + 1 ∧ z.dram = y.dram ∧ z.passes[pp] = some
        { q with extWait := none, extRefused := q.extRefused + 1, phase := .rinse, nextTile := 0 }) ∧
    (∀ j y z, frontPass x pp = some (q, j) → q.phase = .rinse → pTiles q.desc ≤ q.nextTile → q.tiles = [] →
      writeList p x (.frontEnd pp) q.ctx (q.tails.map fun t => (headVa q.desc t.1, List.replicate 12 0)) = (y, true) →
      returnChunks p y pp q = (z, true) → z.passes[pp] = some q → ∃ t r, exec (.rinse d pp) s = .next t ∧
        (t.die d).passes[pp] = some r ∧ r.phase = .binning ∧ r.segment = q.segment + 1 ∧ r.rinses = q.rinses + 1 ∧ r.tails = [] ∧
        r.nextChunk = headChunks q.desc ∧ r.vChunk = 0 ∧ r.lChunk = 0 ∧ (t.die d).reg .gfxRinseCnt = z.reg .gfxRinseCnt + 1) ∧
    (∀ (cl : Fin 6) j (q0 : Pass) j0, frontPass x pp = some (q0, j0) → x.unitFrozen cl.val = false → q0.haltedOn cl = false →
      let y := (q0.tiles.filter fun f => decide (f.cl = cl)).foldl (fun y f => serveTile p y pp f.tile) x
      frontPass y pp = some (q, j) → let mine := q.tiles.filter fun f => decide (f.cl = cl)
      (∀ r, (q.phase = .tile ∨ q.phase = .rinse) → (liveClusters j).contains cl = true → y.part? q.job cl = some r →
        (∀ f, mine.find? (fun f => f.listDone && f.settled) = some f →
          exec (.tileRender d pp cl) s = .next (s.setDie d (storeTile p y pp q f r.mask))) ∧
        (∀ f, (∀ g ∈ mine, (g.listDone && g.settled) = false) → mine.find? (fun f => !f.listDone) = some f →
          exec (.tileRender d pp cl) s = .next (s.setDie d (drawEntry p y pp q f))) ∧
        ((∀ g ∈ mine, g.listDone = true ∧ g.settled = false) →
          exec (.tileRender d pp cl) s = .next (s.setDie d (takeTile p y pp q j cl r.mask)))) ∧
      (∀ f u, ((mine.map fun f => f.quads.map fun u => (f, u)).flatten.find? fun c =>
          (y.bestPipe { cl := cl, core := coreFin c.2.sub } (wFsRegs (q.drawOf c.2.drawNo)) 0).isSome &&
          !(groupQuads q c.1 c.2.sub c.2.drawNo).isEmpty) = some (f, u) →
        let qs := groupQuads q f u.sub u.drawNo
        qs.length ≤ 16 ∧ (∀ v ∈ qs, v.sub = u.sub ∧ v.drawNo = u.drawNo ∧ v.tested = true) ∧
        exec (.fragmentGroupDispatch d pp cl) s = .next (s.setDie d
          (((y.placeGroup { cl := cl, core := coreFin u.sub } (wFsRegs (q.drawOf u.drawNo)) 0 fun n l st =>
            (fragmentGroup q pp f qs n l st).numbered j.dispatched).updJob q.job Job.oneMore).updFlight
            pp f.tile fun g => { g with quads := dropQuads g.quads qs })))) ∧
    (∀ y f mask z, q.phase = .tile → eachRegion q.desc f.cl y (fun v c i a => storeRegion p v q mask c f.slot f.tile i a) =
        (z, true) →
      let r := storeTile p y pp q f mask
      r.reg .gfxTileCnt = z.reg .gfxTileCnt + 1 ∧ r.dram = z.dram ∧ r.passes[pp] = (z.passes[pp]).map fun q =>
        { q with tiles := q.tiles.filter (fun g => g.tile != f.tile), tilesRendered := q.tilesRendered + 1 }) ∧
    (∀ j y z, frontPass x pp = some (q, j) → q.desc ≠ [] → q.drawn = true → (∀ g ∈ x.sh.groups, g.job ≠ q.job) →
      x.storesDone q.job = true →
      (if pStatVa q.desc = 0 then (x, true) else
        writeUnit p x (.frontEnd pp) q.ctx (pStatVa q.desc) (statBytes q) accWrite) = (y, true) →
      returnChunks p y pp q = (z, true) → exec (.passComplete d pp) s =
        .next (s.setDie d (finishJob p (if q.direct then z.count .gfxDirectPassCnt else z) q.job)))

/-- Pressed configurations and lines of a pipe (R284, R286 to R288, R291 to R293, R310, R314, R603). A pipe that is
not enabled deals with its press at once; a press whose words break R286 is refused, flagged and counted, and no
timing or port word changes; a paired pipe's press on die A waits for die B's acknowledgement, which comes over CTL
once die B has applied the same words at the same frame. Before a frame's first line every pending layer whose fence
has reached its value becomes active; a late one is flagged and counted. A line is composed when it is the next one
and moves the pipe on by one line; a frozen pipe shows the SAFE colour. An underrun shows it from some column of the
line. When the pixel PLL has relocked a frame begins at line 0. Completes PIPE_PRESS_APPLY_DISABLED,
PAIRED_PIPE_PRESS_ACK, LAYER_CONFIG_FIX, LAYER_LINE_FETCH, FETCH_UNDERRUN, PIXEL_PLL_RELOCK. -/
def Obligations.PipesApplyPressesAndLines : Prop :=
  ∀ (s : State) (d : DieId) (q : Fin 4), let x := s.die d
    let p := s.die d.other
    let u := 22 + q.val
    let t := x.pipes[q]
    (x.running = true → t.en = false →
      (x.pipePressDue q = false → exec (.pipePressApplyDisabled d q) s = .next s) ∧
      (x.pipePressDue q = true → (d = .b ∨ x.pipePaired q = false ∨ x.shadowFails u = true) →
        (x.shadowFails u = true → exec (.pipePressApplyDisabled d q) s = .next (s.onDie d fun x => x.unitRefuses u)) ∧
        (x.shadowFails u = false → pipePressOk x.press.pressed q = true → t.frozen ≠ some clsCfgParity →
          exec (.pipePressApplyDisabled d q) s =
            .next (s.onDie d fun x => (applyPipeWords x.press.pressed q x).unitApplies u)) ∧
        (x.shadowFails u = false → pipePressOk x.press.pressed q = false → ∃ r,
          exec (.pipePressApplyDisabled d q) s = .next r ∧ ((r.die d).regI .dspPipeFlags [q.val]).getLsbD 6 = true ∧
          (r.die d).regI .dspCfgRefusedCnt [q.val] = x.regI .dspCfgRefusedCnt [q.val] + 1 ∧
          timingWords (r.die d) q = timingWords x q ∧ portWords (r.die d) q = portWords x q ∧
          (r.die d).pipes = x.pipes ∧ (r.die d).unitWaits u = false)) ∧
      (d = .a → x.pipePressDue q = true → x.pipePaired q = true → x.shadowFails u = false → ∃ r,
        exec (.pipePressApplyDisabled d q) s = .next r ∧ (r.a.pipes[q]).pairAckDue = some x.press.epoch ∧
        (s.b.pipeBehind q t.frame = true → r.b = s.b.updPipe q fun t =>
          { t with pairPress := some (x.press.epoch, x.press.pressed) }) ∧
        (s.b.pipeBehind q t.frame = false → (r.b.pipes[q]).pairPress = none ∧
          (s.b.pair.bridgeUp = true → r.b.pair.ctlOut = s.b.pair.ctlOut ++ [.pipeAck q x.press.epoch])))) ∧
    (s.a.pair.bridgeUp = true → s.b.pair.ctlOut.any (pipeAckOf q) = true → (s.a.pipes[q]).pairAckDue.isSome = true →
      ∃ r, exec (.pairedPipePressAck q) s = .next r ∧ r.b.pair.ctlOut = dropFirst (pipeAckOf q) s.b.pair.ctlOut ∧
        (r.a.pipes[q]).pairAckDue = none ∧ r.a.press.applied = s.a.press.applied ||| bit44 u) ∧
    (x.running = true → t.fixDue = true → t.frozen = none → exec (.layerConfigFix d q) s = .next (s.setDie d
      ((layerIds.foldl (fun y l => fixLayer p y q l) x).updPipe q fun t => { t with fixDue := false }))) ∧
    (∀ (y z : Die) (l : Fin 8) (c : LayerCfg) (v : DWord), (y.pipes[q]).frozen = none →
      ((y.pipes[q]).layers[l]).pending = some c → fenceUnit p y (.layer q l) (lCtx c) (lFence c) = (z, some v) →
      ((lValue c).toNat ≤ v.toNat → fixLayer p y q l = z.updPipe q fun t =>
        { t with layers := vmod t.layers l fun k => { k with active := c, pending := none } }) ∧
      (v.toNat < (lValue c).toNat → (fixLayer p y q l).pipes = z.pipes ∧
        ((fixLayer p y q l).regI .dspPipeFlags [q.val]).getLsbD 0 = true ∧
        (fixLayer p y q l).regI .dspLayerLateCnt [q.val, l.val] = z.regI .dspLayerLateCnt [q.val, l.val] + 1)) ∧
    (∀ n, (x.mayScan q n = false → exec (.layerLineFetch d q n) s = .next (s.onDie d id)) ∧
      (x.mayScan q n = true →
        exec (.layerLineFetch d q n) s = .next (s.setDie d ((composeStep p x q n).updPipe q fun t => { t with
          line := n + 1, vblank := false, layers := t.layers.map fun k => { k with underrun := none } })) ∧
        (t.frozen.isSome = true → t.relockFrame = false → composeStep p x q n = portLine x q n
          (List.replicate (x.fld .dspPipeHtiming [q.val] 15 0) (colour10 (x.regI .dspPipeSafe [q.val])))))) ∧
    (∀ l : Fin 8, x.mayScan q t.line = true → t.frozen = none → t.relockFrame = false → l ∈ lineLayers x q t.line →
      (t.layers[l]).underrun = none → ∃ r col, exec (.fetchUnderrun d q l) s = .next r ∧
        (((r.die d).pipes[q]).layers[l]).underrun = some col ∧ col < max 1 (x.fld .dspPipeHtiming [q.val] 15 0) ∧
        ((r.die d).pipes[q]).underrun = true ∧ ((r.die d).regI .dspPipeFlags [q.val]).getLsbD 5 = true ∧
        (r.die d).dram = x.dram) ∧
    (x.running = true → t.en = true → t.relocking = true → ∃ r n, exec (.pixelPllRelock d q) s = .next r ∧ n ≤ 2 ∧
      (r.die d).pipes[q] = { freshFrame t with relocking := false, relockLeft := n, relockFrame := decide (0 < n),
                                               wasFrozen := t.frozen.isSome, startDue := Die.follows p x q })

/-- Frames, tags and ports (R282, R303 to R311, R536). At a frame's end its tags are final, FRAME counts, the verdict
is due and the next frame begins at line 0. The verdict counts a frame with a mismatch, an underrun or a failed pair
comparison as unverified and lengthens the run of such frames, saturating at 15; a clean frame ends the run. A
complete writeback signals its fence with the frame number and counts. The follower takes the leader's latest frame
number. At its boundary die B's paired pipe applies the press that waits for it. Losing HPD, or a failed check after a
pulse, loses the port's link, counted; training takes the highest rate of the table, up to MAX_RATE, that the sink and
the bandwidth allow; a shadow pipe's port does not train. Completes FRAME_BOUNDARY, FRAME_VERDICT,
WRITEBACK_FRAME_DONE, FRAME_START_MESSAGE, HPD_CHANGE, DP_LINK_TRAIN. -/
def Obligations.FramesEndAndPortsTrain : Prop :=
  ∀ (s : State) (d : DieId) (q : Fin 4), let x := s.die d
    let p := s.die d.other
    let t := x.pipes[q]
    (x.atBoundary q = false → exec (.frameBoundary d q) s = .next s) ∧
    (x.atBoundary q = true → d = .b → x.pipePressDue q = false → t.pairPress.isSome = true → ∃ r,
      exec (.frameBoundary d q) s = .next r ∧ (r.b.pipes[q]).pairPress = none ∧ (r.b.pipes[q]).frame = t.frame + 1) ∧
    (x.atBoundary q = true → x.pipePressDue q = false → t.pairPress = none → ∃ r, exec (.frameBoundary d q) s = .next r ∧
      let v := (r.die d).pipes[q]
      v.frame = t.frame + 1 ∧ v.verdictDue = some t.frame ∧ v.tagsOf = finalTags x q ∧
      v.dueMiss = expectMiss x q (finalTags x q) ∧ v.line = 0 ∧ v.vblank = true ∧ v.underrun = false ∧
      v.crc = List.replicate 16 0xFFFFFFFF ∧ (r.die d).dram = x.dram ∧
      (2 ≤ x.fld .dspPipeCtrl [q.val] 2 1 → t.wbLines = x.fld .dspPipeVtiming [q.val] 15 0 → t.frozen = none →
        v.wbDue = some (t.frame, (x.regI .dspPipeWbfLo [q.val]).toNat + x.fld .dspPipeWbfHi [q.val] 15 0 * 2 ^ 32,
          x.fld .dspPipeWbHi [q.val] 25 16))) ∧
    (∀ n, t.verdictDue = some n → x.running = true →
      let pairBad := t.pairResult = some false ∨ x.pair.tags.any (isPipeTag q n) = true ∨ (x.pair.mode = 1 ∧
        bitOf (cfgPairedPipes (x.reg .cmdPairCfg)) q.val = true ∧ x.pair.lost = true)
      ∃ r, exec (.frameVerdict d q) s = .next r ∧ ((r.die d).pipes[q]).verdictDue = none ∧ (r.die d).dram = x.dram ∧
        (t.dueMiss = 0 → t.dueCauses = 0 → ¬ pairBad → ((r.die d).pipes[q]).mmRun = 0 ∧
          (r.die d).regI .dspUnverifiedCnt [q.val] = x.regI .dspUnverifiedCnt [q.val]) ∧
        ((t.dueMiss ≠ 0 ∨ pairBad ∨ bitOf t.dueCauses 0 = true) → ((r.die d).pipes[q]).mmRun = min 15 (t.mmRun + 1) ∧
          (r.die d).regI .dspUnverifiedCnt [q.val] = x.regI .dspUnverifiedCnt [q.val] + 1)) ∧
    (∀ n va c, t.wbDue = some (n, va, c) → x.running = true → t.frozen = none →
      let sent : Die → Die := fun y => (y.updPipe q fun t => { t with wbDue := none }).countI .dspWbCnt [q.val] 1
      (va = 0 → exec (.writebackFrameDone d q) s = .next (s.setDie d (sent x))) ∧
      (∀ z v, va ≠ 0 → signalUnit p x (.writeback q) c va (n.setWidth 64) = (z, some v) →
        exec (.writebackFrameDone d q) s = .next (s.setDie d (sent z))) ∧
      (∀ z, va ≠ 0 → signalUnit p x (.writeback q) c va (n.setWidth 64) = (z, none) →
        exec (.writebackFrameDone d q) s = .next (s.setDie d z))) ∧
    (∀ n, p.pair.ctlOut.reverse.findSome? (frameStartOf q) = some n → x.running = true → x.pair.bridgeUp = true →
      t.startDue = true → ∃ r, exec (.frameStartMessage d q) s = .next r ∧ ((r.die d).pipes[q]).frame = n ∧
        ((r.die d).pipes[q]).startDue = false ∧
        (r.die d.other).pair.ctlOut = p.pair.ctlOut.filter fun m => (frameStartOf q m).isNone) ∧
    (x.running = true →
      exec (.hpdChange d q .high) s = .next (s.onDie d fun x => x.updPipe q fun t => { t with hpd := true }) ∧
      exec (.hpdChange d q .short) s = .next (s.onDie d id) ∧
      exec (.hpdChange d q (.pulse true)) s = .next (s.onDie d fun x => x.countI .dspHpdIrqCnt [q.val] 1) ∧
      (∀ ev, (ev = .pulse false ∨ (ev = .low ∧ t.hpd = true)) → ∃ r, exec (.hpdChange d q ev) s = .next r ∧
        ((r.die d).pipes[q]).trained = false ∧
        (r.die d).regI .dspLinkLossCnt [q.val] = x.regI .dspLinkLossCnt [q.val] + 1) ∧
      (t.hpd = false → exec (.hpdChange d q .low) s = .next (s.onDie d id))) ∧
    (∀ trains, let ctrl := x.regI .dspPortCtrl [q.val]
      let allowed : Nat → Bool := fun r => trains.contains r &&
        bandwidthOk ctrl (x.regI .dspPortDsc [q.val]) (x.regI .dspPipeCtrl [q.val]) (x.fld .dspPipePclk [q.val] 20 0) r
      x.running = true → t.en = true → wbits (x.regI .dspPipeCtrl [q.val]) 2 1 % 2 = 1 → t.hpd = true → t.trained = false →
      (x.shadows q = true → exec (.dpLinkTrain d q trains) s = .next (s.onDie d id)) ∧
      (∀ r ∈ triedRates ctrl, allowed r = true → (∀ k ∈ triedRates ctrl, allowed k = true → k ≤ r) → x.shadows q = false →
        exec (.dpLinkTrain d q trains) s = .next (s.onDie d fun x =>
          (x.updPipe q fun t => { t with trained := true, rate := r }).countI .dspLinkTrainCnt [q.val] 1)) ∧
      ((∀ r ∈ triedRates ctrl, allowed r = false) → exec (.dpLinkTrain d q trains) s = .next (s.onDie d id)))

/-- Links (R391, R393 to R406): a lane locks after 64 valid headers in a row and unlocks after 16 invalid ones;
SIGNAL, ALIGN and EXCHANGE go on when their conditions hold and take the link down with causes 2, 3 and 4 after 1 ms;
a training block counts when its partner passes R404 and takes the link down when it does not. On an UP link a flit
with the expected SEQ is accepted and E advances; one that fails is discarded, and the first of a run is counted; a
control block frees the flits before E and brings credits, a NAK resends, and the seventeenth in a row, or none for 1
µs, takes the link down. Going down discards the queues, counted, sets LINK_DOWN and sends a record. An idle flit is
not accepted, and one that opens a packet with an illegal head takes the link down with cause 7. With AUTO_RETRAIN a
link re-enters SIGNAL after 1 ms while the dies agree. A training block that is not valid is counted and breaks the
row; that it counts as an invalid control block, and that a timeout of EXCHANGE has cause 4, are readings (log entries
169, 100). Completes LINK_DOWN, LANE_LOCK, TRAINING_BLOCK_RECEIVE, LINK_TRAIN_PROGRESS, LINK_TRAIN_TIMEOUT,
LINK_CONTROL_LOSS, LINK_RETRAIN, FLIT_RECEIVE, LINK_CONTROL_BLOCK. -/
def Obligations.LinksTrainReceiveAndGoDown : Prop :=
  ∀ (s : State) (d : DieId) (l : Dim), let x := s.die d
    let p := s.die d.other
    let i := dimIdx l
    let k := x.link i
    let down : Nat → Out := fun c => .next (s.onDie d fun x => x.linkDownOp i (BitVec.ofNat 3 c))
    (∀ cause, exec (.linkDown d l cause) s = .next (s.onDie d fun x => x.linkDownOp i cause)) ∧
    (∀ cause, k.state ≠ .disabled → k.state ≠ .down → let y := x.linkDownOp i cause
      (y.link i).state = .down ∧ (y.link i).cause = cause ∧ (y.link i).txQ = [] ∧ (y.link i).replay = [] ∧
      (y.link i).rxPart = [] ∧ (y.link i).rxQ = k.rxQ ∧ (y.reg .torFlags).getLsbD 0 = true ∧
      y.regI .torDropCnt [linkCode x.id i] = x.regI .torDropCnt [linkCode x.id i] + BitVec.ofNat 32 k.txQ.length ∧
      y.regI .torDownCnt [linkCode x.id i] = x.regI .torDownCnt [linkCode x.id i] + 1 ∧ y.torus.trans = x.torus.trans ∧
      ∃ r, y.flt.reports = x.flt.reports ++ [r] ∧ r.cls = clsLinkDown ∧ r.detail = cause.setWidth 64) ∧
    (∀ lane hdrs, exec (.laneLock d l lane hdrs) s = .next (s.onDie d fun x => x.updLink i fun k =>
      { k with lanes := vmod k.lanes lane fun n => hdrs.foldl laneHeader n })) ∧
    (∀ n : Lane, ((List.replicate 64 (1 : BitVec 2)).foldl laneHeader n).locked = true ∧
      ((List.replicate 16 (0 : BitVec 2)).foldl laneHeader n).locked = false) ∧
    (∀ b, (k.state ≠ .exchange → exec (.trainingBlockReceive d l b) s = .next (s.onDie d id)) ∧
      (k.state = .exchange → trainBlockOk b = false →
        exec (.trainingBlockReceive d l b) s = .next (s.onDie d fun x =>
          (x.updLink i fun k => { k with goodBlocks := 0 }).linkCount i .torCbErrCnt 1)) ∧
      (k.state = .exchange → trainBlockOk b = true → ∃ r, exec (.trainingBlockReceive d l b) s = .next r ∧
        (partnerPasses x i b = true → ((r.die d).link i).goodBlocks = k.goodBlocks + 1 ∧ ((r.die d).link i).state = .exchange) ∧
        (partnerPasses x i b = false → ((r.die d).link i).state = .down ∧ ((r.die d).link i).cause = 4) ∧
        ((r.die d).link i).partnerNode = BitVec.ofNat 14 (fieldNat b 4 2))) ∧
    (∀ f, (k.state = .signal → exec (.linkTrainProgress d l f) s = .next (s.onDie d fun x => x.linkEnter i .align)) ∧
      (k.state = .align → ((List.range 8).all fun n => (k.lanes[Fin.ofNat 8 n]).locked) = true →
        exec (.linkTrainProgress d l f) s = .next (s.onDie d fun x => (x.linkEnter i .exchange).updLink i fun k =>
          { k with reversed := f.reversed, pol := f.pol })) ∧
      (k.state = .exchange → 8 ≤ k.goodBlocks → ∃ r, exec (.linkTrainProgress d l f) s = .next r ∧
        let u := (r.die d).link i
        u.state = .up ∧ u.rxE = 0 ∧ u.txSeq = 0 ∧ u.replay = [] ∧ u.rxNak = false ∧ ∀ b : Fin 4, u.crd[b] = 0 ∧ u.sent[b] = 0) ∧
      (k.state = .exchange → k.goodBlocks < 8 → exec (.linkTrainProgress d l f) s = .next (s.onDie d id))) ∧
    (x.passed k.since 1000 = true → (k.state = .signal → exec (.linkTrainTimeout d l) s = down 2) ∧
      (k.state = .align → exec (.linkTrainTimeout d l) s = down 3) ∧
      (k.state = .exchange → exec (.linkTrainTimeout d l) s = down 4)) ∧
    (x.passed k.since 1000 = false → exec (.linkTrainTimeout d l) s = .next (s.onDie d id)) ∧
    (k.state = .up → exec (.linkControlLoss d l) s = if x.passed k.lastCb 1 then down 6 else .next (s.onDie d id)) ∧
    (exec (.linkRetrain d l) s = .next (s.onDie d fun x =>
      if k.state = .down ∧ x.passed k.since 1000 = true ∧ (x.reg .torLinkCtrl).getLsbD 8 = true ∧
        (x.reg .torLinkCtrl).getLsbD i.val = true ∧ coordsAgree p x = true then x.linkEnter i .signal else x)) ∧
    (∀ flit err, (k.state ≠ .up → exec (.flitReceive d l flit err) s = .next (s.onDie d id)) ∧
      (k.state = .up → err = false → flitPasses flit k.rxE.toNat = true → (k.rxPart ≠ [] ∨ headLegal (flit.take 28) = true) →
        ∃ r, exec (.flitReceive d l flit err) s = .next r ∧ ((r.die d).link i).rxE = k.rxE + 1 ∧
          ((r.die d).link i).rxNak = false ∧ ((r.die d).link i).state = .up ∧ ((r.die d).link i).txQ = k.txQ) ∧
      (k.state = .up → err = false → flitPasses flit k.rxE.toNat = true → k.rxPart = [] → headLegal (flit.take 28) = false →
        exec (.flitReceive d l flit err) s = down 7) ∧
      (k.state = .up → err = false → flitPasses flit k.rxE.toNat = false → k.rxPart = [] → flitPasses flit 0x8000 = true →
        (∀ b ∈ flit.take 28, b = 0) → exec (.flitReceive d l flit err) s = .next (s.onDie d id)) ∧
      (k.state = .up → (err = true ∨ (flitPasses flit k.rxE.toNat = false ∧
          (k.rxPart ≠ [] ∨ flitPasses flit 0x8000 = false ∨ ∃ b ∈ flit.take 28, b ≠ 0))) →
        ∃ r, exec (.flitReceive d l flit err) s = .next r ∧ ((r.die d).link i).rxE = k.rxE ∧ ((r.die d).link i).rxNak = true ∧
          (r.die d).regI .torCrcErrCnt [linkCode x.id i] =
            x.regI .torCrcErrCnt [linkCode x.id i] + (if k.rxNak then 0 else 1))) ∧
    (∀ b, k.state = .up → let e : BitVec 15 := BitVec.ofNat 15 (fieldNat b 2 2)
      let crds : Vector (BitVec 16) 4 := Vector.ofFn fun n : Fin 4 => BitVec.ofNat 16 (fieldNat b (4 + 2 * n.val) 2)
      let y := x.updLink i fun k => { takeAck k e with lastCb := x.time, crd := crds }
      let kk := y.link i
      let resending := kk.nakFor = some e ∧ x.time < kk.resendEnd
      (linkBlockOk b = false →
        exec (.linkControlBlock d l b) s = .next (s.onDie d fun x => x.linkCount i .torCbErrCnt 1)) ∧
      (linkBlockOk b = true → bitOf (fieldNat b 2 2) 15 = false → exec (.linkControlBlock d l b) s =
        .next (s.setDie d ((y.updLink i fun k => { k with nakFor := none }).linkSend i))) ∧
      (linkBlockOk b = true → bitOf (fieldNat b 2 2) 15 = true →
        (resending → exec (.linkControlBlock d l b) s = .next (s.setDie d (y.linkSend i))) ∧
        (¬ resending → 16 ≤ kk.resends → exec (.linkControlBlock d l b) s = .next (s.setDie d (y.linkDownOp i 5))) ∧
        (¬ resending → kk.resends < 16 → exec (.linkControlBlock d l b) s = .next (s.setDie d (((y.updLink i fun k =>
          { k with nakFor := some e, resends := k.resends + 1,
                   resendEnd := x.time + BitVec.ofNat 64 (flitCycles kk.replay.length) }).linkCount i .torReplayCnt 1).linkSend
          i)))))

/-- The router, the target engine and the requester (R404, R407 to R427). A packet at the front of a source is dropped
and counted without a route, delivered to the requester or the target of its die, carried over the bridge, or queued
on its link; on a ring without broken links the shorter way is taken, the plus way where both are as long. The target
answers every request: performed, or refused with NOT_ACTIVE or NO_CONTEXT. The requester reads PROD of its enabled
rings, and issues the next record of one: a bad record, one of a paired context, and a FENCE that is clear complete at
once. A reply ends its transaction, and a late one is counted and dropped; a transaction unanswered for its context's
TIMEOUT ends with TIMEOUT, flagged, counted and recorded, also against the context's jobs that have a folded share
(R339). A reply's CTX is a free value (log 158, the model's choice), and CONS is read beside PROD where the requester
does not know its own (log 157). Completes PACKET_ROUTE, REMOTE_TARGET_OP, RING_POLL, RECORD_ISSUE, REMOTE_REPLY,
REMOTE_TIMEOUT. -/
def Obligations.RouterTargetAndRequester : Prop :=
  ∀ (s : State) (d : DieId), let x := s.die d
    let p := s.die d.other
    (∀ src, takeSource x src = none → exec (.packetRoute d src) s = .next (s.onDie d id)) ∧
    (∀ src k own y, takeSource x src = some ((k, own), y) →
      (routeHop p x src k = .drop → exec (.packetRoute d src) s =
        .next (s.setDie d ((y.flag .torFlags 1).count .torNoRouteCnt))) ∧
      (routeHop p x src k = .deliver → exec (.packetRoute d src) s = .next (s.setDie d (
        if k.isReply then { y with torus.replyQ := y.torus.replyQ ++ [k] }
        else { y with torus.targetQ := y.torus.targetQ ++ [(arrivalPort x src, k)] }))) ∧
      (∀ k', routeHop p x src k = .bridge k' → x.pair.bridgeUp = true → exec (.packetRoute d src) s =
        .next ((s.setDie d y).onDie d.other fun q => { q with torus.bridgeQ := q.torus.bridgeQ ++ [(k', own)] })) ∧
      (∀ k', routeHop p x src k = .bridge k' → x.pair.bridgeUp = false → exec (.packetRoute d src) s = .next (s.onDie d id)) ∧
      (∀ l k', routeHop p x src k = .link l k' → (y.link l).state ≠ .up → exec (.packetRoute d src) s =
        .next (s.setDie d (y.linkCount l .torDropCnt 1))) ∧
      (∀ l k', routeHop p x src k = .link l k' → (y.link l).state = .up → exec (.packetRoute d src) s =
        .next (s.setDie d (((if own then y else y.linkCount l .torFwdPktCnt 1).updLink l fun t =>
          { t with txQ := t.txQ ++ [k'] }).linkSend l)))) ∧
    (∀ c t ring, c < ring → t < ring → t ≠ c → let plus := (t + ring - c) % ring
      chooseDir c t ring 0 = some (decide (ring - plus < plus))) ∧
    (∀ port q rest, x.torus.targetQ = (port, q) :: rest → x.torus.frozenTgt = none → x.running = true → x.dev ≠ .hold →
      let y : Die := { x with torus.targetQ := rest }
      let refuse : Nat → Die := fun st => let z := y.count .torTgtFaultCnt
        ({ z with torus.localQ := z.torus.localQ ++ [replyPacket z q pkAck st 0 0 []] } : Die).tick
      (((x.dev ≠ .ready ∧ x.dev ≠ .active) ∨ x.pair.role = .standby) →
        exec (.remoteTargetOp d) s = .next (s.setDie d (refuse rsNotActive))) ∧
      ((x.dev = .ready ∨ x.dev = .active) → x.pair.role ≠ .standby →
        ((x.ctxState q.ctx = .free ∨ x.ctxState q.ctx = .faulted ∨ q.ctx = 0) →
          exec (.remoteTargetOp d) s = .next (s.setDie d (refuse rsNoContext))) ∧
        (∀ z st fc old data, x.ctxState q.ctx ≠ .free → x.ctxState q.ctx ≠ .faulted → q.ctx ≠ 0 →
          targetPerform p y port q = (z, st, fc, old, data) → let z' := z.count (if st = 0 then .torTgtCnt else .torTgtFaultCnt)
          exec (.remoteTargetOp d) s = .next (s.setDie d ({ z' with
            torus.localQ := z'.torus.localQ ++ [replyPacket z' q (if q.op = pkGet ∧ st = 0 then pkData else pkAck) st fc old data] }
            : Die).tick)))) ∧
    (requesterOn x = false → exec (.ringPoll d) s = .next (s.onDie d id) ∧ ∀ c, exec (.recordIssue d c) s = .next (s.onDie d id)) ∧
    (requesterOn x = true → exec (.ringPoll d) s = .next (s.setDie d (((List.range 1024).filter fun c =>
      x.torus.rings.any fun r => r.ctx == c && ringOn r).foldl (fun y c => match y.torus.rings.find? fun r => r.ctx == c with
        | none => y
        | some r => match reqRead p y c (ringBase r) (if r.known then 8 else 16) with
          | (y, .ok bs) => y.updRing c fun r =>
            { r with prod := fieldNat bs 0 8, cons := if r.known then r.cons else fieldNat bs 8 8, known := true }
          | (y, .error _) => y) x))) ∧
    (∀ c ring, requesterOn x = true → (x.torus.rings.find? fun r => r.ctx == c) = some ring →
      ((ringOn ring = false ∨ ring.known = false) → exec (.recordIssue d c) s = .next (s.onDie d id)) ∧
      (ringOn ring = true → ring.known = true → let j := ring.cons + 1
        ((∃ r ∈ x.torus.recs, r.ctx = c ∧ r.num = j) →
          exec (.recordIssue d c) s = .next (s.setDie d (settleRec p (sendAll p 4097 x c j) c j))) ∧
        ((∀ r ∈ x.torus.recs, r.ctx = c → r.num ≠ j) → ring.prod < j → exec (.recordIssue d c) s = .next (s.onDie d id)))) ∧
    (∀ c ring y b, requesterOn x = true → (x.torus.rings.find? fun r => r.ctx == c) = some ring → ringOn ring = true →
      ring.known = true → let j := ring.cons + 1
      (∀ r ∈ x.torus.recs, r.ctx = c → r.num ≠ j) → j ≤ ring.prod →
      reqRead p x c (ringBase ring + 64 + 64 * ((j - 1) % 2 ^ ringLog ring)) 64 = (y, .ok b) →
      let r : RemRec := { ctx := c, num := j, bytes := b, total := recTrans b, sent := 0, results := [], complete := false }
      let paired := match y.ctx? c with | some t => t.attr.getLsbD 0 | none => false
      (recLegal b = false → exec (.recordIssue d c) s =
        .next (s.setDie d (completeRec p (writeCons p (y.count .torBadRecordCnt) c j) r rsBadRecord 0 0))) ∧
      (recLegal b = true → paired = true → exec (.recordIssue d c) s =
        .next (s.setDie d (completeRec p (writeCons p y c j) r rsPairedDenied 0 0))) ∧
      (recLegal b = true → paired = false → recOp b = 5 → exec (.recordIssue d c) s = .next (s.setDie d
        (if fenceClear y c j b then completeRec p (writeCons p y c j) r rsOk 0 0 else y))) ∧
      (recLegal b = true → paired = false → recOp b ≠ 5 → exec (.recordIssue d c) s =
        .next (s.setDie d (settleRec p (sendAll p 4097 { y with torus.recs := y.torus.recs ++ [r] } c j) c j)))) ∧
    (∀ q rest, x.torus.replyQ = q :: rest → x.running = true → x.dev ≠ .hold →
      let y : Die := { x with torus.replyQ := rest }
      ((x.torus.trans.find? fun t => t.tag == q.tag) = none →
        exec (.remoteReply d) s = .next (s.setDie d (y.count .torLateCnt))) ∧
      (∀ t, (x.torus.trans.find? fun t => t.tag == q.tag) = some t →
        (x.passed t.sent (ctxTimeout x t.ctx) = true → exec (.remoteReply d) s = .next (s.setDie d (y.count .torLateCnt))) ∧
        (x.passed t.sent (ctxTimeout x t.ctx) = false → (q.aux ≠ 0 ∨ (t.op ≠ 3 ∧ t.op ≠ 4)) →
          exec (.remoteReply d) s = .next (s.setDie d
            (endTrans p (y.count .torRspCnt) t q.aux (fieldNat q.head 12 1) (if q.aux = 0 then t.len else 0)))) ∧
        (∀ r, x.passed t.sent (ctxTimeout x t.ctx) = false → q.aux = 0 →
          (x.torus.recs.find? fun r => r.ctx == t.ctx && r.num == t.recNum) = some r →
          (t.op = 3 ∨ (t.op = 4 ∧ recLocal r.bytes ≠ 0)) →
          let wr := reqWrite p (y.count .torRspCnt) t.ctx (recLocal r.bytes + t.ofs) (if t.op = 3 then q.data else leBytes t.len q.opnd)
          exec (.remoteReply d) s = .next (s.setDie d (match wr.2 with
            | none => endTrans p wr.1 t rsOk 0 t.len
            | some cls => endTrans p wr.1 t rsLocalFault cls.toNat 0))))) ∧
    (∀ tag, (x.torus.trans.find? fun t => t.tag == tag) = none → exec (.remoteTimeout d tag) s = .next (s.onDie d id)) ∧
    (∀ tag t, (x.torus.trans.find? fun t => t.tag == tag) = some t →
      (x.passed t.sent (ctxTimeout x t.ctx) = false → exec (.remoteTimeout d tag) s = .next (s.onDie d id)) ∧
      (x.passed t.sent (ctxTimeout x t.ctx) = true → exec (.remoteTimeout d tag) s = .next (s.setDie d
        (let y := ((x.flag .torFlags 2).count .torTimeoutCnt).note clsRemoteTimeout .requester
          (FaultInfo.plain t.ctx (t.tag + 65536 * t.target.toNat));
        endTrans p { y with jobs.list := y.jobs.list.map fun (j : Job) =>
              if j.ctx = t.ctx ∧ j.state = .running ∧ (j.shares.any fun h => decide (h.state = .folded)) = true then
                { j with timedOut := true } else j } t rsTimeout 0 0)))) ∧
    (∀ (y : Die) (r : RemRec), recCompVa r.bytes = 0 → ∀ st fc n,
      (completeRec p y r st fc n).torus.recs = y.torus.recs.filter fun q => !(q.ctx == r.ctx && q.num == r.num))

/-- A wringer goes on with the block at hand of its job (R438 to R446): compressing, the block is read, encoded and
written, its header after its body, with its index word, and counted by its kind; a unit that an earlier attempt has
made is not made again, and one that faults leaves the counts written. Output that does not fit stops the job with
RESULT 2, the bytes from OUT_DONE on being free values. Decompressing, the block is read and decoded. With no job, or
frozen, or held by the schedule, nothing happens. A job that a higher class or a fold waits for yields at a block
boundary: its counts are written and the engine is free. Completes WRINGER_BLOCK, WRINGER_YIELD. -/
def Obligations.WringersMoveBlocksAndYield : Prop :=
  ∀ (s : State) (d : DieId) (e : Fin 8) (slot : Nat) (j : Job), let x := s.die d
    let p := s.die d.other
    let w := x.wringers[e]
    (w.job = none ∨ w.frozen ≠ none → exec (.wringerBlock d e) s = .next (s.onDie d id) ∧ exec (.wringerYield d e) s = .next (s.onDie d id)) ∧
    (w.job = some slot → x.job? slot = some j → w.frozen = none →
      ((x.schedules = false ∨ x.ctxStarts j.ctx = false ∨ x.power.therm = 2) →
        exec (.wringerBlock d e) s = .next (s.onDie d id)) ∧
      (x.schedules = true → x.ctxStarts j.ctx = true → x.power.therm ≠ 2 → w.use = 2 →
        exec (.wringerBlock d e) s = .next (s.setDie d (decompressBlock p x e j))) ∧
      (∀ y bs z rs, x.schedules = true → x.ctxStarts j.ctx = true → x.power.therm ≠ 2 → w.use = 1 →
        let b := j.wrg.par
        let m : Master := .wringer e
        let n := min (2 ^ fieldNat b 2 1) (fieldNat b 0x10 8 - j.wrg.inDone)
        let last := j.wrg.inDone + n == fieldNat b 0x10 8
        let k := wrgEncode (fieldNat b 2 1) last bs
        wrgReads p x e j.ctx (fieldNat b 0x08 8 + j.wrg.inDone) n 0 = (y, some bs) →
        outRuns p y m j (j.wrg.outDone + k.bytes.length) = (z, some rs) →
        (runsEnd rs < j.wrg.outDone + k.bytes.length →
          exec (.wringerBlock d e) s = .next (s.setDie d (wrgStop p z e j.slot j.ctx rs j.wrg.outDone))) ∧
        (∀ zz, j.wrg.outDone + k.bytes.length ≤ runsEnd rs →
          wrgWrites p z e j.ctx (outWrites rs (j.wrg.outDone + 16) (k.bytes.drop 16) ++ outWrites rs j.wrg.outDone (k.bytes.take 16)
            ++ (if fieldNat b 0x28 8 = 0 then [] else [(fieldNat b 0x28 8 + 8 * j.wrg.blocks, leBytes 8 j.wrg.outDone)])) =
            (zz, true) →
          exec (.wringerBlock d e) s = .next (s.setDie d
            (wrgAdvance p (zz.count (kindCounter k.kind)) e j.slot n k.bytes.length n last)))) ∧
      (∀ y, x.schedules = true → x.ctxStarts j.ctx = true → x.power.therm ≠ 2 → w.use = 1 →
        wrgReads p x e j.ctx (fieldNat j.wrg.par 0x08 8 + j.wrg.inDone)
          (min (2 ^ fieldNat j.wrg.par 2 1) (fieldNat j.wrg.par 0x10 8 - j.wrg.inDone)) 0 = (y, none) →
        exec (.wringerBlock d e) s = .next (s.setDie d (writeWrgCounts p y e j.slot))) ∧
      (x.running = true → x.wringerWanted j = false → exec (.wringerYield d e) s = .next (s.onDie d id)) ∧
      (x.running = true → x.wringerWanted j = true → ∃ t, exec (.wringerYield d e) s = .next t ∧
        (t.die d).wringers[e] = Wringer.reset ∧ (t.die d).dram = (writeWrgCounts p x e slot).dram ∧
        (t.die d).reg .wrgYieldCnt = (writeWrgCounts p x e slot).reg .wrgYieldCnt + 1 ∧ ∀ f : Fin 8, f ≠ e → (t.die d).wringers[f] =
          ((writeWrgCounts p x e slot).wringers)[f]))

/-- The reference clock and the arbiters (R455, R460 to R466). A lost reference puts the die in holdover and SAFE,
flagged, counted and recorded. At a window's end each arbiter has granted its cycles, its quotas start afresh from the
settings in force, and the cycles of masked and of idle requests are counted; one cycle grants the first ready HIGH
input within its quota, else the first ready normal one, else the first masked one. An emergency use abandons the
holder's transfer, counted. A holder that the watchdog finds is frozen and counted, but not during an emergency use. A
cycle leaves each ready requester that it does not grant a turn hint: the code of the number ranked ahead of it
(R464). Completes REF_LOST, ARB_WINDOW_END, EMERGENCY_GRANT, ARB_WATCHDOG. -/
def Obligations.ReferenceAndArbiters : Prop :=
  ∀ (s : State) (d : DieId), let x := s.die d
    (x.power.pllLock = true → x.power.holdover = false → x.dev ≠ .off → x.power.inReset = false → ∃ t, exec (.refLost d) s = .next t ∧
      (t.die d).power.holdover = true ∧ (t.die d).power.refOk = false ∧ ((t.die d).reg .clkFlags).getLsbD 0 = true ∧
      (t.die d).reg .clkRefLostCnt = x.reg .clkRefLostCnt + 1 ∧ ((x.dev = .ready ∨ x.dev = .active) → (t.die d).dev = .safe) ∧
      ∃ r, (t.die d).flt.reports = x.flt.reports ++ [r] ∧ r.cls = clsRefClock) ∧
    (∀ a ready, x.running = true → let t := x.arb a
      let r := (ready.take t.window).foldl hintedCycle { arb := t, masked := 0, idle := 0 }
      let w := arbWord x (arbQuotaReg a).1 (arbQuotaReg a).2
      let next : Arb := { r.arb with used := [], high := arbWord x .arbHigh 37, quota := wbits w 15 8, window := 16 * 2 ^ wbits w 1 0 }
      exec (.arbWindowEnd d a ready) s = .next (s.setDie d
        (((x.setArb next).countN .arbMaskCnt r.masked).countN .arbIdleFillCnt r.idle))) ∧
    (∀ (r : ArbRun) (ready : Word), r.arb.abandoned = none →
      let high := r.arb.isHigh ready
      let ok : Nat → Bool := fun k => decide (k < 16) && ready.getLsbD k
      let spent : Nat → Bool := fun k => decide (r.arb.quota ≤ r.arb.usedBy k)
      let n := arbInputs r.arb.id
      (∀ k, firstFrom n r.arb.highPtr (fun k => ok k && high k && !(high k && spent k)) = some k →
        (arbCycle r ready).arb.highPtr = (k + 1) % n ∧ (arbCycle r ready).arb.normPtr = r.arb.normPtr ∧
        (arbCycle r ready).arb.usedBy k = r.arb.usedBy k + 1) ∧
      (firstFrom n r.arb.highPtr (fun k => ok k && high k && !(high k && spent k)) = none → ∀ k,
        firstFrom n r.arb.normPtr (fun k => ok k && !high k) = some k →
        (arbCycle r ready).arb = { r.arb with normPtr := (k + 1) % n }) ∧
      (firstFrom n r.arb.highPtr (fun k => ok k && high k && !(high k && spent k)) = none →
        firstFrom n r.arb.normPtr (fun k => ok k && !high k) = none →
        (∀ k, firstFrom n r.arb.highPtr (fun k => ok k && (high k && spent k)) = some k →
          (arbCycle r ready).arb = { r.arb with highPtr := (k + 1) % n } ∧ (arbCycle r ready).idle = r.idle + 1) ∧
        (firstFrom n r.arb.highPtr (fun k => ok k && (high k && spent k)) = none → arbCycle r ready = r))) ∧
    (∀ (r : ArbRun) (ready : Word), (hintedCycle r ready).arb.hints = arbHints r.arb ready ∧
      (∀ i k, (arbRanked r.arb ready)[i]? = some k →
        (r.arb.abandoned = none → 0 < i → (k, turnCode i) ∈ arbHints r.arb ready) ∧
        (r.arb.abandoned.isSome = true → (k, turnCode (i + 1)) ∈ arbHints r.arb ready))) ∧
    (∀ n, turnCode n = (if n < 1 then 0 else if n < 2 then 1 else if n < 4 then 2 else if n < 8 then 3 else if n < 16 then 4
      else if n < 32 then 5 else if n < 64 then 6 else 7)) ∧
    (∀ a holding, x.running = true → (emergencyOk x a = false →
        exec (.emergencyGrant d a holding) s = .next (s.onDie d id)) ∧
      (emergencyOk x a = true →
        exec (.emergencyGrant d a none) s = .next (s.onDie d fun x => x.setArb { x.arb a with emergency := true }) ∧
        ∀ m, exec (.emergencyGrant d a (some m)) s = .next (s.onDie d fun x =>
          (x.setArb { x.arb a with emergency := true, abandoned := some m }).count .arbEmergCnt))) ∧
    (∀ a m, x.running = true → ((x.arb a).emergency = true → exec (.arbWatchdog d a m) s = .next (s.onDie d id)) ∧
      ((x.arb a).emergency = false → exec (.arbWatchdog d a m) s = .next (s.onDie d fun x =>
        (x.count .arbWdogCnt).faultMaster clsArbWatchdog m
          { flags := 0, ctx := x.masterCtx m, va := 0, detail := arbDetail a, thing := arbDetail a })))

/-- Presses and parity (R468 to R473, R480, R481). At its boundary a unit that a press concerns applies it, or refuses
a shadow whose parity has failed and stays concerned; a unit that the press does not concern does nothing. When the
last unit of a group has applied, each of its registers takes the pressed value in its RWP fields and keeps the rest.
An acknowledgement takes the unit off the press, and the last one makes the epoch active. Units still behind after
CLK_PRESS_CFG's time are late: flagged, counted, recorded, and the die goes to SAFE. A parity error of control storage
is counted, and one of both copies enters SAFE; one of a shadow word has the next press refused, one of an active word
marks its units. An entry of a translation cache that fails is dropped and counted. Completes PRESS_APPLY, PRESS_ACK,
PRESS_TIMEOUT, CTRL_PARITY, CFG_PARITY. -/
def Obligations.PressesAndParity : Prop :=
  ∀ (s : State) (d : DieId), let x := s.die d
    (∀ u : Fin 44, x.running = true → (u.val < 6 ∨ (26 ≤ u.val ∧ u.val < 36) ∨ u.val = 37 ∨ u.val = 38 ∨ u.val = 42) →
      (x.unitWaits u = false → exec (.pressApply d u) s = .next (s.onDie d id)) ∧
      (x.unitWaits u = true → x.shadowFails u = true → exec (.pressApply d u) s = .next (s.onDie d fun x => x.unitRefuses u)) ∧
      (x.unitWaits u = true → x.shadowFails u = false → exec (.pressApply d u) s = .next (s.onDie d fun x => x.unitApplies u))) ∧
    (∀ u : Fin 44, x.running = true → x.unitWaits u = true → x.shadowFails u = true → (u.val = 39 ∨ u.val = 40) →
      ∃ t, exec (.pressApply d u) s = .next t ∧ (t.die d).regs = x.regs ∧ (t.die d).press.applied.getLsbD u.val = true ∧
        (t.die d).press.dirty.getLsbD u.val = true) ∧
    (∀ (y : Die) (u : Nat) (r : Reg) (is : List Nat), u < 44 → (r, is) ∈ unitRegs u →
      (unitGroup u).all (fun v => v == u || y.unitDone v) = true → y.press.behind.getLsbD u = true →
      (y.unitApplies u).regI r is = (y.regI r is &&& ~~~r.info.rwp) ||| (y.pressedI r is &&& r.info.rwp) ∧
      (y.unitApplies u).press.applied.getLsbD u = true ∧ (y.unitApplies u).shadow = y.shadow) ∧
    (∀ u : Fin 44, exec (.pressAck d u) s = .next (s.onDie d fun x =>
      if x.running = true ∧ u.val ≠ 43 ∧ x.press.behind.getLsbD u.val = true ∧ x.press.applied.getLsbD u.val = true ∧
        x.lateUnit u.val = false then x.unitAcked u else x)) ∧
    (∀ (y : Die) (u : Nat), (y.unitAcked u).press.behind = y.press.behind &&& ~~~((1 : BitVec 44) <<< u) ∧
      (y.press.behind &&& ~~~((1 : BitVec 44) <<< u) = 0 → (y.unitAcked u).press.activeEpoch = y.press.epoch) ∧
      (y.press.behind &&& ~~~((1 : BitVec 44) <<< u) ≠ 0 → (y.unitAcked u).press.activeEpoch = y.press.activeEpoch)) ∧
    (let late := x.press.behind &&& ~~~x.press.late;
      ((x.running = false ∨ late = 0 ∨ x.pair.copying = true ∨
        x.passed x.press.issued (1000 * x.fld .clkPressCfg [] 9 0) = false) → exec (.pressTimeout d) s = .next (s.onDie d id)) ∧
      (x.running = true → late ≠ 0 → x.pair.copying = false →
        x.passed x.press.issued (1000 * x.fld .clkPressCfg [] 9 0) = true → ∃ t r, exec (.pressTimeout d) s = .next t ∧
        (t.die d).press.late = x.press.late ||| late ∧ ((t.die d).reg .clkFlags).getLsbD 1 = true ∧
        (t.die d).reg .clkPressTimeoutCnt = x.reg .clkPressTimeoutCnt + 1 ∧ (t.die d).flt.reports = x.flt.reports ++ [r] ∧
        r.cls = clsPressTimeout ∧ r.detail = BitVec.ofNat 64 x.press.behind.toNat ∧
        ((x.dev = .ready ∨ x.dev = .active) → (t.die d).dev = .safe))) ∧
    (x.power.inReset = false → x.dev ≠ .off → let counted : Die → Die := fun y => y.count .fltXlateParityCnt
      (∀ n, exec (.ctrlParity d (.tlb n)) s = .next (s.setDie d (counted { x with xlt.tlb := x.xlt.tlb.eraseIdx n }))) ∧
      (∀ n, exec (.ctrlParity d (.walkCache n)) s =
        .next (s.setDie d (counted { x with xlt.walk := x.xlt.walk.eraseIdx n }))) ∧
      exec (.ctrlParity d .sliceOwnership) s = .next (s.setDie d (counted x)) ∧
      ∀ m n, ∃ t, exec (.ctrlParity d (.nearTlb m n)) s = .next t ∧
        (t.die d).reg .fltXlateParityCnt = x.reg .fltXlateParityCnt + 1 ∧ (t.die d).xlt.tlb = x.xlt.tlb ∧
        (t.die d).xlt.near.filter (fun q => q.who != m) = (x.xlt.near.filter fun q => q.who != m && !q.ents.isEmpty) ∧
        (t.die d).dram = x.dram) ∧
    (∀ both, x.power.inReset = false → x.dev ≠ .off → ∃ t, exec (.ctrlParity d (.copies both)) s = .next t ∧
      ((t.die d).reg .fltFlags).getLsbD 2 = true ∧ (t.die d).reg .fltCtrlParityCnt = x.reg .fltCtrlParityCnt + 1 ∧
      (both = false → (t.die d).dev = x.dev ∧ (t.die d).flt = x.flt) ∧
      (both = true → (x.dev = .ready ∨ x.dev = .active) → (t.die d).dev = .safe)) ∧
    (∀ addr r is, regAt addr = some (r, is) → x.running = true → r.info.rwp ≠ 0 → ∀ shadow, ∃ t rep,
      exec (.cfgParity d addr shadow) s = .next t ∧ ((t.die d).reg .fltFlags).getLsbD 3 = true ∧
      (t.die d).reg .fltCfgParityCnt = x.reg .fltCfgParityCnt + 1 ∧ (t.die d).flt.reports = x.flt.reports ++ [rep] ∧
      rep.cls = clsCfgParity ∧ rep.detail = BitVec.ofNat 64 (addr + if shadow then 2 ^ 32 else 0) ∧
      (shadow = true → addr ∈ (t.die d).press.shadowBad ∧ (t.die d).press.cfgBad = x.press.cfgBad) ∧
      (shadow = false → (t.die d).press.cfgBad = x.press.cfgBad ++ (r.units is).map (fun u => (u, addr)) ∧
        (t.die d).press.shadowBad = x.press.shadowBad))

/-- Boot, tamper and model loads (R504 to R511, R520, R523). Boot completes interrupted fuse operations, measures the
ROM, derives the identity and takes the image of slot 0, or of slot 1, whichever verifies first; with neither it goes
into recovery, and SCRAPPED locks the die. A tamper finding locks it: its key, models and memory are gone, its outputs
inert. A model load that has been read is checked and stored, its status and fence are written, and its entry of the
measurement list is filled or freed; one that found no entry ends with LIST_FULL. A held write leaves the load in
front. Completes BOOT, TAMPER, IMAGE_LOAD_DONE. -/
def Obligations.BootTamperAndModelLoads : Prop :=
  ∀ (s : State) (d : DieId), let x := s.die d
    let p := s.die d.other
    (x.running = true → x.dev = .rom → x.power.sramDone = true → x.sec.bootDone = false → x.sec.recovery = false →
      let c := completeOps x
      let y := deriveIdentity { c with sec.romMeas := c.sec.fuses.romDigest }
      let a := imageCheck y.sec.fuses (flashImage y 0) true
      let y1 := imageChecked y a 0
      let b := imageCheck y1.sec.fuses (flashImage y1 1) true
      let y2 := imageChecked y1 b 1
      (y.sec.fuses.lc = 5 → exec (.boot d) s = .next (s.setDie d (lockDie y))) ∧
      (y.sec.fuses.lc ≠ 5 → a = 0 → exec (.boot d) s = .next (s.setDie d (takeFirmware y1 (flashImage y1 0) 1))) ∧
      (y.sec.fuses.lc ≠ 5 → a ≠ 0 → b = 0 → exec (.boot d) s = .next (s.setDie d (takeFirmware y2 (flashImage y2 1) 2))) ∧
      (y.sec.fuses.lc ≠ 5 → a ≠ 0 → b ≠ 0 → ∃ t, exec (.boot d) s = .next t ∧ (t.die d).sec.recovery = true ∧
        (t.die d).sec.bootDone = false ∧ (t.die d).io.usb.connected = true ∧ (t.die d).io.usb.speed = .highSpeed)) ∧
    (∀ y : Die, (∀ o ∈ (completeOps y).sec.fuses.ops, o.done = true) ∧
      ((imageChecked y 0 0).reg .secVerifyCnt = y.reg .secVerifyCnt + 1) ∧
      ∀ st src, st ≠ 0 → ((imageChecked y st src).reg .secFlags).getLsbD 0 = true ∧
        (imageChecked y st src).reg .secVerifyFailCnt = y.reg .secVerifyFailCnt + 1) ∧
    (∀ c, (c = .fuseReadback ∨ (c = .scrapped ∧ x.sec.fuses.lc = 5) ∨
        ((c = .fuseCopies ∨ c = .romMeas ∨ c = .bootBound) ∧ (x.dev = .rom ∨ x.dev = .hold))) →
      x.dev ≠ .off → x.power.inReset = false → ∃ t, exec (.tamper d c) s = .next t ∧ (t.die d).dev = .locked ∧
        (t.die d).sec.idKey = none ∧ (t.die d).sec.models = [] ∧ (t.die d).dram.cells = [] ∧ (t.die d).power.healthy = false ∧
        (t.die d).jobs.list = [] ∧ (t.die d).sh.groups = [] ∧ (t.die d).sec.fuses = x.sec.fuses ∧ (t.die d).regs = x.regs) ∧
    (∀ c, (x.dev = .off ∨ x.power.inReset = true ∨ (c = .scrapped ∧ x.sec.fuses.lc ≠ 5) ∨
        ((c = .fuseCopies ∨ c = .romMeas ∨ c = .bootBound) ∧ x.dev ≠ .rom ∧ x.dev ≠ .hold)) →
      exec (.tamper d c) s = .next (s.onDie d id)) ∧
    (∀ l ls ok img, x.sec.loads = l :: ls →
      (loadReady x l = false → exec (.imageLoadDone d ok img) s = .next (s.onDie d id)) ∧
      (loadReady x l = true → l.entry = noEntry → exec (.imageLoadDone d ok img) s = .next (s.setDie d (endLoad p x l 10 id))) ∧
      ∀ st out y, loadReady x l = true → l.entry ≠ noEntry → loadOutcome x ok img = (st, out) →
        (loadUnits p l.ctx l.dest out (out.length / 4096 + 1) 0 x = (y, false) →
          exec (.imageLoadDone d ok img) s = .next (s.setDie d y)) ∧
        (loadUnits p l.ctx l.dest out (out.length / 4096 + 1) 0 x = (y, true) →
          exec (.imageLoadDone d ok img) s = .next (s.setDie d (endLoad p y l st (loadRecorded p l st img))))) ∧
    (∀ (y z w : Die) (l : LoadReq) (st : Nat) (k : Die → Die),
      (writeUnit p y .ufs l.ctx (l.fence + 8) (leBytes 8 st) accWrite = (z, false) → endLoad p y l st k = z) ∧
      (writeUnit p y .ufs l.ctx (l.fence + 8) (leBytes 8 st) accWrite = (z, true) →
        (signalUnit p z .ufs l.ctx l.fence l.value = (w, none) → endLoad p y l st k = w) ∧
        ∀ v, signalUnit p z .ufs l.ctx l.fence l.value = (w, some v) → endLoad p y l st k = ioApplyReady (k { w with
          sec.loads := w.sec.loads.tail, io.ufs.xfer := w.io.ufs.xfer.map fun t => { t with ahead := t.ahead - 1 } }))) ∧
    (∀ (y : Die) (l : LoadReq) (st : Nat) (img : List Byte), let r := loadRecorded p l st img y
      (st ≠ 0 → r.sec.models.getD l.entry none = none ∧ r.reg .secImageCnt = y.reg .secImageCnt ∧
        (r.reg .secFlags).getLsbD 0 = true ∧ r.reg .secVerifyFailCnt = y.reg .secVerifyFailCnt + 1) ∧
      (st = 0 → r.reg .secImageCnt = y.reg .secImageCnt + 1 ∧ ∃ e, r.sec.models.getD l.entry none = some e ∧ e.ctx = l.ctx ∧
        e.verified = true ∧ e.closed = false ∧ e.digest = imgDigest (field img) ∧ e.dest = BitVec.ofNat 64 l.dest)) ∧
    (∀ (y : Die) (i : Nat) (e : Option ModelEnt), (setEntry y i e).sec.models.getD i none = e ∧
      ∀ k, k ≠ i → (setEntry y i e).sec.models.getD k none = y.sec.models.getD k none)

/-- The TAP and the debug unlock (R515, R521, R522, R601). Each instruction shifts into the instruction register;
IDCODE reads the identity code, BYPASS a 0, the scan instructions what the pins hold, EXTEST being refused once a die
is SCRAPPED. A challenge is fresh, kept with its time, and answered with the die's identity, state and greatest level.
A good response raises the level, flagged and counted; a bad one is counted, and after eight the die listens no more.
An access runs on the die selected where its level is granted, level 3 only in BLANK and MANUFACTURE; else it changes
nothing. Completes EXTEST, IDCODE, SAMPLE_PRELOAD, BYPASS, DBG_CHALLENGE, DBG_RESPONSE, DBG_ACCESS. -/
def Obligations.TapAndDebugUnlock : Prop :=
  ∀ (s : State), let shift : State → Byte → List Byte → State := fun s ir out => { s with tap := { s.tap with ir := ir, out := out } }
    exec .idcode s = .next (shift s 0x01 [0xF3, 0xA0, 0x25, 0x0C]) ∧ exec .bypass s = .next (shift s 0xFF [0]) ∧
    ((s.a.sec.fuses.lc = 5 ∨ s.b.sec.fuses.lc = 5) → exec .extest s = .next s) ∧
    (s.a.sec.fuses.lc ≠ 5 → s.b.sec.fuses.lc ≠ 5 → ∃ t, exec .extest s = .next t ∧ t.tap.ir = 0x00 ∧ t.a.regs = s.a.regs ∧
      t.b.regs = s.b.regs ∧ t.pending = s.pending) ∧
    (∃ t, exec .samplePreload s = .next t ∧ t.tap.ir = 0x02 ∧ t.a.regs = s.a.regs ∧ t.b.regs = s.b.regs) ∧
    (∀ sel, dieOf sel.toNat = none → exec (.dbgChallenge sel) s = .next (shift s 0x10 [])) ∧
    (∀ sel d, dieOf sel.toNat = some d → let x := s.die d
      (x.debugOn = false → exec (.dbgChallenge sel) s = .next (shift s 0x10 [])) ∧
      (x.debugOn = true → ∃ t c, exec (.dbgChallenge sel) s = .next t ∧ c.length = 32 ∧ t.tap.ir = 0x10 ∧ t.tap.sel = d ∧
        (t.die d).sec.challenge = some (c, x.time) ∧ (t.die d).sec.dbgLevel = x.sec.dbgLevel ∧
        t.tap.out = c ++ x.shownId ++ [BitVec.ofNat 8 x.sec.fuses.lc, BitVec.ofNat 8 (maxLevel x.sec.fuses.lc)])) ∧
    (∀ r d, dieOf (fieldNat r 7220 1) = some d → let x := s.die d
      ((x.debugOn = false ∨ 8 ≤ x.sec.dbgFails) → exec (.dbgResponse r) s = .next (shift s 0x11 [])) ∧
      (x.debugOn = true → x.sec.dbgFails < 8 → responseOk x r = true → ∃ t, exec (.dbgResponse r) s = .next t ∧
        (t.die d).sec.dbgLevel = fieldNat r 7219 1 ∧ (t.die d).sec.dbgLevel ≤ maxLevel x.sec.fuses.lc ∧
        ((t.die d).reg .secFlags).getLsbD 1 = true ∧ (t.die d).reg .secDbgUnlockCnt = x.reg .secDbgUnlockCnt + 1 ∧
        (t.die d).sec.dbgFails = x.sec.dbgFails) ∧
      (x.debugOn = true → x.sec.dbgFails < 8 → responseOk x r = false → ∃ t, exec (.dbgResponse r) s = .next t ∧
        (t.die d).sec.dbgLevel = x.sec.dbgLevel ∧ (t.die d).sec.dbgFails = x.sec.dbgFails + 1 ∧
        (t.die d).reg .secDbgFailCnt = x.reg .secDbgFailCnt + 1)) ∧
    (∀ op, let x := s.die s.tap.sel
      let ok := x.debugOn && decide (DbgOp.level op ≤ x.debugLevel) && (DbgOp.level op != 3 || decide (x.sec.fuses.lc ≤ 1))
      (ok = false → exec (.dbgAccess op) s = .next (shift s 0x12 [])) ∧
      (ok = true → exec (.dbgAccess op) s = .next (shift (accessRun op s.tap.sel s).1 0x12 (accessRun op s.tap.sel s).2)))

/-- Resets (R75, R453, R561 to R567, R580). A reset of one die alone, from its pin, from PWR_OK or from a supply,
leaves of that die only its fuses and its boot flash, records the source's code, waits for the root PLL, and takes
down both ends of the bridge until the next package reset; the partner keeps all else, and takes the mirrored job
table when it is a standby in step. A package reset does this to both dies, and their core domains wait for each
other. Power-on is the event of a die that was off; PWR_OK's die may be powered off. RESET_DEVICE takes effect when
its reply has been collected, or 10,000 µs after. The comparators' trip is a reset with code 9 that lasts until both
read below 105 °C. The root PLL's lock lets a die alone leave reset, and both dies together after a package reset,
when the bridge trains; until then RESET_n of its memory is low (R559). Completes RESET_SOURCE, POWER_OFF,
RESET_DEVICE_BEGIN, THERMAL_TRIP, ROOT_PLL_LOCK. -/
def Obligations.ResetsLeaveTheStatedState : Prop :=
  ∀ (s : State) (d : DieId), let x := s.die d
    let p := s.die d.other
    let alone : Nat → State → Prop := fun code t =>
      let y := t.die d
      y.dev = .rom ∧ y.sec.fuses = x.sec.fuses ∧ y.io.flash.cells = x.io.flash.cells ∧ y.power.pllLock = false ∧
      (x.resetting = false → y.power.resetCause = code) ∧ (x.resetting = true → y.power.resetCause = x.power.resetCause) ∧
      y.regs = [] ∧ y.shadow = [] ∧ y.cmd = Cmd.reset ∧ y.press = Press.reset ∧ y.dram = Dram.reset ∧ y.xlt = Xlt.reset ∧
      y.flt = Flt.reset ∧ y.jobs = Jobs.reset ∧ y.sh = Shader.reset ∧ y.cache = Caches.reset ∧ y.torus = Torus.reset ∧
      y.pair.bridgeUp = false ∧ y.pair.bridgeReset = true ∧
      (t.die d.other).pair.bridgeUp = false ∧ (t.die d.other).pair.bridgeReset = true ∧
      (t.die d.other).regs = p.regs ∧ (t.die d.other).dram = p.dram ∧ (t.die d.other).power = p.power ∧
      (t.die d.other).dev = p.dev ∧
      ((p.pair.mode ≠ 2 ∨ p.pair.role ≠ .standby ∨ p.pair.mirrorSync = false) → (t.die d.other).jobs = p.jobs) ∧
      (p.pair.mode = 2 → p.pair.role = .standby → p.pair.mirrorSync = true → (t.die d.other).jobs = x.jobs)
    let both : Nat → State → Prop := fun code t =>
      ∀ e, (s.die e).dev ≠ .off → (t.die e).power.inReset = true ∧ (t.die e).pair.bridgeReset = false ∧ (t.die e).dev = .rom ∧
        (t.die e).sec.fuses = (s.die e).sec.fuses ∧ (t.die e).io.flash.cells = (s.die e).io.flash.cells ∧
        (t.die e).regs = [] ∧ (t.die e).jobs = Jobs.reset ∧ (t.die e).dram = Dram.reset ∧
        ((s.die e).resetting = false → (t.die e).power.resetCause = code)
    let off : Prop := x.dev = .off
    (¬ off → (∃ t, exec (.resetSource (.diePin d)) s = .next t ∧ alone 3 t) ∧
      (∃ t, exec (.resetSource (.pwrOkLow d)) s = .next t ∧ alone 4 t) ∧
      (∃ t, exec (.resetSource (.supply d)) s = .next t ∧ alone 5 t) ∧
      exec (.resetSource (.powerOn d)) s = .next s) ∧
    (off → ∃ t, exec (.resetSource (.powerOn d)) s = .next t ∧ (t.die d).dev = .rom ∧ (t.die d).power.pllLock = false ∧
      (t.die d).sec.fuses = x.sec.fuses ∧ (t.die d).io.flash.cells = x.io.flash.cells ∧ (t.die d).dram = Dram.reset) ∧
    (∃ t, exec (.resetSource .packagePin) s = .next t ∧ both 2 t) ∧
    (x.resetting = true → ∃ t, exec (.powerOff d) s = .next t ∧ (t.die d).dev = .off ∧ (t.die d).sec.fuses = x.sec.fuses ∧
      (t.die d).io.flash.cells = x.io.flash.cells ∧ t.die d.other = p) ∧
    (x.resetting = false → exec (.powerOff d) s = .next (s.onDie d id)) ∧
    Dram.reset.resetLow = true ∧
    (x.power.resetDue = none → exec (.resetDeviceBegin d) s = .next s) ∧
    (∀ scope since reply, x.power.resetDue = some (scope, since, reply) →
      (x.cmd.replies.contains reply = true → (x.localTime - since).toNat < 10000 * localUs →
        exec (.resetDeviceBegin d) s = .next s) ∧
      ((x.cmd.replies.contains reply = false ∨ 10000 * localUs ≤ (x.localTime - since).toNat) → ¬ off →
        ∃ t, exec (.resetDeviceBegin d) s = .next t ∧ (scope = 0 → alone 6 t) ∧ (scope = 1 → both 7 t) ∧ (1 < scope → alone 8 t))) ∧
    (¬ off → x.power.tripped = false → ∃ t, exec (.thermalTrip d true) s = .next t ∧
      (t.die d).power.tripped = true ∧ (t.die d).power.inReset = true ∧ (t.die d).dev = .rom ∧
      (x.resetting = false → (t.die d).power.resetCause = 9) ∧ (t.die d).jobs = Jobs.reset) ∧
    (¬ off → x.power.tripped = true → exec (.thermalTrip d true) s = .next s ∧
      exec (.thermalTrip d false) s = .next (s.onDie d fun x => { x with power.tripped := false, power.inReset := false })) ∧
    ((off ∨ x.power.tripped = false) → exec (.thermalTrip d false) s = .next s) ∧
    (off → exec (.thermalTrip d true) s = .next s ∧ ∀ r, r ∈ [ResetSrc.diePin d, .pwrOkLow d, .supply d] →
      exec (.resetSource r) s = .next s) ∧
    ((x.resetting = false ∨ x.power.tripped = true) → exec (.rootPllLock d) s = .next s) ∧
    (x.resetting = true → x.power.tripped = false → ∃ t, exec (.rootPllLock d) s = .next t ∧
      (t.die d).power.pllLock = true ∧ (t.die d).power.refOk = true ∧ (t.die d).time = 0 ∧
      ((p.power.pllLock = true ∨ p.dev = .off) → (t.die d).power.inReset = false ∧ (t.die d).dram.resetLow = false ∧
        (p.power.tripped = false → (t.die d.other).power.inReset = false)) ∧
      (p.power.pllLock = false → p.dev ≠ .off → (t.die d).power.inReset = x.power.inReset ∧
        (t.die d).pair.bridgeUp = x.pair.bridgeUp))

/-- Start-up (R374, R505, R527 to R531, R567, R568). SRAM initialises once the domains run. Training succeeds when the
24 channels have one capacity and one rank count, and then the wipe starts; a failure takes the die to SAFE. A refresh
is counted while the memory is trained and awake. The wipe of all memory leaves it reading 0 and counts its lines; a
granule's wipe zeroes its 256 KiB, counts, and makes a live granule wiped, without an owner. When boot and wipe are
done, firmware's granules are live with owner 0, the device is READY and HEALTHY rises. The port's speed, the UFS gear
and the number of firmware's granules are free. Completes SRAM_INIT_DONE, DRAM_TRAINING_DONE, DRAM_REFRESH,
FILL_WIPE_DONE, STARTUP_READY. -/
def Obligations.StartUpRunsInOrder : Prop :=
  ∀ (s : State) (d : DieId), let x := s.die d
    (x.running = true → x.dev = .rom → exec (.sramInitDone d) s = .next (s.onDie d fun x => { x with power.sramDone := true })) ∧
    (∀ res, x.running = true → x.dev = .rom → x.dram.trained = false →
      (trainingOk res = true → exec (.dramTrainingDone d res) s = .next (s.onDie d fun x =>
        { x with dram.trained := true, dram.ranks := res.ranks.headD 0, dram.fittedGib := 24 * res.gibs.headD 0,
                 dram.fill := x.dram.fill ++ [.full] })) ∧
      (trainingOk res = false → exec (.dramTrainingDone d res) s = .next (s.onDie d fun x => { x with dev := .safe }))) ∧
    (∀ (res : Training), trainingOk res = true → ∃ g r, (g = 1 ∨ g = 2 ∨ g = 4) ∧ (r = 1 ∨ r = 2) ∧
      res.gibs = List.replicate 24 g ∧ res.ranks = List.replicate 24 r) ∧
    (∀ ch, x.running = true → x.dram.trained = true →
      (x.dram.selfRefresh = false → exec (.dramRefresh d ch) s = .next (s.onDie d fun x => x.count .drcRefreshCnt)) ∧
      (x.dram.selfRefresh = true → exec (.dramRefresh d ch) s = .next (s.onDie d id))) ∧
    (x.dram.fill.find? isWipe = some .full → x.dram.trained = true → ∃ t, exec (.fillWipeDone d) s = .next t ∧
      (t.die d).dram.cells = [] ∧ (t.die d).dram.spoiled = [] ∧ (t.die d).dram.wiped = true ∧
      (∀ a, Mem.byte (t.die d).dram.cells a = 0) ∧
      (t.die d).reg .drcFillCnt = x.reg .drcFillCnt + BitVec.ofNat 32 (x.dram.fittedGib * 262144) ∧
      t.die d.other = s.die d.other) ∧
    (∀ g, x.dram.fill.find? isWipe = some (.granule g) → ∃ t, exec (.fillWipeDone d) s = .next t ∧
      (∀ a, 262144 * g ≤ a → a < 262144 * (g + 1) → Mem.byte (t.die d).dram.cells a = 0) ∧
      (∀ a, (a < 262144 * g ∨ 262144 * (g + 1) ≤ a) → Mem.byte (t.die d).dram.cells a = Mem.byte x.dram.cells a) ∧
      (ownState (x.ownEntry g) = 1 → ownOwner (x.ownEntry g) = 4095 →
        (t.die d).ownEntry g = ownMake 4095 0 false false 0 ∧ (t.die d).reg .ownWipeCnt = x.reg .ownWipeCnt + 1) ∧
      ((ownState (x.ownEntry g) ≠ 1 ∨ ownOwner (x.ownEntry g) ≠ 4095) → (t.die d).xlt = x.xlt)) ∧
    (x.running = true → x.dev = .rom → x.sec.bootDone = true → x.dram.wiped = true → ∃ t, exec (.startupReady d) s = .next t ∧
      (t.die d).dev = .ready ∧ (t.die d).power.healthy = true ∧ (t.die d).power.healthyAt = x.time ∧
      (t.die d).io.usb.connected = true ∧ (t.die d).io.ufs.linkUp = true ∧
      8 ≤ (t.die d).xlt.fwGranules ∧ (t.die d).xlt.fwGranules ≤ 1024 ∧
      (∀ g, g < (t.die d).xlt.fwGranules → ownOwner ((t.die d).ownEntry g) = 0) ∧
      (x.sec.recovery = true → (t.die d).io.usb.speed = .highSpeed)) ∧
    (x.running = true → x.dev = .rom → (x.sec.bootDone = false ∨ x.dram.wiped = false) →
      exec (.startupReady d) s = .next (s.onDie d id))

/-- The power cap and the thermal limits (R494, R555, R576 to R580, R583, R584). A step makes the pressed cap active,
and moves the gate: up by 2, at most to 48, above the cap; down by 1 below 98 % of it; at least 48 at the limit; 64
when critical. A window of 64 slots gates as many as the gate says. A sensor whose reading is out of range, away from
the median or away from its last one is excluded, counted and recorded, until 100 plausible ones in a row. The limit
sets at its temperature and leaves after 10 cool samples; above 125 °C, or with fewer than 9 sensors, the die is
critical. HEALTHY falls when firmware has not refreshed it for 10 ms. The median of an even number of readings is the
model's choice (log entry 120). Completes POWER_CAP_STEP, THERMAL_SAMPLE, HEALTHY_REFRESH_TIMEOUT. -/
def Obligations.PowerAndTemperatureAreLimited : Prop :=
  (∀ (s : State) (d : DieId) (mw : Word), let x := s.die d
    x.running = true → ∃ t, exec (.powerCapStep d mw) s = .next t ∧
      let cap := 250 * (applyPlain 42 x).fld .pwrCap [] 7 0
      let y := (applyPlain 42 x).power
      (t.die d).power.mw = mw ∧ (t.die d).power.gate = nextGate y.gate cap mw.toNat y.therm ∧
      (t.die d).power.slots = y.slots + 307200 ∧
      (t.die d).power.gated = y.gated + BitVec.ofNat 64 (384 * gatedSlots y.gate (y.slots.toNat / 384)) ∧
      (cap < mw.toNat → y.gate = 48 → y.therm ≠ 2 →
        (t.die d).reg .pwrCapLimitedCnt = (applyPlain 42 x).reg .pwrCapLimitedCnt + 1) ∧
      (mw.toNat ≤ cap → (t.die d).reg .pwrCapLimitedCnt = (applyPlain 42 x).reg .pwrCapLimitedCnt)) ∧
  (∀ g cap p therm : Nat, g ≤ 64 → nextGate g cap p therm ≤ 64 ∧ (therm = 2 → nextGate g cap p therm = 64) ∧
    (therm = 1 → 48 ≤ nextGate g cap p therm) ∧
    (therm = 0 → cap < p → nextGate g cap p therm = min 48 (g + 2)) ∧
    (therm = 0 → p ≤ cap → 100 * p < 98 * cap → nextGate g cap p therm = g - 1) ∧
    (therm = 0 → p ≤ cap → 98 * cap ≤ 100 * p → nextGate g cap p therm = g)) ∧
  (∀ g : Nat, g ≤ 64 → ((List.range 64).filter (fun k => slotGated g k)).length = g) ∧
  (∀ (med : Option Int) (v : Sensor) (r : Int),
    (readingOk med v r = false → (sensorStep med v r).excluded = true ∧ (sensorStep med v r).run = 0) ∧
    (readingOk med v r = true → v.excluded = false → (sensorStep med v r).excluded = false) ∧
    (readingOk med v r = true → v.excluded = true → ((sensorStep med v r).excluded = false ↔ v.run = 99)) ∧
    ((r < -880 ∨ 2400 < r) → readingOk med v r = false) ∧
    (∀ l, v.last = some l → 160 < (r - l).natAbs → readingOk med v r = false)) ∧
  (∀ (s : State) (d : DieId) (rs : List Int), let x := s.die d
    x.i3cOn = true → rs.length = 16 → ∃ t, exec (.thermalSample d rs) s = .next t ∧
      (t.die d).power.sensors.length = 16 ∧
      ((t.die d).plausible < 9 ∨ 2000 < (t.die d).power.tmax → (t.die d).power.therm = 2) ∧
      (9 ≤ (t.die d).plausible → (t.die d).power.tmax < 16 * ((t.die d).fld .pwrTherm [] 7 0 : Int) → x.power.therm = 0 →
        (t.die d).power.tmax ≤ 2000 → (t.die d).power.therm = 0)) ∧
  (∀ (s : State) (d : DieId), let x := s.die d
    (x.power.healthy = true → x.passed x.power.healthyAt 10000 = true →
      exec (.healthyRefreshTimeout d) s = .next (s.onDie d fun x => { x with power.healthy := false })) ∧
    ((x.power.healthy = false ∨ x.passed x.power.healthyAt 10000 = false) →
      exec (.healthyRefreshTimeout d) s = .next (s.onDie d id)))

/-- The camera ports (R493, R540 to R545). A header that cannot be corrected is flagged, counted and discarded; one of
the port's channel and type selects the line that follows, a short packet of the channel is taken, any other is
counted. A frame start ends a frame in progress as incomplete, gives the port its boundary, and begins a frame with
the next count; on a frozen port the frame is discarded and counted. A line outside the crop is counted alone; a line
of the crop is written at its place in the frame's slot; a checksum that fails is flagged and counted; an overflow
ends the frame. A frame end writes the record, signals the fence with the frame's count, and counts the frame. Each
watchdog flags, counts and records; the line's one ends the frame as incomplete. A port that is not enabled takes
nothing. Completes CSI_PACKET, CSI_FRAME_START, CSI_LINE, CSI_FRAME_END, CSI_LINE_WATCHDOG, CSI_FRAME_WATCHDOG. The
audio ports (R493, R547, R548). At a block's boundary a running port takes the next count, writes the samples, then
the header, then signals the fence with the count, and counts the block; a block within which the port was frozen has
its frames discarded, all of them counted (log 160, the model's choice). The press takes effect at the boundary.
Losing a clock stops the port, counted and recorded; after it has returned a new block begins, marked RESUMED.
Completes TDM_BLOCK_DONE, TDM_CLOCK_LOSS, TDM_RESUME. -/
def Obligations.CameraAndAudioPortsWrite : Prop :=
  (∀ (s : State) (d : DieId) (q : Fin 4), let x := s.die d
    (x.csiEn q = false → exec (.csiFrameStart d q) s = .next s ∧ exec (.csiFrameEnd d q) s = .next s ∧
      exec (.csiLineWatchdog d q) s = .next s ∧ exec (.csiFrameWatchdog d q) s = .next (s.onDie d id) ∧
      (∀ hdr, exec (.csiPacket d q hdr) s = .next (s.onDie d id)) ∧
      ∀ payload crcOk overflow, exec (.csiLine d q payload crcOk overflow) s = .next s) ∧
    (x.csiEn q = true → let t0 := x.csi q
    (∀ hdr : CsiHeader,
      (hdr.errs = 2 → ∃ t, exec (.csiPacket d q hdr) s = .next t ∧ ((t.die d).csi q).selected = false ∧
        ((t.die d).regI .csiFlags [q.val]).getLsbD 2 = true ∧
        (t.die d).regI .csiEccUncorrCnt [q.val] = x.regI .csiEccUncorrCnt [q.val] + 1) ∧
      (hdr.errs ≠ 2 → ∃ t, exec (.csiPacket d q hdr) s = .next t ∧ ((t.die d).csi q).locked = true ∧
        (((t.die d).csi q).selected = true ↔
          hdr.vc.toNat = x.fld .csiCtrl [q.val] 27 24 ∧ hdr.dt.toNat = x.fld .csiCtrl [q.val] 21 16) ∧
        (hdr.vc.toNat ≠ x.fld .csiCtrl [q.val] 27 24 →
          (t.die d).regI .csiOtherCnt [q.val] = x.regI .csiOtherCnt [q.val] + 1) ∧
        (hdr.errs = 1 → (t.die d).regI .csiEccCorrCnt [q.val] = x.regI .csiEccCorrCnt [q.val] + 1) ∧
        (hdr.errs = 0 → (t.die d).regI .csiEccCorrCnt [q.val] = x.regI .csiEccCorrCnt [q.val]))) ∧
    (let r := if t0.inFrame then endFrame s d q csIncomplete else s;
      exec (.csiFrameStart d q) s = .next (r.onDie d fun x => beginFrame q (r.die d.other) (ioApply (q.val + 1) x))) ∧
    (∃ t, nextOn d (beginFrame q (s.die d.other)) s = .next t ∧ ((t.die d).csi q).frame = t0.frame + 1 ∧
      (t0.frozen.isSome = true → ((t.die d).csi q).lost = true ∧ ((t.die d).csi q).inFrame = true ∧
        (t.die d).regI .csiDiscardCnt [q.val] = x.regI .csiDiscardCnt [q.val] + 1) ∧
      (t0.frozen = none → vaOf (x.regI .csiReleaseLo [q.val]) (x.regI .csiReleaseHi [q.val]) = 0 →
        ((t.die d).csi q).inFrame = true ∧ ((t.die d).csi q).dropping = false ∧ ((t.die d).csi q).lost = false ∧
        ((t.die d).csi q).lineNo = 0 ∧ ((t.die d).csi q).written = 0 ∧ ((t.die d).csi q).status = 0)) ∧
    (t0.inFrame = true → t0.selected = true → ∀ payload crcOk overflow,
      let r := s.onDie d fun x => x.updCsi q fun t => { t with lastLine := x.time, selected := false }
      ((t0.frozen.isSome = true ∨ t0.lost = true ∨ t0.dropping = true) →
        exec (.csiLine d q payload crcOk overflow) s = .next r) ∧
      (t0.frozen = none → t0.lost = false → t0.dropping = false →
        (overflow = true →
          exec (.csiLine d q payload crcOk overflow) s = .next (endFrame r d q (csIncomplete ||| csOverrun))) ∧
        (overflow = false → crcOk = true → exec (.csiLine d q payload crcOk overflow) s = .next (writeLine r d q payload)) ∧
        (overflow = false → crcOk = false → ∃ y, exec (.csiLine d q payload crcOk overflow) s = .next (writeLine y d q payload) ∧
          ((y.die d).csi q).status = t0.status ||| csCrcErr ∧
          (y.die d).regI .csiCrcErrCnt [q.val] = x.regI .csiCrcErrCnt [q.val] + 1))) ∧
    (∀ payload, let y0 := x.fld .csiCropXy [q.val] 31 16
      let h := x.fld .csiCropWh [q.val] 31 16
      let w := x.fld .csiCropWh [q.val] 15 0
      let px := linePixels (x.fld .csiCtrl [q.val] 21 16) (x.fld .csiBlack [q.val] 15 0) payload
      ((t0.lineNo < y0 ∨ y0 + h ≤ t0.lineNo) →
        writeLine s d q payload = s.onDie d fun x => x.updCsi q fun t => { t with lineNo := t.lineNo + 1 }) ∧
      (y0 ≤ t0.lineNo → t0.lineNo < y0 + h → ∀ y,
        writeBoth s d (.csi q) (csiCtx x q) (csiSlot x q t0.frame + 64 + 64 * x.fld .csiGeom [q.val] 31 16 * (t0.lineNo - y0))
          (((List.range w).map fun i => px.getD (x.fld .csiCropXy [q.val] 15 0 + i) [0, 0]).flatten) = (y, true) →
        ((writeLine s d q payload).die d).csi q = { (y.die d).csi q with
          lineNo := ((y.die d).csi q).lineNo + 1, written := ((y.die d).csi q).written + 1,
          status := if px.length < x.fld .csiCropXy [q.val] 15 0 + w then ((y.die d).csi q).status ||| csLineLength
            else ((y.die d).csi q).status })) ∧
    (t0.inFrame = true → exec (.csiFrameEnd d q) s = .next (endFrame s d q 0)) ∧
    (t0.inFrame = true → t0.dropping = false → t0.lost = false → t0.frozen = none →
      ∀ y z, let r := s.onDie d fun x => x.updCsi q fun t => { t with status := t.status ||| 0 };
      writeBoth r d (.csi q) (csiCtx (r.die d) q) (csiSlot (r.die d) q t0.frame) (frameRecord (r.die d) q) = (y, true) →
      signalBoth y d (.csi q) (csiCtx (r.die d) q) (vaOf ((r.die d).regI .csiFenceLo [q.val]) ((r.die d).regI .csiFenceHi [q.val]))
        t0.frame = (z, true) →
      (((endFrame s d q 0).die d).csi q).inFrame = false ∧
      ((endFrame s d q 0).die d).regI .csiFrameCnt [q.val] = (z.die d).regI .csiFrameCnt [q.val] + 1 ∧
      ((endFrame s d q 0).die d).dram = (z.die d).dram) ∧
    (t0.inFrame = true → x.passed t0.lastLine (x.fld .csiWdog [q.val] 31 16) = true →
      exec (.csiLineWatchdog d q) s = .next (endFrame (s.onDie d (csiWatchdog q 1)) d q (csIncomplete ||| csLineWatchdog))) ∧
    (x.passed t0.lastStart (1000 * x.fld .csiWdog [q.val] 15 0) = true → exec (.csiFrameWatchdog d q) s =
      .next (s.onDie d fun x => (csiWatchdog q 0 x).updCsi q fun t => { t with lastStart := x.time })) ∧
    (t0.inFrame = false → exec (.csiFrameEnd d q) s = .next s ∧ exec (.csiLineWatchdog d q) s = .next s ∧
      ∀ payload crcOk overflow, exec (.csiLine d q payload crcOk overflow) s = .next s))) ∧
  (∀ (s : State) (d : DieId) (q : Fin 4), let x := s.die d
    let t0 := x.tdm q
    (∀ samples, x.tdmEn q = true → t0.clockOk = true →
      (t0.lost = true → exec (.tdmBlockDone d q samples) s = .next ((s.onDie d fun x =>
        (x.countI .tdmDiscardCnt [q.val] (x.fld .tdmBlock [q.val] 12 0)).updTdm q fun t => { t with startTime := x.time, lost := t.frozen.isSome }).onDie d
          (ioApply (q.val + 5)))) ∧
      (t0.lost = false → exec (.tdmBlockDone d q samples) s =
        .next ((writeBlock s d q samples).onDie d (ioApply (q.val + 5))))) ∧
    (∀ samples, let k := t0.block + 1
      let nbuf := x.fld .tdmBlock [q.val] 23 16 + 1
      let frames := x.fld .tdmBlock [q.val] 12 0
      let n := slotCount (x.regI .tdmSlotMask [q.val]) * frames
      let base := vaOf (x.regI .tdmBufLo [q.val]) (x.regI .tdmBufHi [q.val]) +
        64 * x.fld .tdmStride [q.val] 15 0 * ((k.toNat + nbuf - 1) % nbuf)
      let r := s.onDie d fun x => x.updTdm q fun t => { t with block := k, startTime := x.time, resumed := false }
      0 < n → ∀ y z w,
      writeBoth r d (.tdm q) (tdmCtx x q) (base + 32)
        (((List.range n).map fun i => tdmSample (x.fld .tdmCtrl [q.val] 17 16) (samples.getD i 0)).flatten) = (y, true) →
      writeBoth y d (.tdm q) (tdmCtx x q) base (leBytes 8 k.toNat ++ leBytes 8 t0.startTime.toNat ++ leBytes 4 (b2n t0.resumed) ++
        leBytes 4 frames ++ leBytes 8 0) = (z, true) →
      signalBoth z d (.tdm q) (tdmCtx x q) (vaOf (x.regI .tdmFenceLo [q.val]) (x.regI .tdmFenceHi [q.val])) k = (w, true) →
      writeBlock s d q samples = w.onDie d fun x => x.countI .tdmBlockCnt [q.val] 1) ∧
    (∀ bclk fsync, x.tdmEn q = true → t0.clockOk = true → (bclk = true ∨ fsync = true) →
      exec (.tdmClockLoss d q bclk fsync) s = .next (s.onDie d fun x =>
        ((x.updTdm q fun t => { t with clockOk := false }).countI .tdmClockLossCnt [q.val] 1).note clsTdmClock (.tdm q)
          (FaultInfo.plain (tdmCtx x q) (b2n bclk + 2 * b2n fsync)))) ∧
    (x.tdmEn q = true → t0.clockOk = false → exec (.tdmResume d q) s = .next (s.onDie d fun x =>
      x.updTdm q fun t => { t with clockOk := true, resumed := true, startTime := x.time, lost := t.frozen.isSome })) ∧
    (x.tdmEn q = false → (∀ samples, exec (.tdmBlockDone d q samples) s = .next s) ∧ exec (.tdmResume d q) s = .next (s.onDie d id) ∧
      ∀ bclk fsync, exec (.tdmClockLoss d q bclk fsync) s = .next (s.onDie d id)) ∧
    (∀ (y : Die) cls, ((y.freeze (.tdm q) cls).tdm q).lost = true ∧ ((y.freeze (.tdm q) cls).tdm q).frozen = some cls))

/-- The USB port (R532 to R535). U1 and U2 are entered when they are enabled, and turned away when not; U3 and suspend
are entered and counted; a resume leaves them. 10 ms after a press changed MAX_SPEED, the port connects at the highest
speed that the link and the limit allow, which in recovery is high speed alone, and counts the connection. The word
that holds the enable of U1 and U2 is the model's layout (log entry 25). Completes USB_LOW_POWER_REQUEST,
USB_RECONNECT. The storage interfaces (R549 to R552). A GO write that nothing refuses starts a transfer with the
operands in force; a refused one does nothing. When the device has answered, the transfer moves its blocks, writes its
status, signals its fence, leaves and is counted; one that the device failed moves nothing, has status 8 and counts as
an error. A flash command that nothing refuses begins; its end erases a 64 KiB block, programs a page, or fills
XSP_BUF with what the flash holds; one that fails or is busy for 4 s sets ERROR and is counted. A transfer waits for
the image loads that came before it. An erased byte reads 0xFF in the model (log entry 7). Completes UFS_XFER_GO,
UFS_XFER_DONE, XSP_ERASE, XSP_PROGRAM, XSP_READ, XSP_CMD_DONE, XSP_BUSY_TIMEOUT. -/
def Obligations.UsbAndStorage : Prop :=
  (∀ (s : State) (d : DieId), let x := s.die d
    (x.io.usb.connected = false → ∀ req, exec (.usbLowPowerRequest d req) s = .next (s.onDie d id)) ∧
    ((x.io.usb.reconnect = none ∨ x.running = false) → ∀ speed, exec (.usbReconnect d speed) s = .next (s.onDie d id)) ∧
    (∀ req, (req = UsbPower.u1 ∨ req = .u2) → x.io.usb.connected = true →
      ((x.reg .usbCfg).getLsbD 4 = true → ∃ t, exec (.usbLowPowerRequest d req) s = .next t ∧
        (t.die d).io.usb.lowPower = some req ∧ (t.die d).cmd.answer = .ack) ∧
      ((x.reg .usbCfg).getLsbD 4 = false → ∃ t, exec (.usbLowPowerRequest d req) s = .next t ∧
        (t.die d).io.usb = x.io.usb ∧ (t.die d).cmd.answer = .nak)) ∧
    (∀ req, (req = UsbPower.u3 ∨ req = .suspend) → x.io.usb.connected = true →
      ∃ t, exec (.usbLowPowerRequest d req) s = .next t ∧ (t.die d).io.usb.lowPower = some req ∧
        (t.die d).reg .usbSuspendCnt = x.reg .usbSuspendCnt + 1 ∧ (t.die d).cmd = x.cmd) ∧
    (x.io.usb.connected = true → exec (.usbLowPowerRequest d .resume) s = .next (s.onDie d fun x => { x with io.usb.lowPower := none })) ∧
    (∀ speed t0, x.io.usb.reconnect = some t0 → x.running = true →
      (x.passed t0 10000 = false → exec (.usbReconnect d speed) s = .next (s.onDie d id)) ∧
      (x.passed t0 10000 = true → ∃ t, exec (.usbReconnect d speed) s = .next t ∧ (t.die d).io.usb.connected = true ∧
        (t.die d).io.usb.reconnect = none ∧ (t.die d).io.usb.lowPower = none ∧
        usbRank (t.die d).io.usb.speed = min (usbRank speed) (if x.sec.recovery then 0 else x.fld .usbCfg [] 1 0) ∧
        (t.die d).reg .usbSpeedCnt = x.reg .usbSpeedCnt + 1))) ∧
  (∀ (s : State) (d : DieId), let x := s.die d
    (∀ v, x.running = true → (ufsGoRefused x v = true → exec (.ufsXferGo d v) s = .next (s.onDie d id)) ∧
      (ufsGoRefused x v = false → ∃ t u, exec (.ufsXferGo d v) s = .next t ∧ (t.die d).io.ufs.xfer = some u ∧
        u.write = v.getLsbD 31 ∧ u.lu = wbits v 2 0 ∧ u.ctx = x.fld .ufsLuOwner [wbits v 2 0] 9 0 ∧
        u.count = (x.reg .ufsXferCount).toNat ∧ u.va = vaOf (x.reg .ufsXferVaLo) (x.reg .ufsXferVaHi) ∧ u.frozen = none ∧
        u.ahead = x.sec.loads.length ∧ (t.die d).dram = x.dram)) ∧
    (∀ u ok data, x.io.ufs.xfer = some u → x.running = true → u.frozen = none → u.ahead = 0 → x.io.ufs.linkUp = true →
      (ok = false → exec (.ufsXferDone d ok data) s = .next (s.onDie d fun x => ufsFinish (s.die d.other) x u false)) ∧
      (ok = true → ∀ y, (ufsUnits (s.die d.other) u data u.count 0 x = (y, true) →
          exec (.ufsXferDone d ok data) s = .next (s.setDie d (ufsFinish (s.die d.other) y u true))) ∧
        (ufsUnits (s.die d.other) u data u.count 0 x = (y, false) → exec (.ufsXferDone d ok data) s = .next (s.setDie d y)))) ∧
    (∀ u ok data, x.io.ufs.xfer = some u → (u.frozen.isSome = true ∨ u.ahead ≠ 0 ∨ x.io.ufs.linkUp = false ∨ x.running = false) →
      exec (.ufsXferDone d ok data) s = .next (s.onDie d id)) ∧
    (∀ u ok y z v, writeUnit (s.die d.other) x .ufs u.ctx (u.fence + 8) (leBytes 8 (if ok then 0 else 8)) accWrite = (y, true) →
      signalUnit (s.die d.other) y .ufs u.ctx u.fence u.value = (z, some v) →
      (ufsFinish (s.die d.other) x u ok) =
        ioApplyReady ((if ok then ({ z with io.ufs.xfer := none } : Die) else ({ z with io.ufs.xfer := none } : Die).count .ufsErrCnt).count
          .ufsXferCnt)) ∧
    (x.running = true → ∀ cmd row, ((cmd = 1 ∧ row = Instr.xspErase d) ∨ (cmd = 2 ∧ row = .xspProgram d) ∨ (cmd = 3 ∧ row = .xspRead d)) →
      (xspRefused x cmd = true → exec row s = .next (s.onDie d id)) ∧
      (xspRefused x cmd = false → exec row s = .next (s.onDie d fun x =>
        { x with io.flash.cmd := some (cmd, x.fld .xspAddr [] 27 0, if cmd = 2 then xspPage x else []), io.flash.since := x.time }))) ∧
    (∀ cmd a buf, x.io.flash.cmd = some (cmd, a, buf) →
      (∃ t, exec (.xspCmdDone d true) s = .next t ∧ (t.die d).io.flash.cmd = none ∧
        (cmd = 1 → ∀ b, (t.die d).io.flash.byte b = if a ≤ b ∧ b < a + 65536 then 0xFF else x.io.flash.byte b) ∧
        (cmd = 2 → (∀ i, i < buf.length → (t.die d).io.flash.byte (a + i) = buf.getD i 0) ∧
          (∀ b, (b < a ∨ a + buf.length ≤ b) → (t.die d).io.flash.byte b = x.io.flash.byte b)) ∧
        (cmd = 3 → (∀ i, i < 64 → (t.die d).regI .xspBuf [i] = BitVec.ofNat 32 (ofLe (x.io.flash.bytes (a + 4 * i) 4))) ∧
          (t.die d).io.flash.cells = x.io.flash.cells)) ∧
      (∃ t, exec (.xspCmdDone d false) s = .next t ∧ (t.die d).io.flash.cmd = none ∧ (t.die d).io.flash.cells = x.io.flash.cells ∧
        ((t.die d).reg .xspStatus).getLsbD 1 = true ∧ (t.die d).reg .xspErrCnt = x.reg .xspErrCnt + 1) ∧
      (x.passed x.io.flash.since 4000000 = true → ∃ t, exec (.xspBusyTimeout d) s = .next t ∧
        (t.die d).io.flash.cmd = none ∧ (t.die d).io.flash.cells = x.io.flash.cells ∧
        ((t.die d).reg .xspStatus).getLsbD 1 = true ∧ (t.die d).reg .xspErrCnt = x.reg .xspErrCnt + 1)))

/-- The telemetry target and the captured counts (R198, R542, R553, R554, R584). A target without an address takes the
one that ENTDAA assigns, SETDASA gives the die with that static address its own, RSTDAA takes it away. A target with
an address answers the identity, the characteristics and the status, and ENEC and DISEC do nothing. A private write
sets the index, a private read answers words of the latest snapshot from the index on, zero beyond it, and is counted;
without an address nothing is answered. A snapshot holds the words of R554. A read of a low count word captures the
high one. GETSTATUS, and the bits that GETBCR and GETDCR leave open, answer free values. Completes ENTDAA, SETDASA,
RSTDAA, GETPID, GETBCR, GETDCR, GETSTATUS, ENEC, DISEC, I3C_PRIVATE_WRITE, I3C_PRIVATE_READ, TELEMETRY_SNAPSHOT,
MTX_KMAC_LO_READ, CSI_FRAME_LO_READ, PWR_SLOT_LO_READ, PWR_GATED_LO_READ. A write of a register (R13, R14, R96 to
R99): each RW bit takes the word's bit, each W1C bit is cleared where the word has a one, each RWP bit of the word
goes into the shadow, and every other bit and every other register stays. An address of no register ignores the word. -/
def Obligations.TelemetryAndRegisterWrites : Prop :=
  (∀ (s : State) (d : DieId), let x := s.die d
    x.i3cOn = true →
    (∀ a, exec (.entdaa d a) s = .next (s.onDie d fun x =>
      { x with io.i3c.dyn := some (x.io.i3c.dyn.getD a) })) ∧
    (∀ st a, (st = staticAddr d → exec (.setdasa d st a) s = .next (s.onDie d fun x => { x with io.i3c.dyn := some a })) ∧
      (st ≠ staticAddr d → exec (.setdasa d st a) s = .next (s.onDie d id))) ∧
    (staticAddr .a = 0x48 ∧ staticAddr .b = 0x49) ∧
    exec (.rstdaa d) s = .next (s.onDie d fun x => { x with io.i3c.dyn := none }) ∧
    exec (.enec d) s = .next (s.onDie d id) ∧ exec (.disec d) s = .next (s.onDie d id) ∧
    (x.io.i3c.dyn.isSome = true →
      (exec (.getpid d) s = .next (s.onDie d fun x =>
        { x with io.i3c.answer := (provisionalId x).map fun b => b.setWidth 32 }) ∧ ((provisionalId x).getD 1 0).getLsbD 0 = true ∧
        (provisionalId x).length = 6) ∧
      (∃ t w, exec (.getbcr d) s = .next t ∧ (t.die d).io.i3c.answer = [w] ∧ w &&& 0xFFFFFFC6 = 0) ∧
      (∃ t w, exec (.getdcr d) s = .next t ∧ (t.die d).io.i3c.answer = [w] ∧ w &&& 0xFFFFFF00 = 0) ∧
      (∃ t w, exec (.getstatus d) s = .next t ∧ (t.die d).io.i3c.answer = [w] ∧ w &&& 0xFFFF0000 = 0) ∧
      (∀ b bs, exec (.i3cPrivateWrite d (b :: bs)) s = .next (s.onDie d fun x => { x with io.i3c.index := b })) ∧
      (∀ n, ∃ t, exec (.i3cPrivateRead d n) s = .next t ∧ (t.die d).io.i3c.answer.length = n ∧
        (∀ i, i < n → (t.die d).io.i3c.answer.getD i 0 = (x.io.i3c.snap.lookup (x.io.i3c.index.toNat + i)).getD 0) ∧
        (t.die d).reg .i3tReadCnt = x.reg .i3tReadCnt + 1 ∧ (t.die d).io.i3c.dyn = x.io.i3c.dyn)) ∧
    (x.io.i3c.dyn = none → exec (.getpid d) s = .next (s.onDie d id) ∧ exec (.getbcr d) s = .next (s.onDie d id) ∧
      exec (.getdcr d) s = .next (s.onDie d id) ∧ (∀ bs, exec (.i3cPrivateWrite d bs) s = .next (s.onDie d id)) ∧
      ∀ n, exec (.i3cPrivateRead d n) s = .next (s.onDie d id)) ∧
    (∃ t, exec (.telemetrySnapshot d) s = .next t ∧ (t.die d).io.i3c.snap = telemetry x ∧
      (telemetry x).lookup 1 = some (BitVec.ofInt 32 x.power.tmax) ∧ (telemetry x).lookup 2 = some x.power.mw ∧
      (t.die d).io.i3c.dyn = x.io.i3c.dyn) ∧
    (x.running = true → exec (.mtxKmacLoRead d) s = .next (s.onDie d fun x =>
      { x with sh.kmacHi := (x.sh.kmac >>> 32).setWidth 32, cmd.cfgData := x.sh.kmac.setWidth 32 })) ∧
    (∀ q, ∃ t, exec (.csiFrameLoRead d q) s = .next t ∧ (t.die d).cmd.cfgData = (x.csi q).frame.setWidth 32 ∧
      ((t.die d).csi q).frameHi = ((x.csi q).frame >>> 32).setWidth 32 ∧ ((t.die d).csi q).frame = (x.csi q).frame) ∧
    exec (.pwrSlotLoRead d) s = .next (s.onDie d fun x =>
      { x with power.slotsHi := (x.power.slots >>> 32).setWidth 32, cmd.cfgData := x.power.slots.setWidth 32 }) ∧
    exec (.pwrGatedLoRead d) s = .next (s.onDie d fun x =>
      { x with power.gatedHi := (x.power.gated >>> 32).setWidth 32, cmd.cfgData := x.power.gated.setWidth 32 })) ∧
  (∀ (r : Reg) (is : List Nat) (v : Word) (x : Die),
    (∀ i, i < 32 → ((plainWrite r is v x).regI r is).getLsbD i =
      (if r.info.w1c.getLsbD i && v.getLsbD i then false else if r.info.rw.getLsbD i then v.getLsbD i
        else (x.regI r is).getLsbD i)) ∧
    (∀ q js, q.addr js ≠ r.addr is → (plainWrite r is v x).regI q js = x.regI q js ∧
      (plainWrite r is v x).shadowI q js = x.shadowI q js) ∧
    (∀ i, i < 32 → r.info.rwp.getLsbD i = true → ((plainWrite r is v x).shadowI r is).getLsbD i = v.getLsbD i) ∧
    (plainWrite r is v x).dram = x.dram ∧ (plainWrite r is v x).jobs = x.jobs ∧ (plainWrite r is v x).cmd = x.cmd ∧
    (∀ (s : State) (d : DieId) (a : Nat) (w : Word), regAt a = none → cfgWriteWord s d a w = s))
end

