-- ==== Sys2Proof/Laws/Sparse.lean ====
section
/-! SUPPORT. Sys2Proof/Laws/Sparse.lean: reading after writing in the sparse maps, and that every write keeps the canonical
form. -/
namespace Sys2Proof.Machine

/-! ### Reading after writing -/

theorem spGet_dropWhile {α : Type} (dflt : Nat → α) (k : Nat) (m : List (Nat × α)) {j : Nat} (h : k < j) :
    spGet dflt (m.dropWhile (fun e => decide (e.1 ≤ k))) j = spGet dflt m j := by
  induction m with
  | nil => rfl
  | cons e m ih =>
    obtain ⟨a, v⟩ := e
    by_cases ha : a ≤ k
    · have h1 : ¬ j = a := by omega
      have h2 : ¬ j < a := by omega
      simp [List.dropWhile, ha, spGet, h1, h2, ih]
    · simp [List.dropWhile, ha]

theorem spGet_dropWhile_le {α : Type} (dflt : Nat → α) (k : Nat) (m : List (Nat × α)) {j : Nat} (h : j ≤ k) :
    spGet dflt (m.dropWhile (fun e => decide (e.1 ≤ k))) j = dflt j := by
  induction m with
  | nil => rfl
  | cons e m ih =>
    obtain ⟨a, v⟩ := e
    by_cases ha : a ≤ k
    · simp [List.dropWhile, ha, ih]
    · have h1 : ¬ j = a := by omega
      have h2 : j < a := by omega
      simp [List.dropWhile, ha, spGet, h1, h2]

@[simp] theorem spGet_spSet_same {α : Type} [DecidableEq α] (dflt : Nat → α) (m : List (Nat × α)) (k : Nat) (v : α) :
    spGet dflt (spSet dflt m k v) k = v := by
  induction m with
  | nil => by_cases h : v = dflt k <;> simp [spSet, spGet, h]
  | cons e m ih =>
    obtain ⟨a, w⟩ := e
    rcases Nat.lt_trichotomy k a with h | h | h
    · have h1 : ¬ k = a := by omega
      by_cases hv : v = dflt k <;> simp [spSet, spGet, h, h1, hv]
    · subst h
      by_cases hv : v = dflt k
      · simp [spSet, hv, spGet_dropWhile_le dflt k m (Nat.le_refl k)]
      · simp [spSet, spGet, hv]
    · have h1 : ¬ k < a := by omega
      have h2 : ¬ k = a := by omega
      simp [spSet, spGet, h1, h2, ih]

/-- Another key keeps its value, whatever default the write was made with. -/
theorem spGet_spSet_ne {α : Type} [DecidableEq α] (dflt dflt' : Nat → α) (m : List (Nat × α)) {k j : Nat} (v : α)
    (hj : j ≠ k) : spGet dflt (spSet dflt' m k v) j = spGet dflt m j := by
  induction m with
  | nil =>
    by_cases h : v = dflt' k
    · simp [spSet, h]
    · by_cases hlt : j < k <;> simp [spSet, spGet, h, hj, hlt]
  | cons e m ih =>
    obtain ⟨a, w⟩ := e
    rcases Nat.lt_trichotomy k a with h | h | h
    · by_cases hv : v = dflt' k
      · simp [spSet, h, hv]
      · have : ¬ a < k := by omega
        by_cases hlt : j < k
        · have h1 : ¬ j = a := by omega
          have h2 : j < a := by omega
          simp [spSet, spGet, h, hv, hj, hlt, h1, h2]
        · simp [spSet, spGet, h, hv, hj, hlt]
    · subst h
      by_cases hv : v = dflt' k
      · rcases Nat.lt_or_gt_of_ne hj with hlt | hgt
        · simp [spSet, hv, spGet, hj, hlt, spGet_dropWhile_le dflt k m (Nat.le_of_lt hlt)]
        · have h2 : ¬ j < k := by omega
          simp [spSet, hv, spGet, hj, h2, spGet_dropWhile dflt k m hgt]
      · simp [spSet, hv, spGet, hj]
    · have h1 : ¬ k < a := by omega
      have h2 : ¬ k = a := by omega
      by_cases h3 : j = a
      · simp [spSet, spGet, h1, h2, h3]
      · by_cases h4 : j < a <;> simp [spSet, spGet, h1, h2, h3, h4, ih]

/-! ### The canonical form -/

theorem spWfFrom_mono {α : Type} [DecidableEq α] (dflt : Nat → α) {lo lo' : Nat} (h : lo ≤ lo') (m : List (Nat × α)) :
    spWfFrom dflt lo' m = true → spWfFrom dflt lo m = true := by
  cases m with
  | nil => simp [spWfFrom]
  | cons e m =>
    simp only [spWfFrom, Bool.and_eq_true, decide_eq_true_eq]
    rintro ⟨⟨h1, h2⟩, h3⟩
    exact ⟨⟨by omega, h2⟩, h3⟩

theorem dropWhile_of_wfFrom {α : Type} [DecidableEq α] (dflt : Nat → α) (k : Nat) (m : List (Nat × α))
    (h : spWfFrom dflt (k + 1) m = true) : m.dropWhile (fun e => decide (e.1 ≤ k)) = m := by
  cases m with
  | nil => rfl
  | cons e m =>
    simp only [spWfFrom, Bool.and_eq_true, decide_eq_true_eq] at h
    have : ¬ e.1 ≤ k := by omega
    simp [List.dropWhile, this]

theorem spSet_wfFrom {α : Type} [DecidableEq α] (dflt : Nat → α) (m : List (Nat × α)) (lo k : Nat) (v : α) (hk : lo ≤ k)
    (h : spWfFrom dflt lo m = true) : spWfFrom dflt lo (spSet dflt m k v) = true := by
  induction m generalizing lo with
  | nil => by_cases hv : v = dflt k <;> simp [spSet, spWfFrom, hv, hk]
  | cons e m ih =>
    obtain ⟨a, w⟩ := e
    simp only [spWfFrom, Bool.and_eq_true, decide_eq_true_eq] at h
    obtain ⟨⟨h1, h2⟩, h3⟩ := h
    rcases Nat.lt_trichotomy k a with hlt | heq | hgt
    · by_cases hv : v = dflt k
      · simp [spSet, hlt, hv, spWfFrom, h1, h2, h3]
      · simp only [spSet, hlt, if_true, hv, if_false, spWfFrom, Bool.and_eq_true, decide_eq_true_eq]
        exact ⟨⟨hk, by simpa using hv⟩, ⟨hlt, by simpa using h2⟩, h3⟩
    · subst heq
      by_cases hv : v = dflt k
      · simp only [spSet, Nat.lt_irrefl, if_false, hv, if_true, dropWhile_of_wfFrom dflt k m h3]
        exact spWfFrom_mono dflt (by omega) m h3
      · simp [spSet, hv, spWfFrom, hk, h3]
    · have h4 : ¬ k < a := by omega
      have h5 : ¬ k = a := by omega
      simp only [spSet, h4, h5, if_false, spWfFrom, Bool.and_eq_true, decide_eq_true_eq]
      exact ⟨⟨h1, by simpa using h2⟩, ih (a + 1) (by omega) h3⟩

/-- A write keeps the canonical form. -/
theorem spSet_wf {α : Type} [DecidableEq α] (dflt : Nat → α) (m : List (Nat × α)) (k : Nat) (v : α)
    (h : spWf dflt m = true) : spWf dflt (spSet dflt m k v) = true :=
  spSet_wfFrom dflt m 0 k v (Nat.zero_le k) h

theorem spClearFrom_wf {α : Type} [DecidableEq α] (dflt : Nat → α) (lo hi : Nat) (m : List (Nat × α)) (b floor : Nat)
    (h : spWfFrom dflt b m = true) : spWfFrom dflt b (spClearFrom lo hi floor m) = true := by
  induction m generalizing b floor with
  | nil => rfl
  | cons e m ih =>
    obtain ⟨a, w⟩ := e
    simp only [spWfFrom, Bool.and_eq_true, decide_eq_true_eq] at h
    obtain ⟨⟨h1, h2⟩, h3⟩ := h
    have h4 := fun f => spWfFrom_mono dflt (show b ≤ a + 1 by omega) _ (ih (a + 1) f h3)
    simp only [spClearFrom]
    split
    · exact h4 _
    · split
      · exact h4 _
      · simp only [spWfFrom, Bool.and_eq_true, decide_eq_true_eq]
        exact ⟨⟨h1, h2⟩, ih (a + 1) _ h3⟩

/-- Clearing a range keeps the canonical form. -/
theorem spClear_wf {α : Type} [DecidableEq α] (dflt : Nat → α) (lo hi : Nat) (m : List (Nat × α))
    (h : spWf dflt m = true) : spWf dflt (spClear lo hi m) = true := spClearFrom_wf dflt lo hi m 0 0 h

theorem spGet_spClearFrom_low {α : Type} (dflt : Nat → α) (lo hi floor k : Nat) (m : List (Nat × α)) (h : k < floor) :
    spGet dflt (spClearFrom lo hi floor m) k = dflt k := by
  induction m generalizing floor with
  | nil => rfl
  | cons e m ih =>
    simp only [spClearFrom]
    split
    · exact ih floor h
    · split
      · exact ih _ (by omega)
      · have h1 : ¬ k = e.1 := by omega
        have h2 : k < e.1 := by omega
        simp [spGet, h1, h2]

theorem spGet_spClearFrom {α : Type} (dflt : Nat → α) (lo hi floor k : Nat) (m : List (Nat × α)) (h : floor ≤ k) :
    spGet dflt (spClearFrom lo hi floor m) k = if lo ≤ k ∧ k < hi then dflt k else spGet dflt m k := by
  induction m generalizing floor with
  | nil => simp [spClearFrom, spGet]
  | cons e m ih =>
    simp only [spClearFrom]
    split
    · next h1 =>
      have h2 : ¬ k = e.1 := by omega
      have h3 : ¬ k < e.1 := by omega
      simp [spGet, h2, h3, ih floor h]
    · split
      · next h1 h2 =>
        by_cases h3 : k ≤ e.1
        · rw [spGet_spClearFrom_low dflt lo hi _ k m (by omega)]
          by_cases h4 : k = e.1
          · subst h4; simp [h2]
          · have h5 : k < e.1 := by omega
            simp [spGet, h4, h5]
        · have h4 : ¬ k = e.1 := by omega
          have h5 : ¬ k < e.1 := by omega
          simp [spGet, h4, h5, ih _ (show e.1 + 1 ≤ k by omega)]
      · next h1 h2 =>
        by_cases h3 : k = e.1
        · subst h3; simp [spGet, h2]
        · by_cases h4 : k < e.1
          · simp [spGet, h3, h4]
          · simp [spGet, h3, h4, ih floor h]

/-- A key in the range holds what an unlisted key holds, and every other key what it held. -/
theorem spGet_spClear {α : Type} (dflt : Nat → α) (lo hi k : Nat) (m : List (Nat × α)) :
    spGet dflt (spClear lo hi m) k = if lo ≤ k ∧ k < hi then dflt k else spGet dflt m k :=
  spGet_spClearFrom dflt lo hi 0 k m (Nat.zero_le k)

/-! ### Byte memories -/

@[simp] theorem Mem.byte_setByte (m : Mem) (a : Nat) (b : Byte) : Mem.byte (Mem.setByte m a b) a = b :=
  spGet_spSet_same zeroByte m a b

theorem Mem.byte_setByte_ne (m : Mem) (a : Nat) (b : Byte) {c : Nat} (h : c ≠ a) :
    Mem.byte (Mem.setByte m a b) c = Mem.byte m c := spGet_spSet_ne zeroByte zeroByte m b h

/-- Bytes outside a written range keep their values. -/
theorem Mem.byte_setBytes_ne (bs : List Byte) (m : Mem) (a c : Nat) (h : c < a ∨ a + bs.length ≤ c) :
    Mem.byte (Mem.setBytes m a bs) c = Mem.byte m c := by
  induction bs generalizing m a with
  | nil => rfl
  | cons b bs ih =>
    simp only [List.length_cons] at h
    rw [Mem.setBytes, ih _ _ (by omega), Mem.byte_setByte_ne _ _ _ (by omega)]

/-- Bytes of a written range read as written. -/
theorem Mem.byte_setBytes (bs : List Byte) (m : Mem) (a i : Nat) (h : i < bs.length) :
    Mem.byte (Mem.setBytes m a bs) (a + i) = bs.getD i 0 := by
  induction bs generalizing m a i with
  | nil => simp at h
  | cons b bs ih =>
    cases i with
    | zero =>
      have := Mem.byte_setBytes_ne bs (Mem.setByte m a b) (a + 1) a (by omega)
      simp [Mem.setBytes, this]
    | succ i =>
      have := ih (Mem.setByte m a b) (a + 1) i (by simpa using h)
      simp only [Mem.setBytes]
      rw [show a + (i + 1) = a + 1 + i by omega, this]
      simp

theorem Mem.byte_spClear (m : Mem) (lo hi a : Nat) :
    Mem.byte (spClear lo hi m) a = if lo ≤ a ∧ a < hi then 0 else Mem.byte m a := spGet_spClear zeroByte lo hi a m

theorem Mem.setByte_wf (m : Mem) (a : Nat) (b : Byte) (h : Mem.wf m = true) : Mem.wf (Mem.setByte m a b) = true :=
  spSet_wf zeroByte m a b h

/-- A write of bytes keeps the canonical form. -/
theorem Mem.setBytes_wf (bs : List Byte) (m : Mem) (a : Nat) (h : Mem.wf m = true) :
    Mem.wf (Mem.setBytes m a bs) = true := by
  induction bs generalizing m a with
  | nil => exact h
  | cons b bs ih => exact ih _ _ (Mem.setByte_wf m a b h)

/-! ### Registers -/

@[simp] theorem Die.regI_setRegI (x : Die) (r : Reg) (is : List Nat) (v : Word) : (x.setRegI r is v).regI r is = v := by
  simp [Die.regI, Die.setRegI]

theorem Die.regI_setRegI_ne (x : Die) (r q : Reg) (is js : List Nat) (v : Word) (h : q.addr js ≠ r.addr is) :
    (x.setRegI r is v).regI q js = x.regI q js := spGet_spSet_ne _ _ _ v h

@[simp] theorem Die.shadowI_setRegI (x : Die) (r q : Reg) (is js : List Nat) (v : Word) :
    (x.setRegI r is v).shadowI q js = x.shadowI q js := rfl

@[simp] theorem Die.shadowI_setShadowI (x : Die) (r : Reg) (is : List Nat) (v : Word) :
    (x.setShadowI r is v).shadowI r is = v := by
  simp [Die.shadowI, Die.setShadowI]

@[simp] theorem Die.regI_setShadowI (x : Die) (r q : Reg) (is js : List Nat) (v : Word) :
    (x.setShadowI r is v).regI q js = x.regI q js := rfl

end Sys2Proof.Machine
end

