-- ==== Sys2Proof/Laws/State.lean ====
section
/-! SUPPORT. Sys2Proof/Laws/State.lean: what each update of the package and each named update of a die leaves as it was:
one lemma per field per update, so that no later proof unfolds a record update. -/
namespace Sys2Proof.Machine

/-! ### The package -/

@[simp] theorem State.setDie_pending (s : State) (d : DieId) (x : Die) : (s.setDie d x).pending = s.pending := by
  cases d <;> rfl

@[simp] theorem State.setDie_tap (s : State) (d : DieId) (x : Die) : (s.setDie d x).tap = s.tap := by
  cases d <;> rfl

@[simp] theorem State.die_setDie (s : State) (d : DieId) (x : Die) : (s.setDie d x).die d = { x with id := d } := by
  cases d <;> rfl

@[simp] theorem State.die_other_setDie (s : State) (d : DieId) (x : Die) :
    (s.setDie d x).die d.other = s.die d.other := by
  cases d <;> rfl

@[simp] theorem State.die_setDie_other (s : State) (d : DieId) (x : Die) :
    (s.setDie d.other x).die d = s.die d := by
  cases d <;> rfl

@[simp] theorem DieId.other_other (d : DieId) : d.other.other = d := by cases d <;> rfl

@[simp] theorem State.onDie_pending (s : State) (d : DieId) (f : Die → Die) : (s.onDie d f).pending = s.pending := by
  simp [State.onDie]

@[simp] theorem State.onDie_tap (s : State) (d : DieId) (f : Die → Die) : (s.onDie d f).tap = s.tap := by
  simp [State.onDie]

@[simp] theorem State.die_onDie (s : State) (d : DieId) (f : Die → Die) :
    (s.onDie d f).die d = { f (s.die d) with id := d } := by
  simp [State.onDie]

@[simp] theorem State.die_other_onDie (s : State) (d : DieId) (f : Die → Die) :
    (s.onDie d f).die d.other = s.die d.other := by
  simp [State.onDie]

@[simp] theorem State.die_onDie_other (s : State) (d : DieId) (f : Die → Die) :
    (s.onDie d.other f).die d = s.die d := by
  simp [State.onDie]

@[simp] theorem State.onBoth_pending (s : State) (f : Die → Die) : (s.onBoth f).pending = s.pending := by
  simp [State.onBoth]

@[simp] theorem State.onBoth_tap (s : State) (f : Die → Die) : (s.onBoth f).tap = s.tap := by
  simp [State.onBoth]

@[simp] theorem State.die_onBoth (s : State) (f : Die → Die) (d : DieId) :
    (s.onBoth f).die d = { f (s.die d) with id := d } := by
  cases d <;> rfl

@[simp] theorem State.setDie_a (s : State) (x : Die) : (s.setDie .a x).a = { x with id := .a } := rfl
@[simp] theorem State.setDie_b (s : State) (x : Die) : (s.setDie .b x).b = { x with id := .b } := rfl
@[simp] theorem State.setDie_a_b (s : State) (x : Die) : (s.setDie .a x).b = s.b := rfl
@[simp] theorem State.setDie_b_a (s : State) (x : Die) : (s.setDie .b x).a = s.a := rfl
@[simp] theorem State.die_a (s : State) : s.die .a = s.a := rfl
@[simp] theorem State.die_b (s : State) : s.die .b = s.b := rfl
@[simp] theorem DieId.other_a : DieId.other .a = .b := rfl
@[simp] theorem DieId.other_b : DieId.other .b = .a := rfl

/-- The dies of a package keep their places under a change of one. -/
theorem State.setDie_ids (s : State) (d : DieId) (x : Die) (ha : s.a.id = .a) (hb : s.b.id = .b) :
    (s.setDie d x).a.id = .a ∧ (s.setDie d x).b.id = .b := by
  cases d <;> simp [State.setDie, ha, hb]

/-! ### Updates of a die: every field but the one that an update writes stays -/

@[simp] theorem Die.id_setRegI (x : Die) (r : Reg) (is : List Nat) (v : Word) : (x.setRegI r is v).id = x.id := rfl
@[simp] theorem Die.dev_setRegI (x : Die) (r : Reg) (is : List Nat) (v : Word) : (x.setRegI r is v).dev = x.dev := rfl
@[simp] theorem Die.time_setRegI (x : Die) (r : Reg) (is : List Nat) (v : Word) : (x.setRegI r is v).time = x.time := rfl
@[simp] theorem Die.shadow_setRegI (x : Die) (r : Reg) (is : List Nat) (v : Word) : (x.setRegI r is v).shadow = x.shadow := rfl
@[simp] theorem Die.cmd_setRegI (x : Die) (r : Reg) (is : List Nat) (v : Word) : (x.setRegI r is v).cmd = x.cmd := rfl
@[simp] theorem Die.press_setRegI (x : Die) (r : Reg) (is : List Nat) (v : Word) : (x.setRegI r is v).press = x.press := rfl
@[simp] theorem Die.pair_setRegI (x : Die) (r : Reg) (is : List Nat) (v : Word) : (x.setRegI r is v).pair = x.pair := rfl
@[simp] theorem Die.dram_setRegI (x : Die) (r : Reg) (is : List Nat) (v : Word) : (x.setRegI r is v).dram = x.dram := rfl
@[simp] theorem Die.xlt_setRegI (x : Die) (r : Reg) (is : List Nat) (v : Word) : (x.setRegI r is v).xlt = x.xlt := rfl
@[simp] theorem Die.flt_setRegI (x : Die) (r : Reg) (is : List Nat) (v : Word) : (x.setRegI r is v).flt = x.flt := rfl
@[simp] theorem Die.jobs_setRegI (x : Die) (r : Reg) (is : List Nat) (v : Word) : (x.setRegI r is v).jobs = x.jobs := rfl
@[simp] theorem Die.sh_setRegI (x : Die) (r : Reg) (is : List Nat) (v : Word) : (x.setRegI r is v).sh = x.sh := rfl
@[simp] theorem Die.cache_setRegI (x : Die) (r : Reg) (is : List Nat) (v : Word) : (x.setRegI r is v).cache = x.cache := rfl
@[simp] theorem Die.passes_setRegI (x : Die) (r : Reg) (is : List Nat) (v : Word) : (x.setRegI r is v).passes = x.passes := rfl
@[simp] theorem Die.pipes_setRegI (x : Die) (r : Reg) (is : List Nat) (v : Word) : (x.setRegI r is v).pipes = x.pipes := rfl
@[simp] theorem Die.torus_setRegI (x : Die) (r : Reg) (is : List Nat) (v : Word) : (x.setRegI r is v).torus = x.torus := rfl
@[simp] theorem Die.wringers_setRegI (x : Die) (r : Reg) (is : List Nat) (v : Word) : (x.setRegI r is v).wringers = x.wringers := rfl
@[simp] theorem Die.arbs_setRegI (x : Die) (r : Reg) (is : List Nat) (v : Word) : (x.setRegI r is v).arbs = x.arbs := rfl
@[simp] theorem Die.sec_setRegI (x : Die) (r : Reg) (is : List Nat) (v : Word) : (x.setRegI r is v).sec = x.sec := rfl
@[simp] theorem Die.io_setRegI (x : Die) (r : Reg) (is : List Nat) (v : Word) : (x.setRegI r is v).io = x.io := rfl
@[simp] theorem Die.power_setRegI (x : Die) (r : Reg) (is : List Nat) (v : Word) : (x.setRegI r is v).power = x.power := rfl
@[simp] theorem Die.saved_setRegI (x : Die) (r : Reg) (is : List Nat) (v : Word) : (x.setRegI r is v).saved = x.saved := rfl
@[simp] theorem Die.free_setRegI (x : Die) (r : Reg) (is : List Nat) (v : Word) : (x.setRegI r is v).free = x.free := rfl

@[simp] theorem Die.id_setReg (x : Die) (r : Reg) (v : Word) : (x.setReg r v).id = x.id := rfl
@[simp] theorem Die.dev_setReg (x : Die) (r : Reg) (v : Word) : (x.setReg r v).dev = x.dev := rfl
@[simp] theorem Die.time_setReg (x : Die) (r : Reg) (v : Word) : (x.setReg r v).time = x.time := rfl
@[simp] theorem Die.shadow_setReg (x : Die) (r : Reg) (v : Word) : (x.setReg r v).shadow = x.shadow := rfl
@[simp] theorem Die.cmd_setReg (x : Die) (r : Reg) (v : Word) : (x.setReg r v).cmd = x.cmd := rfl
@[simp] theorem Die.press_setReg (x : Die) (r : Reg) (v : Word) : (x.setReg r v).press = x.press := rfl
@[simp] theorem Die.pair_setReg (x : Die) (r : Reg) (v : Word) : (x.setReg r v).pair = x.pair := rfl
@[simp] theorem Die.dram_setReg (x : Die) (r : Reg) (v : Word) : (x.setReg r v).dram = x.dram := rfl
@[simp] theorem Die.xlt_setReg (x : Die) (r : Reg) (v : Word) : (x.setReg r v).xlt = x.xlt := rfl
@[simp] theorem Die.flt_setReg (x : Die) (r : Reg) (v : Word) : (x.setReg r v).flt = x.flt := rfl
@[simp] theorem Die.jobs_setReg (x : Die) (r : Reg) (v : Word) : (x.setReg r v).jobs = x.jobs := rfl
@[simp] theorem Die.sh_setReg (x : Die) (r : Reg) (v : Word) : (x.setReg r v).sh = x.sh := rfl
@[simp] theorem Die.cache_setReg (x : Die) (r : Reg) (v : Word) : (x.setReg r v).cache = x.cache := rfl
@[simp] theorem Die.passes_setReg (x : Die) (r : Reg) (v : Word) : (x.setReg r v).passes = x.passes := rfl
@[simp] theorem Die.pipes_setReg (x : Die) (r : Reg) (v : Word) : (x.setReg r v).pipes = x.pipes := rfl
@[simp] theorem Die.torus_setReg (x : Die) (r : Reg) (v : Word) : (x.setReg r v).torus = x.torus := rfl
@[simp] theorem Die.wringers_setReg (x : Die) (r : Reg) (v : Word) : (x.setReg r v).wringers = x.wringers := rfl
@[simp] theorem Die.arbs_setReg (x : Die) (r : Reg) (v : Word) : (x.setReg r v).arbs = x.arbs := rfl
@[simp] theorem Die.sec_setReg (x : Die) (r : Reg) (v : Word) : (x.setReg r v).sec = x.sec := rfl
@[simp] theorem Die.io_setReg (x : Die) (r : Reg) (v : Word) : (x.setReg r v).io = x.io := rfl
@[simp] theorem Die.power_setReg (x : Die) (r : Reg) (v : Word) : (x.setReg r v).power = x.power := rfl
@[simp] theorem Die.saved_setReg (x : Die) (r : Reg) (v : Word) : (x.setReg r v).saved = x.saved := rfl
@[simp] theorem Die.free_setReg (x : Die) (r : Reg) (v : Word) : (x.setReg r v).free = x.free := rfl

@[simp] theorem Die.id_setShadowI (x : Die) (r : Reg) (is : List Nat) (v : Word) : (x.setShadowI r is v).id = x.id := rfl
@[simp] theorem Die.dev_setShadowI (x : Die) (r : Reg) (is : List Nat) (v : Word) : (x.setShadowI r is v).dev = x.dev := rfl
@[simp] theorem Die.time_setShadowI (x : Die) (r : Reg) (is : List Nat) (v : Word) : (x.setShadowI r is v).time = x.time := rfl
@[simp] theorem Die.regs_setShadowI (x : Die) (r : Reg) (is : List Nat) (v : Word) : (x.setShadowI r is v).regs = x.regs := rfl
@[simp] theorem Die.cmd_setShadowI (x : Die) (r : Reg) (is : List Nat) (v : Word) : (x.setShadowI r is v).cmd = x.cmd := rfl
@[simp] theorem Die.press_setShadowI (x : Die) (r : Reg) (is : List Nat) (v : Word) : (x.setShadowI r is v).press = x.press := rfl
@[simp] theorem Die.pair_setShadowI (x : Die) (r : Reg) (is : List Nat) (v : Word) : (x.setShadowI r is v).pair = x.pair := rfl
@[simp] theorem Die.dram_setShadowI (x : Die) (r : Reg) (is : List Nat) (v : Word) : (x.setShadowI r is v).dram = x.dram := rfl
@[simp] theorem Die.xlt_setShadowI (x : Die) (r : Reg) (is : List Nat) (v : Word) : (x.setShadowI r is v).xlt = x.xlt := rfl
@[simp] theorem Die.flt_setShadowI (x : Die) (r : Reg) (is : List Nat) (v : Word) : (x.setShadowI r is v).flt = x.flt := rfl
@[simp] theorem Die.jobs_setShadowI (x : Die) (r : Reg) (is : List Nat) (v : Word) : (x.setShadowI r is v).jobs = x.jobs := rfl
@[simp] theorem Die.sh_setShadowI (x : Die) (r : Reg) (is : List Nat) (v : Word) : (x.setShadowI r is v).sh = x.sh := rfl
@[simp] theorem Die.cache_setShadowI (x : Die) (r : Reg) (is : List Nat) (v : Word) : (x.setShadowI r is v).cache = x.cache := rfl
@[simp] theorem Die.passes_setShadowI (x : Die) (r : Reg) (is : List Nat) (v : Word) : (x.setShadowI r is v).passes = x.passes := rfl
@[simp] theorem Die.pipes_setShadowI (x : Die) (r : Reg) (is : List Nat) (v : Word) : (x.setShadowI r is v).pipes = x.pipes := rfl
@[simp] theorem Die.torus_setShadowI (x : Die) (r : Reg) (is : List Nat) (v : Word) : (x.setShadowI r is v).torus = x.torus := rfl
@[simp] theorem Die.wringers_setShadowI (x : Die) (r : Reg) (is : List Nat) (v : Word) : (x.setShadowI r is v).wringers = x.wringers := rfl
@[simp] theorem Die.arbs_setShadowI (x : Die) (r : Reg) (is : List Nat) (v : Word) : (x.setShadowI r is v).arbs = x.arbs := rfl
@[simp] theorem Die.sec_setShadowI (x : Die) (r : Reg) (is : List Nat) (v : Word) : (x.setShadowI r is v).sec = x.sec := rfl
@[simp] theorem Die.io_setShadowI (x : Die) (r : Reg) (is : List Nat) (v : Word) : (x.setShadowI r is v).io = x.io := rfl
@[simp] theorem Die.power_setShadowI (x : Die) (r : Reg) (is : List Nat) (v : Word) : (x.setShadowI r is v).power = x.power := rfl
@[simp] theorem Die.saved_setShadowI (x : Die) (r : Reg) (is : List Nat) (v : Word) : (x.setShadowI r is v).saved = x.saved := rfl
@[simp] theorem Die.free_setShadowI (x : Die) (r : Reg) (is : List Nat) (v : Word) : (x.setShadowI r is v).free = x.free := rfl

@[simp] theorem Die.id_countI (x : Die) (r : Reg) (is : List Nat) (n : Nat) : (x.countI r is n).id = x.id := rfl
@[simp] theorem Die.dev_countI (x : Die) (r : Reg) (is : List Nat) (n : Nat) : (x.countI r is n).dev = x.dev := rfl
@[simp] theorem Die.time_countI (x : Die) (r : Reg) (is : List Nat) (n : Nat) : (x.countI r is n).time = x.time := rfl
@[simp] theorem Die.shadow_countI (x : Die) (r : Reg) (is : List Nat) (n : Nat) : (x.countI r is n).shadow = x.shadow := rfl
@[simp] theorem Die.cmd_countI (x : Die) (r : Reg) (is : List Nat) (n : Nat) : (x.countI r is n).cmd = x.cmd := rfl
@[simp] theorem Die.press_countI (x : Die) (r : Reg) (is : List Nat) (n : Nat) : (x.countI r is n).press = x.press := rfl
@[simp] theorem Die.pair_countI (x : Die) (r : Reg) (is : List Nat) (n : Nat) : (x.countI r is n).pair = x.pair := rfl
@[simp] theorem Die.dram_countI (x : Die) (r : Reg) (is : List Nat) (n : Nat) : (x.countI r is n).dram = x.dram := rfl
@[simp] theorem Die.xlt_countI (x : Die) (r : Reg) (is : List Nat) (n : Nat) : (x.countI r is n).xlt = x.xlt := rfl
@[simp] theorem Die.flt_countI (x : Die) (r : Reg) (is : List Nat) (n : Nat) : (x.countI r is n).flt = x.flt := rfl
@[simp] theorem Die.jobs_countI (x : Die) (r : Reg) (is : List Nat) (n : Nat) : (x.countI r is n).jobs = x.jobs := rfl
@[simp] theorem Die.sh_countI (x : Die) (r : Reg) (is : List Nat) (n : Nat) : (x.countI r is n).sh = x.sh := rfl
@[simp] theorem Die.cache_countI (x : Die) (r : Reg) (is : List Nat) (n : Nat) : (x.countI r is n).cache = x.cache := rfl
@[simp] theorem Die.passes_countI (x : Die) (r : Reg) (is : List Nat) (n : Nat) : (x.countI r is n).passes = x.passes := rfl
@[simp] theorem Die.pipes_countI (x : Die) (r : Reg) (is : List Nat) (n : Nat) : (x.countI r is n).pipes = x.pipes := rfl
@[simp] theorem Die.torus_countI (x : Die) (r : Reg) (is : List Nat) (n : Nat) : (x.countI r is n).torus = x.torus := rfl
@[simp] theorem Die.wringers_countI (x : Die) (r : Reg) (is : List Nat) (n : Nat) : (x.countI r is n).wringers = x.wringers := rfl
@[simp] theorem Die.arbs_countI (x : Die) (r : Reg) (is : List Nat) (n : Nat) : (x.countI r is n).arbs = x.arbs := rfl
@[simp] theorem Die.sec_countI (x : Die) (r : Reg) (is : List Nat) (n : Nat) : (x.countI r is n).sec = x.sec := rfl
@[simp] theorem Die.io_countI (x : Die) (r : Reg) (is : List Nat) (n : Nat) : (x.countI r is n).io = x.io := rfl
@[simp] theorem Die.power_countI (x : Die) (r : Reg) (is : List Nat) (n : Nat) : (x.countI r is n).power = x.power := rfl
@[simp] theorem Die.saved_countI (x : Die) (r : Reg) (is : List Nat) (n : Nat) : (x.countI r is n).saved = x.saved := rfl
@[simp] theorem Die.free_countI (x : Die) (r : Reg) (is : List Nat) (n : Nat) : (x.countI r is n).free = x.free := rfl

@[simp] theorem Die.id_count (x : Die) (r : Reg) : (x.count r).id = x.id := rfl
@[simp] theorem Die.dev_count (x : Die) (r : Reg) : (x.count r).dev = x.dev := rfl
@[simp] theorem Die.time_count (x : Die) (r : Reg) : (x.count r).time = x.time := rfl
@[simp] theorem Die.shadow_count (x : Die) (r : Reg) : (x.count r).shadow = x.shadow := rfl
@[simp] theorem Die.cmd_count (x : Die) (r : Reg) : (x.count r).cmd = x.cmd := rfl
@[simp] theorem Die.press_count (x : Die) (r : Reg) : (x.count r).press = x.press := rfl
@[simp] theorem Die.pair_count (x : Die) (r : Reg) : (x.count r).pair = x.pair := rfl
@[simp] theorem Die.dram_count (x : Die) (r : Reg) : (x.count r).dram = x.dram := rfl
@[simp] theorem Die.xlt_count (x : Die) (r : Reg) : (x.count r).xlt = x.xlt := rfl
@[simp] theorem Die.flt_count (x : Die) (r : Reg) : (x.count r).flt = x.flt := rfl
@[simp] theorem Die.jobs_count (x : Die) (r : Reg) : (x.count r).jobs = x.jobs := rfl
@[simp] theorem Die.sh_count (x : Die) (r : Reg) : (x.count r).sh = x.sh := rfl
@[simp] theorem Die.cache_count (x : Die) (r : Reg) : (x.count r).cache = x.cache := rfl
@[simp] theorem Die.passes_count (x : Die) (r : Reg) : (x.count r).passes = x.passes := rfl
@[simp] theorem Die.pipes_count (x : Die) (r : Reg) : (x.count r).pipes = x.pipes := rfl
@[simp] theorem Die.torus_count (x : Die) (r : Reg) : (x.count r).torus = x.torus := rfl
@[simp] theorem Die.wringers_count (x : Die) (r : Reg) : (x.count r).wringers = x.wringers := rfl
@[simp] theorem Die.arbs_count (x : Die) (r : Reg) : (x.count r).arbs = x.arbs := rfl
@[simp] theorem Die.sec_count (x : Die) (r : Reg) : (x.count r).sec = x.sec := rfl
@[simp] theorem Die.io_count (x : Die) (r : Reg) : (x.count r).io = x.io := rfl
@[simp] theorem Die.power_count (x : Die) (r : Reg) : (x.count r).power = x.power := rfl
@[simp] theorem Die.saved_count (x : Die) (r : Reg) : (x.count r).saved = x.saved := rfl
@[simp] theorem Die.free_count (x : Die) (r : Reg) : (x.count r).free = x.free := rfl

@[simp] theorem Die.id_countN (x : Die) (r : Reg) (n : Nat) : (x.countN r n).id = x.id := rfl
@[simp] theorem Die.dev_countN (x : Die) (r : Reg) (n : Nat) : (x.countN r n).dev = x.dev := rfl
@[simp] theorem Die.time_countN (x : Die) (r : Reg) (n : Nat) : (x.countN r n).time = x.time := rfl
@[simp] theorem Die.shadow_countN (x : Die) (r : Reg) (n : Nat) : (x.countN r n).shadow = x.shadow := rfl
@[simp] theorem Die.cmd_countN (x : Die) (r : Reg) (n : Nat) : (x.countN r n).cmd = x.cmd := rfl
@[simp] theorem Die.press_countN (x : Die) (r : Reg) (n : Nat) : (x.countN r n).press = x.press := rfl
@[simp] theorem Die.pair_countN (x : Die) (r : Reg) (n : Nat) : (x.countN r n).pair = x.pair := rfl
@[simp] theorem Die.dram_countN (x : Die) (r : Reg) (n : Nat) : (x.countN r n).dram = x.dram := rfl
@[simp] theorem Die.xlt_countN (x : Die) (r : Reg) (n : Nat) : (x.countN r n).xlt = x.xlt := rfl
@[simp] theorem Die.flt_countN (x : Die) (r : Reg) (n : Nat) : (x.countN r n).flt = x.flt := rfl
@[simp] theorem Die.jobs_countN (x : Die) (r : Reg) (n : Nat) : (x.countN r n).jobs = x.jobs := rfl
@[simp] theorem Die.sh_countN (x : Die) (r : Reg) (n : Nat) : (x.countN r n).sh = x.sh := rfl
@[simp] theorem Die.cache_countN (x : Die) (r : Reg) (n : Nat) : (x.countN r n).cache = x.cache := rfl
@[simp] theorem Die.passes_countN (x : Die) (r : Reg) (n : Nat) : (x.countN r n).passes = x.passes := rfl
@[simp] theorem Die.pipes_countN (x : Die) (r : Reg) (n : Nat) : (x.countN r n).pipes = x.pipes := rfl
@[simp] theorem Die.torus_countN (x : Die) (r : Reg) (n : Nat) : (x.countN r n).torus = x.torus := rfl
@[simp] theorem Die.wringers_countN (x : Die) (r : Reg) (n : Nat) : (x.countN r n).wringers = x.wringers := rfl
@[simp] theorem Die.arbs_countN (x : Die) (r : Reg) (n : Nat) : (x.countN r n).arbs = x.arbs := rfl
@[simp] theorem Die.sec_countN (x : Die) (r : Reg) (n : Nat) : (x.countN r n).sec = x.sec := rfl
@[simp] theorem Die.io_countN (x : Die) (r : Reg) (n : Nat) : (x.countN r n).io = x.io := rfl
@[simp] theorem Die.power_countN (x : Die) (r : Reg) (n : Nat) : (x.countN r n).power = x.power := rfl
@[simp] theorem Die.saved_countN (x : Die) (r : Reg) (n : Nat) : (x.countN r n).saved = x.saved := rfl
@[simp] theorem Die.free_countN (x : Die) (r : Reg) (n : Nat) : (x.countN r n).free = x.free := rfl

@[simp] theorem Die.id_flagI (x : Die) (r : Reg) (is : List Nat) (b : Nat) : (x.flagI r is b).id = x.id := rfl
@[simp] theorem Die.dev_flagI (x : Die) (r : Reg) (is : List Nat) (b : Nat) : (x.flagI r is b).dev = x.dev := rfl
@[simp] theorem Die.time_flagI (x : Die) (r : Reg) (is : List Nat) (b : Nat) : (x.flagI r is b).time = x.time := rfl
@[simp] theorem Die.shadow_flagI (x : Die) (r : Reg) (is : List Nat) (b : Nat) : (x.flagI r is b).shadow = x.shadow := rfl
@[simp] theorem Die.cmd_flagI (x : Die) (r : Reg) (is : List Nat) (b : Nat) : (x.flagI r is b).cmd = x.cmd := rfl
@[simp] theorem Die.press_flagI (x : Die) (r : Reg) (is : List Nat) (b : Nat) : (x.flagI r is b).press = x.press := rfl
@[simp] theorem Die.pair_flagI (x : Die) (r : Reg) (is : List Nat) (b : Nat) : (x.flagI r is b).pair = x.pair := rfl
@[simp] theorem Die.dram_flagI (x : Die) (r : Reg) (is : List Nat) (b : Nat) : (x.flagI r is b).dram = x.dram := rfl
@[simp] theorem Die.xlt_flagI (x : Die) (r : Reg) (is : List Nat) (b : Nat) : (x.flagI r is b).xlt = x.xlt := rfl
@[simp] theorem Die.flt_flagI (x : Die) (r : Reg) (is : List Nat) (b : Nat) : (x.flagI r is b).flt = x.flt := rfl
@[simp] theorem Die.jobs_flagI (x : Die) (r : Reg) (is : List Nat) (b : Nat) : (x.flagI r is b).jobs = x.jobs := rfl
@[simp] theorem Die.sh_flagI (x : Die) (r : Reg) (is : List Nat) (b : Nat) : (x.flagI r is b).sh = x.sh := rfl
@[simp] theorem Die.cache_flagI (x : Die) (r : Reg) (is : List Nat) (b : Nat) : (x.flagI r is b).cache = x.cache := rfl
@[simp] theorem Die.passes_flagI (x : Die) (r : Reg) (is : List Nat) (b : Nat) : (x.flagI r is b).passes = x.passes := rfl
@[simp] theorem Die.pipes_flagI (x : Die) (r : Reg) (is : List Nat) (b : Nat) : (x.flagI r is b).pipes = x.pipes := rfl
@[simp] theorem Die.torus_flagI (x : Die) (r : Reg) (is : List Nat) (b : Nat) : (x.flagI r is b).torus = x.torus := rfl
@[simp] theorem Die.wringers_flagI (x : Die) (r : Reg) (is : List Nat) (b : Nat) : (x.flagI r is b).wringers = x.wringers := rfl
@[simp] theorem Die.arbs_flagI (x : Die) (r : Reg) (is : List Nat) (b : Nat) : (x.flagI r is b).arbs = x.arbs := rfl
@[simp] theorem Die.sec_flagI (x : Die) (r : Reg) (is : List Nat) (b : Nat) : (x.flagI r is b).sec = x.sec := rfl
@[simp] theorem Die.io_flagI (x : Die) (r : Reg) (is : List Nat) (b : Nat) : (x.flagI r is b).io = x.io := rfl
@[simp] theorem Die.power_flagI (x : Die) (r : Reg) (is : List Nat) (b : Nat) : (x.flagI r is b).power = x.power := rfl
@[simp] theorem Die.saved_flagI (x : Die) (r : Reg) (is : List Nat) (b : Nat) : (x.flagI r is b).saved = x.saved := rfl
@[simp] theorem Die.free_flagI (x : Die) (r : Reg) (is : List Nat) (b : Nat) : (x.flagI r is b).free = x.free := rfl

@[simp] theorem Die.id_flag (x : Die) (r : Reg) (b : Nat) : (x.flag r b).id = x.id := rfl
@[simp] theorem Die.dev_flag (x : Die) (r : Reg) (b : Nat) : (x.flag r b).dev = x.dev := rfl
@[simp] theorem Die.time_flag (x : Die) (r : Reg) (b : Nat) : (x.flag r b).time = x.time := rfl
@[simp] theorem Die.shadow_flag (x : Die) (r : Reg) (b : Nat) : (x.flag r b).shadow = x.shadow := rfl
@[simp] theorem Die.cmd_flag (x : Die) (r : Reg) (b : Nat) : (x.flag r b).cmd = x.cmd := rfl
@[simp] theorem Die.press_flag (x : Die) (r : Reg) (b : Nat) : (x.flag r b).press = x.press := rfl
@[simp] theorem Die.pair_flag (x : Die) (r : Reg) (b : Nat) : (x.flag r b).pair = x.pair := rfl
@[simp] theorem Die.dram_flag (x : Die) (r : Reg) (b : Nat) : (x.flag r b).dram = x.dram := rfl
@[simp] theorem Die.xlt_flag (x : Die) (r : Reg) (b : Nat) : (x.flag r b).xlt = x.xlt := rfl
@[simp] theorem Die.flt_flag (x : Die) (r : Reg) (b : Nat) : (x.flag r b).flt = x.flt := rfl
@[simp] theorem Die.jobs_flag (x : Die) (r : Reg) (b : Nat) : (x.flag r b).jobs = x.jobs := rfl
@[simp] theorem Die.sh_flag (x : Die) (r : Reg) (b : Nat) : (x.flag r b).sh = x.sh := rfl
@[simp] theorem Die.cache_flag (x : Die) (r : Reg) (b : Nat) : (x.flag r b).cache = x.cache := rfl
@[simp] theorem Die.passes_flag (x : Die) (r : Reg) (b : Nat) : (x.flag r b).passes = x.passes := rfl
@[simp] theorem Die.pipes_flag (x : Die) (r : Reg) (b : Nat) : (x.flag r b).pipes = x.pipes := rfl
@[simp] theorem Die.torus_flag (x : Die) (r : Reg) (b : Nat) : (x.flag r b).torus = x.torus := rfl
@[simp] theorem Die.wringers_flag (x : Die) (r : Reg) (b : Nat) : (x.flag r b).wringers = x.wringers := rfl
@[simp] theorem Die.arbs_flag (x : Die) (r : Reg) (b : Nat) : (x.flag r b).arbs = x.arbs := rfl
@[simp] theorem Die.sec_flag (x : Die) (r : Reg) (b : Nat) : (x.flag r b).sec = x.sec := rfl
@[simp] theorem Die.io_flag (x : Die) (r : Reg) (b : Nat) : (x.flag r b).io = x.io := rfl
@[simp] theorem Die.power_flag (x : Die) (r : Reg) (b : Nat) : (x.flag r b).power = x.power := rfl
@[simp] theorem Die.saved_flag (x : Die) (r : Reg) (b : Nat) : (x.flag r b).saved = x.saved := rfl
@[simp] theorem Die.free_flag (x : Die) (r : Reg) (b : Nat) : (x.flag r b).free = x.free := rfl

@[simp] theorem Die.id_tick (x : Die) : x.tick.id = x.id := rfl
@[simp] theorem Die.dev_tick (x : Die) : x.tick.dev = x.dev := rfl
@[simp] theorem Die.time_tick (x : Die) : x.tick.time = x.time := rfl
@[simp] theorem Die.regs_tick (x : Die) : x.tick.regs = x.regs := rfl
@[simp] theorem Die.shadow_tick (x : Die) : x.tick.shadow = x.shadow := rfl
@[simp] theorem Die.cmd_tick (x : Die) : x.tick.cmd = x.cmd := rfl
@[simp] theorem Die.press_tick (x : Die) : x.tick.press = x.press := rfl
@[simp] theorem Die.pair_tick (x : Die) : x.tick.pair = x.pair := rfl
@[simp] theorem Die.dram_tick (x : Die) : x.tick.dram = x.dram := rfl
@[simp] theorem Die.xlt_tick (x : Die) : x.tick.xlt = x.xlt := rfl
@[simp] theorem Die.flt_tick (x : Die) : x.tick.flt = x.flt := rfl
@[simp] theorem Die.jobs_tick (x : Die) : x.tick.jobs = x.jobs := rfl
@[simp] theorem Die.sh_tick (x : Die) : x.tick.sh = x.sh := rfl
@[simp] theorem Die.cache_tick (x : Die) : x.tick.cache = x.cache := rfl
@[simp] theorem Die.passes_tick (x : Die) : x.tick.passes = x.passes := rfl
@[simp] theorem Die.pipes_tick (x : Die) : x.tick.pipes = x.pipes := rfl
@[simp] theorem Die.torus_tick (x : Die) : x.tick.torus = x.torus := rfl
@[simp] theorem Die.wringers_tick (x : Die) : x.tick.wringers = x.wringers := rfl
@[simp] theorem Die.arbs_tick (x : Die) : x.tick.arbs = x.arbs := rfl
@[simp] theorem Die.sec_tick (x : Die) : x.tick.sec = x.sec := rfl
@[simp] theorem Die.io_tick (x : Die) : x.tick.io = x.io := rfl
@[simp] theorem Die.power_tick (x : Die) : x.tick.power = x.power := rfl
@[simp] theorem Die.saved_tick (x : Die) : x.tick.saved = x.saved := rfl

@[simp] theorem Die.id_updCtx (x : Die) (c : Nat) (f : Ctx → Ctx) : (x.updCtx c f).id = x.id := rfl
@[simp] theorem Die.dev_updCtx (x : Die) (c : Nat) (f : Ctx → Ctx) : (x.updCtx c f).dev = x.dev := rfl
@[simp] theorem Die.time_updCtx (x : Die) (c : Nat) (f : Ctx → Ctx) : (x.updCtx c f).time = x.time := rfl
@[simp] theorem Die.regs_updCtx (x : Die) (c : Nat) (f : Ctx → Ctx) : (x.updCtx c f).regs = x.regs := rfl
@[simp] theorem Die.shadow_updCtx (x : Die) (c : Nat) (f : Ctx → Ctx) : (x.updCtx c f).shadow = x.shadow := rfl
@[simp] theorem Die.press_updCtx (x : Die) (c : Nat) (f : Ctx → Ctx) : (x.updCtx c f).press = x.press := rfl
@[simp] theorem Die.pair_updCtx (x : Die) (c : Nat) (f : Ctx → Ctx) : (x.updCtx c f).pair = x.pair := rfl
@[simp] theorem Die.dram_updCtx (x : Die) (c : Nat) (f : Ctx → Ctx) : (x.updCtx c f).dram = x.dram := rfl
@[simp] theorem Die.xlt_updCtx (x : Die) (c : Nat) (f : Ctx → Ctx) : (x.updCtx c f).xlt = x.xlt := rfl
@[simp] theorem Die.flt_updCtx (x : Die) (c : Nat) (f : Ctx → Ctx) : (x.updCtx c f).flt = x.flt := rfl
@[simp] theorem Die.jobs_updCtx (x : Die) (c : Nat) (f : Ctx → Ctx) : (x.updCtx c f).jobs = x.jobs := rfl
@[simp] theorem Die.sh_updCtx (x : Die) (c : Nat) (f : Ctx → Ctx) : (x.updCtx c f).sh = x.sh := rfl
@[simp] theorem Die.cache_updCtx (x : Die) (c : Nat) (f : Ctx → Ctx) : (x.updCtx c f).cache = x.cache := rfl
@[simp] theorem Die.passes_updCtx (x : Die) (c : Nat) (f : Ctx → Ctx) : (x.updCtx c f).passes = x.passes := rfl
@[simp] theorem Die.pipes_updCtx (x : Die) (c : Nat) (f : Ctx → Ctx) : (x.updCtx c f).pipes = x.pipes := rfl
@[simp] theorem Die.torus_updCtx (x : Die) (c : Nat) (f : Ctx → Ctx) : (x.updCtx c f).torus = x.torus := rfl
@[simp] theorem Die.wringers_updCtx (x : Die) (c : Nat) (f : Ctx → Ctx) : (x.updCtx c f).wringers = x.wringers := rfl
@[simp] theorem Die.arbs_updCtx (x : Die) (c : Nat) (f : Ctx → Ctx) : (x.updCtx c f).arbs = x.arbs := rfl
@[simp] theorem Die.sec_updCtx (x : Die) (c : Nat) (f : Ctx → Ctx) : (x.updCtx c f).sec = x.sec := rfl
@[simp] theorem Die.io_updCtx (x : Die) (c : Nat) (f : Ctx → Ctx) : (x.updCtx c f).io = x.io := rfl
@[simp] theorem Die.power_updCtx (x : Die) (c : Nat) (f : Ctx → Ctx) : (x.updCtx c f).power = x.power := rfl
@[simp] theorem Die.saved_updCtx (x : Die) (c : Nat) (f : Ctx → Ctx) : (x.updCtx c f).saved = x.saved := rfl
@[simp] theorem Die.free_updCtx (x : Die) (c : Nat) (f : Ctx → Ctx) : (x.updCtx c f).free = x.free := rfl

end Sys2Proof.Machine
end

