-- ==== Sys2Proof/Laws/Commands.lean ====
section
/-! SUPPORT. Sys2Proof/Laws/Commands.lean: what the shared operations of the command rows do: a step, the command whose turn it
is, work that follows a unit, and the words that a read answers. -/
namespace Sys2Proof.Machine

/-- Everything a step can do: it idles on an empty queue, or takes the command in front. -/
theorem step_cases (s : State) : (s.pending = [] ∧ step s = .next s.idle) ∨
    (∃ c rest, s.pending = c :: rest ∧ step s = exec c { s with pending := rest }) := by
  unfold step
  cases h : s.pending with
  | nil => exact .inl ⟨rfl, rfl⟩
  | cons c rest => exact .inr ⟨c, rest, rfl, rfl⟩

/-- The command whose turn it is runs. -/
theorem runHead_turn {s : State} {d : DieId} {ctx : Nat} {op : Op} {c : PendCmd} (h : turn s d ctx op c = true)
    (act : PendCmd → State → State) : runHead d ctx op act s = act c s := by
  simp only [turn, Bool.and_eq_true, decide_eq_true_eq, Bool.not_eq_true'] at h
  obtain ⟨⟨⟨⟨⟨⟨h1, h2⟩, h3⟩, h4⟩, h5⟩, h6⟩, h7⟩ := h
  simp [runHead, h1, h2, h3, h4, h5, h6, h7]

theorem cfgReadWords_length (p x : Die) (a n : Nat) : (cfgReadWords p x a n).2.length = n := by
  unfold cfgReadWords
  suffices ∀ (l : List Nat) (r : Die × List Word), (l.foldl (fun (r : Die × List Word) i =>
    let (y, w) := cfgReadWord p r.1 (a + 4 * i)
    (y, r.2 ++ [w])) r).2.length = r.2.length + l.length by simpa using this (List.range n) (x, [])
  intro l
  induction l with
  | nil => simp
  | cons i l ih => intro r; simp [ih]; omega

@[simp] theorem thenOk_true {α : Type} (x : α) (f : α → α) : thenOk (x, true) f = f x := rfl
@[simp] theorem thenOk_false {α : Type} (x : α) (f : α → α) : thenOk (x, false) f = x := rfl

/-- A register reads what the words of its die say, whatever else changes. -/
theorem Die.regI_of_regs {x y : Die} (h : x.regs = y.regs) (r : Reg) (is : List Nat) : x.regI r is = y.regI r is := by
  simp only [Die.regI, h]

/-- A change of a die by a row that changes one die. -/
theorem nextOn_eq (d : DieId) (f : Die → Die) (s : State) : nextOn d f s = .next (s.onDie d f) := rfl

end Sys2Proof.Machine
end

