-- ==== Sys2Proof/Laws/Groups.lean ====
section
/-! SUPPORT. Sys2Proof/Laws/Groups.lean: what the frame around every shader instruction does, once for all of them. -/
namespace Sys2Proof.Machine

/-- An instruction that may run on a ready group: its effect acts on the die at issue and on the group, whose wait counter
is clear. -/
theorem onGroup_runs (s : State) (d : DieId) (g : GrpLoc) (cls op : Nat) (port : Port) (w : InstrBits) (plan : Group → Plan)
    (act : Die → Group → Die) (t : Group) (h : groupReady s d g port t = true) (hp : planRuns t w (plan t) = true) :
    onGroup d g cls op port w plan act s = .next (s.setDie d (act (atIssue s d port t) { t with wait := 0 })) := by
  simp only [groupReady, Bool.and_eq_true, decide_eq_true_eq, Bool.not_eq_true'] at h
  obtain ⟨⟨⟨h1, h2⟩, h3⟩, h4⟩ := h
  simp only [planRuns, Bool.and_eq_true, Bool.not_eq_true'] at hp
  obtain ⟨⟨⟨⟨p1, p2⟩, p3⟩, p4⟩, p5⟩ := hp
  have h5 : fetchCheck (s.die d.other) (s.die d) t = (fetched s d t, true) := by
    rw [← h4]; rfl
  simp only [onGroup, nextOn, State.onDie, issueDie, h1, h2, h3, h5, p1, p2, p3, p4, p5, Bool.not_true, Bool.or_self,
    Bool.false_eq_true, if_false, atIssue]

/-- An instruction that may not run on a ready group freezes it: BAD_INSTRUCTION for its encoding, REG_RANGE for a register
that the group does not have. -/
theorem onGroup_stops (s : State) (d : DieId) (g : GrpLoc) (cls op : Nat) (port : Port) (w : InstrBits) (plan : Group → Plan)
    (act : Die → Group → Die) (t : Group) (h : groupReady s d g port t = true) (hb : t.busy (plan t) = false)
    (hw : (plan t).wait = false) :
    ((plan t).bad = true ∨ predLegal w = false → onGroup d g cls op port w plan act s =
      .next (s.setDie d (trapGroup (fetched s d t) t clsBadInstruction 0 (instrWord cls op w)))) ∧
    ((plan t).bad = false → predLegal w = true → (plan t).inRange t = false → onGroup d g cls op port w plan act s =
      .next (s.setDie d (trapGroup (fetched s d t) t clsRegRange 0 (instrWord cls op w)))) := by
  simp only [groupReady, Bool.and_eq_true, decide_eq_true_eq, Bool.not_eq_true'] at h
  obtain ⟨⟨⟨h1, h2⟩, h3⟩, h4⟩ := h
  have h5 : fetchCheck (s.die d.other) (s.die d) t = (fetched s d t, true) := by
    rw [← h4]; rfl
  constructor
  · intro p
    have : ((plan t).bad || !predLegal w) = true := by rcases p with p | p <;> simp [p]
    simp only [onGroup, nextOn, State.onDie, issueDie, h1, h2, h3, h5, hb, hw, this, Bool.not_true, Bool.or_self,
      Bool.false_eq_true, if_false, if_true]
  · intro p1 p2 p3
    simp only [onGroup, nextOn, State.onDie, issueDie, h1, h2, h3, h5, hb, hw, p1, p2, p3, Bool.not_true, Bool.or_self,
      Bool.false_eq_true, if_false, if_true, Bool.not_false]

/-! ### Writes to a group leave its wait counter alone, and do not read it -/

theorem Group.putLanes_wait (t : Group) (n : Nat) (m : BitVec 64) (r : Nat) (f : Nat → Word) :
    ({ t with wait := n } : Group).putLanes m r f = { t.putLanes m r f with wait := n } := rfl

theorem Group.putPair_wait (t : Group) (n : Nat) (m : BitVec 64) (r : Nat) (f : Nat → Nat) :
    ({ t with wait := n } : Group).putPair m r f = { t.putPair m r f with wait := n } := rfl

theorem Group.putPred_wait (t : Group) (n : Nat) (m : BitVec 64) (k : Nat) (f : Nat → Bool) :
    ({ t with wait := n } : Group).putPred m k f = { t.putPred m k f with wait := n } := by
  simp only [Group.putPred]; split <;> rfl

end Sys2Proof.Machine
end

