-- ==== Sys2Proof/Tests/Slice0.lean ====
section
/-! SUPPORT. Sys2Proof/Tests/Slice0.lean: small states; for every statement with hypotheses a witness `wit_<statement>` that
meets them, clause by clause; an ill-formed command for each check of WellFormed; and a few steps whose results the spec gives. -/
namespace Sys2Proof.Tests
open Sys2Proof.Machine

set_option maxRecDepth 100000
set_option synthInstance.maxHeartbeats 400000
set_option synthInstance.maxSize 4096
set_option linter.unusedVariables false

/-! ### Small states -/

/-- A die that is READY: its clock, memory, bridge and USB port work, in life cycle 3. -/
def rdy (d : DieId) : Die :=
  let x := Die.reset d { Fuses.blank with lc := 3 } [] 1
  let p : Power := { x.power with pllLock := true, refOk := true, inReset := false, sramDone := true, healthy := true }
  let m : Dram := { x.dram with trained := true, wiped := true, ranks := 2, fittedGib := 96 }
  let u : Usb := { x.io.usb with connected := true, speed := .gen2x2 }
  { x with dev := .ready, power := p, pair := { x.pair with bridgeUp := true }, dram := m, io.usb := u, sec.bootDone := true }

/-- Both dies READY, with an empty queue. -/
def st : State := { a := rdy .a, b := rdy .b, tap := { ir := 1, sel := .a, out := [] }, pending := [] }

/-- `st` with die A changed. -/
def onA (f : Die → Die) : State := st.onDie .a f

/-- The command answers a next state of which the test holds. -/
def isNext (o : Out) (p : State → Bool) : Bool :=
  match o with
  | .next t => p t
  | .fault _ => false
  | .refused _ => false

/-- A command packet (R59). -/
def pk (op ctx seq : Nat) (ps : List Byte) : List Byte :=
  withCrc (leBytes 2 (16 + ps.length) ++ leBytes 2 op ++ leBytes 2 ctx ++ leBytes 2 7 ++ leBytes 4 seq ++ ps)

/-- A command that waits in the pool. -/
def pc (ctx : Nat) (pkt : List Byte) : PendCmd := { ctx := ctx, pkt := pkt, phase := .waiting, closed := false, repeats := 0 }

/-- A die whose pool holds one command. -/
def pool (c : PendCmd) (x : Die) : Die := { x with cmd.pool := [c] }

/-- Context `n`, open in VM 0 with no stage-1 table. -/
def cx (n : Nat) : Ctx :=
  { num := n, state := .opened, attr := 0, vmid := 0, s1root := 0, timeout := 0, stream := Stream.reset, faultCnt := 0 }

/-- An ACTIVE die with context 1 open. -/
def act (x : Die) : Die := { x with dev := .active, cmd.ctxs := [cx 1] }

/-- `act` with granule 0 live for context 1, readable and writable. -/
def mem1 (x : Die) : Die := { act x with xlt.own := [(0, ownMake 1 0 true true 1)] }

/-- The command of a context with an opcode and parameters. -/
def cm (ctx op : Nat) (ps : List Byte) : PendCmd := pc ctx (pk op ctx 1 ps)

/-- `st` with die A changed and one command in its pool. -/
def wait (f : Die → Die) (ctx op : Nat) (ps : List Byte) : State := onA fun x => pool (cm ctx op ps) (f x)

/-- It is the turn of the command. -/
def tn (f : Die → Die) (ctx : Nat) (o : Op) (op : Nat) (ps : List Byte) : Bool :=
  turn (wait f ctx op ps) .a ctx o (cm ctx op ps)

/-- The command answers exactly this next state. -/
def nx (c : Instr) (s t : State) : Bool := isNext (exec c s) fun u => decide (u = t)

/-- `st` with both dies changed. -/
def onAB (f g : Die → Die) : State := (onA f).onDie .b g

/-! ### Witnesses: states that meet the hypotheses of the statements -/

/-! ### Witnesses: states and operands that meet each statement's hypotheses -/

theorem wit_AStepTakesOneCommandOrIdles : st.pending = [] ∧ isNext (step st) (fun t => decide (t.a.time = 400)) = true ∧
    (st.die .a).running = true ∧ (State.reset.die .a).running = false := by decide

theorem wit_StepKeepsTheBlockInvariant : (∀ c ∈ st.pending, c.wellFormed = true) ∧ st.tap.ir ∈ tapCodes ∧ st.a.id = .a ∧
    st.b.id = .b ∧ isNext (step st) (fun _ => true) = true := by decide

theorem wit_EndpointsAnswerTokensAndLoseTheLink :
    let full := onA fun x => { x with cmd.fifo := List.replicate 256 [] }
    let room := onA fun x => { x with cmd.fifo := List.replicate 255 [], cmd.replies := [[1], [2]] }
    let c : PendCmd := { pc 1 (pk 0x22 1 1 []) with phase := .transfer 2 }
    let tr : Xfer := { kind := .writeMem, ctx := 1, va := 0, len := 1024, moved := 512, last := 0, buf := [], frozen := none, heldAt := 0 }
    let busy := onA fun x => { pool c (act x) with cmd.xfers := vmod x.cmd.xfers 2 fun _ => some tr, cmd.replies := [[1]] }
    (room.die .a).usbLive = true ∧ (room.die .a).cmd.fifo.length < 256 ∧ 256 ≤ (full.die .a).cmd.fifo.length ∧
    (full.die .a).usbLive = true ∧ (full.die .a).cmd.replies = [] ∧ (room.die .a).cmd.replies = [1] :: [[2]] ∧
    (st.die .a).io.usb.connected = true ∧ (∀ ch : Fin 4, (st.die .a).cmd.xfers[ch] = none) ∧
    (busy.die .a).io.usb.connected = true ∧ (busy.die .a).cmd.xfers[(2 : Fin 4)] = some tr ∧
    (∀ k : Fin 4, k ≠ 2 → (busy.die .a).cmd.xfers[k] = none) ∧ (busy.die .a).xferCmd 2 = some c ∧ c.closed = false ∧
    ((busy.die .a).cmd.pool.find? (isPend c)).map (fun q => q.repeats) = some 0
    := by decide

theorem wit_TakingAPacketValidatesItAndAnswers :
    let k := pk 1 0 1 []
    let s := onA fun x => { x with cmd.fifo := [k, k] }
    let bad := onA fun x => { x with cmd.fifo := [k.take 12] }
    let more := onA fun x => { x with cmd.fifo := [k], cmd.pool := List.replicate 255 (pc 0 k) }
    let free := pk 1 0 0 []
    let ping := onA fun x => { x with cmd.fifo := [free] }
    let h : Option (List Byte) → HistEnt := fun r => { seq := 1, reply := r }
    let rep := fun (r : Option (List Byte)) => onA fun x => { x with cmd.fifo := [k], cmd.stream0 := { expected := 2, hist := [h r] } }
    (s.die .a).cmd.fifo = k :: [k] ∧ (s.die .a).cmdOn = true ∧ (s.die .a).replyLevel < 512 ∧ (s.die .a).cmd.pool.length < 256 ∧
    validate (s.die .b) (s.die .a) k = .pass .ping true ∧
    validate (bad.die .b) (bad.die .a) (k.take 12) = .reject stBadLength false 0 [] ∧
    (more.die .a).replyLevel < 512 ∧ (more.die .a).cmd.pool.length < 256 ∧
    validate ((rep none).die .b) ((rep none).die .a) k = .again (h none) ∧
    validate ((rep (some [3])).die .b) ((rep (some [3])).die .a) k = .again (h (some [3])) ∧
    validate (ping.die .b) (ping.die .a) free = .pass .ping false ∧ pktContext free = 0 ∧ pktSeq free = 0 ∧
    (ping.die .a).cmd.pool.length < 256 ∧ (pc 0 k).closed = false ∧ pktSeq (pc 0 k).pkt ≠ 0 ∧ (pc 0 k).ctx = 0
    := by decide

theorem wit_ReadsConfigurationAndPressesAnswer :
    let cfg := leBytes 4 0x10000 ++ leBytes 4 1
    let wr := leBytes 4 0x10000 ++ leBytes 4 1 ++ leBytes 4 0
    let s := wait id 0 4 wr
    let bad := leBytes 4 0x30000 ++ leBytes 4 1 ++ leBytes 4 0xFFFFFFFF
    let pw := leBytes 4 0x300 ++ leBytes 4 1 ++ leBytes 4 0
    let degr := wait (fun x => { x with pair.degraded := true }) 0 4 pw
    let wr2 := leBytes 4 0x500000 ++ leBytes 4 1 ++ leBytes 4 0
    let pipes : Die → Die := fun x => { x.setReg .cmdPairCfg 0x101 with pair.mode := 1 }
    let bPipe := onAB pipes fun x => pool (cm 0 4 wr2) (pipes x)
    let lone : Die → Die := fun x => { x.setShadowI .cmdPairCfg [] 1 with press.dirty := 1 <<< 43, pair.bridgeUp := false }
    tn id 0 .ping 1 [] = true ∧ tn id 0 .getStatus 2 [] = true ∧ tn id 0 .cfgRead 3 cfg = true ∧
    tn id 0 .faultRead 6 (leBytes 4 14) = true ∧ tn id 0 .cfgWrite 4 wr = true ∧
    holdsPairedPipe (s.die .a) 0x10000 1 = false ∧ (holdsPairCfg 0x10000 1 && (s.die .a).pairCfgRefused) = false ∧
    cfgBadWord (s.die .a) 0x10000 (cfgData (cm 0 4 wr).pkt) = none ∧
    tn id 0 .cfgWrite 4 bad = true ∧ cfgBadWord (st.die .a) 0x30000 (cfgData (cm 0 4 bad).pkt) = some 0 ∧
    tn (fun x => { x with pair.degraded := true }) 0 .cfgWrite 4 pw = true ∧
    (holdsPairCfg 0x300 1 && (degr.die .a).pairCfgRefused) = true ∧ holdsPairedPipe (degr.die .a) 0x300 1 = false ∧
    turn bPipe .b 0 .cfgWrite (cm 0 4 wr2) = true ∧ holdsPairedPipe (bPipe.die .b) 0x500000 1 = true ∧
    tn lone 0 .press 5 [] = true ∧ pairPressRefused (st.die .b) (lone (st.die .a)) = some 0x19 ∧
    tn (fun x => { x with press.behind := 1 }) 0 .press 5 [] = true ∧ tn id 0 .press 5 [] = true ∧
    pairPressRefused (st.die .b) (st.die .a) = none
    := by decide

theorem wit_AnIllegalCommandHasNoEffect :
    let sub := leBytes 8 256
    let opn := [1, 0, 0, 0] ++ leBytes 12 0
    let f : Die → Die := fun x => { x with dev := .safe }
    let s := wait (fun x => f (act x)) 1 0x24 sub
    let t := wait f 0 8 opn
    (s.die .a).cmdOn = true ∧ (s.die .a).headCmd 1 = some (cm 1 0x24 sub) ∧ opOf (pktOp (cm 1 0x24 sub).pkt) = some .submit ∧
    opLegal (s.die .b) (s.die .a) .submit (cm 1 0x24 sub).pkt = false ∧ (t.die .a).headCmd 0 = some (cm 0 8 opn) ∧
    (t.die .a).cmdOn = true ∧ opOf (pktOp (cm 0 8 opn).pkt) = some .openContext ∧
    opLegal (t.die .b) (t.die .a) .openContext (cm 0 8 opn).pkt = false
    := by decide

theorem wit_ContextAndGranuleCommands :
    let opn := [1, 0, 0, 0] ++ leBytes 12 0
    let c1 : List Byte := [1, 0, 0, 0]
    let sus : Die → Die := fun x => (act x).updCtx 1 fun t => { t with state := .suspended }
    let grant := leBytes 4 3 ++ leBytes 4 2 ++ leBytes 2 1 ++ leBytes 2 12
    let own : Die → Die := fun x => { act x with xlt.own := [(3, ownMake 1 0 true true 1)] }
    let poisoned : Die → Die := fun x => { act x with xlt.own := [(3, ownMake 1 0 true true 2)] }
    let both : Die → Die := fun x => { x with pair.mode := 1 }
    let pr := [1, 0, 0, 1] ++ leBytes 12 0
    let c2 : List Byte := [2, 0, 0, 0]
    tn id 0 .openContext 8 opn = true ∧ (st.die .a).ctx? 1 = none ∧ tn act 0 .openContext 8 opn = true ∧
    ((act (st.die .a)).ctx? 1).isSome = true ∧ tn act 0 .closeContext 9 c1 = true ∧ tn id 0 .closeContext 9 c1 = true ∧
    tn act 0 .suspendContext 0x0A c1 = true ∧ (act (st.die .a)).runningJobs 1 = [] ∧
    tn sus 0 .resumeContext 0x0B c1 = true ∧ ((sus (st.die .a)).ctx? 1).isSome = true ∧
    tn act 0 .grantGranules 0x0C grant = true ∧ (match grantDie (cm 0 0x0C grant).pkt (act (st.die .a)) with
      | .ok _ => true | .error _ => false) = true ∧
    (match grantDie (cm 0 0x0C grant).pkt (st.die .a) with | .ok _ => false | .error i => i == 2) = true ∧
    tn own 0 .reclaimGranules 0x0D (grant.take 8) = true ∧ ownState ((own (st.die .a)).ownEntry 3) ≠ 0 ∧
    (match reclaimDie (cm 0 0x0D (grant.take 8)).pkt (own (st.die .a)) with | .ok _ => true | .error _ => false) = true ∧
    tn act 0 .grantGranules 0x0C (leBytes 4 3 ++ leBytes 4 0 ++ leBytes 2 1 ++ leBytes 2 12) = true ∧
    grantable (ownPerformed .a (wait act 0 0x0C grant)) 1 3 = true ∧ grantable (ownPerformed .a (wait act 0 0x0C grant)) 1 524287 = false ∧
    tn own 0 .reclaimGranules 0x0D (leBytes 4 524287 ++ leBytes 4 2) = true ∧
    ownState ((poisoned (st.die .a)).ownEntry 3) = 2 ∧ tn poisoned 0 .reclaimGranules 0x0D (grant.take 8) = true ∧
    tn both 0 .openContext 8 pr = true ∧ (both (st.die .a)).ctx? 1 = none ∧
    tn act 0 .suspendContext 0x0A c2 = true ∧ tn act 0 .resumeContext 0x0B c2 = true ∧ (act (st.die .a)).ctx? 2 = none ∧
    tn id 0 .vmConfig 0x0E ([5, 0, 0, 0] ++ leBytes 8 4096) = true
    := by decide

theorem wit_HoldFailoverAndReset :
    let sb : Die → Die := fun x => { x with pair.mode := 2, pair.role := .standby, pair.mirrorSync := true }
    let pr : Die → Die := fun x => { x with pair.mode := 2, pair.role := .primary, pair.mirrorSync := true }
    let h : Die → Die := fun x => { x with dev := .hold }
    tn id 0 .holdEnter 0x10 [] = true ∧ tn h 0 .holdExit 0x11 [] = true ∧ tn sb 0 .failover 0x12 [] = true ∧
    (sb (st.die .a)).pair.role = .standby ∧ (sb (st.die .a)).pair.mirrorSync = true ∧
    tn id 0 .resetDevice 0x13 (leBytes 4 1) = true ∧ (sb (st.die .a)).pair.lost = false ∧
    tn pr 0 .failover 0x12 [] = true ∧ (pr (st.die .a)).pair.role = .primary
    := by decide

/-- A transfer of channel 0 on die A. -/
def xfer (k : XferKind) (len moved : Nat) : Xfer :=
  { kind := k, ctx := 1, va := 0, len := len, moved := moved, last := 0, buf := [], frozen := none, heldAt := 0 }

def withX (t : Xfer) (x : Die) : Die := { mem1 x with cmd.xfers := vmod x.cmd.xfers 0 fun _ => some t }

theorem wit_DataCommandsAndPackets :
    let mem := leBytes 8 4 ++ leBytes 4 8 ++ [0, 0, 0, 0]
    let rom : Die → Die := fun x => { x with dev := .rom }
    let f : Die → Die := withX (xfer .writeMem 8 0)
    let r : Die → Die := withX (xfer .readMem 8 0)
    let old : Die → Die := fun x => { f x with time := BitVec.ofNat 64 (100 * x.fld .cmdDataCfg [] 15 0 * 400) }
    let w : PendCmd := { cm 1 0x20 mem with phase := .transfer 0 }
    let timed : Die → Die := fun x => pool w (old x)
    tn act 1 .writeMem 0x20 mem = true ∧ tn act 1 .readMem 0x21 mem = true ∧ (act (st.die .a)).cmd.xfers[(0 : Fin 4)] = none ∧
    tn f 1 .readMem 0x21 mem = true ∧ tn (fun x => { f x with dev := .ready, cmd.ctxs := [] }) 0 .lcTransition 0x16 [1, 0, 0, 0] = true ∧ tn f 0 .attest 0x14 (leBytes 68 0) = true ∧
    tn (fun x => { f x with dev := .rom }) 0 .romLoad 0x1E (leBytes 4 0 ++ leBytes 4 8196) = true ∧
    ((act (st.die .a)).ctx? 1).isSome = true ∧
    tn f 1 .writeMem 0x20 mem = true ∧ ((f (st.die .a)).cmd.xfers[(0 : Fin 4)]).isSome = true ∧
    tn id 0 .lcTransition 0x16 [1, 0, 0, 0] = true ∧ tn rom 0 .romLoad 0x1E (leBytes 4 0 ++ leBytes 4 8196) = true ∧
    tn id 0 .attest 0x14 (leBytes 68 0) = true ∧
    tn act 0 .loadImage 0x15 ([1, 0, 0, 0] ++ leBytes 32 0) = true ∧ freeEntry (act (st.die .a)) = some 0 ∧
    (st.die .a).usbLive = true ∧ (st.die .a).running = true ∧ 8 ≤ (st.die .a).usbMax ∧
    (withX (xfer .lcAuth 2048 0) (st.die .a)).usbMax = 1024 ∧
    (writeUnit (st.die .b) (f (st.die .a)) (.usb 0) 1 0 [1, 2, 3, 4, 5, 6, 7, 8] accWrite).2 = true ∧
    (readUnit (st.die .b) (r (st.die .a)) (.usb 0) 1 0 8 accRead).2.isSome = true ∧ (old (st.die .a)).cmdOn = true ∧
    (old (st.die .a)).xferCmd 0 = none ∧ (timed (st.die .a)).xferCmd 0 = some w ∧ (timed (st.die .a)).cmdOn = true ∧
    (withX (xfer .attest 8 0) (st.die .a)).usbMax = 1024 ∧
    100 * (old (st.die .a)).fld .cmdDataCfg [] 15 0 * 400 ≤ ((old (st.die .a)).time - 0).toNat
    := by decide

/-- A job of context 1 in slot 0. -/
def jb (st : JobState) (desc : List Byte) : Job :=
  { mkJob 0 4096 1 1 0 desc false with state := st, lastChk := 0 }

theorem wit_JobCommands :
    let sub := leBytes 8 256
    let full : Die → Die := fun x => { mem1 x with jobs.list := (List.range 4096).map fun i => { jb .waiting [] with slot := i } }
    let busy : Die → Die := fun x => { mem1 x with jobs.list := [jb .waiting (leBytes 256 0)] }
    let good := putField (putField (putField (putField (leBytes 256 2) 0x10 [4]) 0x6C [2]) 0x70 [1]) 0x28 [8]
    tn mem1 1 .submit 0x24 sub = true ∧ (mem1 (st.die .a)).freeJobSlot = some 0 ∧
    (readUnit (st.die .b) (mem1 (st.die .a)) (.cmdProc 1 none) 1 256 256 accRead).2.isSome = true ∧
    tn full 1 .submit 0x24 sub = true ∧
    tn busy 1 .cancelJob 0x25 (leBytes 4 4096) = true ∧ tn busy 1 .cancelJob 0x25 (leBytes 4 1) = true ∧
    tn busy 1 .ctxStatus 0x2C [] = true ∧ (busy (st.die .a)).pair.role ≠ .standby ∧ ((busy (st.die .a)).ctx? 1) = some (cx 1) ∧
    (∀ j ∈ (mem1 (st.die .a)).jobs.list, j.slot ≠ 0) ∧ descOk { mem1 (st.die .a) with jobs.list := [jb .waiting good] } 1 false good = true ∧ dWaitVa good ≠ 0
    := by decide

theorem wit_FullJobTableHasNoFreeSlot :
    ({ mem1 (st.die .a) with jobs.list := (List.range 4096).map fun i => { jb .waiting [] with slot := i } } : Die).freeJobSlot =
      none := by
  simp [Die.freeJobSlot]

theorem wit_FencesReachTheirValues :
    let ps := leBytes 8 8 ++ leBytes 8 5
    let w := leBytes 8 8 ++ leBytes 8 1 ++ leBytes 4 1 ++ leBytes 4 0
    let waits : Die → Die := fun x => pool { cm 1 0x2A w with phase := .fenceWait 0 none } (mem1 x)
    let late : Die → Die := fun x => { waits x with time := 400 }
    let early : Die → Die := fun x => { waits x with time := 399 }
    tn mem1 1 .fenceSignal 0x28 ps = true ∧ tn mem1 1 .fenceRead 0x29 (ps.take 8) = true ∧ tn mem1 1 .fenceWait 0x2A w = true ∧
    (signalUnit (st.die .b) (mem1 (st.die .a)) (.cmdProc 1 none) 1 8 5).2 = some 0 ∧
    (fenceUnit (st.die .b) (mem1 (st.die .a)) (.cmdProc 1 none) 1 8).2 = some 0 ∧
    (waits (st.die .a)).waiting 1 = some ({ cm 1 0x2A w with phase := .fenceWait 0 none }, 0) ∧ (waits (st.die .a)).running = true ∧
    (cm 1 0x2A w).isFrozen = false ∧ (st.die .a).id = .a ∧ (waits (st.die .a)).cmdOn = true ∧ (early (st.die .a)).waiting 1 = some ({ cm 1 0x2A w with phase := .fenceWait 0 none }, 0) ∧
    par (cm 1 0x2A w).pkt 16 4 * 400 ≤ ((late (st.die .a)).time - 0).toNat ∧
    ((early (st.die .a)).time - 0).toNat < par (cm 1 0x2A w).pkt 16 4 * 400
    := by decide

theorem wit_PairConfigurationBridgeAndMirror :
    let good := withCrc (leBytes 36 0)
    let s16 : Die → Die := fun x => { x with pair.slotFails := Vector.replicate 4 16 }
    let tie := onAB id fun y => { y with pair.cfgByA := some 0 }
    let r := bridgeRow .ctl
    let p := onAB (fun x => { x with press.epoch := 1, press.behind := bit44 43, press.applied := bit44 43 })
      (fun y => { y with pair.ctlOut := [.pairApplied 1] })
    let m := onAB (fun x => { x with pair.mode := 2, pair.role := .standby })
      (fun y => { y with pair.mirOut := [.write 4 [1, 2]] })
    (st.die .a).running = true ∧ pairCfgBad 0x00014000 = false ∧ (st.die .a).pairCfgRefused = false ∧
    (st.die .a).pair.bridgeUp = true ∧ slotPasses good = true ∧ slotPasses (leBytes 40 0) = false ∧
    (st.die .a).pair.slotFails[r] < 16 ∧ 16 ≤ (s16 (st.die .a)).pair.slotFails[r] ∧
    tie.b.cfgTied = true ∧ st.b.cfgTied = false ∧
    (p.die .b).pair.ctlOut.find? (fun m => m.applied.isSome) = some (.pairApplied 1) ∧ (p.die .a).press.epoch = 1 ∧
    (p.die .a).press.behind.getLsbD 43 = true ∧ (p.die .a).press.applied.getLsbD 43 = true ∧ (p.die .a).lateUnit 43 = false ∧
    (m.die .b).pair.mirOut = .write 4 [1, 2] :: [] ∧ Die.mirrored (m.die .b) (m.die .a) = true
    := by decide

theorem wit_InitialCopyLossAndTakeover :
    let c := onA fun x => { x with pair.copying := true }
    let q : Die → Die := fun x => { x with time := BitVec.ofNat 64 (4 * cfgHbLimit (x.reg .cmdPairCfg) * 400) }
    let spare : Die → Die := fun x => { q x with pair.mode := 2, pair.role := .standby, pair.mirrorSync := true }
    let safe := onAB id fun y => { y with pair.ctlOut := [.safeAnnounce] }
    let b : Nat → Die → Die := fun us x => { x with dev := .active, time := BitVec.ofNat 64 (400 * us), pair.role := .primary, pair.takeover := some 0, pair.pulls := some 0 }
    (c.die .a).pair.copying = true ∧ (c.die .a).pair.bridgeUp = true ∧ (c.die .a).pair.lost = false ∧
    (q (st.die .a)).running = true ∧ (q (st.die .a)).dev = .ready ∧ (q (st.die .a)).pair.suspended = false ∧
    (q (st.die .a)).pair.lost = false ∧
    4 * cfgHbLimit ((q (st.die .a)).reg .cmdPairCfg) * 400 ≤ ((q (st.die .a)).time - (q (st.die .a)).pair.lastAlive).toNat ∧
    4 * cfgHbLimit ((q (st.die .a)).reg .cmdPairCfg) * 400 ≤ ((q (st.die .a)).time - (q (st.die .a)).pair.lastCtl).toNat ∧
    (safe.die .b).pair.ctlOut.any CtlMsg.isSafe = true ∧ (safe.die .a).pair.mode ≠ 1 ∧ safe.a.pair.role ≠ .standby ∧ (safe.die .a).pair.bridgeUp = true ∧
    (spare (st.die .a)).pair.mode = 2 ∧ (spare (st.die .a)).pair.role = .standby ∧ (spare (st.die .a)).pair.mirrorSync = true ∧
    (spare (st.die .a)).dev = .ready ∧ cfgAutoFailover ((spare (st.die .a)).reg .cmdPairCfg) = true ∧ st.b.pair.mirOut = [] ∧
    4 * cfgHbLimit ((spare (st.die .a)).reg .cmdPairCfg) * 400 ≤ ((spare (st.die .a)).time - (spare (st.die .a)).pair.lastAlive).toNat ∧
    (b 10 (st.die .b)).pair.role = .primary ∧ (b 10 (st.die .b)).dev = .active ∧
    (b 10 (st.die .b)).id = .b ∧ 10 * 400 ≤ ((b 10 (st.die .b)).time - 0).toNat ∧ 20 * 400 ≤ ((b 20 (st.die .b)).time - 0).toNat ∧
    40 * 400 ≤ ((b 40 (st.die .b)).time - 0).toNat ∧ ((b 39 (st.die .b)).time - 0).toNat < 40 * 400
    := by decide

theorem wit_PairedJobsAndDeadlinesAreShared :
    let j := { jb .ended (leBytes 256 0) with status := some 0x00, paired := true, key := 5 }
    let one : Job → Die → Die := fun j x => { mem1 x with jobs.list := [j] }
    let tg := { j with tagged := true, myTags := [3] }
    let fr := onAB (one tg) fun y => { y with pair.cmpOut := [.job 1 5 [3]] }
    let w : TagWait := { item := .job 0, frame := 0, tags := [], passed := 0, since := 0 }
    let late : Die → Die := fun x => { one tg x with pair.tags := [w], time := BitVec.ofNat 64 (4 * cfgCmpTimeout (x.reg .cmdPairCfg) * 400) }
    let run := { j with state := .running, status := none }
    let pr := onAB (one run) fun y => { y with pair.ctlOut := [.progress 1 5 2 9] }
    let dl := onAB (fun x => { x with pair.ctlOut := [.deadline 1 5 true] }) (one run)
    let two := { run with mine := [(2, 4)], desc := putField (putField run.desc 0x64 [1]) 0x68 [100] }
    let pr2 := onAB (one two) fun y => { y with pair.ctlOut := [.progress 1 5 2 9] }
    let ag := { tg with theirVote := some .agree }
    let fa := onAB (one ag) fun y => { y with pair.cmpOut := [.job 1 5 [3]] }
    let fd := onAB (one tg) fun y => { y with pair.cmpOut := [.job 1 5 [4]] }
    let vt := { tg with myVote := some .agree }
    let fv := onAB (one vt) fun y => { y with pair.cmpOut := [.vote 1 5 .agree] }
    (one j (st.die .a)).job? 0 = some j ∧ j.pairOk = none ∧ j.held = none ∧ j.theirTags = none ∧
    (formTags (st.die .b) (one j (st.die .a)) j).2.isSome = true ∧ (one j (st.die .a)).pair.lost = false ∧
    (one j (st.die .a)).running = true ∧ (fr.die .b).pair.cmpOut.find? (cmpReady fr.a) = some (.job 1 5 [3]) ∧ (fr.die .a).jobByKey 1 5 = some tg ∧
    tg.myTags = [3] ∧ tg.theirVote = none ∧ fr.a.pair.bridgeUp = true ∧ fa.b.pair.cmpOut.find? (cmpReady fa.a) = some (.job 1 5 [3]) ∧
    fa.a.jobByKey 1 5 = some ag ∧ ag.theirVote = some .agree ∧ fd.b.pair.cmpOut.find? (cmpReady fd.a) = some (.job 1 5 [4]) ∧
    fd.a.jobByKey 1 5 = some tg ∧ fv.b.pair.cmpOut.find? (cmpReady fv.a) = some (.vote 1 5 .agree) ∧ fv.a.jobByKey 1 5 = some vt ∧
    vt.pairOk = none ∧
    (late (st.die .a)).pair.tags.find? (fun t => decide (t.item = .job 0)) = some w ∧ (late (st.die .a)).job? 0 = some tg ∧
    4 * cfgCmpTimeout ((late (st.die .a)).reg .cmdPairCfg) * 400 ≤ ((late (st.die .a)).time - w.since).toNat ∧
    (pr.die .b).pair.ctlOut = .progress 1 5 2 9 :: [] ∧ (pr.die .a).jobByKey 1 5 = some run ∧ run.mine.lookup 2 = none ∧
    two.mine.lookup 2 = some 4 ∧ two.theirs = [] ∧ missed pr2.a two (max 4 9) = false ∧ pr2.a.jobByKey 1 5 = some two ∧
    run.isKid = false ∧ dKidVa run.desc = 0 ∧ dOnMiss run.desc = false ∧ run.key = 5 ∧
    dl.a.pair.ctlOut = .deadline 1 5 true :: [] ∧ dl.b.job? 0 = some run ∧ run.ctx = 1 ∧ run.state ≠ .ended
    := by decide

/-- A job descriptor with some fields set. -/
def de (fs : List (Nat × List Byte)) : List Byte := fs.foldl (fun b q => putField b q.1 q.2) (leBytes 256 0)

/-- A descriptor of a compute job: one share on cluster 0, 8 registers, workgroups of one, save area at 0x2000. -/
def dc : List Byte := de [(0x04, [1]), (0x05, [1]), (0x06, [1]), (0x0E, [1]), (0x10, [4]), (0x18, leBytes 8 0x1000), (0x20, leBytes 8 0x4000), (0x59, [0x20])]

/-- A share of index 0 on cluster 0. -/
def shr (s : ShareState) : Share :=
  { index := 0, cl := 0, state := s, started := 0, image := 0, wring := false, cores := [], fresh := [], ended := 0 }

/-- An ACTIVE die with a job. -/
def jx (j : Job) (x : Die) : Die := { mem1 x with jobs.list := [j] }

/-- The partition of job 0 on cluster 0. -/
def part0 : Partition := { cl := 0, slot := 0, job := 0, ctx := 1, kind := 0, mask := 0 }

theorem wit_JobsAreReleasedStartedAndDispatched :
    let w0 := jb .waiting dc
    let w1 := jb .waiting (de [(0x28, [8])])
    let sus : Die → Die := fun x => { jx w0 x with cmd.ctxs := [{ cx 1 with state := .suspended }] }
    let pass := jb .released (putField dc 0x00 [1])
    let again := { jb .running dc with shares := [shr .live], again := [2], dispatched := 4 }
    let r := jb .released dc
    let c := jb .released (de [(0x00, [2]), (0x10, [8])])
    let wr := jb .released (de [(0x00, [3]), (0x18, leBytes 8 0x100)])
    let wx : Die → Die := fun x =>
      { jx wr x with dram.cells := [(0x102, 12), (0x110, 1), (0x120, 8)], regs := spSet (fun _ => Reg.wrgCfg.info.reset) x.regs (Reg.wrgCfg.addr []) 1 }
    let g := { jb .running dc with shares := [shr .live] }
    let full := { jb .running (putField dc 0x06 [100]) with shares := [shr .live] }
    (sus (st.die .a)).job? 0 = some w0 ∧ (sus (st.die .a)).ctxState 1 = .suspended ∧ (jx w0 (st.die .a)).job? 0 = some w0 ∧ w0.held = none ∧ (jx w0 (st.die .a)).ctxState 1 ≠ .suspended ∧
    (jx w0 (st.die .a)).pair.role ≠ .standby ∧ dWaitVa w0.desc = 0 ∧ dWaitVa w1.desc = 8 ∧
    (fenceUnit (st.die .b) (jx w1 (st.die .a)) (.cmdProc 1 (some 0)) 1 8).2 = some 0 ∧
    (fenceUnit (st.die .b) (jx w1 (st.die .a)) (.cmdProc 1 (some 0)) 1 8).1.job? 0 = some w1 ∧
    (jx r (st.die .a)).schedules = true ∧ (jx r (st.die .a)).ctxStarts 1 = true ∧ dKind r.desc = 0 ∧
    (jx r (st.die .a)).isNext r = true ∧ dClCount r.desc ≤ ((jx r (st.die .a)).clustersFor r).length ∧
    (jx r (st.die .a)).epochsAgree r (((jx r (st.die .a)).clustersFor r).take (dClCount r.desc)) = true ∧
    r.claims = [] ∧ dKind pass.desc = 1 ∧ (jx pass (st.die .a)).freePass = some 0 ∧ (jx pass (st.die .a)).schedules = true ∧
    (jx pass (st.die .a)).ctxStarts 1 = true ∧ (jx pass (st.die .a)).isNext pass = true ∧
    dClCount pass.desc ≤ ((jx pass (st.die .a)).clustersFor pass).length ∧
    (jx pass (st.die .a)).epochsAgree pass (((jx pass (st.die .a)).clustersFor pass).take (dClCount pass.desc)) = true ∧
    c.shares = [] ∧ wr.shares = [] ∧ wr.wrg.par = [] ∧ dKind c.desc = 2 ∧ (jx c (st.die .a)).engineNext c = true ∧ c.done ≠ dCount c.desc ∧
    (∀ e : Fin 4, ((jx c (st.die .a)).jobs.copies[e]).job ≠ some 0) ∧
    pipeIds.find? (fun e => ((jx c (st.die .a)).jobs.copies[e]).job == none) = some 0 ∧
    dKind wr.desc = 3 ∧ (wx (st.die .a)).engineNext wr = true ∧ (wx (st.die .a)).freeWringer = some 0 ∧
    (match readUnit (st.die .b) (wx (st.die .a)) (.cmdProc 1 (some 0)) 1 0x100 64 accRead with
     | (_, some b) => wrgParOk b | (_, none) => false) = true ∧
    (jx again (st.die .a)).schedules = true ∧ (jx again (st.die .a)).ctxStarts 1 = true ∧ again.again ≠ [] ∧
    (jx again (st.die .a)).bestCore ((inOrder (liveClusters again)).filter fun cl => !(jx again (st.die .a)).heldFor again cl) 0
      (dCarve again.desc) (dRegs again.desc) (dAccs again.desc) (dWg again.desc) = some { cl := 0, core := 0 } ∧
    (jx g (st.die .a)).schedules = true ∧ dKind g.desc = 0 ∧ g.dispatched < dCount g.desc ∧ dWg g.desc = 1 ∧ 2 ≤ dRegs g.desc ∧
    (jx g (st.die .a)).bestCore ((inOrder (liveClusters g)).filter fun cl => !(jx g (st.die .a)).heldFor g cl) 0 (dCarve g.desc) (dRegs g.desc) (dAccs g.desc) 1 =
      some { cl := 0, core := 0 } ∧
    (((jx g (st.die .a)).carveCore { cl := 0, core := 0 } 0 (dCarve g.desc)).bestPipe { cl := 0, core := 0 } (dRegs g.desc)
      (dAccs g.desc)) = some (0, 16) ∧
    (jx full (st.die .a)).bestCore ((inOrder (liveClusters full)).filter fun cl => !(jx full (st.die .a)).heldFor full cl) 0 (dCarve full.desc) (dRegs full.desc) (dAccs full.desc)
      (dWg full.desc) = none
    := by decide

/-- A group of job 0 at the first place of cluster 0, at address 0x1000 with every thread active. -/
def gr : Group :=
  { loc := { cl := 0, core := 0, pipe := 0, slot := 0 }, job := 0, ctx := 1, idx := 0, wg := 0, rank := 0, stamp := 1, wait := 0,
    pc := 0x1000, active := BitVec.allOnes 64, exited := 0, regs := List.replicate 8 (Vector.replicate 64 0), accs := [],
    preds := Vector.replicate 7 0, arrivals := Vector.replicate 9 Arrival.empty, stack := [],
    scales := Vector.replicate 8 (Vector.replicate 64 0x7F), gstat := 0, ovf := 0, sat := 0, nan := 0, timeHi := 0,
    frozen := none, stopped := false, foldTime := 0, fence := none, loads := [], atomics := [], stage := .compute, frags := [],
    out := [], ilk := 0, ilkWait := false }

theorem wit_SharesFoldAndUnfold :
    let a := { jb .running (putField dc 0x06 [32]) with shares := [shr .live], preemptSince := some 0, dispatched := 1 }
    let v := { jb .running (putField (putField dc 0x06 [32]) 0x01 [3]) with slot := 1, shares := [shr .live], order := 2 }
    let gv := fun (i : Fin 2) => { gr with job := 1, regs := List.replicate 256 (Vector.replicate 64 0), loc.slot := Fin.ofNat 16 i.val }
    let full : List Group := (coreIds.map fun c => (pipeIds.map fun p => [{ gv 0 with loc.core := c, loc.pipe := p },
      { gv 1 with loc.core := c, loc.pipe := p }]).flatten).flatten
    let e : Die → Die := fun x => { mem1 x with
      jobs.list := [a, v], sh.groups := full, time := BitVec.ofNat 64 (x.fld .jobCfg [] 15 8 * 400),
      sh.parts := [part0, { part0 with slot := 1, job := 1 }] }
    let l := { jb .running dc with shares := [shr .live] }
    let f := { jb .running dc with shares := [shr .folding] }
    let fe := { f with dispatched := 4 }
    let fx : Job → Die → Die := fun j x => { jx j x with sh.parts := [{ part0 with kind := 2 }] }
    let late : Die → Die := fun x => { fx f x with sh.groups := [{ gr with foldTime := 64 * x.fld .jobCfg [] 4 0 }] }
    let sv : Die → Die := fun x => { fx f x with sh.groups := [{ gr with stopped := true }] }
    let fd0 := { jb .running dc with shares := [shr .folded] }
    let ask := onAB (jx { l with key := 5 }) fun y => { y with pair.ctlOut := [.foldRequest 1 5 0] }
    let u := { jb .running dc with shares := [shr .unfolding] }
    let fd := { jb .running dc with shares := [{ shr .folded with image := 1 }] }
    (e (st.die .a)).job? 0 = some a ∧ (e (st.die .a)).schedules = true ∧
    (e (st.die .a)).fld .jobCfg [] 15 8 * 400 ≤ ((e (st.die .a)).time - 0).toNat ∧ inOrder (liveClusters a) = [0] ∧
    ((e (st.die .a)).victims a 0).find? (fun v => ((e (st.die .a)).without 0 [v.1.slot]).wgFits a 0) = some (v, shr .live) ∧
    (jx l (st.die .a)).job? 0 = some l ∧ (st.die .b).pair.ctlOut = [] ∧
    l.shares.find? (fun h => decide (h.cl = 0) && decide (h.state = .live)) = some (shr .live) ∧ dKind l.desc = 0 ∧
    (late (st.die .a)).folding 0 0 = true ∧ ((late (st.die .a)).group? gr.loc).map (fun g => (g.job, g.stopped, g.frozen, g.foldTime)) = some (0, false, none, 64 * (late (st.die .a)).fld .jobCfg [] 4 0) ∧
    (late (st.die .a)).job? 0 = some f ∧ ask.b.pair.ctlOut = .foldRequest 1 5 0 :: [] ∧
    ask.a.job? 0 = some { l with key := 5 } ∧ l.shares.find? (fun u => u.index == 0) = some (shr .live) ∧
    (fx fe (st.die .a)).part? 0 0 = some { part0 with kind := 2 } ∧ foldReady (fx fe (st.die .a)) fe (shr .folding) = true ∧
    shareEmpty (fx fe (st.die .a)) fe (shr .folding) = true ∧ (fx fe (st.die .a)).running = true ∧ (fx fe (st.die .a)).dev ≠ .safe ∧
    (sv (st.die .a)).job? 0 = some f ∧ (sv (st.die .a)).part? 0 0 = some { part0 with kind := 2 } ∧
    foldReady (sv (st.die .a)) f (shr .folding) = true ∧ shareEmpty (sv (st.die .a)) f (shr .folding) = false ∧
    (sv (st.die .a)).running = true ∧ (sv (st.die .a)).dev ≠ .safe ∧
    (writeRegions (st.die .b) (sv (st.die .a)) f 0 false (plainWrites (sv (st.die .a)) f (shr .folding) 0)).2 = true ∧
    (writeDirectory (st.die .b) (sv (st.die .a)) f (shr .folding) 1 0 (coreIds.map fun _ => 0)).2 = true ∧
    (fx u (st.die .a)).job? 0 = some u ∧
    (readUnit (st.die .b) (fx u (st.die .a)) (.stream { cl := 0, core := 0 } 0) 1 (dSaveVa u.desc + 0x20) 128 accRead).2 =
      some (leBytes 128 0) ∧
    (match readRegions (st.die .b) (fx u (st.die .a)) u 0 0 (leBytes 128 0) with
     | (_, some r) => !(r.any fun q => q.2.isNone) | (_, none) => false) = true ∧
    fd.foldedShare = some { shr .folded with image := 1 } ∧ (jx fd (st.die .a)).mayUnfold fd = true ∧ fd.paired = false ∧
    fd0.foldedShare = some (shr .folded) ∧ (jx fd0 (st.die .a)).mayUnfold fd0 = true ∧
    ((jx fd0 (st.die .a)).unfoldClusters fd0 (shr .folded)).contains 0 = true ∧ (jx fd0 (st.die .a)).epochsAgree fd0 [0] = true ∧
    ((jx fd (st.die .a)).unfoldClusters fd { shr .folded with image := 1 }).contains 0 = true ∧
    (jx fd (st.die .a)).epochsAgree fd [0] = true
    := by decide

theorem wit_JobsMoveEndAndLeave :
    let c := jb .running (de [(0x00, [2]), (0x10, [8]), (0x20, leBytes 8 0x1000)])
    let cp : Die → Die := fun x => { jx c x with jobs.copies := vmod x.jobs.copies 0 fun _ => { job := some 0, taken := 0, frozen := none } }
    let w := { jb .running dc with done := 4 }
    let e := { jb .ended dc with status := some 0 }
    let rec_ := { jb .ended (de [(0x50, leBytes 8 0x40)]) with status := some 0 }
    let sig := { jb .ended (de [(0x38, leBytes 8 0x80), (0x40, [7])]) with status := some 0 }
    let us : List URange := [{ va := 0, len := 8, acc := accRead }, { va := 0x1000, len := 8, acc := accWrite }]
    (cp (st.die .a)).job? 0 = some c ∧ ((cp (st.die .a)).jobs.copies[(0 : Fin 4)]).job = some 0 ∧
    (cp (st.die .a)).schedules = true ∧ (cp (st.die .a)).ctxStarts 1 = true ∧ (cp (st.die .a)).power.therm ≠ 2 ∧
    (match prewalk (st.die .b) (cp (st.die .a)) (.copy 0) 1 us with
     | (y, some pm) => (fetchRange (st.die .b) y (.copy 0) 1 pm { va := 0, len := 8, acc := accRead }).2
     | (_, none) => false) = true ∧
    dKind w.desc = 0 ∧ w.done = dCount w.desc ∧ (∀ t ∈ (jx w (st.die .a)).sh.groups, t.job ≠ 0) ∧
    (jx w (st.die .a)).storesDone 0 = true ∧ dDlMode w.desc = 0 ∧ w.isKid = false ∧ (jx e (st.die .a)).job? 0 = some e ∧
    e.endStep = 0 ∧ dStatusVa e.desc = 0 ∧ dSigVa e.desc = 0 ∧ dNextVa e.desc = 0 ∧ w.state = .running ∧
    e.paired = false ∧ dStatusVa rec_.desc ≠ 0 ∧ dStatusVa rec_.desc % 64 = 0 ∧ dSigVa rec_.desc = 0 ∧ dNextVa rec_.desc = 0 ∧
    (match readProgress (st.die .b) (jx rec_ (st.die .a)) rec_ with
     | (y, some w) => (writeUnit (st.die .b) y (.cmdProc 1 (some 0)) 1 (dStatusVa rec_.desc) (endRecord rec_ w) accWrite).2
     | (_, none) => false) = true ∧
    dSigVa sig.desc ≠ 0 ∧ dSigVa sig.desc % 8 = 0 ∧ dStatusVa sig.desc = 0 ∧ dNextVa sig.desc = 0 ∧
    (signalUnit (st.die .b) ((jx sig (st.die .a)).updJob 0 fun q => { q with endStep := 1 }) (.cmdProc 1 (some 0)) 1 (dSigVa sig.desc)
      (BitVec.ofNat 64 (dSigValue sig.desc))).2.isSome = true
    := by decide

theorem wit_DeadlinesAndRestarts :
    let b := de [(0x10, [1]), (0x64, [1]), (0x68, [100]), (0x6D, [1]), (0x70, [9]), (0x90, [2]), (0x94, [5])]
    let j := jb .running b
    let x : Die → Die := fun x => { jx j x with time := 800 }
    let z : Die → Die := fun x => { jx j x with time := 40000 }
    let r := { jb .running dc with restarts := 3 }
    let g : Die → Die := fun x => { jx r x with sh.groups := [gr] }
    let dn := { jb .running b with done := 1, dispatched := 1 }
    let o : Die → Die := fun x => { jx dn x with time := 800 }
    let im := { jb .running dc with shares := [{ shr .live with image := 1, fresh := [3], ended := 1 }], done := 2 }
    let ni := { jb .running dc with shares := [shr .live] }
    let ip : Die → Die := fun x => { jx im x with sh.parts := [part0] }
    (x (st.die .a)).job? 0 = some j ∧ j.held = none ∧ j.paired = false ∧ (x (st.die .a)).running = true ∧
    (x (st.die .a)).dev ≠ .safe ∧ dDlMode j.desc ≠ 0 ∧ j.kidDue = false ∧ j.nextChk < dChkCount j.desc ∧
    j.checkpointAt j.nextChk ≤ (x (st.die .a)).time.toNat ∧ (readProgress (st.die .b) (x (st.die .a)) j).2.isSome = true ∧
    j.expired = false ∧ (z (st.die .a)).deadlinePassed j (marginCycles j) = true ∧
    (readProgress (st.die .b) (z (st.die .a)) j).2.isSome = true ∧ (x (st.die .a)).workOver j = false ∧
    (z (st.die .a)).workOver j = false ∧ (o (st.die .a)).workOver dn = true ∧ (o (st.die .a)).job? 0 = some dn ∧
    dn.nextChk < dChkCount dn.desc ∧ dn.checkpointAt dn.nextChk ≤ (o (st.die .a)).time.toNat ∧
    ((g (st.die .a)).group? gr.loc).isSome = true ∧ (ip (st.die .a)).job? 0 = some im ∧ (ip (st.die .a)).part? 0 0 = some part0 ∧
    im.restarts < 3 ∧ (im.shares.find? (fun h => decide (h.cl = 0) && decide (h.state ≠ .folded))).map (fun h => h.image) = some 1 ∧
    dKind im.desc = 0 ∧ (jx ni (st.die .a)).job? 0 = some ni ∧ ni.restarts < 3 ∧
    ni.shares.find? (fun h => decide (h.cl = 0) && decide (h.state ≠ .folded)) = some (shr .live) ∧
    (g (st.die .a)).job? 0 = some r ∧ 3 ≤ r.restarts
    := by decide

/-- A report of context 1 by a group. -/
def rp : Report :=
  { cls := 1, flags := 0, who := .group gr.loc, ctx := 1, vmid := 0, va := 0x5000, detail := 7, epoch := 0, origin := 5,
    freezes := true, held := true, gone := false }

theorem wit_TheDarnerTakesAndQueuesReports :
    let one : Die → Die := fun x => { x with flt.reports := [rp] }
    let q := placeOf .a 0 3 rp false
    let two : Die → Die := fun x => { one x with flt.darner := [q] }
    let rv : Report := { rp with who := .clockCtl, cls := 0x30, held := false, freezes := false }
    let res : List Place → Die → Die := fun l x => { x with flt.reports := [rv], flt.darner := l }
    let rq := placeOf .a 0 3 rv true
    let full : Die → Die := fun x => { one x with flt.darner := List.replicate 48 { q with origin := 6 } }
    let nearFull : Die → Die := fun x => { one x with flt.darner := List.replicate 47 { q with origin := 6 } }
    let at_ : Nat → Die → Die := fun n x => {
      x with flt.darner := [q], time := BitVec.ofNat 64 (x.fld .fltCfg [] 7 0 * 3), flt.queue := List.replicate n q.record }
    let h : Nat → Die → Die := fun n x => { at_ n x with flt.darner := [{ q with held := true }] }
    (one (st.die .a)).flt.reports = rp :: [] ∧ reservedSource rp.who rp.cls = false ∧
    (res [] (st.die .a)).flt.reports = rv :: [] ∧ reservedSource rv.who rv.cls = true ∧
    ((res [{ rq with origin := 6 }] (st.die .a)).flt.darner.any fun q => q.reserved && sourceId q.who == sourceId rv.who) = true ∧
    ((res [{ rq with origin := 6 }] (st.die .a)).flt.darner.any fun q =>
      (q.reserved && sourceId q.who == sourceId rv.who) && q.matches rv) = false ∧
    (full (st.die .a)).flt.darner.any (fun q => !q.reserved && !q.held && q.matches rp) = false ∧
    48 ≤ (full (st.die .a)).sharedBusy ∧ rp.cls ≠ 0x30 ∧ rp.cls ≠ 0x31 ∧
    (two (st.die .a)).flt.darner.find? (fun q => !q.reserved && !q.held && q.matches rp) = some q ∧
    (nearFull (st.die .a)).flt.darner.any (fun q => !q.reserved && !q.held && q.matches rp) = false ∧
    (nearFull (st.die .a)).sharedBusy < 48 ∧ (at_ 0 (st.die .a)).flt.darner[0]? = some q ∧ q.held = false ∧
    (at_ 1023 (st.die .a)).windowPassed q = true ∧ (at_ 1023 (st.die .a)).flt.queue.length < 1024 ∧
    ((at_ 0 (st.die .a)).flt.darner.any fun t => t.held) = false ∧ 1024 ≤ (at_ 1024 (st.die .a)).flt.queue.length ∧
    (two (st.die .a)).windowPassed q = false ∧ nextHeld (h 1023 (st.die .a)).flt.darner 0 none = some (0, { q with held := true })
    := by decide

theorem wit_HeldFaultsAreResolved :
    let h : HeldFault := { fid := 3, cls := 1, ctx := 1, reporters := [.group gr.loc], page := 5 }
    let x : HeldFault → Die → Die := fun h x => { mem1 x with flt.faults := [h], sh.groups := [{ gr with frozen := some 1 }] }
    let pg := leBytes 4096 0
    let g : Migration := { ctx := 1, page := 5, size := 4096, entryPa := 0x3000, entry := 0x38, frameIpa := 0, kind := 0, joined := [] }
    let hm := { h with cls := clsMigHost }
    let mg : Nat → Die → Die := fun n y => { x hm y with xlt.migs := [{ g with size := n }] }
    (mg 4096 (st.die .a)).faultMig hm = some g ∧ (mg 2097152 (st.die .a)).faultMig hm = some { g with size := 2097152 } ∧
    (mg 4096 (st.die .a)).heldFault 3 = some hm ∧ framePas (mg 4096 (st.die .a)) 1 0 4096 = some [0] ∧
    (l2ReadRange (st.die .b) (mg 4096 (st.die .a)) 0 4096).2 = none ∧
    unwringPage ((l2ReadRange (st.die .b) (mg 4096 (st.die .a)) 0 4096).1.l2Bytes 0 4096) 4096 = none ∧
    (x h (st.die .a)).heldFault 3 = some h ∧ (x h (st.die .a)).faultMig h = none ∧ h.ctx ≠ 0 ∧
    (x { h with ctx := 0 } (st.die .a)).heldFault 3 = some { h with ctx := 0 } ∧ (x h (st.die .a)).heldFault 4 = none
    := by decide

theorem wit_InvalidationsAndShareWords :
    let w : Die → Die := fun x => { x with xlt.share := [(0, 2)] }
    (1 : BitVec 10) ≠ 0 ∧ (1 : Nat) / 32 = 0 ∧
    bitOf (spGet (fun _ => (0 : Word)) (w (st.die .a)).xlt.share 0 &&& ~~~(0 : Word)).toNat 1 = true
    := by decide

theorem wit_MigrationsAndTableErrorsEnd :
    let g : Migration := { ctx := 1, page := 0, size := 4096, entryPa := 0x3000, entry := 0x38, frameIpa := 0, kind := 1, joined := [] }
    let x : Migration → Die → Die := fun g x => { mem1 x with xlt.migs := [g] }
    (x g (st.die .a)).xlt.migs.find? (fun g => g.ctx == 1 && g.page == 0) = some g ∧
    framePas (x g (st.die .a)) 1 0 4096 = some [0] ∧ (leBytes 4096 0).length = g.size ∧
    framePas (x g (st.die .a)) 1 (2 ^ 47) 4096 = none ∧
    ({ (st.die .a) with xlt.own := [] } : Die).ownCheck g.entryPa 1 0 accWrite .migration = some clsOwnTag ∧
    (x { g with kind := 3 } (st.die .a)).xlt.migs.find? (fun g => g.ctx == 1 && g.page == 0) = some { g with kind := 3 }
    := by decide

/-- The first core of a die. -/
def c0 : CoreLoc := { cl := 0, core := 0 }

/-- An entry of a merging buffer that holds byte 3 of line 0. -/
def me (closed : Bool) : MergeEnt :=
  { pa := 0, bytes := [(3, 9)], closed := closed, born := 0, asked := false, ctx := 1, jobs := [], spoil := 0 }

theorem wit_MissedLinesArrive :
    let m : MissReg := { pa := 0, ctx := 1, vmid := 0, reqs := [], answer := some (leBytes 128 0), fenced := false }
    let x : MissReg → Die → Die := fun m x => { mem1 x with cache.l1s := [{ L1.fresh c0 with miss := [m] }] }
    let m2 : L2Miss := { pa := 0, waiters := [.core c0] }
    let y : Die → Die := fun x => { mem1 x with cache.l2s := [{ L2.fresh 0 with miss := [m2] }] }
    let h : Die → Die := fun d => { x m d with cache.l2s := [{ L2.fresh 0 with lines := [{ pa := 0, way := 0 }] }] }
    let win : MissReg := { m with pa := windowBase }
    let sp : Die → Die := fun d => { y d with dram.spoiled := [0, 1, 2, 3] }
    ((h (st.die .a)).l1 c0).miss[0]? = some m ∧ inWindow m.pa = false ∧
    ((h (st.die .a)).l2 (sliceOf m.pa)).lines.find? (fun l => l.pa == m.pa) = some { pa := 0, way := 0 } ∧
    inWindow win.pa = true ∧ ((x win (st.die .a)).l1 c0).miss[0]? = some win ∧
    (readLine (st.die .b) ((drainLine (st.die .b) (sp (st.die .a)) m2.pa).parityLine m2.pa) m2.pa []).2 = false ∧
    ((x m (st.die .a)).l1 c0).miss[0]? = some m ∧
    ((x { m with answer := none } (st.die .a)).l1 c0).miss[0]? = some { m with answer := none } ∧
    (((y (st.die .a)).l2 0).miss.filter realMiss)[0]? = some m2 ∧ sliceOf m2.pa = 0 ∧
    (∀ e ∈ ((y (st.die .a)).l2 0).merge, e.pa ≠ m2.pa) ∧ (∀ w ∈ (y (st.die .a)).dram.spoiled, w / 16 ≠ m2.pa / 128) ∧
    m2.pa % 128 = 0 ∧ L2Waiter.core c0 ∈ m2.waiters
    := by decide

theorem wit_MergingBuffersDrain :
    let x1 : List MergeEnt → Nat → Die → Die := fun es t x => { mem1 x with cache.l1s := [{ L1.fresh c0 with merge := es }], time := BitVec.ofNat 64 t }
    let x2 : List MergeEnt → Nat → Die → Die := fun es t x => { mem1 x with cache.l2s := [{ L2.fresh 0 with merge := es }], time := BitVec.ofNat 64 t }
    let ask := { me false with asked := true }
    let wm := { me true with pa := windowBase }
    let full : Die → Die := fun x => { x1 [me true] 0 x with cache.l2s := [{ L2.fresh 0 with merge := List.replicate 31 { me true with pa := 0x800 } }] }
    let hi1 := wbits ((st.die .a).reg .locCfg) 20 16
    let hi2 := wbits ((st.die .a).reg .l2cCfg) 20 16
    (3 : BitVec 16) ≠ 0 ∧ ((x1 [wm] 0 (st.die .a)).l1 c0).merge = wm :: [] ∧ wm.closed = true ∧ inWindow wm.pa = true ∧
    ((full (st.die .a)).l2 0).merge.length < 32 ∧
    ((x1 [ask] 0 (st.die .a)).l1 c0).merge = ask :: [] ∧ ask.closed = false ∧ ask.asked = true ∧
    ¬ (wbits ((x1 [me false] 0 (st.die .a)).regU .locCfg 0) 20 16 ≤ 1 ∨
        wbits ((x1 [me false] 0 (st.die .a)).regU .locCfg 0) 15 8 ≤ (x1 [me false] 0 (st.die .a)).aclkSince 0 ∨ (me false).asked = true) ∧
    hi1 ≤ ((x1 (List.replicate hi1 (me false)) 0 (st.die .a)).l1 c0).merge.length ∧
    ¬ (wbits ((x2 [me false] 0 (st.die .a)).regU .l2cCfg 6) 20 16 ≤ 1 ∨
        10 * wbits ((x2 [me false] 0 (st.die .a)).regU .l2cCfg 6) 15 8 ≤ (x2 [me false] 0 (st.die .a)).since 0 ∨ (me false).asked = true) ∧
    hi2 ≤ ((x2 (List.replicate hi2 (me false)) 0 (st.die .a)).l2 0).merge.length ∧
    (me true).closed = true ∧ inWindow (me true).pa = false ∧ (me true).pa % 128 = 0 ∧ sliceOf (me true).pa = 0 ∧
    ((x1 (me true :: []) 0 (st.die .a)).l2 0).merge.length < 32 ∧ (me true).spoil = 0 ∧
    (∀ m ∈ ((x1 [me true] 0 (st.die .a)).l2 0).merge, m.pa = 0 → m.closed = true) ∧
    (∀ w ∈ (x2 [me true] 0 (st.die .a)).dram.spoiled, w / 16 ≠ 0)
    := by decide

theorem wit_BuffersTilesRotationsAndTheCarve :
    let f : Die → Die := fun x => { mem1 x with cache.l1s := [{ L1.fresh c0 with fetching := [(0, 1, 0)] }] }
    let m2 : L2Miss := { pa := 0, waiters := [.sidePrefetch] }
    let y : Die → Die := fun x => { mem1 x with cache.l2s := [{ L2.fresh 0 with miss := [m2] }] }
    let z : Die → Die := fun x => { x with sh.zeroing := vmod x.sh.zeroing 0 fun _ => 4 }
    let g : Die → Die := fun x => { mem1 x with sh.groups := [{ gr with wait := wbits (x.reg .grpSchedCfg) 9 0 }] }
    let rr : Bool → Die → Die := fun p x => { mem1 x with sh.groups := [gr], jobs.list := [{ jb .running (putField dc 0x02 [0x2]) with paired := p }] }
    let p : Nat → Nat → Die → Die := fun new old x =>
      { x with press.behind := bit44 6, press.pressed := spSet (fun _ => Reg.l2cCfg.info.reset) [] (Reg.l2cCfg.addr []) (BitVec.ofNat 32 new), cache.carveActive := old }
    let own : Die → Die := fun x => { p 0 1 x with xlt.own := (List.range 16).map fun i => (524224 + i, ownMake 4095 0 false false 0) }
    let zz : Die → Die := fun x => { p 1 0 x with cache.l2s := [{ L2.fresh 0 with zeroing := some 1 }] }
    ((f (st.die .a)).l1 c0).fetching = (0, 1, 0) :: [] ∧ (∀ e ∈ ((f (st.die .a)).l1 c0).merge, e.pa ≠ 0) ∧
    (l2ReadLine (st.die .b) ((f (st.die .a)).onL1 c0 fun t => { t with fetching := [] }) 0).2 = true ∧
    ((l2ReadLine (st.die .b) ((f (st.die .a)).onL1 c0 fun t => { t with fetching := [] }) 0).1.l1 c0).side.length < 16 ∧
    ((y (st.die .a)).l2 0).miss.find? (fun m => !realMiss m) = some m2 ∧ sliceOf m2.pa = 0 ∧
    ((y (st.die .a)).l2 0).side.length < 64 ∧ tlmSteps.find? (fun k => ((z (st.die .a)).sh.zeroing[(0 : Fin 6)]).getLsbD k) = some 2 ∧
    (st.die .a).running = true ∧ (g (st.die .a)).sh.rotation.lookup (portKey gr.loc .alu) = none ∧
    (g (st.die .a)).neverRotates c0 0 = false ∧ (g (st.die .a)).alwaysRotates c0 0 = false ∧
    (rr false (st.die .a)).alwaysRotates c0 0 = true ∧ (rr false (st.die .a)).neverRotates c0 0 = false ∧
    (rr true (st.die .a)).neverRotates c0 0 = true ∧
    ((g (st.die .a)).onPipe c0 0).map (fun u => decide (wbits ((g (st.die .a)).regU .grpSchedCfg 0) 9 0 ≤ u.wait)) = [true] ∧
    (st.die .a).unitWaits 6 = false ∧ (p 1 0 (st.die .a)).unitWaits 6 = true ∧ ((p 1 0 (st.die .a)).l2 0).zeroing = none ∧
    (p 1 0 (st.die .a)).shadowFails 6 = false ∧ wbits ((p 1 0 (st.die .a)).pressedI .l2cCfg []) 2 0 = 1 ∧
    carveWiped (own (st.die .a)) 0 1 = true ∧
    carveWiped { p 0 1 (st.die .a) with xlt.own := [(524224, ownMake 1 0 true true 1)] } 0 1 = false ∧
    ((zz (st.die .a)).l2 0).zeroing = some 1
    := by decide

/-- A job of context 1 that runs on cluster 0. -/
def jr : Job := { jb .running dc with shares := [shr .live] }

/-- A die on which one group of job 0 runs. -/
def sx (t : Group) (x : Die) : Die := { jx jr x with sh.groups := [t] }

/-- `st` with that group on die A. -/
def sg (t : Group) : State := onA (sx t)

/-- An instruction for every active thread. -/
def iw (fmt body : Nat) : InstrBits := { pneg := false, pred := 7, fmt := BitVec.ofNat 2 fmt, body := BitVec.ofNat 48 body }

/-- An R-format instruction. -/
def ir (dst s0 s1 s2 ty mode low : Nat) : InstrBits :=
  iw 0 (dst * 2 ^ 40 + s0 * 2 ^ 32 + s1 * 2 ^ 24 + s2 * 2 ^ 16 + ty * 2 ^ 12 + mode * 2 ^ 8 + low)

/-- An I-format instruction. -/
def ii (dst s0 imm : Nat) : InstrBits := iw 1 (dst * 2 ^ 40 + s0 * 2 ^ 32 + imm)

/-- The instruction under a predicate. -/
def ip (p : Nat) (w : InstrBits) : InstrBits := { w with pred := BitVec.ofNat 3 p }

/-- A register that holds one word in every thread. -/
def lanes (v : Nat) : Lanes := Vector.replicate 64 (BitVec.ofNat 32 v)

/-- A register that holds the thread's number. -/
def laneNum : Lanes := ⟨((List.range 64).map fun i => BitVec.ofNat 32 i).toArray, rfl⟩

/-- The group with register values: r0 is 0x80000003, r1 is 5, r2 is the thread's number; predicate 0 holds in threads 0 to 3,
predicate 1 in threads 1 and 2, predicate 2 nowhere. -/
def ga : Group := { gr with regs := [lanes 0x80000003, lanes 5, laneNum, lanes 7, lanes 0x1010, lanes 0, lanes 0x2000, lanes 0], preds := ⟨#[15, 6, 0, 0, 0, 0, BitVec.allOnes 64], rfl⟩ }

/-- The group stands ready on both ports. -/
def rg (t : Group) (port : Port) : Bool := groupReady (sg t) .a t.loc port t

theorem wit_MaskedWritesKeepOtherLanes :
    let l : PendLoad := { dst := 1, size := 4, signed := false, mask := 3, vas := [], pas := [], sectors := [], got := [] }
    (1 < gr.regs.length ∧ 1 + 1 < gr.regs.length) ∧ l.size ≤ 4 ∧ (threadsOf l.mask)[1]? = some 1 ∧ (7 < gr.regs.length ∧ ¬ 7 + 1 < gr.regs.length)
    := by decide

theorem wit_AnInstructionTouchesItsGroupAlone :
    ((sg ga).die .a).group? ga.loc = some ga ∧ ga.stack = [] ∧ ga.active ≠ 0 ∧ ga.exited ≠ BitVec.allOnes 64 := by decide

theorem wit_ControlInstructions :
    let t := ga
    let n := iw 0 0
    let np := ip 1 n
    let nz := ip 2 n
    let fo := iw 0 0x100
    let fd := fun (x : Die) => { jx { jb .running dc with shares := [shr .folding] } x with sh.parts := [{ part0 with kind := 2 }], sh.groups := [t] }
    let br := iw 3 (2 * 2 ^ 24 + 0)
    let bs := ip 1 (iw 3 (2 * 2 ^ 24 + 4))
    let bz := ip 2 (iw 3 (2 * 2 ^ 24 + 4))
    let deep := { t with stack := List.replicate 32 { reconv := 0, pendPc := 0, pendMask := 0, outer := 0 } }
    let bx := ir 0 4 0 0 0 0 0
    let bxd := ir 0 2 0 0 0 0 0
    let ca := iw 3 (3 * 2 ^ 24 + 6)
    let ba := ir 0 3 0 0 0 0 0
    let ap : Group := { t with arrivals := (t.arrivals.set 8 { Arrival.empty with mask := 8, pc := 0x3000 }).set 3 { Arrival.empty with mask := 8, pc := 0x3000 } }
    rg t .alu = true ∧ planRuns t n (Plan.noRegs (!isR n || !bodyZero n)) = true ∧ allPred n = true ∧
    planRuns t np (Plan.noRegs (!isR np || !bodyZero np)) = true ∧ t.selected np ≠ 0 ∧ t.selected np ≠ t.active ∧
    planRuns t nz (Plan.noRegs (!isR nz || !bodyZero nz)) = true ∧ t.selected nz = 0 ∧
    planRuns t fo (Plan.noRegs (!isR fo || fo.body != 0x100)) = true ∧
    (atIssue (sg t) .a .alu t).folding t.job t.loc.cl = false ∧ groupReady (onA fd) .a t.loc .alu t = true ∧
    (atIssue (onA fd) .a .alu t).folding t.job t.loc.cl = true ∧
    planRuns t br (Plan.noRegs (!isB br || (br.pred == 7 && wReconvU br != 0))) = true ∧ t.active &&& ~~~t.selected br = 0 ∧
    planRuns t bs (Plan.noRegs (!isB bs || (bs.pred == 7 && wReconvU bs != 0))) = true ∧ t.active &&& ~~~t.selected bs ≠ 0 ∧
    t.selected bs ≠ 0 ∧ t.stack.length < 32 ∧
    planRuns t bz (Plan.noRegs (!isB bz || (bz.pred == 7 && wReconvU bz != 0))) = true ∧ t.selected bz = 0 ∧
    rg deep .alu = true ∧ planRuns deep bs (Plan.noRegs (!isB bs || (bs.pred == 7 && wReconvU bs != 0))) = true ∧
    deep.active &&& ~~~deep.selected bs ≠ 0 ∧ deep.selected bs ≠ 0 ∧ 32 ≤ deep.stack.length ∧
    planRuns t bx (Plan.alu (!isR bx || !allPred bx || wDst bx != 0 || wImm bx != 0) [(wSrc0 bx, 2)]) = true ∧
    (∀ v ∈ (threadsOf t.active).map (fun i => t.pair (wSrc0 bx) i % 2 ^ 48), v = 0x1010) ∧
    planRuns t bxd (Plan.alu (!isR bxd || !allPred bxd || wDst bxd != 0 || wImm bxd != 0) [(wSrc0 bxd, 2)]) = true ∧
    t.pair (wSrc0 bxd) 0 ≠ t.pair (wSrc0 bxd) 1 ∧
    planRuns t ca (Plan.alu (!isB ca || !allPred ca || wBits ca 23 8 != 0) [(wBits ca 7 0, 2)]) = true ∧
    planRuns t ba (Plan.noRegs (!isR ba || wDst ba != 0 || decide (8 ≤ wSrc0 ba) || wImm ba != 0)) = true ∧
    t.selected ba = t.active ∧ rg ap .alu = true ∧ (ap.arrivals[(8 : Fin 9)]).mask ≠ 0 ∧ (ap.arrivals[(8 : Fin 9)]).pc ≠ ap.pc ∧
    (ap.arrivals[(3 : Fin 9)]).mask ≠ 0 ∧ (ap.arrivals[(3 : Fin 9)]).pc ≠ ap.pc ∧ ap.selected np ≠ 0 ∧ ap.selected n = ap.active ∧
    planRuns ap np (Plan.noRegs (!isR np || !bodyZero np)) = true
    := by decide

theorem wit_LaneAndMaskInstructions :
    let t := ga
    let mv := ii 3 0 6
    let sh := ir 3 2 1 0 0 0 0
    let ma := ir 4 0 0 0 0 0 0
    let bl := ir 4 1 0 0 0 0 0
    let pl := ir 3 0 1 0 0 3 0
    rg t .alu = true ∧ planRuns t mv (Plan.alu (!isI mv || wSrc0 mv != 0 || decide (7 < wImm mv)) [(wDst mv, 1)]) = true ∧
    t.busy (Plan.alu true [(3, 1)]) = false ∧ wDst (ii 3 0 8) = 3 ∧ 7 < wImm (ii 3 0 8) ∧ wImm mv = 6 ∧ (fetched (sg t) .a t).id = .a ∧
    planRuns t sh (Plan.alu (!isR sh || wSrc2 sh != 0 || wBits sh 15 0 != 0) [(wDst sh, 1), (wSrc0 sh, 1), (wSrc1 sh, 1)]) = true ∧
    planRuns t ma (Plan.alu (!isR ma || wSrc0 ma != 0 || wImm ma != 0) [(wDst ma, 2)]) = true ∧
    planRuns t bl (Plan.alu (!isR bl || decide (7 ≤ wSrc0 bl) || wImm bl != 0) [(wDst bl, 2)]) = true ∧
    planRuns t pl (Plan.noRegs (!isR pl || wTypeR pl != 0 || decide (3 < wModeR pl) || wSrc2 pl != 0 || wLow pl != 0 ||
        decide (7 ≤ wDst pl) || decide (7 ≤ wSrc0 pl) || decide (7 ≤ wSrc1 pl))) = true ∧ wModeR pl = 3
    := by decide

theorem wit_IntegerInstructions :
    let t := ga
    let w := ir 3 0 1 0 0 0 0
    let u := ir 3 0 1 0 4 0 0
    let bad := ir 3 0 1 0 6 0 0
    let far := ir 3 8 1 0 0 0 0
    let l : PendLoad := { dst := 1, size := 4, signed := false, mask := 3, vas := [], pas := [], sectors := [], got := [] }
    let nt := ir 3 0 0 0 2 0 0
    rg t .alu = true ∧ planRuns t w (binaryPlan 0 w) = true ∧ planRuns t u (binaryPlan 3 u) = true ∧
    signedness (intType 3 w) = some true ∧ signedness (intType 3 u) = none ∧ rg { t with loads := [l] } .alu = true ∧
    { t with loads := [l] }.busy (binaryPlan 0 w) = true ∧ t.busy (binaryPlan 0 bad) = false ∧ badBinary bad = true ∧
    t.busy (binaryPlan 0 far) = false ∧ badBinary far = false ∧ predLegal far = true ∧ (binaryPlan 0 far).inRange t = false ∧
    planRuns t nt (Plan.alu (badBinary nt || !isR nt || wSrc1 nt != 0) [(wDst nt, regsOf (wTypeR nt)), (wSrc0 nt, regsOf (wTypeR nt))]) = true ∧
    planRuns t nt (Plan.alu (badBinary nt || (if isI nt then wSrc0 nt != 0 else wSrc1 nt != 0))
        ([(wDst nt, regsOf (intType 0x0D nt))] ++ (if isI nt then [] else [(wSrc0 nt, regsOf (intType 0x0D nt))]))) = true
    := by decide

theorem wit_CompareAndSelectInstructions :
    let t := ga
    let w := ir 3 0 1 0 0 2 0
    let u := ir 3 0 1 0 4 2 0
    let v := ir 3 0 1 0 4 1 0
    let f := ir 3 0 1 0 4 2 0
    let h := ir 3 0 1 0 5 2 0
    let sl := ir 3 0 1 1 0 0 0
    rg t .alu = true ∧
    planRuns t w (let ty := intType 0x0E w; Plan.alu (!(isR w || isI w) ||
          (isR w && (decide (5 < wTypeR w) || decide (5 < wModeR w) || wSrc2 w != 0 || wLow w != 0)) || decide (7 ≤ wDst w))
        ([(wSrc0 w, regsOf ty)] ++ (if isI w then [] else [(wSrc1 w, regsOf ty)]))) = true ∧
    planRuns t u (let ty := intType 0x0E u; Plan.alu (!(isR u || isI u) ||
          (isR u && (decide (5 < wTypeR u) || decide (5 < wModeR u) || wSrc2 u != 0 || wLow u != 0)) || decide (7 ≤ wDst u))
        ([(wSrc0 u, regsOf ty)] ++ (if isI u then [] else [(wSrc1 u, regsOf ty)]))) = true ∧
    signedness (intType 0x0E w) = some true ∧ signedness (intType 0x0E u) = none ∧ 1 < setpMode u ∧ setpMode v ≤ 1 ∧
    planRuns t f (Plan.alu (badFloat false f false true true || decide (7 ≤ wDst f))
        ([(wSrc0 f, 1)] ++ (if isI f then [] else [(wSrc1 f, 1)]))) = true ∧
    planRuns t h (Plan.alu (badFloat true h false true true || decide (7 ≤ wDst h))
        ([(wSrc0 h, 1)] ++ (if isI h then [] else [(wSrc1 h, 1)]))) = true ∧
    planRuns t sl (Plan.alu (!isR sl || decide (5 < wTypeR sl) || wModeR sl != 0 || decide (7 ≤ wSrc2 sl) || wLow sl != 0)
        [(wDst sl, regsOf (wTypeR sl)), (wSrc0 sl, regsOf (wTypeR sl)), (wSrc1 sl, regsOf (wTypeR sl))]) = true
    := by decide

/-- After the command a thread's register of the one group holds this value. -/
def laneIs (c : Instr) (s : State) (r i v : Nat) : Bool :=
  isNext (exec c s) fun u => u.a.sh.groups.any fun t => t.lane r i == BitVec.ofNat 32 v

/-- r0 is 1.0, r1 is 2.0, r2 is the binary16 pair (1.0, 2.0), r3 is 3.75, r4 a line's address in each thread. -/
def gf : Group := { ga with regs := [lanes 0x3F800000, lanes 0x40000000, lanes 0x40003C00, lanes 0x40700000, Vector.ofFn (fun i : Fin 64 => BitVec.ofNat 32 (4 * i.val)), lanes 0, lanes 0x7F7F, lanes 9] }

/-- The M format: size, hint, offset. -/
def im (dst addr data size hint ofs : Nat) : InstrBits :=
  iw 2 (dst * 2 ^ 40 + addr * 2 ^ 32 + data * 2 ^ 24 + size * 2 ^ 20 + hint * 2 ^ 16 + ofs)

theorem wit_FloatInstructions :
    let t := gf
    let w := ir 5 0 1 0 4 0 0
    let h := ir 5 2 2 0 5 0 0
    let bad := ir 5 0 1 0 3 0 0
    let m := ir 5 0 1 3 4 0 0
    let o := ir 5 0 0 0 4 0 0
    rg t .alu = true ∧
    planRuns t w (Plan.alu (badFloat false w false true false)
        ([(wDst w, 1), (wSrc0 w, 1)] ++ (if isI w then [] else [(wSrc1 w, 1)]))) = true ∧
    planRuns t h (Plan.alu (badFloat true h false true false)
        ([(wDst h, 1), (wSrc0 h, 1)] ++ (if isI h then [] else [(wSrc1 h, 1)]))) = true ∧
    badFloat false bad false true false = true ∧ t.awaited = [] ∧
    planRuns t m (Plan.alu (badFloat false m true true false) [(wDst m, 1), (wSrc0 m, 1), (wSrc1 m, 1), (wSrc2 m, 1)]) = true ∧
    planRuns t o (Plan.alu (badFloat false o false false false) [(wDst o, 1), (wSrc0 o, 1)]) = true ∧
    planRuns t o (Plan.alu (!isR o || !(wTypeR o == 4 || wTypeR o == 5) || wModeR o != 0 || wLow o != 0 || wSrc1 o != 0 ||
        wSrc2 o != 0) [(wDst o, 1), (wSrc0 o, 1)]) = true
    := by decide

theorem wit_ConversionInstructions :
    let t := gf
    let c := ir 5 3 0 0 4 1 0
    let p := ir 5 3 6 0x10 4 0 0
    let u := ir 5 2 6 0x10 4 0 0
    let f := ir 5 2 6 0x10 0 7 0
    rg t .alu = true ∧ planRuns t c (Plan.alu (!isR c || decide (5 < wTypeR c) || decide (5 < cvtDst c) ||
        decide (16 ≤ wSrc2 c) || wSrc1 c != 0 || wLow c != 0 || decide (1 < wModeR c) || (decide (4 ≤ cvtDst c) && wModeR c != 0))
        [(wDst c, regsOf (cvtDst c)), (wSrc0 c, regsOf (wTypeR c))]) = true ∧
    planRuns t p (Plan.alu (!isR p || !(wTypeR p == 0 || wTypeR p == 1 || wTypeR p == 4) || badElem p || wModeR p != 0 ||
        wLow p != 0) [(wDst p, 1), (wSrc0 p, 1), (wSrc1 p, 1)]) = true ∧
    planRuns t u (Plan.alu (!isR u || wTypeR u != 4 || badElem u || wModeR u != 0 || wLow u != 0)
        [(wDst u, 1), (wSrc0 u, 1), (wSrc1 u, 1)]) = true ∧
    planRuns t f (Plan.alu (!isR f || wTypeR f != 0 || wSrc2 f / 64 != 0 || wSrc2 f % 16 != 0 || decide (8 ≤ wModeR f) ||
        wLow f != 0) [(wDst f, 1), (wSrc0 f, 1), (wSrc1 f, 1)]) = true ∧
    (Elem.fn4.width * (7 + 1) ≤ 32 ∧ Elem.fn4.width * (0 + 1) ≤ 32)
    := by decide

theorem wit_MemoryAndFenceInstructions_loads :
    let t := gf
    let s := sg t
    let l := im 0 4 0 2 0 0
    let ls := im 0 4 0 1 0 0
    let lm := im 0 4 0 2 0 2
    let lz := ip 2 l
    let sw := im 0 4 7 2 0 0
    let pf := im 0 4 0 0 0 0
    rg t .mem = true ∧
    planRuns t l (Plan.alu (!isM l || decide (4 < wSize l) || wData l != 0 || wHint l != 0) [(wDst l, accRegs l), (wAddr l, 2)]) = true ∧
    planRuns t ls (Plan.alu (!isM ls || decide (1 < wSize ls) || wData ls != 0 || wHint ls != 0) [(wDst ls, 1), (wAddr ls, 2)]) = true ∧
    ((threadsOf (t.selected lm)).map (t.vaOf lm)).find? (fun v => v % accBytes lm != 0) = some 2 ∧
    (threadsOf (t.selected lz)).map (t.vaOf lz) = [] ∧ (∀ v ∈ (threadsOf (t.selected l)).map (t.vaOf l), v % 4 = 0) ∧
    (prewalk (s.die .b) (atIssue s .a .mem t) (.group t.loc) t.ctx
      (((threadsOf (t.selected l)).map (t.vaOf l)).map fun v => { va := v, len := 4, acc := accRead })).2.isSome = true ∧
    planRuns t sw (storePlan sw t) = true ∧ threadsOf (t.selected sw &&& ~~~t.helpers) ≠ [] ∧
    (prewalk (s.die .b) (atIssue s .a .mem t) (.group t.loc) t.ctx
      (((threadsOf (t.selected sw)).map (t.vaOf sw)).map fun v => { va := v, len := 4, acc := accWrite })).2.isSome = true ∧
    planRuns t pf (Plan.alu (!isM pf || wSize pf != 0 || wDst pf != 0 || wData pf != 0 || decide (1 < wHint pf)) [(wAddr pf, 2)]) = true
    := by decide

theorem wit_LocalMemoryInstructions :
    let t := gf
    let c : Die → Die := fun x => { (sx t x) with sh.parts := [{ part0 with mask := 1 }], cache.l1s := [{ (x.l1 { cl := 0, core := 0 }) with carve := 1, carveJob := some 0, carveMem := [(0, 5), (4, 6)] }] }
    let s := onA c
    let l := im 1 4 0 2 0 0
    let lm := im 1 4 0 2 0 2
    let lo := im 1 4 0 2 0 32764
    let sw := im 0 4 7 2 0 0
    let sb := im 0 4 7 1 0 0
    let zs := onA (sx t)
    let zl := ip 2 l
    groupReady zs .a t.loc .mem t = true ∧ planRuns t zl (Plan.alu (!isM zl || decide (4 < wSize zl) || wData zl != 0 || wHint zl != 0)
      [(wDst zl, accRegs zl), (wAddr zl, 1)]) = true ∧ (threadsOf (t.selected zl)).map (t.ofsOf zl) = [] ∧
    carveSize (atIssue zs .a .mem t) t = 0 ∧ 32768 * maskSteps (partMask (atIssue zs .a .mem t) t) = 0 ∧
    planRuns t sb (Plan.alu (!isM sb || decide (4 < wSize sb) || wDst sb != 0 || wHint sb != 0) [(wData sb, accRegs sb), (wAddr sb, 1)]) = true ∧
    wSize sb < 2 ∧ (threadsOf (t.selected sb)).map (t.ofsOf sb) ≠ [] ∧
    (∀ o ∈ (threadsOf (t.selected sb)).map (t.ofsOf sb), o % 2 = 0 ∧ 0 ≤ o ∧ o + 2 ≤ 32768) ∧
    groupReady s .a t.loc .mem t = true ∧
    planRuns t l (Plan.alu (!isM l || decide (4 < wSize l) || wData l != 0 || wHint l != 0) [(wDst l, accRegs l), (wAddr l, 1)]) = true ∧
    planRuns t sw (Plan.alu (!isM sw || decide (4 < wSize sw) || wDst sw != 0 || wHint sw != 0) [(wData sw, accRegs sw), (wAddr sw, 1)]) = true ∧
    ((threadsOf (t.selected lm)).map (t.ofsOf lm)).find? (fun o => decide (o % ((accBytes lm : Nat) : Int) ≠ 0)) = some 2 ∧
    carveSize (atIssue s .a .mem t) t = 32768 ∧ 32768 * maskSteps (partMask (atIssue s .a .mem t) t) = 32768 ∧
    ((threadsOf (t.selected lo)).map (t.ofsOf lo)).find? (fun o => decide (o < 0) || decide (((32768 : Nat) : Int) < o + 4)) = some 32768 ∧
    (∀ o ∈ (threadsOf (t.selected lo)).map (t.ofsOf lo), o % 4 = 0) ∧
    (∀ o ∈ (threadsOf (t.selected l)).map (t.ofsOf l), o % 4 = 0 ∧ 0 ≤ o ∧ o + 4 ≤ 32768)
    := by decide

theorem wit_MemoryAndFenceInstructions_fences :
    let t := gf
    let s := sg t
    let r := iw 2 (2 * 2 ^ 20 + 2 * 2 ^ 16)
    let a := iw 2 (1 * 2 ^ 20 + 2 * 2 ^ 16)
    let n := iw 2 (2 * 2 ^ 20)
    let f := fun (sc : Nat) (b : Bool) => { gf with fence := some { kind := 3, scope := sc, sent := b } }
    let e : MergeEnt := { pa := 0, bytes := [(0, 1)], closed := false, born := 0, asked := true, ctx := 1, jobs := [0], spoil := 0 }
    let q : Die → Die := fun x => { (sx (f 2 false) x) with cache.l1s := [{ (x.l1 { cl := 0, core := 0 }) with merge := [e] }] }
    let qq : Die → Die := fun x => { (sx (f 4 true) x) with cache.l2s := [{ L2.fresh 0 with merge := [e] }] }
    let ld : PendLoad := { dst := 1, size := 4, signed := false, mask := 3, vas := [], pas := [], sectors := [], got := [] }
    let lo : Group → Die → Die := fun t x => sx { t with loads := [ld] } x
    let sm : Group → Die → Die := fun t x => { sx t x with pair.mode := 2, pair.mirOut := [.wipe 0] }
    rg t .mem = true ∧ planRuns t r (Plan.noRegs (!isM r || wSize r == 0 || decide (3 < wSize r) ||
        decide (5 < wHint r) || wAddr r != 0 || wDst r != 0 || wData r != 0 || wOfsU r != 0)) = true ∧ wSize r ≠ 1 ∧ 2 ≤ wHint r ∧
    planRuns t a (Plan.noRegs (!isM a || wSize a == 0 || decide (3 < wSize a) ||
        decide (5 < wHint a) || wAddr a != 0 || wDst a != 0 || wData a != 0 || wOfsU a != 0)) = true ∧ wSize a = 1 ∧ 2 ≤ wHint a ∧
    planRuns t n (Plan.noRegs (!isM n || wSize n == 0 || decide (3 < wSize n) ||
        decide (5 < wHint n) || wAddr n != 0 || wDst n != 0 || wData n != 0 || wOfsU n != 0)) = true ∧ wHint n < 2 ∧
    ((sg (f 2 false)).die .a).group? t.loc = some (f 2 false) ∧ ((sg (f 2 false)).die .a).running = true ∧
    l1Drained ((sg (f 2 false)).die .a) (coreOf t.loc) = true ∧ l2Drained ((sg (f 2 false)).die .a) = true ∧ (f 2 false).loads = [] ∧
    (onA (lo (f 2 false))).a.group? t.loc = some { f 2 false with loads := [ld] } ∧ [ld] ≠ [] ∧
    l2Drained (onA qq).a = false ∧ (onA qq).a.group? t.loc = some (f 4 true) ∧ l1Drained (onA qq).a (coreOf t.loc) = true ∧
    (onA (sm (f 5 true))).a.pair.mode = 2 ∧ (onA (sm (f 5 true))).a.pair.mirOut ≠ [] ∧ l2Drained (onA (sm (f 5 true))).a = true ∧
    (onA (sm (f 5 true))).a.group? t.loc = some (f 5 true) ∧
    (onA q).a.group? t.loc = some (f 2 false) ∧ (onA q).a.running = true ∧ l1Drained (onA q).a (coreOf t.loc) = false
    := by decide

/-- `gf` with an address pair of zeros in r5 and r6, and four accumulator registers. -/
def gt : Group := { gf with regs := gf.regs.set 6 (lanes 0), accs := [lanes 0, lanes 0, lanes 0, lanes 7] }

theorem wit_AtomicInstructions :
    let t := gt
    let s := sg t
    let w := im 0 5 7 2 0 0
    let wm := im 0 5 7 2 0 2
    let wf := im 0 5 0 2 0 0
    let wc := im 0 5 2 2 0 0
    let y := atIssue s .a .mem t
    let us : List URange := (threadsOf t.active).map fun i => { va := t.vaOf w i, len := 4, acc := accAtomic }
    let u := { t with atomics := [{ dst := 1, wide := false, mask := 3, values := [7, 8] }] }
    rg t .mem = true ∧ planRuns t w (atomPlan w 1 true t) = true ∧ planRuns t wf (atomPlan wf 1 false t) = true ∧
    planRuns t wc (atomPlan wc 2 true t) = true ∧
    ((threadsOf (t.selected wm)).map (t.vaOf wm)).find? (fun v => v % atomBytes wm != 0) = some 2 ∧
    threadsOf (t.selected (ip 2 w) &&& ~~~t.helpers) = [] ∧
    (∀ v ∈ (threadsOf (t.selected w)).map (t.vaOf w), v % atomBytes w = 0) ∧ threadsOf (t.selected w &&& ~~~t.helpers) ≠ [] ∧
    (match prewalk (s.die .b) y (.group t.loc) t.ctx us with
     | (z, some pm) => (atomLines (s.die .b) z { t with wait := 0 } pm us).2
     | (_, none) => false) = true ∧
    ((threadsOf t.active).map (t.vaOf w)).eraseDups = [0] ∧ (s.die .a).running = true ∧ ((sg u).die .a).group? t.loc = some u
    := by decide

theorem wit_MatrixInstructions :
    let t := gt
    let mm := ii 0 7 (7 * 2 ^ 24 + 0x100)
    let mr := ii 6 3 0
    let z := ii 0 0 0
    let sc := ii 1 4 1
    let sr := ii 6 0 3
    let ms := ii 6 0 0
    let mc := ii 0 0 7
    rg t .mtx = true ∧ planRuns t mm (mmaPlan 0 mm) = true ∧ planRuns t mm (mmaPlan 8 mm) = true ∧
    t.busy (mmaPlan 4 mm) = false ∧ mmaBad 4 mm = true ∧ mmaRow 0 ∈ mmaRows ∧ intAccumulate (mmaRow 0) mm = true ∧
    planRuns t mr (mtxPlan (!mtxForm mr || wImm mr != 0) [(wDst mr, 1)] [(wSrc0 mr, 1)]) = true ∧
    planRuns t (ii 3 7 0) (mtxPlan (!mtxForm (ii 3 7 0) || wImm (ii 3 7 0) != 0) [(wSrc0 (ii 3 7 0), 1)] [(wDst (ii 3 7 0), 1)]) = true ∧
    planRuns t z (mtxPlan (!mtxForm z || wImm z != 0 || wSrc0 z != 0 || wDst z % 4 != 0) [] [(wDst z, 4)]) = true ∧
    planRuns t sc (mtxPlan (!mtxForm sc || decide (8 ≤ wDst sc) || decide (4 ≤ wImm sc)) [(wSrc0 sc, 1)] []) = true ∧ wDst sc < 8 ∧
    planRuns t sr (mtxPlan (!mtxForm sr || decide (8 ≤ wSrc0 sr) || decide (4 ≤ wImm sr)) [(wDst sr, 1)] []) = true ∧
    planRuns t ms (mtxPlan (!mtxForm ms || wSrc0 ms != 0 || decide (4 ≤ wImm ms)) [(wDst ms, 1)] []) = true ∧
    planRuns t mc (mtxPlan (!mtxForm mc || wDst mc != 0 || wSrc0 mc != 0 || decide (8 ≤ wImm mc)) [] []) = true
    := by decide

theorem wit_QuantInstructions :
    let t := gt
    let w := ii 1 0 (2 ^ 31)
    let wa := ii 1 0 (2 ^ 31 + 2 ^ 28 + 2 * 2 ^ 25)
    let bad := ii 1 0 1
    rg t .mtx = true ∧ planRuns t w (quantPlan 0 w) = true ∧ qAuto w = false ∧ planRuns t wa (quantPlan 0 wa) = true ∧
    t.busy (quantPlan 0 bad) = false ∧ quantBad 0 bad = true ∧ ((5 : Nat) ≠ 0 ∧ -127 < leastExp .int8 5 0 ∧ leastExp .int8 5 0 < 127)
    := by decide

/-- A draw: late, ordered, with three varyings, its resources at 0x800. -/
def dw : List Byte := putField (putField (leBytes 152 0) 0x40 (leBytes 4 0xA300)) 0x18 (leBytes 8 0x800)

/-- A pass of job 0 in some phase. -/
def pz (ph : PassPhase) (desc draw : List Byte) : Pass :=
  { job := 0, ctx := 1, desc := desc, phase := ph, resume := ph, segment := 1, drawVa := 0, drawNo := 0, draw := draw, checked := true, inst := 0, position := 0, tri := 0, stripStart := 0, stripTri := 0, cuts := [], verts := [], draws := [(0, draw)], fan := [], nextChunk := 0, vChunk := 0, vOfs := 0, lChunk := 0, lSeg := 0, chunksUsed := 0, exts := [], extBase := 0, tails := [], served := 0, extWait := none, nextTile := 0, tiles := [], frozen := none, halted := [], primsIn := 0, primsBinned := 0, primsCulled := 0, tilesRendered := 0, rinses := 0, extGranted := 0, extRefused := 0, peak := 0, samplesPassed := 0 }

/-- A thread's quad pixel. -/
def fr (order : Nat) : FragThread := { x := 0, y := 0, cover := 1, order := order, front := true, helper := false, depth := [] }

theorem wit_OutputAndTextureInstructions :
    let tv := { gt with stage := .vertex 0 0 0 64, out := List.replicate 64 noOut }
    let tf := { gt with stage := .fragment 0 0 0 0, out := List.replicate 64 noOut, frags := List.replicate 64 (fr 1), active := 1 }
    let td := putField (putField (putField (putField (putField (leBytes 32 0) 0 (leBytes 8 0x900)) 8 (leBytes 2 4)) 0x0A (leBytes 2 4)) 0x0C [1, 1]) 0x10 (leBytes 4 64)
    let q : Group → Die → Die := fun t x => { sx t x with passes := vmod x.passes 0 fun _ => some (pz .tile [] dw), dram.cells := (List.range 32).filterMap fun i => if td.getD i 0 = 0 then none else some (0x800 + i, td.getD i 0) }
    let w := im 0 0 0 0 0 0
    let wd := im 0 0 0 0 0 3
    let z := iw 2 0
    let tw : Die → Die := fun x => { q tf x with passes := vmod x.passes 0 fun _ => some { pz .tile [] dw with tiles := [{ cl := 0, tile := 0, slot := 0, segVa := 0, entry := 0, drawn := 0, listDone := false, upTo := 0, quads := [{ sub := 0, drawNo := 0, prim := { drawNo := 0, id := 0, front := true, verts := [] }, threads := [fr 0], tested := true }], pendingFrags := [], done := [], nextOrder := 0 }] } }
    let f := im 0 4 6 0 0 0
    let fo := im 0 0 6 0 0 0
    groupReady (onA (q tv)) .a tv.loc .mem tv = true ∧ groupReady (onA (q tf)) .a tf.loc .mem tf = true ∧
    planRuns tv w (Plan.alu (!outFields w || wOfsU w != 0 || !tv.isVertex) [(wData w, 4)]) = true ∧
    planRuns tv w (Plan.alu (!outFields w || !tv.isVertex || decide (wVaryings (drawWord (onA (q tv)).a tv) ≤ wOfsU w)) [(wData w, 4)]) = true ∧
    planRuns tf wd (Plan.alu (!outFields wd || !tf.isFragment || decide (3 < wOfsU wd)) [(wData wd, 4)]) = true ∧
    planRuns tf w (Plan.alu (!outFields w || wOfsU w != 0 || !tf.isFragment || !wLate (drawWord (onA (q tf)).a tf)) [(wData w, 1)]) = true ∧
    planRuns tf z (Plan.noRegs (!outFields z || wData z != 0 || wOfsU z != 0 || !tf.isFragment || !wLate (drawWord (onA (q tf)).a tf))) = true ∧
    planRuns tf z (Plan.noRegs (ilkAcqBad (onA (q tf)).a z tf)) = true ∧ ilkWaits (onA (q tf)).a tf = false ∧
    groupReady (onA tw) .a tf.loc .mem tf = true ∧ ilkWaits (onA tw).a tf = true ∧
    planRuns { tf with ilk := 1 } z (Plan.noRegs (!ilkFields z || { tf with ilk := 1 }.ilk != 1)) = true ∧
    planRuns tf f (Plan.alu (!texFields f || wHint f != 0 || decide (tf.stage = .compute)) [(wDst f, 4), (wAddr f, 2), (wData f, 1)]) = true ∧
    planRuns tf w (Plan.alu (!texFields w || decide (1 < wHint w) || (wHint w == 0 && (wData w != 0 || !tf.isFragment)) ||
          decide (tf.stage = .compute)) ([(wDst w, 4), (wAddr w, 2)] ++ (if wHint w = 1 then [(wData w, 1)] else []))) = true ∧
    (readUnit (onA (q tf)).b (atIssue (onA (q tf)) .a .mem tf) (.texture tf.loc) 1 0x800 32 accRead).2 = some td ∧ texOk td = true ∧
    (readUnit (onA (q tf)).b (atIssue (onA (q tf)) .a .mem tf) (.texture tf.loc) 1 0x820 32 accRead).2 = some (leBytes 32 0) ∧
    texOk (leBytes 32 0) = false ∧
    (∀ i ∈ threadsOf (tf.selected fo), (fetchAsk td fo tf i).texels = []) ∧ (fetchAsk td f tf 0).texels ≠ [] ∧
    (let z := (readUnit (onA (q tf)).b (atIssue (onA (q tf)) .a .mem tf) (.texture tf.loc) 1 0x800 32 accRead).1
     match prewalk (onA (q tf)).b z (.texture tf.loc) 1 ((((fetchAsk td f tf 0).texels.map (texelVa td)).eraseDups.map
       fun q => { va := q.1, len := q.2, acc := accRead })) with
     | (zz, some pm) => (readTexels (onA (q tf)).b zz { tf with wait := 0 } pm td (fetchAsk td f tf 0).texels).2.isSome
     | (_, none) => false) = true
    := by decide

/-- Memory that holds some byte strings, in rising order. -/
def memOf (l : List (Nat × List Byte)) : List Host.Cell :=
  (l.map fun q => (List.range q.2.length).filterMap fun i => if q.2.getD i 0 = 0 then none else some (q.1 + i, q.2.getD i 0)).flatten

/-- A running graphics job on cluster 0 with 512 KiB of tile memory: its pass descriptor lies at 0x1000. -/
def jg : Job := { jb .running (putField (putField dc 0 [1]) 0x08 (leBytes 4 512)) with shares := [shr .live] }

/-- A pass descriptor: 16 by 16 pixels in one tile, one colour attachment at 0x3000 that is cleared and stored, a hamper of three
chunks at 0, rinsing to 0x8000 and extension by the reserve at 0x5000 allowed, and the given first draw. -/
def pd (draw : Nat) : List Byte :=
  [(0x00, leBytes 2 16), (0x02, leBytes 2 16), (0x04, [1]), (0x05, [1]), (0x06, [1]), (0x07, [6]), (0x08, leBytes 8 draw),
   (0x18, leBytes 4 3), (0x1C, leBytes 2 1), (0x20, leBytes 8 0x5000), (0x28, leBytes 8 0x8000), (0x60, leBytes 8 0x3000), (0x78, leBytes 2 1), (0x7C, [1, 2, 1])].foldl
    (fun b q => putField b q.1 q.2) (leBytes 256 0)

/-- A draw of some vertices with a vertex shader at 0x1100 of 8 registers, for the whole tile. -/
def wd (count : Nat) : List Byte :=
  [(0x08, leBytes 8 0x1100), (0x20, leBytes 8 0x123456789), (0x30, leBytes 4 count), (0x34, leBytes 4 1), (0x42, [1]), (0x6C, leBytes 2 16), (0x6E, leBytes 2 16)].foldl
    (fun b q => putField b q.1 q.2) (leBytes 128 0)

/-- A die whose pass slot 0 holds a pass of the graphics job. -/
def gx (q : Pass) (m : List (Nat × List Byte)) (x : Die) : Die :=
  { jx jg x with passes := vmod x.passes 0 fun _ => some q, sh.parts := [{ part0 with mask := 1 }], dram.cells := memOf m }

/-- The pass of slot 0 afterwards. -/
def passIs (c : Instr) (s : State) (f : Pass → Bool) : Bool :=
  isNext (exec c s) fun t => match t.a.passes[(0 : Fin 4)] with
    | some q => f q
    | none => false

theorem wit_TheFrontEndServesPasses :
    let q0 := pz .binning [] []
    let m := [(0x1000, pd 0x80)]
    let q1 := { pz .binning (pd 0x80) [] with checked := false, drawVa := 0x80 }
    let v24 := leBytes 24 0
    let q2 := pz .binning (pd 0x80) (wd 6 ++ v24)
    let vt : Nat → Vert := fun i => { index := i, inst := 0, pos := [0, 0, 0, 0], vars := [] }
    let q3 := { pz .binning (pd 0x80) (wd 2 ++ v24) with position := 2, verts := [vt 0, vt 1] }
    let q4 := { pz .binning (pd 0x80) (wd 3 ++ v24) with position := 3, verts := [vt 0, vt 1, vt 2] }
    let dd := putField (pd 0x80) 0x07 [1]
    let md := [(0x1000, dd)]
    let q5 := { pz .binning (pd 0x80) (wd 3 ++ v24) with fan := [{ drawNo := 0, id := 0, front := true, verts := [([0, 0, 0, 0], []), ([0, 0, 0, 0], []), ([0, 0, 0, 0], [])] }] }
    let nc : Die → Die := fun x => { gx q2 [] x with jobs.list := [{ jg with shares := [] }] }
    let x1 := (onA (gx q1 [(0x80, wd 0)])).a
    let x2 := (onA (gx q2 [])).a
    frontPass (onA (gx q0 m)).a 0 = some (q0, jg) ∧ q0.desc = [] ∧ q0.phase ≠ .folding ∧
    (readUnit (onA (gx q0 m)).b (onA (gx q0 m)).a (.frontEnd 0) 1 (dWorkVa jg.desc) 256 accRead).2 = some (pd 0x80) ∧
    passOk (pd 0x80) (dSteps jg.desc) = true ∧ pDirect (pd 0x80) = false ∧ passOk (leBytes 256 0) (dSteps jg.desc) = false ∧
    (writeList (onA (gx q0 m)).b (onA (gx q0 m)).a (.frontEnd 0) 1 (splitBytes 0 (List.replicate 16 0))).2 = true ∧
    (readUnit (onA (gx q0 md)).b (onA (gx q0 md)).a (.frontEnd 0) 1 (dWorkVa jg.desc) 256 accRead).2 = some dd ∧
    passOk dd (dSteps jg.desc) = true ∧ pDirect dd = true ∧
    (clearImages (onA (gx q0 md)).b (onA (gx q0 md)).a 0 1 ((shareClusters jg).headD 0) dd).2 = true ∧
    q5.fan ≠ [] ∧ q5.hasWork = true ∧ (onA (gx q5 [])).a.frontServes 0 q5 jg = true ∧
    frontPass (onA nc).a 0 = some (q2, { jg with shares := [] }) ∧ (onA nc).a.schedules = true ∧
    (onA nc).a.bestCore (inOrder (liveClusters { jg with shares := [] })) 0 0 (wVsRegs q2.draw) 0 1 = none ∧
    q1.desc ≠ [] ∧ q1.checked = false ∧ q1.drawVa ≠ 0 ∧ q1.phase = .binning ∧
    (readUnit (onA (gx q1 [(0x80, wd 0)])).b x1 (.frontEnd 0) 1 0x80 128 accRead).2 = some (wd 0) ∧
    drawOk (pd 0x80) (wd 0) = true ∧ drawOk (pd 0x80) (wd 3) = true ∧ drawOk (pd 0x80) (leBytes 128 0) = false ∧ q1.drawNo ≤ 1048574 ∧
    (readUnit (onA (gx q1 [(0x80, wd 0)])).b x1 (.frontEnd 0) 1 (pViewportsVa (pd 0x80) + 24 * wViewport (wd 0)) 24 accRead).2.isSome = true ∧
    q2.checked = true ∧ q2.position < wCount q2.draw ∧ x2.schedules = true ∧
    x2.bestCore (inOrder (liveClusters jg)) 0 0 (wVsRegs q2.draw) 0 1 = some { cl := 0, core := 0 } ∧
    (indexValues (onA (gx q2 [])).b x2 0 q2 6).2 = some [0, 1, 2, 3, 4, 5] ∧ 4 ≤ wVsRegs q2.draw ∧
    q3.hasWork = true ∧ (onA (gx q3 [])).a.frontServes 0 q3 jg = true ∧ q3.fan = [] ∧ q3.nextTri = .over ∧
    q4.hasWork = true ∧ q4.nextTri = .tri 0 0 [] [vt 0, vt 1, vt 2] ∧ q1.hasWork = false
    := by decide

theorem wit_HamperTilesAndCompletion :
    let e := { pz .binning (pd 0) [] with extWait := some 0 }
    let hdr := leBytes 8 0x10000 ++ leBytes 4 9 ++ leBytes 4 0 ++ [0xFF, 0]
    let ex := gx e [(0x5000, hdr)]
    let ef := gx e [(0x5000, leBytes 8 0x10000 ++ leBytes 4 8 ++ leBytes 4 0 ++ [0xFF])]
    let late : Die → Die := fun x => { ex x with time := 100000000 }
    let rn := { pz .rinse (pd 0) [] with nextTile := 1, tails := [(0, 3, 0x100)] }
    let fl : TileFlight := { cl := 0, tile := 0, slot := 0, segVa := 0, entry := 0, drawn := 0, listDone := true, upTo := 0, quads := [], pendingFrags := [], done := [], nextOrder := 0 }
    let dr := putField (putField (wd 3) 0x10 (leBytes 8 0x1200)) 0x43 [1] ++ leBytes 24 0
    let qd : Quad := { sub := 0, drawNo := 0, prim := { drawNo := 0, id := 9, front := true, verts := [] }, threads := [fr 0, fr 0, fr 0, fr 0], tested := true }
    let tl : List TileFlight → Pass := fun l => { pz .tile (pd 0) dr with tiles := l }
    let done := { pz .tile (pd 0) [] with nextTile := 1 }
    let rank := fun (q : Pass) => (onA (gx q [])).a
    (onA ex).a.passes[(0 : Fin 4)] = some e ∧ (onA ex).a.running = true ∧ (onA ex).a.oldestExt 0 = true ∧ e.frozen = none ∧ (onA late).a.oldestExt 0 = true ∧
    (readReserve (onA late).b (onA late).a 0 e).2 = some (0x10000, 9, [0xFF, 0]) ∧
    (readReserve (onA late).b (onA late).a 0 e).1.passed 0 (readReserve (onA late).b (onA late).a 0 e).1.extWaitUs = true ∧
    (readReserve (onA ex).b (onA ex).a 0 e).1.passed 0 (readReserve (onA ex).b (onA ex).a 0 e).1.extWaitUs = false ∧
    (List.range 8).find? (fun c => !(([0xFF] : List Byte).getD (c / 8) 0).getLsbD (c % 8)) = none ∧
    (readReserve (onA ex).b (onA ex).a 0 e).2 = some (0x10000, 9, [0xFF, 0]) ∧
    (List.range 9).find? (fun c => !(([0xFF, 0] : List Byte).getD (c / 8) 0).getLsbD (c % 8)) = some 8 ∧
    (readReserve (onA ef).b (onA ef).a 0 e).2 = some (0x10000, 8, [0xFF]) ∧
    (writeMap (onA ex).b (onA ex).a 0 e (mapBits [0xFF, 0] [8] true)).2 = true ∧
    (onA late).a.passed 0 (onA late).a.extWaitUs = true ∧ (onA ex).a.passed 0 (onA ex).a.extWaitUs = false ∧
    pAllowRinse e.desc = true ∧ e.phase ≠ .folding ∧ frontPass (onA (gx rn [])).a 0 = some (rn, jg) ∧
    pTiles rn.desc ≤ rn.nextTile ∧ rn.tiles = [] ∧
    (writeList (onA (gx rn [])).b (onA (gx rn [])).a (.frontEnd 0) 1 (rn.tails.map fun t => (headVa rn.desc t.1, List.replicate 12 0))).2 = true ∧
    (returnChunks (onA (gx rn [])).b (onA (gx rn [])).a 0 rn).2 = true ∧
    frontPass (rank (tl [fl])) 0 = some (tl [fl], jg) ∧ (rank (tl [fl])).unitFrozen 0 = false ∧ (tl [fl]).haltedOn 0 = false ∧
    frontPass ((tl [fl]).tiles.foldl (fun y f => serveTile (onA (gx (tl [fl]) [])).b y 0 f.tile) (rank (tl [fl]))) 0 = some (tl [fl], jg) ∧
    (liveClusters jg).contains 0 = true ∧ (rank (tl [fl])).part? 0 0 = some { part0 with mask := 1 } ∧
    (tl [fl]).tiles.find? (fun f => f.listDone && f.settled) = some fl ∧
    (tl [{ fl with listDone := false }]).tiles.find? (fun f => f.listDone && f.settled) = none ∧
    (tl [{ fl with quads := [qd] }]).tiles.find? (fun f => f.listDone && f.settled) = none ∧
    frontPass ((tl [{ fl with quads := [qd] }]).tiles.foldl (fun y f => serveTile (onA (gx (tl [{ fl with quads := [qd] }]) [])).b y 0 f.tile) (rank (tl [{ fl with quads := [qd] }]))) 0 = some (tl [{ fl with quads := [qd] }], jg) ∧
    groupQuads (tl [{ fl with quads := [qd] }]) { fl with quads := [qd] } 0 0 = [qd] ∧
    (((rank (tl [{ fl with quads := [qd] }])).bestPipe { cl := 0, core := coreFin 0 } (wFsRegs dr) 0).isSome) = true ∧
    (eachRegion (tl [fl]).desc 0 (rank (tl [fl])) (fun v c i a => storeRegion (onA (gx (tl [fl]) [])).b v (tl [fl]) 1 c 0 0 i a)).2 = true ∧
    frontPass (rank done) 0 = some (done, jg) ∧ done.desc ≠ [] ∧ done.drawn = true ∧ (rank done).sh.groups = [] ∧
    (rank done).storesDone 0 = true ∧ pStatVa done.desc = 0 ∧ (returnChunks (onA (gx done [])).b (rank done) 0 done).2 = true
    := by decide

/-- A die with some registers set. -/
def wr (l : List (Reg × List Nat × Nat)) (x : Die) : Die :=
  { x with regs := l.foldl (fun m q => spSet (fun _ => q.1.info.reset) m (q.1.addr q.2.1) (BitVec.ofNat 32 q.2.2)) x.regs }

/-- A die whose display pipe 0 is changed, with the timing of two lines of 64 pixels. -/
def px (f : Pipe → Pipe) (x : Die) : Die :=
  wr [(.dspPipeHtiming, [0], 0x800040), (.dspPipeVtiming, [0], 0x200002), (.dspPipeCtrl, [0], 7)] ((mem1 x).updPipe 0 f)

/-- An enabled pipe. -/
def on (t : Pipe) : Pipe := { t with en := true }

/-- A pending press of epoch 5 for pipe 0, with these pressed words. -/
def due (l : List (Reg × List Nat × Nat)) (x : Die) : Die :=
  { x with press.behind := bit44 22, press.epoch := 5, press.pressed := l.foldl (fun m q => spSet (fun _ => q.1.info.reset) m (q.1.addr q.2.1) (BitVec.ofNat 32 q.2.2)) [] }

/-- A layer's words: enabled, fenced on address 0 of context 1, for some value. -/
def lw (v : Nat) : LayerCfg := [0x80010100, 0, 0x10000, 0, 0, 0, 0, 0, 0, 0, BitVec.ofNat 32 v, 0]

theorem wit_PipesApplyPressesAndLines :
    let off : Pipe → Pipe := id
    let ok := fun x => due [] (px off x)
    let bad := fun x => due [(.dspPipeCtrl, [0], 1)] (px off x)
    let fails := fun x => { ok x with press.shadowBad := [Reg.addr .dspPipeCtrl [0]] }
    let pp : Die → Die := fun x => wr [(.cmdPairCfg, [], 0xF00)] { ok x with pair.mode := 1 }
    let bh : State := onAB pp fun x => px (fun t => { on t with frame := 3 }) x
    let ak : State := onAB (px fun t => { t with pairAckDue := some 5 }) fun x => { px off x with pair.ctlOut := [.pipeAck 0 5] }
    let fx := px fun t => { on t with fixDue := true, layers := vmod t.layers 3 fun k => { k with pending := some (lw 0) } }
    let fl := px fun t => { on t with fixDue := true, layers := vmod t.layers 3 fun k => { k with pending := some (lw 1) } }
    let sc := px on
    let fz := px fun t => { on t with frozen := some 1 }
    let un := px fun t => { on t with layers := vmod t.layers 3 fun k => { k with active := [0x80000100, 0, 0x10000, 0, 1, 0x00010010, 0x00010010, 0, 0, 0, 0, 0] } }
    let rl := px fun t => { on t with relocking := true }
    (onA ok).a.running = true ∧ ((onA ok).a.pipes[(0 : Fin 4)]).en = false ∧ (onA (px off)).a.pipePressDue 0 = false ∧
    (onA ok).a.pipePressDue 0 = true ∧ (onA ok).a.pipePaired 0 = false ∧ (onA fails).a.shadowFails 22 = true ∧
    (onA fails).a.pipePressDue 0 = true ∧ (onA ok).a.shadowFails 22 = false ∧ pipePressOk (onA ok).a.press.pressed 0 = true ∧
    ((onA ok).a.pipes[(0 : Fin 4)]).frozen ≠ some clsCfgParity ∧ (onA bad).a.pipePressDue 0 = true ∧
    pipePressOk (onA bad).a.press.pressed 0 = false ∧ (onA pp).a.pipePaired 0 = true ∧ (onA pp).a.pipePressDue 0 = true ∧
    (onA pp).a.shadowFails 22 = false ∧ ak.a.pair.bridgeUp = true ∧ ak.b.pair.ctlOut.any (pipeAckOf 0) = true ∧
    ((ak.a.pipes[(0 : Fin 4)]).pairAckDue).isSome = true ∧ ((onA fx).a.pipes[(0 : Fin 4)]).fixDue = true ∧
    (fenceUnit (onA fx).b (onA fx).a (.layer 0 3) (lCtx (lw 0)) (lFence (lw 0))).2 = some 0 ∧
    (onA sc).a.mayScan 0 0 = true ∧ (onA sc).a.mayScan 0 1 = false ∧ (onA fz).a.mayScan 0 0 = true ∧
    (onA un).a.mayScan 0 ((onA un).a.pipes[(0 : Fin 4)]).line = true ∧ 3 ∈ lineLayers (onA un).a 0 0 ∧
    ((onA rl).a.pipes[(0 : Fin 4)]).relocking = true ∧ ((onA rl).a.pipes[(0 : Fin 4)]).en = true ∧
    bh.a.pipePaired 0 = true ∧ bh.a.pipePressDue 0 = true ∧ bh.a.shadowFails 22 = false ∧ bh.b.pipeBehind 0 (bh.a.pipes[(0 : Fin 4)]).frame = true ∧
    (onA pp).b.pipeBehind 0 ((onA pp).a.pipes[(0 : Fin 4)]).frame = false ∧ ((onA fx).a.pipes[(0 : Fin 4)]).frozen = none ∧
    (((onA fx).a.pipes[(0 : Fin 4)]).layers[(3 : Fin 8)]).pending = some (lw 0) ∧ (lValue (lw 0)).toNat ≤ 0 ∧ 0 < (lValue (lw 1)).toNat ∧
    (fenceUnit (onA fl).b (onA fl).a (.layer 0 3) (lCtx (lw 1)) (lFence (lw 1))).2 = some 0 ∧
    ((onA fz).a.pipes[(0 : Fin 4)]).frozen.isSome = true ∧ ((onA fz).a.pipes[(0 : Fin 4)]).relockFrame = false ∧
    ((onA un).a.pipes[(0 : Fin 4)]).frozen = none ∧ ((onA un).a.pipes[(0 : Fin 4)]).relockFrame = false ∧
    (((onA un).a.pipes[(0 : Fin 4)]).layers[(3 : Fin 8)]).underrun = none
    := by decide

theorem wit_FramesEndAndPortsTrain :
    let b := fun t => { on t with line := 2, frame := 8 }
    let bw := fun x => wr [(.dspPipeCtrl, [0], 5), (.dspPipeWbfLo, [0], 0x100), (.dspPipeWbHi, [0], 0x10000)] (px (fun t => { b t with wbLines := 2 }) x)
    let v := px fun t => { on t with verdictDue := some 8, mmRun := 15 }
    let vm := px fun t => { on t with verdictDue := some 8, mmRun := 15, dueMiss := 2 }
    let w := px fun t => { on t with wbDue := some (8, 0x100, 1) }
    let w0 := px fun t => { on t with wbDue := some (8, 0, 1) }
    let fs : State := onAB (px fun t => { on t with startDue := true }) fun x => { x with pair.ctlOut := [.frameStart 0 77] }
    let pb : State := onAB id fun x => px (fun t => { b t with pairPress := some (5, []) }) x
    let vt : Die → Die := fun x => { v x with pair.tags := [{ item := .pipe 0, frame := 8, tags := [], passed := 0, since := 0 }] }
    let vl : Die → Die := fun x => wr [(.cmdPairCfg, [], 0xF00)] { v x with pair.mode := 1, pair.lost := true }
    let vu := px fun t => { on t with verdictDue := some 8, mmRun := 15, dueCauses := 1 }
    let wf : Die → Die := fun x => { w x with xlt.own := [] }
    let h := px fun t => { on t with hpd := true, trained := true }
    let sh : State := onAB id fun x => let y := wr [(.dspPortCtrl, [0], 0x37000000)] (px (fun t => { on t with hpd := true, trained := false }) x); wr [(.cmdPairCfg, [], 0xF00)] { y with pair.mode := 1 }
    let n : Die → Die := fun x => wr [(.dspPortCtrl, [0], 0x37000000)] (px (fun t => { on t with hpd := true, trained := false }) x)
    (onA (px on)).a.atBoundary 0 = false ∧ (onA (px b)).a.atBoundary 0 = true ∧ (onA (px b)).a.pipePressDue 0 = false ∧
    (onA bw).a.atBoundary 0 = true ∧ 2 ≤ (onA bw).a.fld .dspPipeCtrl [0] 2 1 ∧
    ((onA bw).a.pipes[(0 : Fin 4)]).wbLines = (onA bw).a.fld .dspPipeVtiming [0] 15 0 ∧
    ((onA v).a.pipes[(0 : Fin 4)]).verdictDue = some 8 ∧ (onA v).a.running = true ∧ (onA v).a.pair.tags.any (isPipeTag 0 8) = false ∧
    ((onA v).a.pipes[(0 : Fin 4)]).dueMiss = 0 ∧ ((onA v).a.pipes[(0 : Fin 4)]).dueCauses = 0 ∧
    ((onA v).a.pipes[(0 : Fin 4)]).pairResult ≠ some false ∧ (onA v).a.pair.mode ≠ 1 ∧
    ((onA vm).a.pipes[(0 : Fin 4)]).dueMiss ≠ 0 ∧ ((onA w).a.pipes[(0 : Fin 4)]).wbDue = some (8, 0x100, 1) ∧
    ((onA w0).a.pipes[(0 : Fin 4)]).wbDue = some (8, 0, 1) ∧
    pb.b.atBoundary 0 = true ∧ pb.b.pipePressDue 0 = false ∧ (pb.b.pipes[(0 : Fin 4)]).pairPress.isSome = true ∧
    ((onA bw).a.pipes[(0 : Fin 4)]).pairPress = none ∧ (onA vt).a.pair.tags.any (isPipeTag 0 8) = true ∧
    ((onA vt).a.pipes[(0 : Fin 4)]).verdictDue = some 8 ∧ (onA vl).a.pair.mode = 1 ∧
    bitOf (cfgPairedPipes ((onA vl).a.reg .cmdPairCfg)) 0 = true ∧ (onA vl).a.pair.lost = true ∧
    bitOf ((onA vu).a.pipes[(0 : Fin 4)]).dueCauses 0 = true ∧ ((onA w).a.pipes[(0 : Fin 4)]).frozen = none ∧
    (signalUnit (onA w).b (onA w).a (.writeback 0) 1 0x100 8).2.isSome = true ∧
    (signalUnit (onA wf).b (onA wf).a (.writeback 0) 1 0x100 8).2 = none ∧ ((onA wf).a.pipes[(0 : Fin 4)]).wbDue = some (8, 0x100, 1) ∧
    sh.b.shadows 0 = true ∧ (sh.b.pipes[(0 : Fin 4)]).en = true ∧ wbits (sh.b.regI .dspPipeCtrl [0]) 2 1 % 2 = 1 ∧
    (sh.b.pipes[(0 : Fin 4)]).hpd = true ∧ (sh.b.pipes[(0 : Fin 4)]).trained = false ∧ (onA n).a.shadows 0 = false ∧
    fs.b.pair.ctlOut.reverse.findSome? (frameStartOf 0) = some 77 ∧ fs.a.running = true ∧ fs.a.pair.bridgeUp = true ∧
    ((fs.a.pipes[(0 : Fin 4)]).startDue) = true ∧ ((onA h).a.pipes[(0 : Fin 4)]).hpd = true ∧
    ((onA (px on)).a.pipes[(0 : Fin 4)]).hpd = false ∧ ((onA n).a.pipes[(0 : Fin 4)]).en = true ∧
    wbits ((onA n).a.regI .dspPipeCtrl [0]) 2 1 % 2 = 1 ∧ ((onA n).a.pipes[(0 : Fin 4)]).trained = false ∧
    6 ∈ triedRates ((onA n).a.regI .dspPortCtrl [0]) ∧
    bandwidthOk ((onA n).a.regI .dspPortCtrl [0]) ((onA n).a.regI .dspPortDsc [0]) ((onA n).a.regI .dspPipeCtrl [0]) ((onA n).a.fld .dspPipePclk [0] 20 0) 6 = true
    := by decide

/-- An ACTIVE die whose link X is changed. -/
def lk (f : Link → Link) (x : Die) : Die := (mem1 x).updLink 0 f

/-- A link in a state, entered at time 0. -/
def ls (st : LinkState) (k : Link) : Link := { k with state := st }

/-- A torus of rings of four, 1 and 1 nodes; this node is 1 in X. -/
def tor (x : Die) : Die := wr [(.torNode, [], 1), (.torDim, [], 3)] x

/-- The die at 2 ms. -/
def ms2 (x : Die) : Die := { x with time := 800000 }

/-- A control block with its CRC. -/
def blk (b : List Byte) : List Byte := let c := padTo 12 b; c ++ leBytes 4 (crc32c c).toNat

/-- A flit with its CRC. -/
def flit (seq : Nat) (c : List Byte) : List Byte := padTo 28 c ++ leBytes 4 (flitCrc seq (padTo 28 c))

/-- A packet without data, of operation `op`, from node 0 to node `dest` with context and tag. -/
def pkt (op dest ctx tag aux : Nat) : Packet := { head := mkHead op false false 0 dest 0 ctx tag 0 aux 0 0, ext := [], data := [] }

theorem wit_LinksTrainReceiveAndGoDown :
    let up := lk fun k => { ls .up k with txQ := [pkt 8 0 1 5 0], replay := [(0, []), (1, [])], txSeq := 2, resends := 16 }
    let tb := blk ([2, 0, 1, 1] ++ leBytes 2 2 ++ leBytes 2 3)
    let tw := blk ([2, 0, 1, 1] ++ leBytes 2 1 ++ leBytes 2 3)
    let exn := fun x => tor (lk (fun k => { ls .exchange k with goodBlocks := 8 }) x)
    let al := lk fun k => { ls .align k with lanes := Vector.replicate 8 { run := 64, window := [], locked := true } }
    let dn := fun x => wr [(.torLinkCtrl, [], 0x101)] (lk (ls .down) x)
    let bl := flit 0 (mkHead 0 false false 0 0 0 1 5 0 0 0 0)
    let idle := List.replicate 28 (0 : Byte) ++ leBytes 4 (flitCrc 0x8000 (List.replicate 28 0))
    let part := lk fun k => { ls .up k with rxPart := [List.replicate 28 (0 : Byte)], rxE := 0 }
    let fl := flit 0 (mkHead 8 false false 0 0 0 1 5 0 0 0 0)
    let ack := blk ([1, 0] ++ leBytes 2 1)
    let nak := blk ([1, 0] ++ leBytes 2 0x8001)
    let nak2 := blk ([1, 0] ++ leBytes 2 0x8000)
    let rs := lk fun k => { ls .up k with replay := [(0, []), (1, [])], txSeq := 2, nakFor := some 0, resendEnd := 5, resends := 3 }
    ((onA up).a.link 0).state ≠ .disabled ∧ ((onA up).a.link 0).state ≠ .down ∧ ((onA exn).a.link 0).state = .exchange ∧
    trainBlockOk tb = true ∧ partnerPasses (onA exn).a 0 tb = true ∧ trainBlockOk tw = true ∧ partnerPasses (onA exn).a 0 tw = false ∧
    trainBlockOk [] = false ∧ ((onA (lk (ls .signal))).a.link 0).state = .signal ∧ ((onA al).a.link 0).state = .align ∧
    ((List.range 8).all fun n => (((onA al).a.link 0).lanes[Fin.ofNat 8 n]).locked) = true ∧
    8 ≤ ((onA exn).a.link 0).goodBlocks ∧ ((onA (lk (ls .exchange))).a.link 0).goodBlocks < 8 ∧
    (onA fun x => ms2 (lk (ls .signal) x)).a.passed 0 1000 = true ∧ (onA (lk (ls .signal))).a.passed 0 1000 = false ∧
    ((onA up).a.link 0).state = .up ∧ flitPasses fl 0 = true ∧ headLegal (fl.take 28) = true ∧
    flitPasses (List.replicate 32 1) 0 = false ∧ flitPasses (List.replicate 32 1) 0x8000 = false ∧
    linkBlockOk ack = true ∧ bitOf (fieldNat ack 2 2) 15 = false ∧ linkBlockOk nak = true ∧ bitOf (fieldNat nak 2 2) 15 = true ∧
    linkBlockOk [] = false ∧ flitPasses bl 0 = true ∧ headLegal (bl.take 28) = false ∧ ((onA up).a.link 0).rxPart = [] ∧
    flitPasses idle 0 = false ∧ flitPasses idle 0x8000 = true ∧ (∀ b ∈ idle.take 28, b = 0) ∧
    ((onA part).a.link 0).rxPart ≠ [] ∧ ((onA part).a.link 0).state = .up ∧ ((onA part).a.link 0).rxE = 0 ∧
    (∃ b ∈ (List.replicate 32 (1 : Byte)).take 28, b ≠ 0) ∧ ((onA dn).a.link 0).state = .down ∧
    coordsAgree (onA dn).b (onA dn).a = true ∧ (onA fun x => ms2 (up x)).a.passed 0 1 = true
    := by decide

theorem wit_RouterTargetAndRequester :
    let lq := fun (q : Packet) (x : Die) => { tor (lk (ls .up) x) with torus.localQ := [q] }
    let tq := fun (q : Packet) (x : Die) => { mem1 x with torus.targetQ := [(3, q)], xlt.own := [(0, ownMake 1 1 true true 1)] }
    let here := pkt 1 1 1 5 0
    let there := pkt 1 (2 ^ 14 + 1) 1 5 0
    let far := pkt 1 2 1 5 0
    let away := pkt 1 9 1 5 0
    let rec_ := [1, 0] ++ leBytes 2 2 ++ leBytes 2 1 ++ leBytes 2 0 ++ leBytes 8 0x100 ++ leBytes 8 0x200 ++ leBytes 4 8 ++ leBytes 4 0 ++ leBytes 32 0
    let fen := [5, 0] ++ leBytes 2 2 ++ leBytes 60 0
    let rg := fun (r : List Byte) (x : Die) => { mem1 x with torus.rings := [{ ctx := 1, lo := 0x1000, hi := 0x81000000, shLo := 0, shHi := 0, prLo := 0, prHi := 0, prod := 1, cons := 0, known := true }], dram.cells := memOf [(0x1000, [9]), (0x1040, r)] }
    let ring : Ring := { ctx := 1, lo := 0x1000, hi := 0x81000000, shLo := 0, shHi := 0, prLo := 0, prHi := 0, prod := 1, cons := 0, known := true }
    let un := fun (r : List Byte) (x : Die) => { rg r x with torus.rings := [{ ring with known := false }], dram.cells := memOf [(0x1000, [9]), (0x1008, [4]), (0x1040, r)] }
    let off := fun (x : Die) => { rg rec_ x with torus.rings := [{ ring with hi := 0 }] }
    let empty := fun (x : Die) => { rg rec_ x with torus.rings := [{ ring with prod := 0 }] }
    let nb := fun (x : Die) => { lq there x with pair.bridgeUp := false }
    let nl := fun (x : Die) => { tor (lk (ls .down) x) with torus.localQ := [far] }
    let get := [3, 0] ++ leBytes 2 2 ++ leBytes 2 1 ++ leBytes 2 0 ++ leBytes 8 0x100 ++ leBytes 8 0x200 ++ leBytes 4 4 ++ leBytes 4 0 ++ leBytes 32 0
    let pair := fun (x : Die) => { rg rec_ x with cmd.ctxs := [{ cx 1 with attr := 1 }] }
    let tr : Trans := { tag := 5, ctx := 1, recNum := 1, index := 0, ofs := 0, len := 4, op := 1, target := 2, sent := 0 }
    let rr : RemRec := { ctx := 1, num := 1, bytes := rec_, total := 1, sent := 1, results := [], complete := true }
    let bz := fun (x : Die) => { rg rec_ x with torus.recs := [{ rr with sent := 0, complete := false }] }
    let gp := fun (x : Die) => { mem1 x with torus.replyQ := [{ pkt 9 0 1 5 0 with data := [5, 6, 7, 8] }], torus.trans := [{ tr with op := 3 }], torus.recs := [{ rr with bytes := get }] }
    let ap := fun (x : Die) => { mem1 x with torus.replyQ := [pkt 8 0 1 5 0], torus.trans := [{ tr with op := 4 }], torus.recs := [{ rr with bytes := get }] }
    let rp := fun (x : Die) => { mem1 x with torus.replyQ := [pkt 8 0 1 5 2], torus.trans := [tr], torus.recs := [rr] }
    let fj := fun (x : Die) => { rp x with jobs.list := [{ jb .running dc with shares := [shr .folded] }] }
    let lp := fun (x : Die) => { mem1 x with torus.replyQ := [pkt 8 0 1 6 2], torus.trans := [tr] }
    (onA nb).a.pair.bridgeUp = false ∧ (match routeHop (onA nb).b (onA nb).a .local there with | .bridge _ => true | _ => false) = true ∧
    ((onA nl).a.link 0).state ≠ .up ∧ (match routeHop (onA nl).b (onA nl).a .local far with | .link _ _ => true | .drop => true | _ => false) = true ∧
    requesterOn (onA off).a = true ∧ ringOn { ring with hi := 0 } = false ∧ ringOn ring = true ∧ requesterOn (onA (un rec_)).a = true ∧
    requesterOn (onA empty).a = true ∧ requesterOn (onA bz).a = true ∧ requesterOn (onA pair).a = true ∧
    (onA bz).a.torus.recs.map (fun r => (r.ctx, r.num)) = [(1, 1)] ∧
    ((onA pair).a.ctx? 1).map (fun t => t.attr.getLsbD 0) = some true ∧
    (onA gp).a.passed 0 (ctxTimeout (onA gp).a 1) = false ∧ ((onA gp).a.torus.recs.find? fun r => r.ctx == 1 && r.num == 1).isSome = true ∧
    recLocal get ≠ 0 ∧ (onA gp).a.dev ≠ .hold ∧ (pkt 9 0 1 5 0).aux = 0 ∧
    takeSource (onA (lk (ls .up))).a .local = none ∧ (takeSource (onA (lq here)).a .local).map (fun q => q.1.1) = some here ∧
    routeHop (onA (lq here)).b (onA (lq here)).a .local here = .deliver ∧
    routeHop (onA (lq there)).b (onA (lq there)).a .local there = .bridge there ∧ (onA (lq there)).a.pair.bridgeUp = true ∧
    routeHop (onA (lq far)).b (onA (lq far)).a .local far = .link 0 (far.steer false false) ∧ ((onA (lq far)).a.link 0).state = .up ∧
    routeHop (onA (lq away)).b (onA (lq away)).a .local away = .drop ∧ ((0 : Nat) < 4 ∧ (3 : Nat) < 4 ∧ (3 : Nat) ≠ 0) ∧
    (onA (tq here)).a.torus.targetQ = [(3, here)] ∧ (onA (tq here)).a.torus.frozenTgt = none ∧ (onA (tq here)).a.running = true ∧
    (onA (tq here)).a.dev = .active ∧ (onA (tq here)).a.pair.role ≠ .standby ∧ (onA (tq here)).a.ctxState 1 ≠ .free ∧
    (onA (tq here)).a.ctxState 1 ≠ .faulted ∧ here.ctx ≠ 0 ∧ (pkt 1 1 0 5 0).ctx = 0 ∧ requesterOn (onA (rg rec_)).a = true ∧
    requesterOn (onA fun x => { rg rec_ x with torus.frozenReq := some 1 }).a = false ∧
    (match (onA (rg rec_)).a.torus.rings.find? fun r => r.ctx == 1 with
     | some r => ringOn r && decide ((match reqRead (onA (rg rec_)).b (onA (rg rec_)).a 1 (ringBase r + 64) 64 with
        | (_, .ok b) => b
        | (_, .error _) => []) = rec_)
     | none => false) = true ∧ recLegal rec_ = true ∧ recOp rec_ ≠ 5 ∧ recLegal (leBytes 64 0) = false ∧ recLegal fen = true ∧ recOp fen = 5 ∧
    (onA rp).a.torus.replyQ = [pkt 8 0 1 5 2] ∧ (onA rp).a.torus.trans.find? (fun t => t.tag == 5) = some tr ∧
    (onA rp).a.passed 0 (ctxTimeout (onA rp).a 1) = false ∧ (onA fun x => ms2 (rp x)).a.passed 0 (ctxTimeout (onA rp).a 1) = true ∧
    (pkt 8 0 1 5 2).aux ≠ 0 ∧ (onA lp).a.torus.trans.find? (fun t => t.tag == 6) = none ∧ recCompVa rec_ = 0
    := by decide

/-- A die that unit `u` of a pending press of epoch 5 is behind, with these pressed words. -/
def bu (u : Nat) (l : List (Reg × List Nat × Nat)) (x : Die) : Die :=
  { mem1 x with press.behind := bit44 u, press.epoch := 5, press.pressed := l.foldl (fun m q => spSet (fun _ => q.1.info.reset) m (q.1.addr q.2.1) (BitVec.ofNat 32 q.2.2)) [] }

/-- A wringer job of context 1 with a parameter block: direction, source length and room for the output. -/
def jw (dir len room : Nat) : Job :=
  { jb .running (putField (putField dc 0 [3]) 0x18 (leBytes 8 0x1000)) with
    wrg := { par := [(0x00, [BitVec.ofNat 8 dir]), (0x02, [if dir = 0 then 12 else 0]), (0x08, leBytes 8 0x100), (0x10, leBytes 8 len), (0x18, leBytes 8 0x400), (0x20, leBytes 8 room)].foldl (fun b q => putField b q.1 q.2) (leBytes 64 0),
             blocks := 0, inDone := 0, outDone := 0, result := 0 } }

/-- The die whose engine 0 has that job. -/
def wj (j : Job) (use : Nat) (x : Die) : Die :=
  { jx j x with wringers := vmod x.wringers 0 fun w => { w with job := some 0, use := use, ctx := 1 } }

/-- A die in ROM whose fuses are changed. -/
def rm (f : Fuses → Fuses) (x : Die) : Die :=
  { x with dev := .rom, sec := { x.sec with bootDone := false, fuses := f x.sec.fuses } }

theorem wit_WringersMoveBlocksAndYield :
    let j := jw 0 8 0x100
    let k := jw 0 8 8
    let u := jw 1 16 0x100
    let hot := fun x => { wj j 1 x with power.therm := 2 }
    let nr := fun (x : Die) => { wj j 1 x with xlt.own := [] }
    let want := fun (x : Die) => { wj j 1 x with
      jobs.list := [j, { jw 0 8 8 with slot := 1, state := .released, desc := putField j.desc 0x01 [0] }, { jb .running dc with slot := 2, shares := [{ shr .folding with wring := true }] }] }
    ((mem1 (st.die .a)).wringers[(0 : Fin 8)]).job = none ∧ ((wj j 1 (st.die .a)).wringers[(0 : Fin 8)]).job = some 0 ∧
    (wj j 1 (st.die .a)).job? 0 = some j ∧ ((wj j 1 (st.die .a)).wringers[(0 : Fin 8)]).frozen = none ∧ (onA hot).a.power.therm = 2 ∧
    (onA (wj j 1)).a.schedules = true ∧ (onA (wj j 1)).a.ctxStarts 1 = true ∧ (onA (wj j 1)).a.power.therm ≠ 2 ∧
    ((onA (wj u 2)).a.wringers[(0 : Fin 8)]).use = 2 ∧ (onA (wj u 2)).a.schedules = true ∧
    ((onA (wj j 1)).a.wringers[(0 : Fin 8)]).use = 1 ∧ (wrgReads (onA (wj j 1)).b (onA (wj j 1)).a 0 1 0x100 8 0).2 = some (leBytes 8 0) ∧
    (outRuns (onA (wj j 1)).b (onA (wj j 1)).a (.wringer 0) j 16).2 = some [{ ofs := 0, va := 0x400, len := 0x100 }] ∧
    (outRuns (onA (wj k 1)).b (onA (wj k 1)).a (.wringer 0) k 16).2 = some [{ ofs := 0, va := 0x400, len := 8 }] ∧
    (wrgEncode 12 true (leBytes 8 0)).bytes.length = 16 ∧ runsEnd [{ ofs := 0, va := 0x400, len := 8 }] < 16 ∧
    16 ≤ runsEnd [{ ofs := 0, va := 0x400, len := 0x100 }] ∧
    (wrgWrites (onA (wj j 1)).b (onA (wj j 1)).a 0 1 (outWrites [{ ofs := 0, va := 0x400, len := 0x100 }] 16 [] ++
      outWrites [{ ofs := 0, va := 0x400, len := 0x100 }] 0 ((wrgEncode 12 true (leBytes 8 0)).bytes.take 16) ++ [])).2 = true ∧
    (onA (wj j 1)).a.running = true ∧ (onA (wj j 1)).a.wringerWanted j = false ∧ (onA want).a.wringerWanted j = true ∧
    (onA want).a.job? 0 = some j ∧ (wrgReads (onA nr).b (onA nr).a 0 1 0x100 8 0).2 = none ∧ (onA nr).a.schedules = true ∧
    (onA nr).a.ctxStarts 1 = true ∧ ((onA nr).a.wringers[(0 : Fin 8)]).use = 1
    := by decide

theorem wit_ReferenceAndArbiters :
    let a0 : ArbId := .sliceInput 0
    let r0 : ArbRun := { arb := freshArb st.a a0, masked := 0, idle := 0 }
    let full : ArbRun := { r0 with arb := { r0.arb with used := [(1, 255)] } }
    let ab := { r0.arb with abandoned := some (.usb 0) }
    let em := onA fun x => x.setArb { freshArb x a0 with emergency := true }
    let un := onA fun x => { x with sec.dbgLevel := 1 }
    st.a.power.pllLock = true ∧ st.a.power.holdover = false ∧ st.a.dev ≠ .off ∧ st.a.power.inReset = false ∧ st.a.dev = .ready ∧
    st.a.running = true ∧ r0.arb.abandoned = none ∧
    firstFrom 12 r0.arb.highPtr (fun k => (decide (k < 16) && (3 : Word).getLsbD k) && r0.arb.isHigh 3 k && !(r0.arb.isHigh 3 k && decide (r0.arb.quota ≤ r0.arb.usedBy k))) = some 1 ∧
    firstFrom 12 r0.arb.highPtr (fun k => (decide (k < 16) && (1 : Word).getLsbD k) && r0.arb.isHigh 1 k && !(r0.arb.isHigh 1 k && decide (r0.arb.quota ≤ r0.arb.usedBy k))) = none ∧
    firstFrom 12 r0.arb.normPtr (fun k => (decide (k < 16) && (1 : Word).getLsbD k) && !r0.arb.isHigh 1 k) = some 0 ∧
    firstFrom 12 full.arb.highPtr (fun k => (decide (k < 16) && (2 : Word).getLsbD k) && full.arb.isHigh 2 k && !(full.arb.isHigh 2 k && decide (full.arb.quota ≤ full.arb.usedBy k))) = none ∧
    firstFrom 12 full.arb.normPtr (fun k => (decide (k < 16) && (2 : Word).getLsbD k) && !full.arb.isHigh 2 k) = none ∧
    firstFrom 12 full.arb.highPtr (fun k => (decide (k < 16) && (2 : Word).getLsbD k) && (full.arb.isHigh 2 k && decide (full.arb.quota ≤ full.arb.usedBy k))) = some 1 ∧
    firstFrom 12 full.arb.highPtr (fun k => (decide (k < 16) && (0 : Word).getLsbD k) && (full.arb.isHigh 0 k && decide (full.arb.quota ≤ full.arb.usedBy k))) = none ∧
    emergencyOk st.a a0 = false ∧ emergencyOk un.a a0 = true ∧ (em.a.arb a0).emergency = true ∧ (st.a.arb a0).emergency = false ∧
    (arbRanked r0.arb 0xB)[0]? = some 1 ∧ (arbRanked r0.arb 0xB)[1]? = some 0 ∧ (arbRanked r0.arb 0xB)[2]? = some 3 ∧
    ab.abandoned.isSome = true ∧ (arbRanked ab 0xB)[0]? = some 1
    := by decide

theorem wit_PressesAndParity :
    let p := bu 35 [(.jobCfg, [], 0x12345678)]
    let bad := fun x => { p x with press.shadowBad := [Reg.addr .jobCfg []] }
    let tb := fun x => { bu 39 [] x with press.shadowBad := [Reg.addr .torDim []] }
    let ac := fun x => { p x with press.applied := bit44 35 }
    let tle : TlbEnt := { ctx := 1, vmid := 0, va := 0, len := 4096, pa := 0, r := true, w := true, x := true, ta := 0, level := 3, s2r := true, s2w := true, s2x := true }
    let xc := onA fun x => { p x with xlt.tlb := [tle], xlt.near := [{ who := .frontEnd 0, ents := [tle] }], xlt.walk := [] }
    let late := fun (x : Die) => { p x with time := BitVec.ofNat 64 (400 * 1000 * x.fld .clkPressCfg [] 9 0) }
    let g := fun (x : Die) => { bu 0 [(.tlmCfg, [], 1)] x with press.behind := bits44 (unitRun 0 6), press.applied := bits44 (unitRun 1 5) }
    (onA p).a.running = true ∧ (onA id).a.unitWaits 35 = false ∧ (onA p).a.unitWaits 35 = true ∧ (onA p).a.shadowFails 35 = false ∧
    (onA bad).a.unitWaits 35 = true ∧ (onA bad).a.shadowFails 35 = true ∧ (onA tb).a.unitWaits 39 = true ∧ (onA tb).a.shadowFails 39 = true ∧
    (Reg.jobCfg, []) ∈ unitRegs 35 ∧ ((unitGroup 35).all fun v => v == 35 || (onA p).a.unitDone v) = true ∧
    ((unitGroup 0).all fun v => v == 0 || (onA g).a.unitDone v) = true ∧ (onA g).a.press.behind.getLsbD 0 = true ∧
    (onA p).a.press.behind.getLsbD 35 = true ∧ (onA ac).a.press.behind.getLsbD 35 = true ∧ (onA ac).a.press.applied.getLsbD 35 = true ∧
    (onA ac).a.lateUnit 35 = false ∧ (onA ac).a.press.behind &&& ~~~((1 : BitVec 44) <<< 35) = 0 ∧
    (onA g).a.press.behind &&& ~~~((1 : BitVec 44) <<< 0) ≠ 0 ∧ (onA p).a.passed (onA p).a.press.issued (1000 * (onA p).a.fld .clkPressCfg [] 9 0) = false ∧
    (onA late).a.press.behind &&& ~~~(onA late).a.press.late ≠ 0 ∧ (onA late).a.pair.copying = false ∧ (onA late).a.dev = .active ∧
    (onA late).a.passed (onA late).a.press.issued (1000 * (onA late).a.fld .clkPressCfg [] 9 0) = true ∧
    (onA p).a.power.inReset = false ∧ regAt 0x10100 = some (.clkPressCfg, []) ∧ Reg.clkPressCfg.info.rwp ≠ 0
    := by decide

theorem wit_BootTamperAndModelLoads :
    let b := rm id
    let s5 := rm fun f => { f with lc := 5 }
    let l : LoadReq := { ctx := 1, lba := 0, dest := 0x1000, fence := 0x200, value := 7, entry := 0, frozen := none }
    let ln := fun (x : Die) => { mem1 x with sec.loads := [{ l with entry := noEntry }], io.ufs.linkUp := true }
    let dn := fun (x : Die) => { mem1 x with sec.loads := [l] }
    let ld := fun (x : Die) => { mem1 x with sec.loads := [l], io.ufs.linkUp := true }
    (onA b).a.running = true ∧ (onA b).a.dev = .rom ∧ (onA b).a.power.sramDone = true ∧ (onA b).a.sec.bootDone = false ∧
    (onA b).a.sec.recovery = false ∧ (completeOps (onA b).a).sec.fuses.lc ≠ 5 ∧ (deriveIdentity { completeOps (onA s5).a with sec.romMeas := [] }).sec.fuses.lc = 5 ∧
    imageCheck (onA b).a.sec.fuses (flashImage (onA b).a 0) true ≠ 0 ∧ imageCheck (onA b).a.sec.fuses (flashImage (onA b).a 1) true ≠ 0 ∧
    (onA s5).a.sec.fuses.lc = 5 ∧ (onA b).a.dev ≠ .off ∧ (onA b).a.power.inReset = false ∧ (onA dn).a.sec.loads = [l] ∧ loadReady (onA dn).a l = false ∧ loadReady (onA ld).a l = true ∧ l.entry ≠ noEntry ∧
    (onA ln).a.sec.loads = [{ l with entry := noEntry }] ∧ loadReady (onA ln).a { l with entry := noEntry } = true ∧
    (loadUnits (onA ld).b 1 0x40000000 [1] 1 0 (onA ld).a).2 = false ∧
    (writeUnit (onA ld).b (onA ld).a .ufs 1 0x40000208 (leBytes 8 8) accWrite).2 = false ∧
    (signalUnit (onA ld).b (onA ld).a .ufs 1 0x40000200 7).2 = none ∧ (onA ld).a.sec.loads = [l] ∧ (onA ld).a.running = true ∧
    (onA ld).a.io.ufs.linkUp = true ∧ (onA ld).a.io.ufs.xfer = none ∧ loadOutcome (onA ld).a false [] = (8, []) ∧
    (loadUnits (onA ld).b 1 0x1000 [] 1 0 (onA ld).a).2 = true ∧ (writeUnit (onA ld).b (onA ld).a .ufs 1 0x208 (leBytes 8 8) accWrite).2 = true ∧
    (signalUnit (onA ld).b (onA ld).a .ufs 1 0x200 7).2.isSome = true
    := by decide

theorem wit_TapAndDebugUnlock :
    let s5 := onA fun x => { x with sec.fuses.lc := 5 }
    let lk := onA fun x => { x with dev := .locked }
    let r0 : List Byte := leBytes 7221 0
    let lv := fun (n : Nat) => onA fun x => { mem1 x with sec.dbgLevel := n }
    st.a.sec.fuses.lc ≠ 5 ∧ st.b.sec.fuses.lc ≠ 5 ∧ s5.a.sec.fuses.lc = 5 ∧ dieOf (2 : Byte).toNat = none ∧ dieOf (0 : Byte).toNat = some .a ∧
    lk.a.debugOn = false ∧ st.a.debugOn = true ∧ dieOf (fieldNat [] 7220 1) = some .a ∧ st.a.sec.dbgFails < 8 ∧ responseOk st.a [] = false ∧
    (lv 1).tap.sel = .a ∧ (lv 1).a.debugOn = true ∧ DbgOp.level (.cfgRead 0x10100) ≤ (lv 1).a.debugLevel ∧
    ¬ DbgOp.level (.cfgWrite 0x10100 0) ≤ (lv 1).a.debugLevel ∧ DbgOp.level (.programKey 0 []) = 3 ∧ ¬ (lv 3).a.sec.fuses.lc ≤ 1
    := by decide

/-- Bytes of 0 from an address on. -/
def zeroCells (a : Nat) : Nat → List Host.Cell
  | 0 => []
  | n + 1 => (a, 0) :: zeroCells (a + 1) n

theorem spGet_zeroCells (f : Nat → Byte) (n a i : Nat) (h : i < n) : spGet f (zeroCells a n) (a + i) = 0 := by
  induction n generalizing a i with
  | zero => omega
  | succ n ih =>
    cases i with
    | zero => simp [zeroCells, spGet]
    | succ i =>
      have h1 : ¬ a + (i + 1) = a := by omega
      have h2 : ¬ a + (i + 1) < a := by omega
      have := ih (a + 1) i (by omega)
      simp only [zeroCells, spGet, h1, h2, if_false]
      rw [← this]
      congr 1
      omega

theorem spGet_below (f : Nat → Byte) (l m : List Host.Cell) (k : Nat) (h : ∀ e ∈ l, e.1 < k) : spGet f (l ++ m) k = spGet f m k := by
  induction l with
  | nil => rfl
  | cons e l ih =>
    have h1 := h e (by simp)
    have h2 : ¬ k = e.1 := by omega
    have h3 : ¬ k < e.1 := by omega
    simp only [List.cons_append, spGet, h2, h3, if_false]
    exact ih fun q hq => h q (by simp [hq])

/-- The first 65 bytes of the image's header. -/
def fwHead : List Host.Cell :=
  let b := leBytes 4 0x1F0AC5E3 ++ [1, 0, 1, 0] ++ leBytes 8 0 ++ leBytes 8 4 ++ leBytes 8 4 ++ [8] ++ leBytes 31 0
  (List.range b.length).map fun i => (i, b.getD i 0)

/-- The flash holds a firmware image in slot 0: its header's fields; its key, signature and payload are erased bytes. -/
def fwCells : List Host.Cell := fwHead ++ zeroCells 0x1C73 909

/-- A die in ROM with that image, whose first firmware key is the image's. -/
def fwRom (x : Die) : Die :=
  let y := { rm id x with io.flash.cells := fwCells }
  { y with sec.fuses.fwKeys := vmod y.sec.fuses.fwKeys 0 fun _ => Config.sha3_512 (imgPubkey (flashImage y 0)) }

/-- Whatever the signature's check answers, an image that it accepts is taken: no value of it is known to the model. -/
theorem wit_BootTamperAndModelLoads_image (hk : programmed (Config.sha3_512 (imgPubkey (flashImage (fwRom st.a) 0))) = true)
    (hv : Config.mlDsaVerify (imgPubkey (flashImage (fwRom st.a) 0)) (imgDigest (flashImage (fwRom st.a) 0)) (imgSignature (flashImage (fwRom st.a) 0)) = true) :
    imageCheck (fwRom st.a).sec.fuses (flashImage (fwRom st.a) 0) true = 0 := by
  have h0 : flashImage (fwRom st.a) 0 0x1C73 909 = List.replicate 909 0 := by
    apply List.ext_getElem (by simp [flashImage, Flash.bytes])
    intro i a b
    have hi : i < 909 := by simpa [flashImage, Flash.bytes] using a
    have h1 : (fwRom st.a).io.flash.cells = fwCells := rfl
    have h2 : ∀ e ∈ fwHead, e.1 < 65 := by decide
    have h3 := spGet_below erasedByte fwHead (zeroCells 0x1C73 909) (0x1C73 + i) (fun e he => by have := h2 e he; omega)
    have h4 := spGet_zeroCells erasedByte 909 0x1C73 i hi
    simp only [flashImage, Flash.bytes, Flash.byte, List.getElem_map, List.getElem_range, List.getElem_replicate, h1, fwCells,
      Nat.zero_mul, Nat.zero_add, h3, h4]
  have h10 : imgNum (flashImage (fwRom st.a) 0) 0x1C73 909 = 0 := by rw [imgNum, h0]; decide
  have h11 : (imgNum (flashImage (fwRom st.a) 0) 0 4 == 0x1F0AC5E3 && imgNum (flashImage (fwRom st.a) 0) 4 2 == 1 &&
      decide (imgNum (flashImage (fwRom st.a) 0) 12 4 < 2)) = true := by decide
  have h12 : imgPayloadLen (flashImage (fwRom st.a) 0) = 4 := by decide
  have h13 : imgLoadLen (flashImage (fwRom st.a) 0) = 4 := by decide
  have h14 : imgWrung (flashImage (fwRom st.a) 0) = false := by decide
  have h15 : imgNum (flashImage (fwRom st.a) 0) 0x20 1 = 8 := by decide
  have h16 : imgNum (flashImage (fwRom st.a) 0) 0x21 31 = 0 := by decide
  have h2 : imgType (flashImage (fwRom st.a) 0) = 1 := by decide
  have h1 : imgHeaderOk (flashImage (fwRom st.a) 0) = true := by
    simp only [imgHeaderOk, h10, h11, h12, h13, h14, h15, h16, h2]
    decide
  have h3 : bitOf (imgNum (flashImage (fwRom st.a) 0) 0x20 1) 3 = true := by rw [h15]; decide
  have h4 : imgSlot (flashImage (fwRom st.a) 0) = 0 := by decide
  have h5 : (fwRom st.a).sec.fuses.lc = 3 := rfl
  have h6 : (fwRom st.a).sec.fuses.fwKeys[(0 : Fin 4)] = Config.sha3_512 (imgPubkey (flashImage (fwRom st.a) 0)) := rfl
  have h7 : (fwRom st.a).sec.fuses.svn = 0 := rfl
  have h8 : (fwRom st.a).sec.fuses.revoke = 0 := rfl
  simp [imageCheck, h1, h2, h3, h4, h5, h6, h7, h8, hk, hv, imgVerified]

/-- A die that has given a challenge, whose debug key is the one of the response. -/
def dbgDie (x : Die) : Die :=
  { x with sec.challenge := some ([], 0), sec.fuses.debugKey := Config.sha3_512 (field [] 0 2592) }

/-- A response that the signature's check accepts is good. -/
theorem wit_TapAndDebugUnlock_response (hk : programmed (Config.sha3_512 (field [] 0 2592)) = true)
    (hv : ∀ m, Config.mlDsaVerify (field [] 0 2592) m (field [] 2592 4627) = true) : responseOk (dbgDie st.a) [] = true := by
  have h1 : (dbgDie st.a).sec.fuses.debugKey = Config.sha3_512 (field [] 0 2592) := rfl
  have h2 : (dbgDie st.a).sec.challenge = some ([], 0) := rfl
  have h3 : (dbgDie st.a).passed (0#64) 60000000 = false := by decide
  have h4 : fieldNat [] 7219 1 = 0 := by decide
  simp [responseOk, h1, h2, h3, h4, hk, hv]

/-- The first 65 bytes of a model image's header. -/
def mdHead : List Byte := leBytes 4 0x1F0AC5E3 ++ [1, 0, 2, 0] ++ leBytes 8 0 ++ leBytes 8 4 ++ leBytes 8 4 ++ [8] ++ leBytes 32 0

/-- A model image of four payload bytes. -/
def mdImage : List Byte := mdHead ++ (List.replicate 8127 0 ++ [1, 2, 3, 4])

/-- A die whose first model key is the image's. -/
def mdDie (x : Die) : Die :=
  { mem1 x with sec.fuses.modelKeys := vmod x.sec.fuses.modelKeys 0 fun _ => Config.sha3_512 (imgPubkey (field mdImage)) }

/-- A model image that the signature's check accepts is loaded. -/
theorem wit_BootTamperAndModelLoads_model (hk : programmed (Config.sha3_512 (imgPubkey (field mdImage))) = true)
    (hv : Config.mlDsaVerify (imgPubkey (field mdImage)) (imgDigest (field mdImage)) (imgSignature (field mdImage)) = true) :
    loadOutcome (mdDie st.a) true mdImage = (0, [1, 2, 3, 4]) := by
  have h0 : field mdImage 0x1C73 909 = List.replicate 909 0 := by
    apply List.ext_getElem (by simp [-List.reduceReplicate, field])
    intro i a b
    have hi : i < 909 := by simpa [field] using a
    have hl : mdHead.length = 65 := rfl
    simp only [-List.reduceReplicate, field, List.getElem_map, List.getElem_range, List.getElem_replicate, mdImage]
    rw [List.getD_append_right _ _ _ _ (by omega), List.getD_append _ _ _ _ (by simp [-List.reduceReplicate]; omega), List.getD_eq_getElem _ _ (by simp [-List.reduceReplicate]; omega),
      List.getElem_replicate]
  have h20 : imgNum (field mdImage) 0x1C73 909 = 0 := by rw [imgNum, h0]; decide
  have h21 : (imgNum (field mdImage) 0 4 == 0x1F0AC5E3 && imgNum (field mdImage) 4 2 == 1 &&
      decide (imgNum (field mdImage) 12 4 < 2)) = true := by decide
  have h12 : imgPayloadLen (field mdImage) = 4 := by decide
  have h13 : imgLoadLen (field mdImage) = 4 := by decide
  have h15 : imgNum (field mdImage) 0x20 1 = 8 := by decide
  have h16 : imgNum (field mdImage) 0x21 31 = 0 := by decide
  have h2 : imgType (field mdImage) = 2 := by decide
  have h10 : imgWrung (field mdImage) = false := by decide
  have h1 : imgHeaderOk (field mdImage) = true := by
    simp only [-List.reduceReplicate, imgHeaderOk, h20, h21, h12, h13, h10, h15, h16, h2]
    decide
  have h3 : bitOf (imgNum (field mdImage) 0x20 1) 3 = true := by rw [h15]; decide
  have h4 : imgSlot (field mdImage) = 0 := by decide
  have h5 : (mdDie st.a).sec.fuses.lc = 3 := rfl
  have h6 : (mdDie st.a).sec.fuses.modelKeys[(0 : Fin 4)] = Config.sha3_512 (imgPubkey (field mdImage)) := rfl
  have h8 : (mdDie st.a).sec.fuses.revoke = 0 := rfl
  have h9 : (mdImage.length == imgHeaderBytes + imgPayloadLen (field mdImage)) = true := by
    have hl : mdHead.length = 65 := rfl
    rw [h12, mdImage, List.length_append, List.length_append, List.length_replicate, hl]
    rfl
  have h11 : field mdImage imgHeaderBytes (imgPayloadLen (field mdImage)) = [1, 2, 3, 4] := by
    have hl : mdHead.length = 65 := rfl
    rw [h12]
    simp only [-List.reduceReplicate, field, mdImage, imgHeaderBytes]
    apply List.ext_getElem (by simp [-List.reduceReplicate])
    intro i a b
    have hi : i < 4 := by simpa [-List.reduceReplicate] using b
    simp only [-List.reduceReplicate, List.getElem_map, List.getElem_range]
    rw [List.getD_append_right _ _ _ _ (by omega), List.getD_append_right _ _ _ _ (by simp [-List.reduceReplicate]; omega)]
    rw [List.length_replicate, hl, show 8192 + i - 65 - 8127 = i by omega, List.getD_eq_getElem _ _ b]
  have hc : imageCheck (mdDie st.a).sec.fuses (field mdImage) false = 0 := by
    simp [-List.reduceReplicate, imageCheck, h1, h2, h3, h4, h5, h6, h8, hk, hv, imgVerified]
  simp only [-List.reduceReplicate, loadOutcome, hc, h1, h9, h10, h11, imgVerified]
  rfl

theorem wit_ResetsLeaveTheStatedState :
    let rs := fun (x : Die) => { x with dev := .rom, power.pllLock := false }
    let off := fun (x : Die) => { x with dev := .off }
    let due := fun (n : Nat) (x : Die) => { act x with power.resetDue := some (n, 0, [1]) }
    let held := fun (x : Die) => { due 0 x with cmd.replies := [[1]] }
    let late := fun (x : Die) => { held x with time := 4000000 }
    let trip := fun (x : Die) => { x with power.tripped := true }
    let mir := onAB act fun x => { x with pair.mode := 2, pair.role := .standby, pair.mirrorSync := true }
    let two := onAB rs rs
    st.a.dev ≠ .off ∧ st.a.resetting = false ∧ (onA rs).a.resetting = true ∧ (onA off).a.dev = .off ∧ (onA rs).a.power.tripped = false ∧
    st.b.pair.mode ≠ 2 ∧ mir.b.pair.mode = 2 ∧ mir.b.pair.role = .standby ∧ mir.b.pair.mirrorSync = true ∧
    st.a.power.resetDue = none ∧ (onA held).a.power.resetDue = some (0, 0, [1]) ∧ (onA held).a.cmd.replies.contains [1] = true ∧
    ((onA held).a.localTime - 0).toNat < 10000 * localUs ∧ (onA (due 1)).a.cmd.replies.contains [1] = false ∧
    10000 * localUs ≤ ((onA late).a.localTime - 0).toNat ∧ (onA trip).a.power.tripped = true ∧ (onA trip).a.dev ≠ .off ∧
    (onA rs).b.power.pllLock = true ∧ two.b.power.pllLock = false ∧ two.b.dev ≠ .off ∧ st.b.power.tripped = false ∧
    (onA (due 2)).a.power.resetDue = some (2, 0, [1]) ∧ (onA (due 2)).a.cmd.replies.contains [1] = false ∧ st.a.power.tripped = false ∧
    (onA trip).a.power.tripped = true ∧ two.a.resetting = true ∧ two.a.power.tripped = false ∧ (onA rs).a.power.tripped = false
    := by decide

theorem wit_StartUpRunsInOrder :
    let rom := rm id
    let good : Training := { ok := true, ranks := List.replicate 24 2, gibs := List.replicate 24 4 }
    let bad : Training := { good with gibs := 2 :: List.replicate 23 4 }
    let un := fun (x : Die) => { rom x with dram.trained := false }
    let slp := fun (x : Die) => { x with dram.selfRefresh := true }
    let full := fun (x : Die) => { un x with dram.trained := true, dram.fill := [.full], dram.cells := [(5, 7)] }
    let dead := fun (x : Die) => { mem1 x with dram.fill := [.granule 0], dram.cells := [(5, 7), (262144, 9)], xlt.own := [(0, ownMake 4095 0 false false 1)] }
    let live := fun (x : Die) => { mem1 x with dram.fill := [.granule 0] }
    let go := fun (x : Die) => { rom x with sec.bootDone := true, sec.recovery := true }
    (onA rom).a.running = true ∧ (onA rom).a.dev = .rom ∧ (onA un).a.dram.trained = false ∧ trainingOk good = true ∧ trainingOk bad = false ∧
    st.a.running = true ∧ st.a.dram.trained = true ∧ st.a.dram.selfRefresh = false ∧ (onA slp).a.dram.selfRefresh = true ∧
    (onA full).a.dram.fill.find? isWipe = some .full ∧ (onA full).a.dram.trained = true ∧
    (onA dead).a.dram.fill.find? isWipe = some (.granule 0) ∧ ownState ((onA dead).a.ownEntry 0) = 1 ∧ ownOwner ((onA dead).a.ownEntry 0) = 4095 ∧
    (onA live).a.dram.fill.find? isWipe = some (.granule 0) ∧ ownOwner ((onA live).a.ownEntry 0) ≠ 4095 ∧
    (onA go).a.sec.bootDone = true ∧ (onA go).a.dram.wiped = true ∧ (onA go).a.sec.recovery = true ∧ (onA rom).a.sec.bootDone = false
    := by decide

theorem wit_PowerAndTemperatureAreLimited :
    let hi : Word := 100000
    let y := (applyPlain 42 st.a).power
    let g48 := onA fun x => { x with power.gate := 48 }
    let old := onA fun x => { x with time := 4000000 }
    let v : Sensor := { last := some 400, excluded := true, run := 99 }
    let warm := List.replicate 16 (400 : Int)
    let s16 := onA fun x => { x with power.sensors := List.replicate 16 { last := some 400, excluded := false, run := 0 } }
    let hot := onA fun x => { x with power.sensors := List.replicate 16 { last := some 1950, excluded := false, run := 0 } }
    st.a.running = true ∧ 250 * (applyPlain 42 g48.a).fld .pwrCap [] 7 0 < hi.toNat ∧ (applyPlain 42 g48.a).power.gate = 48 ∧
    (applyPlain 42 g48.a).power.therm ≠ 2 ∧ (0 : Word).toNat ≤ 250 * (applyPlain 42 st.a).fld .pwrCap [] 7 0 ∧ y.gate ≤ 64 ∧
    readingOk (some 800) v 400 = true ∧ v.excluded = true ∧ v.run = 99 ∧ readingOk (some 800) v 2500 = false ∧ readingOk none v 561 = false ∧
    v.last = some 400 ∧ 160 < (561 - 400 : Int).natAbs ∧ readingOk none { v with excluded := false } 560 = true ∧
    s16.a.i3cOn = true ∧ warm.length = 16 ∧ s16.a.power.therm = 0 ∧ (thermalDie warm s16.a).plausible = 16 ∧ (thermalDie warm s16.a).power.tmax = 400 ∧
    (400 : Int) < 16 * ((thermalDie warm s16.a).fld .pwrTherm [] 7 0 : Int) ∧ 2000 < (thermalDie (List.replicate 16 2010) hot.a).power.tmax ∧
    (thermalDie (List.replicate 16 3000) s16.a).plausible < 9 ∧
    st.a.power.healthy = true ∧ old.a.passed old.a.power.healthyAt 10000 = true ∧ st.a.passed st.a.power.healthyAt 10000 = false
    := by decide

/-- A die whose camera port 0 is enabled for RAW8 lines of context 1, with a crop of two pixels by one line, and is changed. -/
def cs (f : CsiPort → CsiPort) (x : Die) : Die :=
  (wr [(.csiCtrl, [0], 0x802A1001), (.csiCropWh, [0], 0x10002), (.csiBufLo, [0], 0x1000), (.csiFenceLo, [0], 0x200), (.csiGeom, [0], 0x10001)] (mem1 x)).updCsi 0 f

/-- A port in the middle of a frame, with a line selected. -/
def inF (t : CsiPort) : CsiPort := { t with inFrame := true, selected := true, locked := true, frame := 5 }

/-- A die whose audio port 0 is enabled for context 1 with blocks of 16 frames of one slot, and is changed. -/
def td (f : TdmPort → TdmPort) (x : Die) : Die :=
  (wr [(.tdmCtrl, [0], 0x80100001), (.tdmSlotMask, [0], 1), (.tdmBlock, [0], 0x10010), (.tdmBufLo, [0], 0x2000), (.tdmFenceLo, [0], 0x300), (.tdmStride, [0], 2)] (mem1 x)).updTdm 0 f

theorem wit_UsbAndStorage_usb :
    let u12 := onA (wr [(.usbCfg, [], 0x13)])
    let rc := onA fun x => { x with io.usb.reconnect := some 0, io.usb.connected := false }
    let rd := rc.onDie .a fun x => { x with time := 4000000 }
    st.a.io.usb.connected = true ∧ (u12.a.reg .usbCfg).getLsbD 4 = true ∧ u12.a.io.usb.connected = true ∧ (st.a.reg .usbCfg).getLsbD 4 = false ∧
    rc.a.io.usb.reconnect = some 0 ∧ rc.a.running = true ∧ rc.a.passed 0 10000 = false ∧ rd.a.passed 0 10000 = true ∧ rd.a.io.usb.reconnect = some 0 ∧
    rc.a.io.usb.connected = false ∧ st.a.io.usb.reconnect = none
    := by decide

theorem wit_CameraAndAudioPortsWrite_camera :
    let e := onA (cs id)
    let m := onA (cs inF)
    let fz := onA (cs fun t => { t with frozen := some 1 })
    let fm := onA (cs fun t => { inF t with frozen := some 1 })
    let past := onA (cs fun t => { inF t with lineNo := 1 })
    let old := m.onDie .a fun x => { x with time := 40000000 }
    let r := m.onDie .a fun x => x.updCsi 0 fun t => { t with status := t.status ||| 0 }
    let fr := frameRecord (r.die .a) 0
    e.a.csiEn 0 = true ∧ (e.a.csi 0).inFrame = false ∧ m.a.csiEn 0 = true ∧ (m.a.csi 0).inFrame = true ∧ (m.a.csi 0).selected = true ∧
    e.a.fld .csiCtrl [0] 27 24 = 0 ∧ e.a.fld .csiCtrl [0] 21 16 = 0x2A ∧ (fz.a.csi 0).frozen.isSome = true ∧ (e.a.csi 0).frozen = none ∧
    vaOf (e.a.regI .csiReleaseLo [0]) (e.a.regI .csiReleaseHi [0]) = 0 ∧ (fm.a.csi 0).frozen.isSome = true ∧ (fm.a.csi 0).selected = true ∧
    (m.a.csi 0).frozen = none ∧ (m.a.csi 0).lost = false ∧ (m.a.csi 0).dropping = false ∧ (past.a.csi 0).lineNo = 1 ∧
    past.a.fld .csiCropXy [0] 31 16 + past.a.fld .csiCropWh [0] 31 16 ≤ (past.a.csi 0).lineNo ∧
    m.a.fld .csiCropXy [0] 31 16 ≤ (m.a.csi 0).lineNo ∧ (m.a.csi 0).lineNo < m.a.fld .csiCropXy [0] 31 16 + m.a.fld .csiCropWh [0] 31 16 ∧
    (writeBoth m .a (.csi 0) 1 0x1040 [7, 0, 8, 0]).2 = true ∧ csiSlot m.a 0 5 + 64 = 0x1040 ∧
    (writeBoth r .a (.csi 0) (csiCtx (r.die .a) 0) (csiSlot (r.die .a) 0 5) fr).2 = true ∧
    (signalBoth (writeBoth r .a (.csi 0) (csiCtx (r.die .a) 0) (csiSlot (r.die .a) 0 5) fr).1 .a (.csi 0) 1 0x200 5).2 = true ∧
    st.a.csiEn 0 = false ∧ (e.a.csi 0).inFrame = false ∧ (old.a.csi 0).inFrame = true ∧ old.a.passed (old.a.csi 0).lastLine (old.a.fld .csiWdog [0] 31 16) = true ∧
    old.a.passed (old.a.csi 0).lastStart (1000 * old.a.fld .csiWdog [0] 15 0) = true
    := by decide

theorem wit_CameraAndAudioPortsWrite_audio :
    let ok := onA (td fun t => { t with clockOk := true, resumed := true, startTime := 3 })
    let fz := onA (td fun t => { t with clockOk := true, frozen := some 1, lost := true })
    let lost := onA (td id)
    let r := ok.onDie .a fun x => x.updTdm 0 fun t => { t with block := 1, startTime := x.time, resumed := false }
    let body := ((List.range 16).map fun i => tdmSample (ok.a.fld .tdmCtrl [0] 17 16) (([5] : List Word).getD i 0)).flatten
    let head := leBytes 8 1 ++ leBytes 8 3 ++ leBytes 4 1 ++ leBytes 4 16 ++ leBytes 8 0
    let y := (writeBoth r .a (.tdm 0) 1 0x2020 body).1
    ok.a.tdmEn 0 = true ∧ (ok.a.tdm 0).clockOk = true ∧ (ok.a.tdm 0).frozen = none ∧ fz.a.tdmEn 0 = true ∧ (fz.a.tdm 0).clockOk = true ∧
    (fz.a.tdm 0).frozen.isSome = true ∧ slotCount (ok.a.regI .tdmSlotMask [0]) * ok.a.fld .tdmBlock [0] 12 0 = 16 ∧
    (writeBoth r .a (.tdm 0) 1 0x2020 body).2 = true ∧ (writeBoth y .a (.tdm 0) 1 0x2000 head).2 = true ∧
    (signalBoth (writeBoth y .a (.tdm 0) 1 0x2000 head).1 .a (.tdm 0) 1 0x300 1).2 = true ∧ lost.a.tdmEn 0 = true ∧
    (lost.a.tdm 0).clockOk = false ∧ (fz.a.tdm 0).lost = true ∧ (ok.a.tdm 0).lost = false ∧ st.a.tdmEn 0 = false ∧
    0 < slotCount (ok.a.regI .tdmSlotMask [0]) * ok.a.fld .tdmBlock [0] 12 0 ∧ (true = true ∨ false = true)
    := by decide

theorem wit_UsbAndStorage_storage :
    let l := fun (x : Die) => wr [(.ufsLuOwner, [2], 1), (.ufsXferCount, [], 1), (.ufsXferVaLo, [], 0x1000), (.ufsXferFenceLo, [], 0x100), (.ufsXferValueLo, [], 9)] { mem1 x with io.ufs.linkUp := true }
    let u := fun (va : Nat) => ({ write := true, lu := 2, ctx := 1, lba := 0, va := va, count := 1, fence := 0x100, value := 9, frozen := none, ahead := 0 } : UfsXfer)
    let go := fun (va : Nat) => onA fun x => { l x with io.ufs.xfer := some (u va) }
    let wt := onA fun x => { l x with io.ufs.xfer := some { u 0x1000 with ahead := 1 } }
    let pg := fun (a : Nat) (x : Die) => wr [(.xspAddr, [], a), (.xspBuf, [0], 0x04030201)] x
    let busy := fun (c : Nat) (x : Die) => { pg 0x100 x with io.flash.cmd := some (c, 0x10000, [1, 2]), io.flash.cells := [(0x10000, 5), (0x10001, 6)] }
    let old := fun (x : Die) => { busy 1 x with time := 4000000 * 400 }
    (onA l).a.running = true ∧ ufsGoRefused (onA l).a 0 = true ∧ ufsGoRefused (onA l).a 2 = false ∧
    (go 0x1000).a.io.ufs.xfer = some (u 0x1000) ∧ (go 0x1000).a.running = true ∧ (u 0x1000).frozen = none ∧ (u 0x1000).ahead = 0 ∧ wt.a.io.ufs.xfer = some { u 0x1000 with ahead := 1 } ∧
     (go 0x1000).a.io.ufs.linkUp = true ∧
    (ufsUnits (go 0x1000).b (u 0x1000) [] 1 0 (go 0x1000).a).2 = true ∧ (ufsUnits (go 0x40000).b (u 0x40000) [] 1 0 (go 0x40000).a).2 = false ∧
    (writeUnit (go 0x1000).b (go 0x1000).a .ufs 1 0x108 (leBytes 8 8) accWrite).2 = true ∧
    (signalUnit (go 0x1000).b (writeUnit (go 0x1000).b (go 0x1000).a .ufs 1 0x108 (leBytes 8 8) accWrite).1 .ufs 1 0x100 9).2.isSome = true ∧
    xspRefused (onA (pg 0x10000)).a 1 = false ∧ xspRefused (onA (pg 0x100)).a 1 = true ∧ xspRefused (onA (pg 0x100)).a 2 = false ∧
    xspRefused (onA (pg 0x100)).a 3 = false ∧ (onA (busy 1)).a.io.flash.cmd = some (1, 0x10000, [1, 2]) ∧
    (onA (busy 2)).a.io.flash.cmd = some (2, 0x10000, [1, 2]) ∧ (onA (busy 3)).a.io.flash.cmd = some (3, 0x10000, [1, 2]) ∧
    (onA old).a.passed (onA old).a.io.flash.since 4000000 = true
    := by decide

theorem wit_TelemetryAndRegisterWrites_telemetry :
    let a := onA fun x => { x with io.i3c.dyn := some 0x30, io.i3c.snap := [(1, 5), (2, 6)], io.i3c.index := 1, power.slots := 0x100000002 }
    st.a.i3cOn = true ∧ a.a.i3cOn = true ∧ a.a.io.i3c.dyn.isSome = true ∧ (0x48 : BitVec 7) = staticAddr .a ∧ (0x49 : BitVec 7) ≠ staticAddr .a ∧
    st.a.running = true ∧ st.a.io.i3c.dyn = none
    := by decide

theorem wit_TelemetryAndRegisterWrites_writes :
    Reg.addr .torDim [] ≠ Reg.addr .jobCfg [] ∧ Reg.jobCfg.info.rwp.getLsbD 8 = true ∧ regAt 4 = none
    := by decide

/-! ### An ill-formed command for each check, which the check refuses -/

theorem test_packet_too_long : Instr.wellFormed (.commandPacketReceive .a (List.replicate 1025 0)) = false := by decide
theorem test_data_packet_too_long : Instr.wellFormed (.dataPacketOut .a 0 (List.replicate 1025 0)) = false := by decide
theorem test_bridge_slot_of_39_bytes : Instr.wellFormed (.bridgeSlotReceive .a .ctl (List.replicate 39 0)) = false := by decide
theorem test_context_0 : Instr.wellFormed (.submit .a 0) = false := by decide
theorem test_context_1024 : Instr.wellFormed (.submit .a 1024) = false := by decide
theorem test_slot_4096 : Instr.wellFormed (.jobStart .a 4096) = false := by decide
theorem test_pair_item_slot_4096 : Instr.wellFormed (.pairCompareTimeout .a (.job 4096)) = false := by decide
theorem test_record_of_ring_1024 : Instr.wellFormed (.recordIssue .a 1024) = false := by decide
theorem test_tag_65536 : Instr.wellFormed (.remoteTimeout .a 65536) = false := by decide
theorem test_place_64 : Instr.wellFormed (.darnerRecordClose .a 64) = false := by decide
theorem test_training_block_of_15_bytes : Instr.wellFormed (.trainingBlockReceive .a .x (List.replicate 15 0)) = false := by decide
theorem test_flit_of_33_bytes : Instr.wellFormed (.flitReceive .a .x (List.replicate 33 0) true) = false := by decide
theorem test_control_block_of_17_bytes : Instr.wellFormed (.linkControlBlock .a .x (List.replicate 17 0)) = false := by decide
theorem test_training_of_23_channels :
    Instr.wellFormed (.dramTrainingDone .a { ok := true, ranks := List.replicate 23 1, gibs := List.replicate 24 1 }) = false := by decide
theorem test_fifteen_readings : Instr.wellFormed (.thermalSample .a (List.replicate 15 0)) = false := by decide
theorem test_private_read_of_no_word : Instr.wellFormed (.i3cPrivateRead .a 0) = false := by decide
theorem test_parity_address_unaligned : Instr.wellFormed (.cfgParity .a 2 true) = false := by decide
theorem test_parity_address_outside : Instr.wellFormed (.cfgParity .a 0x5E0000 true) = false := by decide
theorem test_l1_miss_register_32 : Instr.wellFormed (.l1LineFill .a c0 32 .good) = false := by decide
theorem test_l2_failing_word_16 : Instr.wellFormed (.l2LineFill .a 0 0 [(16, 0)] true) = false := by decide
theorem test_merge_failing_word_16 : Instr.wellFormed (.l2MergeCommit .a 0 0 [(16, 0)]) = false := by decide
theorem test_l2_miss_register_64 : Instr.wellFormed (.l2LineFill .a 0 64 [] true) = false := by decide
theorem test_training_of_23_sizes :
    Instr.wellFormed (.dramTrainingDone .a { ok := true, ranks := List.replicate 24 1, gibs := List.replicate 23 1 }) = false := by decide
theorem test_migration_of_context_1024 : Instr.wellFormed (.migrationFillDone .a 1024 0 .zeroDone) = false := by decide
theorem test_migration_of_page_beyond : Instr.wellFormed (.migrationFillDone .a 1 (2 ^ 48) .zeroDone) = false := by decide
theorem test_granule_beyond : Instr.wellFormed (.ownEntryParityRepair .a (2 ^ 19) true) = false := by decide
theorem test_a_well_formed_command : Instr.wellFormed (.submit .a 1) = true := by decide

/-! ### Steps whose results the spec gives -/

/-- R521: IDCODE 0x0C25A0F3, least significant byte first. -/
theorem test_idcode : isNext (exec .idcode st) (fun t => decide (t.tap.out = [0xF3, 0xA0, 0x25, 0x0C])) = true := by decide

/-- R55, R56: no reply is queued, so the endpoint answers NRDY in SuperSpeed, and owes an ERDY. -/
theorem test_in_token_without_reply :
    isNext (exec (.replyInToken .a) st) (fun t => decide (t.a.cmd.answer = .nrdy ∧ t.a.io.usb.owed.length = 1)) = true := by decide

/-- R562: a pin resets its die alone, with code 3. -/
theorem test_die_pin : isNext (exec (.resetSource (.diePin .a)) st)
    (fun t => decide (t.a.dev = .rom ∧ t.a.power.resetCause = 3 ∧ t.b.dev = .ready)) = true := by decide

/-- R576: above the cap the gate rises by 2. -/
theorem test_gate_rises : isNext (exec (.powerCapStep .a 100000) st) (fun t => decide (t.a.power.gate = 2)) = true := by decide

/-- R453: local time begins at 0 with the lock. -/
theorem test_pll_lock : isNext (exec (.rootPllLock .a) (onA fun x => { x with dev := .rom, power.pllLock := false, time := 9 }))
    (fun t => decide (t.a.power.pllLock = true ∧ t.a.time = 0)) = true := by decide

/-- Row EMPTY of the queue, log entry 1: local time goes on by a microsecond of 400 cycles. -/
theorem test_idle : isNext (step st) (fun t => decide (t.a.time = 400 ∧ t.pending = [])) = true := by decide

/-- R455: a lost reference enters SAFE. -/
theorem test_ref_lost : isNext (exec (.refLost .a) st) (fun t => decide (t.a.dev = .safe)) = true := by decide

/-- R535: ten milliseconds after a press changed the speed, the port connects no faster than its limit. -/
theorem test_reconnect : isNext (exec (.usbReconnect .a .gen2x2)
    (onA fun x => wr [(.usbCfg, [], 1)] { x with time := 4000000, io.usb.reconnect := some 0 }))
    (fun t => decide (t.a.io.usb.speed = .gen1x1)) = true := by decide

end Sys2Proof.Tests
end

section
/-! PROOFS. What the updates of a die that the die-pair logic uses leave behind: counters, flags, notes and jobs. -/
namespace Sys2Proof.Machine

/-! ### A change of one die, and then of the other -/

/-- A change of a die is what it makes of that die. -/
theorem State.onDie_congr {s : State} {d : DieId} {f g : Die → Die} (h : f (s.die d) = g (s.die d)) :
    s.onDie d f = s.onDie d g := by
  simp only [State.onDie, h]

theorem State.die_onDie_onDie_other (s : State) (d : DieId) (f g : Die → Die) :
    ((s.onDie d f).onDie d.other g).die d = { f (s.die d) with id := d } := by
  rw [State.die_onDie_other, State.die_onDie]

theorem State.die_other_onDie_onDie_other (s : State) (d : DieId) (f g : Die → Die) :
    ((s.onDie d f).onDie d.other g).die d.other = { g (s.die d.other) with id := d.other } := by
  rw [State.die_onDie, State.die_other_onDie]

/-! ### Counters, flags and records -/

/-- A counter that advances by one (R101). -/
@[simp] theorem Die.reg_count (x : Die) (r : Reg) : (x.count r).reg r = x.reg r + 1 := by
  simp [Die.count, Die.countI, Die.reg]

theorem Die.reg_count_ne (x : Die) {r q : Reg} (h : q.addr [] ≠ r.addr []) : (x.count r).reg q = x.reg q :=
  Die.regI_setRegI_ne x r q [] [] _ h

theorem Die.reg_flag_ne (x : Die) {r q : Reg} (b : Nat) (h : q.addr [] ≠ r.addr []) : (x.flag r b).reg q = x.reg q :=
  Die.regI_setRegI_ne x r q [] [] _ h

/-- A flag that has been set reads 1 (R14). -/
theorem Die.getLsbD_reg_flag (x : Die) (r : Reg) {b : Nat} (h : b < 32) : ((x.flag r b).reg r).getLsbD b = true := by
  have hbit : ((1 : Word) <<< b).getLsbD b = true := by simp [h]
  simp only [Die.flag, Die.flagI, Die.reg, Die.regI_setRegI, BitVec.getLsbD_or, hbit, Bool.or_true]

@[simp] theorem Die.reg_note (x : Die) (cls : Byte) (m : Master) (i : FaultInfo) (r : Reg) :
    (x.note cls m i).reg r = x.reg r := rfl

/-- A record lengthens the darner's queue by its class. -/
theorem Die.map_cls_reports_note (x : Die) (cls : Byte) (m : Master) (i : FaultInfo) :
    (x.note cls m i).flt.reports.map (fun r => r.cls) = x.flt.reports.map (fun r => r.cls) ++ [cls] := by
  simp [Die.note, Die.report]

/-! ### The job table -/

/-- The first element that passes a test is still found after a change that keeps the test. -/
theorem find?_updWhere {α : Type} {p : α → Bool} {f : α → α} {l : List α} {a : α}
    (hf : ∀ b, p b = true → p (f b) = true) (h : l.find? p = some a) : (updWhere p f l).find? p = some (f a) := by
  induction l with
  | nil => simp at h
  | cons b l ih =>
    by_cases hb : p b = true
    · obtain rfl : b = a := by simpa [hb] using h
      simp [updWhere, hb, hf b hb]
    · have hl : l.find? p = some a := by simpa [hb] using h
      simpa [updWhere, hb] using ih hl

/-- A job that keeps its slot is found there after a change of it. -/
theorem Die.job?_updJob {x : Die} {k : Nat} {j : Job} {f : Job → Job} (hf : ∀ t, (f t).slot = t.slot)
    (h : x.job? k = some j) : (x.updJob k f).job? k = some (f j) :=
  find?_updWhere (p := fun t : Job => t.slot == k) (fun b hb => by simpa [hf b] using hb) h

end Sys2Proof.Machine
end

section
/-! PROOFS. O16: CMD_PAIR_CFG, the die bridge and the mirror stream (R17 to R19, R26, R38, R41, R50). -/
namespace Sys2Proof.Machine

/-! ### CMD_PAIR_CFG -/

/-- What a write of CMD_PAIR_CFG leaves on a die (R13, R26, R468). -/
def PairCfgWritten (v : Word) (x y : Die) : Prop :=
  y.shadowI .cmdPairCfg [] = rwpMerge .cmdPairCfg (x.shadowI .cmdPairCfg []) v ∧ y.regs = x.regs ∧
    y.pair.mode = x.pair.mode ∧ y.press.dirty = x.press.dirty ||| bits44 (Reg.cmdPairCfg.units [])

theorem pairCfgWritten_writeShadow (v : Word) (x : Die) : PairCfgWritten v x (x.writeShadow .cmdPairCfg [] v) :=
  ⟨Die.shadowI_setShadowI x .cmdPairCfg [] _, rfl, rfl, rfl⟩

theorem pairCfgWrite_written (s : State) (d e : DieId) (v : Word) (hb : d = .b → s.b.cfgTied = false) :
    PairCfgWritten v (s.die e) ((pairCfgWrite s d v).die e) := by
  cases d with
  | a =>
    rw [pairCfgWrite, State.die_onBoth]
    exact pairCfgWritten_writeShadow v (s.die e)
  | b =>
    rw [pairCfgWrite, if_neg (by simp [hb rfl]), State.die_onBoth]
    exact pairCfgWritten_writeShadow v (s.die e)

theorem exec_cmdPairCfgWrite {s : State} {d : DieId} {v : Word} (hrun : (s.die d).running = true)
    (hv : pairCfgBad v = false) (href : (s.die d).pairCfgRefused = false) :
    exec (.cmdPairCfgWrite d v) s = .next (pairCfgWrite s d v) :=
  if_neg (by simp [hrun, hv, href])

theorem exec_cmdPairCfgWrite_tied {s : State} (v : Word) (h : s.b.cfgTied = true) :
    exec (.cmdPairCfgWrite .b v) s = .next s := by
  change execCmdPairCfgWrite .b v s = .next s
  simp [execCmdPairCfgWrite, pairCfgWrite, h]

/-! ### The bridge -/

theorem exec_bridgeSlotReceive_good {s : State} {d : DieId} {cls : BridgeClass} {slot : List Byte}
    (hup : (s.die d).pair.bridgeUp = true) (hok : slotPasses slot = true) :
    exec (.bridgeSlotReceive d cls slot) s = .next (s.onDie d fun x =>
      let y : Die := { x with pair.slotFails := vmod x.pair.slotFails (bridgeRow cls) fun _ => 0 }
      if cls = .ctl then { y with pair.lastCtl := x.time, pair.heard := true } else y) := by
  change execBridgeSlotReceive d cls slot s = _
  simp [execBridgeSlotReceive, hup, hok, Die.heardCtl]

theorem exec_bridgeSlotReceive_resent {s : State} {d : DieId} {cls : BridgeClass} {slot : List Byte}
    (hup : (s.die d).pair.bridgeUp = true) (hbad : slotPasses slot = false)
    (hn : (s.die d).pair.slotFails[bridgeRow cls] < 16) :
    exec (.bridgeSlotReceive d cls slot) s = .next ((s.onDie d fun x =>
      { x with pair.slotFails := vmod x.pair.slotFails (bridgeRow cls) (· + 1) }).onDie d.other
        fun y => y.count .cmdBridgeReplayCnt) := by
  change execBridgeSlotReceive d cls slot s = _
  rw [execBridgeSlotReceive, if_neg (by simp [hup]), if_neg (by simp [hbad]), if_pos hn]

theorem exec_bridgeSlotReceive_down {s : State} {d : DieId} {cls : BridgeClass} {slot : List Byte}
    (hup : (s.die d).pair.bridgeUp = true) (hbad : slotPasses slot = false)
    (hn : 16 ≤ (s.die d).pair.slotFails[bridgeRow cls]) :
    exec (.bridgeSlotReceive d cls slot) s = .next (s.onBoth Die.bridgeDown) := by
  change execBridgeSlotReceive d cls slot s = _
  rw [execBridgeSlotReceive, if_neg (by simp [hup]), if_neg (by simp [hbad]), if_neg (Nat.not_lt.mpr hn)]

/-! ### The confirmation of a press, and a mirrored write -/

/-- An acknowledgement takes its unit out of those that are behind (R471). -/
theorem Die.behind_unitAcked (x : Die) (u : Nat) :
    (x.unitAcked u).press.behind = x.press.behind &&& ~~~bit44 u := by
  simp only [Die.unitAcked]
  split <;> rfl

/-- The last acknowledgement makes the epoch active (R471). -/
theorem Die.activeEpoch_unitAcked (x : Die) (u : Nat) (h : (x.unitAcked u).press.behind = 0) :
    (x.unitAcked u).press.activeEpoch = (x.unitAcked u).press.epoch := by
  rw [Die.behind_unitAcked] at h
  simp only [Die.unitAcked, if_pos h]

theorem Die.regs_unitAcked (x : Die) (u : Nat) : (x.unitAcked u).regs = x.regs := by
  simp only [Die.unitAcked]
  split <;> rfl

theorem Die.dram_unitAcked (x : Die) (u : Nat) : (x.unitAcked u).dram = x.dram := by
  simp only [Die.unitAcked]
  split <;> rfl

theorem exec_pairCfgConfirm {s : State} {d : DieId} {m : CtlMsg}
    (hm : (s.die d.other).pair.ctlOut.find? (fun m => m.applied.isSome) = some m)
    (hup : (s.die d).pair.bridgeUp = true) (hepoch : m.applied = some (s.die d).press.epoch)
    (hbehind : (s.die d).press.behind.getLsbD 43 = true)
    (happlied : (s.die d).press.applied.getLsbD 43 = true) (hlate : (s.die d).lateUnit 43 = false) :
    exec (.pairCfgConfirm d) s = .next ((s.onDie d fun x =>
      { x.heardCtl.unitAcked 43 with pair.confirmed := m.applied, pair.undo := none }).onDie d.other fun p =>
        { p with pair.ctlOut := dropFirst (fun m => m.applied.isSome) p.pair.ctlOut, pair.undo := none }) := by
  change execPairCfgConfirm d s = _
  simp only [execPairCfgConfirm, hm]
  rw [if_neg (by simp [hup])]
  congr 2
  exact State.onDie_congr (if_pos ⟨hepoch, hbehind, happlied, by simp [hlate]⟩)

theorem exec_mirrorWrite_write {s : State} {d : DieId} {pa : Nat} {bs : List Byte} {rest : List MirItem}
    (hout : (s.die d.other).pair.mirOut = .write pa bs :: rest) (hm : Die.mirrored (s.die d.other) (s.die d) = true) :
    exec (.mirrorWrite d) s = .next ((s.onDie d (mirrorBytes pa bs)).onDie d.other
      fun p => { p with pair.mirOut := rest }) := by
  change execMirrorWrite d s = _
  simp only [execMirrorWrite, hout, hm, mirrorWaits]
  cases d <;> rfl

/-- Settles O16, clause by clause from what each command answers. -/
theorem pairConfigurationBridgeAndMirror : Obligations.PairConfigurationBridgeAndMirror := by
  unfold Obligations.PairConfigurationBridgeAndMirror
  refine ⟨fun s d v cls slot => ⟨?_, exec_cmdPairCfgWrite_tied v, exec_bridgeSlotReceive_good, ?_, ?_, rfl, ?_⟩, ?_⟩
  · intro hrun hv href htied
    exact ⟨_, exec_cmdPairCfgWrite hrun hv href, fun e => pairCfgWrite_written s d e v htied⟩
  · intro hup hbad hn
    refine ⟨_, exec_bridgeSlotReceive_resent hup hbad hn, ?_⟩
    rw [State.die_onDie_onDie_other, State.die_other_onDie_onDie_other]
    exact ⟨rfl, Die.reg_count (s.die d.other) _, rfl, rfl⟩
  · intro hup hbad hn
    refine ⟨_, exec_bridgeSlotReceive_down hup hbad hn, fun e => ?_⟩
    rw [State.die_onBoth]
    exact ⟨rfl, rfl, rfl, rfl, Die.map_cls_reports_note _ _ _ _⟩
  · intro m hm hup hepoch hbehind happlied hlate
    refine ⟨_, exec_pairCfgConfirm hm hup hepoch hbehind happlied hlate, ?_⟩
    rw [State.die_onDie_onDie_other, State.die_other_onDie_onDie_other]
    exact ⟨Die.behind_unitAcked _ 43, rfl, Die.activeEpoch_unitAcked _ 43, rfl, Die.regs_unitAcked _ 43,
      Die.dram_unitAcked _ 43⟩
  · intro s d pa bs rest hout hm
    refine ⟨_, exec_mirrorWrite_write hout hm, ?_⟩
    rw [State.die_onDie_onDie_other, State.die_other_onDie_onDie_other]
    exact ⟨rfl, fun i hi => Mem.byte_setBytes bs _ pa i hi, fun a ha => Mem.byte_setBytes_ne bs _ pa a ha,
      rfl, rfl, rfl, rfl⟩

end Sys2Proof.Machine
end

section
/-! PROOFS. O17 fails: a takeover need not end in ACTIVE. While the new active die gives back what a mirrored job held, it
writes the counts of a wringer job; where the walk for that write reads a word of wrong parity in a granule of context 0, the
granule is poisoned and the die enters SAFE (R477, R479, R485), although it has taken over. -/
namespace Sys2Proof.Machine

/-! ### The loss of the partner, on a standby -/

/-- A standby with no press and no pipe's acknowledgement pending, as the loss of its partner leaves it (R41). -/
def Die.standbyAlone (x : Die) (announced : Nat) : Die :=
  ((({ x with
        pair.lost := true, pair.degraded := true, pair.copying := false
        pair.mirOut := [], pair.ctlOut := [], pair.cmpOut := []
        pipes := x.pipes.map fun (t : Pipe) => { t with pairLocked := false } } : Die).flag .cmdPairFlags 2).count
    .cmdPartnerLostCnt).note clsPartnerLost .pairLogic (FaultInfo.plain 0 announced)

theorem settlePairPress_of_idle {x : Die} (hundo : x.pair.undo = none) (hbehind : x.press.behind = 0) :
    settlePairPress x = x := by
  simp [settlePairPress, undoPairCfg, hundo, hbehind]

/-- Where no pipe owes its partner an acknowledgement, none is given. -/
theorem foldl_of_no_pairAck (ack : Die → Fin 4 → Die) (qs : List (Fin 4)) {x : Die}
    (h : ∀ q : Fin 4, (x.pipes[q]).pairAckDue = none) :
    qs.foldl (fun y q => if (y.pipes[q]).pairAckDue.isSome then ack y q else y) x = x := by
  induction qs with
  | nil => rfl
  | cons q qs ih =>
    rw [List.foldl_cons, if_neg (by rw [h q]; decide)]
    exact ih

theorem declareLost_standby {p x : Die} (announced : Nat) (hlost : x.pair.lost = false) (hmode : x.pair.mode = 2)
    (hrole : x.pair.role = .standby) (hundo : x.pair.undo = none) (hbehind : x.press.behind = 0)
    (hacks : ∀ q : Fin 4, (x.pipes[q]).pairAckDue = none) : declareLost p x announced = x.standbyAlone announced := by
  have hacks' : ∀ q : Fin 4, ((x.standbyAlone announced).pipes[q]).pairAckDue = none := by
    intro q
    change ((x.pipes.map fun (t : Pipe) => { t with pairLocked := false })[q]).pairAckDue = none
    simpa using hacks q
  have hsync : (decide (x.pair.mode = 2) && decide (x.pair.role = .standby) && x.pair.mirrorSync) = x.pair.mirrorSync := by
    simp [hmode, hrole]
  have hsettle : settlePairPress (x.standbyAlone announced) = x.standbyAlone announced :=
    settlePairPress_of_idle hundo hbehind
  have hsurvive : pairSurvivor p (x.standbyAlone announced) = x.standbyAlone announced :=
    if_pos (by change x.pair.mode ≠ 1; rw [hmode]; decide)
  rw [declareLost, if_neg (by simp [hlost])]
  simp only [hsync]
  change pairSurvivor p (pipeIds.foldl _ (settlePairPress (x.standbyAlone announced))) = _
  rw [hsettle, foldl_of_no_pairAck _ _ hacks', hsurvive]

/-- A READY standby in step takes over where AUTO_FAILOVER is 1 (R42). -/
theorem losePartner_takesOver {s : State} {d : DieId} (announced : Nat) (hlost : (s.die d).pair.lost = false)
    (hmode : (s.die d).pair.mode = 2) (hrole : (s.die d).pair.role = .standby)
    (hsync : (s.die d).pair.mirrorSync = true) (hauto : cfgAutoFailover ((s.die d).reg .cmdPairCfg) = true)
    (hready : (s.die d).dev = .ready) :
    losePartner d announced s = takeOverOn d ((drainMirror d s).onDie d fun x =>
      declareLost ((drainMirror d s).die d.other) x announced) := by
  simp [losePartner, hlost, hmode, hrole, hsync, hauto, hready]

theorem exec_partnerLost {s : State} {d : DieId} (hwatches : (s.die d).watches = true)
    (hsuspended : (s.die d).pair.suspended = false) (hsilent : (s.die d).partnerSilent = true) :
    exec (.partnerLost d) s = .next (losePartner d 0 s) := by
  change execPartnerLost d s = _
  simp [execPartnerLost, hwatches, hsuspended, hsilent]

/-! ### The counterexample -/

/-- Context 1 runs in VM 1, without stage-1 tables. -/
def contextOfVm1 : Ctx :=
  { num := 1, state := .running, attr := 0, vmid := 1, s1root := 0, timeout := 0, stream := Stream.reset, faultCnt := 0 }

/-- A running job of context 1 in slot 0, whose wringer's parameter block has been read. -/
def wringerJob : Job :=
  { mkJob 0 1 1 1 1 [] false with state := .running, wrg.par := List.replicate 64 0 }

/-- A READY standby in step whose partner has been silent for HB_LIMIT × 4 local µs: SPARE mode, ACTIVE_DIE 1, AUTO_FAILOVER 1
and HB_LIMIT 4. The stage-2 root table of VM 1 stands at 0x80, in a TABLE granule of context 0; its first word has wrong
parity. Wringer 0 holds the job of slot 0. -/
def spareStandby : Die :=
  let x := (Die.reset .a Fuses.blank [] 1).setReg .cmdPairCfg 0x00014016
  { x with
    dev := .ready
    time := 4 * 4 * 400
    power.pllLock := true
    pair.bridgeUp := true
    pair.mode := 2
    pair.role := .standby
    pair.mirrorSync := true
    cmd.ctxs := [contextOfVm1]
    dram.spoiled := [0x80 / 8]
    xlt.own := [(0, ownMake 0 2 true false 1)]
    xlt.vms := [(1, 0x80)]
    jobs.list := [wringerJob]
    wringers := vmod x.wringers 0 fun e => { e with job := some 0 } }

/-- Die A is the standby; die B is as after reset. -/
def sparePair : State := { State.reset with a := spareStandby }

/-- The loss of the partner, before the takeover. -/
theorem losePartner_sparePair : losePartner .a 0 sparePair =
    takeOverOn .a ((drainMirror .a sparePair).onDie .a fun x => x.standbyAlone 0) := by
  rw [losePartner_takesOver 0 rfl rfl rfl rfl (by decide) rfl]
  congr 1
  exact State.onDie_congr (declareLost_standby 0 rfl rfl rfl rfl rfl (by decide))

set_option maxRecDepth 1000 in
/-- The die has taken over, and is in SAFE. -/
theorem dev_losePartner_sparePair : ((losePartner .a 0 sparePair).die .a).dev = .safe := by
  rw [losePartner_sparePair]
  decide

/-- Refutes O17: `sparePair` meets every premise of the takeover, whose die ends in SAFE and not in ACTIVE. -/
theorem not_initialCopyLossAndTakeover : ¬ Obligations.InitialCopyLossAndTakeover := by
  unfold Obligations.InitialCopyLossAndTakeover
  rintro ⟨-, hlost, -⟩
  obtain ⟨hsilent, -⟩ := hlost sparePair .a (by decide) (.inl rfl) rfl
  obtain ⟨t, hexec, -, htook⟩ := hsilent rfl (by decide) (by decide)
  obtain ⟨-, hactive, -⟩ := htook ⟨rfl, rfl, rfl, rfl, by decide, rfl⟩
  have hlose : exec (.partnerLost .a) sparePair = .next (losePartner .a 0 sparePair) :=
    exec_partnerLost (by decide) rfl (by decide)
  obtain rfl : losePartner .a 0 sparePair = t := Host.Outcome.next.inj (hlose.symm.trans hexec)
  rw [dev_losePartner_sparePair] at hactive
  exact absurd hactive (by decide)

end Sys2Proof.Machine
end

section
/-! PROOFS. O18: comparing paired jobs, and sharing their deadlines (R32 to R35, R348). -/
namespace Sys2Proof.Machine

/-! ### A die's vote, and what the votes decide (R34, R35) -/

/-- A job as the die's own vote leaves it: the partner's tags are spent. -/
def Job.voted (j : Job) (v : Vote) : Job := { j with myVote := some v, theirTags := none }

/-- A job that is not released, with the flags that say why (R33, R35). -/
def Job.failed (j : Job) (fl : Byte) : Job :=
  { j with status := some jsPairMismatch, pairOk := some false, flags := j.flags ||| fl, theirTags := none }

@[simp] theorem cmpOut_castVote (x : Die) (j : Job) (v : Vote) :
    (castVote x j v).pair.cmpOut = x.pair.cmpOut ++ [.vote j.ctx j.key v] := rfl

theorem job?_castVote {x : Die} {j : Job} (v : Vote) (h : x.job? j.slot = some j) :
    (castVote x j v).job? j.slot = some (j.voted v) :=
  Die.job?_updJob (x := { x with pair.cmpOut := x.pair.cmpOut ++ [.vote j.ctx j.key v] }) (fun _ => rfl) h

@[simp] theorem cmpOut_failPaired (x : Die) (j : Job) (timeout : Bool) :
    (failPaired x j timeout).pair.cmpOut = x.pair.cmpOut := by
  cases timeout <;> rfl

theorem job?_failPaired {x : Die} {j t : Job} (timeout : Bool) (h : x.job? j.slot = some t) :
    (failPaired x j timeout).job? j.slot = some (t.failed (if timeout then jfPairTimeout else 0)) := by
  have hupd (fl : Byte) := Die.job?_updJob (x := { x with pair.tags := dropFirst (isJobTag j.slot) x.pair.tags })
    (f := fun t => t.failed fl) (fun _ => rfl) h
  cases timeout
  · exact hupd 0
  · exact hupd jfPairTimeout

/-- A mismatch is counted and flagged (R34). -/
theorem regs_failPaired_mismatch (x : Die) (j : Job) :
    (failPaired x j false).reg .cmdPairMismatchCnt = x.reg .cmdPairMismatchCnt + 1 ∧
      ((failPaired x j false).reg .cmdPairFlags).getLsbD 0 = true := by
  simp only [failPaired, Bool.false_eq_true, if_false, Die.reg_note, Die.reg_count]
  rw [Die.reg_flag_ne _ 0 (by decide), Die.reg_count_ne _ (by decide)]
  exact ⟨rfl, Die.getLsbD_reg_flag _ _ (by decide)⟩

/-- A timeout is counted and flagged (R35). -/
theorem regs_failPaired_timeout (x : Die) (j : Job) :
    (failPaired x j true).reg .cmdPairTimeoutCnt = x.reg .cmdPairTimeoutCnt + 1 ∧
      ((failPaired x j true).reg .cmdPairFlags).getLsbD 1 = true := by
  simp only [failPaired, if_true, Die.reg_note, Die.reg_count]
  rw [Die.reg_flag_ne _ 1 (by decide), Die.reg_count_ne _ (by decide)]
  exact ⟨rfl, Die.getLsbD_reg_flag _ _ (by decide)⟩

@[simp] theorem pair_passPaired (x : Die) (slot : Nat) (f : Job → Job) : (passPaired x slot f).pair = x.pair := by
  unfold passPaired
  split
  · rfl
  · split <;> rfl

theorem job?_passPaired {x : Die} {slot : Nat} {j : Job} {f : Job → Job} (hf : ∀ t, (f t).slot = t.slot)
    (h : x.job? slot = some j) : (passPaired x slot f).job? slot = some (f j) := by
  have hupd := Die.job?_updJob hf h
  simp only [passPaired, h]
  split
  · exact hupd
  · exact hupd

/-- Deciding a job sends nothing over CMP. -/
theorem cmpOut_decideJob (x : Die) (slot : Nat) : (decideJob x slot).pair.cmpOut = x.pair.cmpOut := by
  unfold decideJob
  split
  · rfl
  · split <;> simp

/-- Both comparisons agree: the job is released (R34). -/
theorem job?_decideJob_agree {x : Die} {slot : Nat} {j : Job} (h : x.job? slot = some j)
    (hmine : j.myVote = some .agree) (htheirs : j.theirVote = some .agree) :
    (decideJob x slot).job? slot = some { j with pairOk := some true } := by
  have hpass := job?_passPaired (x := { x with pair.tags := dropFirst (isJobTag slot) x.pair.tags })
    (f := fun t => { t with pairOk := some true }) (fun _ => rfl) h
  simpa only [decideJob, h, hmine, htheirs] using hpass

/-- Without the partner's vote nothing is decided (R34). -/
theorem decideJob_of_no_vote {x : Die} {slot : Nat} {j : Job} (h : x.job? slot = some j) (htheirs : j.theirVote = none) :
    decideJob x slot = x := by
  simp only [decideJob, h, htheirs]
  split <;> simp_all

/-! ### The tags of a job (R33, R34) -/

theorem cmpOut_compareJob_agree {x : Die} {j : Job} {mine theirs : List Word} (heq : mine = theirs) :
    (compareJob x j mine theirs).pair.cmpOut = x.pair.cmpOut ++ [.vote j.ctx j.key .agree] := by
  rw [compareJob, if_pos heq, cmpOut_decideJob, cmpOut_castVote]

/-- Tags that agree leave the job waiting for the partner's vote. -/
theorem job?_compareJob_waits {x : Die} {j : Job} {mine theirs : List Word} (h : x.job? j.slot = some j)
    (heq : mine = theirs) (hvote : j.theirVote = none) :
    (compareJob x j mine theirs).job? j.slot = some (j.voted .agree) := by
  have hcast := job?_castVote .agree h
  rw [compareJob, if_pos heq, decideJob_of_no_vote hcast hvote, hcast]

/-- Tags that agree release a job for which the partner has voted. -/
theorem job?_compareJob_released {x : Die} {j : Job} {mine theirs : List Word} (h : x.job? j.slot = some j)
    (heq : mine = theirs) (hvote : j.theirVote = some .agree) :
    (compareJob x j mine theirs).job? j.slot = some { j.voted .agree with pairOk := some true } := by
  rw [compareJob, if_pos heq, job?_decideJob_agree (job?_castVote .agree h) rfl hvote]

/-- Tags that differ fail the job. -/
theorem compareJob_differ {x : Die} {j : Job} {mine theirs : List Word} (hne : mine ≠ theirs) :
    compareJob x j mine theirs = failPaired (castVote x j .mismatch) j false := if_neg hne

theorem Job.failed_zero (j : Job) :
    j.failed 0 = { j with status := some jsPairMismatch, pairOk := some false, theirTags := none } := by
  simp [Job.failed]

/-! ### The commands -/

theorem exec_pairCheckDone {s : State} {d : DieId} {j : Job} {y : Die} {ts : List Word}
    (hjob : (s.die d).job? j.slot = some j) (hpaired : j.paired = true) (hended : j.state = .ended)
    (hok : j.status = some jsOk) (htagged : j.tagged = false) (hpair : j.pairOk = none) (hheld : j.held = none)
    (htheirs : j.theirTags = none) (hrun : (s.die d).running = true) (hlost : (s.die d).pair.lost = false)
    (hform : formTags (s.die d.other) (s.die d) j = (y, some ts)) :
    exec (.pairCheckDone d j.slot) s = .next (s.onDie d fun _ =>
      let z := y.updJob j.slot (fun t => { t with tagged := true, myTags := ts })
      { z with
        pair.cmpOut := z.pair.cmpOut ++ [.job j.ctx j.key ts]
        pair.tags := z.pair.tags ++
          [{ item := .job j.slot, frame := 0, tags := ts.map some, passed := 0, since := z.time }] }) := by
  change nextOn d _ s = _
  rw [nextOn_eq]
  congr 1
  apply State.onDie_congr
  simp [pairCheckDie, hjob, hpaired, hended, hok, htagged, hpair, hheld, htheirs, hrun, hlost, hform]

theorem exec_pairTagsReceive {s : State} {d : DieId} {m : CmpMsg} (hrun : (s.die d).running = true)
    (hup : (s.die d).pair.bridgeUp = true) (hm : (s.die d.other).pair.cmpOut.find? (cmpReady (s.die d)) = some m) :
    exec (.pairTagsReceive d) s = .next ((s.onDie d fun x => takeTags x m).onDie d.other fun p =>
      { p with pair.cmpOut := dropFirst (cmpReady (s.die d)) p.pair.cmpOut }) := by
  change execPairTagsReceive d s = _
  simp [execPairTagsReceive, hrun, hup, hm]

theorem takeTags_job {x : Die} {j : Job} {c k : Nat} (ts : List Word) (hkey : x.jobByKey c k = some j)
    (hpair : j.pairOk = none) (htagged : j.tagged = true) :
    takeTags x (.job c k ts) = compareJob x j j.myTags ts := by
  simp [takeTags, hkey, hpair, htagged]

/-- The partner's agreement releases a job on which this die's comparison agreed. -/
theorem job?_takeTags_vote {x : Die} {j : Job} {c k : Nat} (hkey : x.jobByKey c k = some j)
    (hjob : x.job? j.slot = some j) (hpair : j.pairOk = none) (hmine : j.myVote = some .agree) :
    (takeTags x (.vote c k .agree)).job? j.slot = some { j with theirVote := some .agree, pairOk := some true } := by
  have hupd := Die.job?_updJob (f := fun t => { t with theirVote := some .agree }) (fun _ => rfl) hjob
  simp only [takeTags, hkey, hpair, Option.isSome_none, Bool.false_eq_true, if_false]
  exact job?_decideJob_agree hupd hmine rfl

theorem exec_pairCompareTimeout {s : State} {d : DieId} {j : Job} {w : TagWait}
    (hw : (s.die d).pair.tags.find? (fun t => decide (t.item = .job j.slot)) = some w)
    (hjob : (s.die d).job? j.slot = some j)
    (hlate : 4 * cfgCmpTimeout ((s.die d).reg .cmdPairCfg) * 400 ≤ ((s.die d).time - w.since).toNat) :
    exec (.pairCompareTimeout d (.job j.slot)) s =
      .next (s.onDie d fun x => failPaired (castVote x j .timeout) j true) := by
  have hpassed : (s.die d).passed w.since (4 * cfgCmpTimeout ((s.die d).reg .cmdPairCfg)) = true := decide_eq_true hlate
  change nextOn d _ s = _
  rw [nextOn_eq]
  congr 1
  apply State.onDie_congr
  simp only [compareTimeoutDie, hw, hpassed, hjob, Bool.not_true, Bool.false_eq_true, if_false]

/-! ### Deadlines (R32, R348) -/

/-- A job with the partner's projection at a checkpoint. -/
def Job.told (j : Job) (chk f : Nat) : Job := { j with theirs := j.theirs ++ [(chk, f)] }

/-- Whether a projection is a miss does not depend on the job table, nor on what the partner told. -/
theorem missed_updJob (x : Die) (k : Nat) (f : Job → Job) (j : Job) (n : Nat) :
    missed (x.updJob k f) j n = missed x j n := rfl

theorem missed_told (x : Die) (j : Job) (chk f n : Nat) : missed x (j.told chk f) n = missed x j n := rfl

/-- A projection waits until this die has its own of that checkpoint (R32). -/
theorem takeProgress_waits {p x : Die} {j : Job} {c k chk : Nat} (f : Nat) (hkey : x.jobByKey c k = some j)
    (hjob : x.job? j.slot = some j) (hmine : j.mine.lookup chk = none) :
    takeProgress p x c k chk f = x.updJob j.slot (·.told chk f) := by
  have hupd := Die.job?_updJob (f := (·.told chk f)) (fun _ => rfl) hjob
  simp only [takeProgress, hkey]
  change decidePaired p (x.updJob j.slot (·.told chk f)) j.slot chk = _
  simp only [decidePaired, hupd]
  rw [show (j.told chk f).mine = j.mine from rfl, hmine]

/-- Both projections are there and the later one is no miss: both are spent, and the job goes on (R32). -/
theorem job?_takeProgress_on_track {p x : Die} {j : Job} {c k chk f g : Nat} (hkey : x.jobByKey c k = some j)
    (hjob : x.job? j.slot = some j) (hmine : j.mine.lookup chk = some g) (htheirs : j.theirs = [])
    (hmiss : missed x j (max g f) = false) :
    (takeProgress p x c k chk f).job? j.slot =
      some { j with mine := j.mine.filter fun e => e.1 != chk, theirs := [] } := by
  have hupd := Die.job?_updJob (f := (·.told chk f)) (fun _ => rfl) hjob
  have hspent := Die.job?_updJob (f := fun t : Job =>
    { t with mine := t.mine.filter fun e => e.1 != chk, theirs := t.theirs.filter fun e => e.1 != chk }) (fun _ => rfl) hupd
  have htold : (j.told chk f).theirs = [(chk, f)] := by simp [Job.told, htheirs]
  simp only [takeProgress, hkey]
  change (decidePaired p (x.updJob j.slot (·.told chk f)) j.slot chk).job? j.slot = _
  simp only [decidePaired, hupd, htold, List.lookup_cons_self]
  rw [show (j.told chk f).mine = j.mine from rfl, hmine]
  dsimp only
  rw [missed_updJob, missed_updJob, missed_told, hmiss, if_neg Bool.false_ne_true, hspent]
  simp [Job.told, htheirs]

theorem exec_deadlineProgressExchange {s : State} {d : DieId} {c k chk f : Nat} {rest : List CtlMsg}
    (hout : (s.die d.other).pair.ctlOut = .progress c k chk f :: rest) :
    ∃ p, exec (.deadlineProgressExchange d) s = .next ((s.onDie d.other fun p => { p with pair.ctlOut := rest }).onDie d
      fun x => takeProgress p x.heardCtl c k chk f) := by
  change ∃ p, execDeadlineProgressExchange d s = _
  simp only [execDeadlineProgressExchange, hout]
  exact ⟨_, rfl⟩

/-- A decided job as die A's decision leaves it where nothing else follows from a miss. -/
def Job.decided (j : Job) (dl : DWord) : Job :=
  { j with expired := true, projected := BitVec.ofNat 64 infinite, deadline := dl }

/-- A job without a kid that does not stop on a miss only shows it (R348). -/
theorem takeDecision_shown {a b : Die} {slot : Nat} {j : Job} (hjob : b.job? slot = some j) (hlive : j.state ≠ .ended)
    (hkid : j.isKid = false) (hva : dKidVa j.desc = 0) (hstop : dOnMiss j.desc = false) :
    ∃ dl, (takeDecision a b slot j.ctx j.key true).job? slot = some (j.decided dl) ∧
      (takeDecision a b slot j.ctx j.key true).regs = b.regs ∧ (takeDecision a b slot j.ctx j.key true).dram = b.dram := by
  have hexp := Die.job?_updJob (f := fun t : Job => { t with expired := true }) (fun _ => rfl) hjob
  have hshown (dl : DWord) := Die.job?_updJob
    (f := fun t : Job => { t with projected := BitVec.ofNat 64 infinite, deadline := dl }) (fun _ => rfl) hexp
  simp only [takeDecision, hjob, hlive, ne_eq, not_false_eq_true, and_self, if_true, onMiss, hexp, hkid, hva, hstop,
    not_true_eq_false, if_false, Bool.false_eq_true]
  exact ⟨_, hshown _, rfl, rfl⟩

theorem exec_pairedDeadlineDecision {s : State} {slot c k : Nat} {rest : List CtlMsg}
    (hout : s.a.pair.ctlOut = .deadline c k true :: rest) :
    exec (.pairedDeadlineDecision slot) s = .next ((s.setDie .b
      (takeDecision { s.a with pair.ctlOut := rest } s.b.heardCtl slot c k true)).setDie .a
        { s.a with pair.ctlOut := rest }) := by
  change execPairedDeadlineDecision slot s = _
  simp only [execPairedDeadlineDecision, hout]

/-- Settles O18, clause by clause from what each command answers. -/
theorem pairedJobsAndDeadlinesAreShared : Obligations.PairedJobsAndDeadlinesAreShared := by
  unfold Obligations.PairedJobsAndDeadlinesAreShared
  refine ⟨fun s d j => ⟨?_, ?_, ?_, ?_⟩, fun s d j c k chk f rest => ⟨?_, ?_⟩⟩
  · intro y ts hjob hpaired hended hok htagged hpair hheld htheirs hrun hlost hform
    refine ⟨_, exec_pairCheckDone hjob hpaired hended hok htagged hpair hheld htheirs hrun hlost hform, ?_⟩
    rw [State.die_onDie]
    exact ⟨rfl, rfl⟩
  · intro c k ts hrun hup hm hkey hjob hpair htagged
    refine ⟨_, exec_pairTagsReceive hrun hup hm, ?_⟩
    rw [State.die_onDie_onDie_other, State.die_other_onDie_onDie_other, takeTags_job ts hkey hpair htagged]
    refine ⟨rfl, fun heq => ⟨cmpOut_compareJob_agree heq, job?_compareJob_waits hjob heq,
      job?_compareJob_released hjob heq⟩, fun hne => ?_⟩
    rw [compareJob_differ hne]
    have hjob' := job?_failPaired false (job?_castVote .mismatch hjob)
    simp only [Bool.false_eq_true, if_false, Job.failed_zero] at hjob'
    exact ⟨cmpOut_failPaired _ j false, hjob', regs_failPaired_mismatch _ j⟩
  · intro c k hrun hup hm hkey hjob hpair hmine
    refine ⟨_, exec_pairTagsReceive hrun hup hm, ?_⟩
    rw [State.die_onDie_onDie_other]
    exact job?_takeTags_vote hkey hjob hpair hmine
  · intro w hw hjob hlate
    refine ⟨_, exec_pairCompareTimeout hw hjob hlate, ?_⟩
    rw [State.die_onDie]
    exact ⟨job?_failPaired true (job?_castVote .timeout hjob), regs_failPaired_timeout _ j⟩
  · intro hout hkey hjob
    obtain ⟨p, hexec⟩ := exec_deadlineProgressExchange hout
    refine ⟨_, hexec, ?_⟩
    rw [State.die_onDie, State.die_onDie_other, State.die_other_onDie, State.die_onDie]
    refine ⟨rfl, fun hmine => ?_, fun g hmine htheirs hmiss => ?_⟩
    · rw [takeProgress_waits (x := (s.die d).heardCtl) f hkey hjob hmine]
      exact ⟨Die.job?_updJob (f := (·.told chk f)) (fun _ => rfl) hjob, rfl, rfl⟩
    · exact job?_takeProgress_on_track (x := (s.die d).heardCtl) hkey hjob hmine htheirs hmiss
  · intro slot hout hjob hctx hkey hlive hkid hva hstop
    subst hctx hkey
    obtain ⟨dl, hshown, hregs, hdram⟩ :=
      takeDecision_shown (a := { s.a with pair.ctlOut := rest }) (b := s.b.heardCtl) hjob hlive hkid hva hstop
    exact ⟨_, dl, exec_pairedDeadlineDecision hout, rfl, hshown, hregs, hdram⟩

end Sys2Proof.Machine
end

section
/-! PROOFS. O4 and O5: the invariant of the block. A command changes the package only by giving a die a new state, which
keeps the die in its place (DIE of R85), and by shifting a code of R521 into the TAP. -/
namespace Sys2Proof.Machine

/-- `s.Evolves t`: `t` comes from `s` by new states of its dies and by shifts of the TAP. -/
inductive State.Evolves (s : State) : State → Prop
  | refl : s.Evolves s
  | setDie {t : State} (d : DieId) (x : Die) (h : s.Evolves t) : s.Evolves (t.setDie d x)
  | shift {t : State} {ir : Byte} (sel : DieId) (out : List Byte) (hir : ir ∈ tapCodes) (h : s.Evolves t) :
      s.Evolves { t with tap := { ir := ir, sel := sel, out := out } }

/-- The command answers a next state that has evolved from `s`. -/
def State.Answers (s : State) (o : Out) : Prop := ∃ t, o = .next t ∧ s.Evolves t

namespace State.Evolves

variable {s t : State}

/-- What evolves from a state with the invariant has it. -/
theorem inv (h : s.Evolves t) (hs : s.Inv) : t.Inv := by
  induction h with
  | refl => exact hs
  | @setDie u d x _ ih =>
    obtain ⟨ha, hb, hqueue, htap⟩ := ih
    obtain ⟨ha', hb'⟩ := State.setDie_ids u d x ha hb
    exact ⟨ha', hb', by rwa [State.setDie_pending], by rwa [State.setDie_tap]⟩
  | shift sel out hir _ ih =>
    obtain ⟨ha, hb, hqueue, -⟩ := ih
    exact ⟨ha, hb, hqueue, hir⟩

theorem trans {u : State} (h : s.Evolves t) (h' : t.Evolves u) : s.Evolves u := by
  induction h' with
  | refl => exact h
  | setDie d x _ ih => exact ih.setDie d x
  | shift sel out hir _ ih => exact ih.shift sel out hir

/-! ### Changes of dies -/

theorem onDie (h : s.Evolves t) (d : DieId) (f : Die → Die) : s.Evolves (t.onDie d f) := h.setDie d _

theorem onBoth (h : s.Evolves t) (f : Die → Die) : s.Evolves (t.onBoth f) := (h.setDie .a _).setDie .b _

theorem ite {u : State} {c : Prop} [Decidable c] (h : s.Evolves t) (h' : s.Evolves u) :
    s.Evolves (if c then t else u) := by
  split
  · exact h
  · exact h'

/-- The state of a choice of states with answers. -/
theorem iteFst {α : Type} {e f : State × α} {c : Prop} [Decidable c] (h : s.Evolves e.1) (h' : s.Evolves f.1) :
    s.Evolves (if c then e else f).1 := by
  split
  · exact h
  · exact h'

theorem foldl {α : Type} {f : State → α → State} (hf : ∀ u a, s.Evolves u → s.Evolves (f u a)) (l : List α)
    (h : s.Evolves t) : s.Evolves (l.foldl f t) := by
  induction l generalizing t with
  | nil => exact h
  | cons a l ih => exact ih (hf t a h)

theorem thenOk {r : State × Bool} {f : State → State} (h : s.Evolves r.1) (hf : ∀ u, s.Evolves u → s.Evolves (f u)) :
    s.Evolves (thenOk r f) := by
  unfold Machine.thenOk
  split
  · exact hf _ h
  · exact h

theorem tapShift (h : s.Evolves t) {ir : Byte} (hir : ir ∈ tapCodes) (out : List Byte) :
    s.Evolves (tapShift t ir out) := h.shift _ out hir

theorem answers (h : s.Evolves t) : s.Answers (.next t) := ⟨t, rfl, h⟩

end State.Evolves

theorem answers_nextOn (s : State) (d : DieId) (f : Die → Die) : s.Answers (nextOn d f s) :=
  (State.Evolves.refl.onDie d f).answers

/-! ### The pair -/

section
variable {s t : State}

theorem evolves_pairCfgWrite (h : s.Evolves t) (d : DieId) (v : Word) : s.Evolves (pairCfgWrite t d v) := by
  unfold pairCfgWrite
  cases d with
  | a => exact h.onBoth _
  | b => exact .ite h (h.onBoth _)

theorem evolves_pairApply (h : s.Evolves t) (d : DieId) : s.Evolves (pairApply t d) := by
  have hmark := h.onDie d fun x => (x.setUnitEpoch 43).unitAcks 43
  unfold pairApply
  exact .ite (hmark.onDie d _) (.ite (hmark.onBoth _) (.ite ((hmark.onBoth _).onBoth _) ((hmark.onBoth _).onDie _ _)))

theorem evolves_pipePress (h : s.Evolves t) (d : DieId) (q : Fin 4) : s.Evolves (pipePress t d q) := by
  unfold pipePress
  exact .ite h (.ite ((h.onDie d _).onDie _ _) (h.onDie d _))

theorem evolves_tellStart (h : s.Evolves t) (d : DieId) (q : Fin 4) : s.Evolves (tellStart d q t) := by
  unfold tellStart
  exact .ite (h.onDie d _) h

/-! ### Writes to both dies of a pair (R29), the camera and audio inputs -/

theorem evolves_writeBoth (h : s.Evolves t) (d : DieId) (m : Master) (c va : Nat) (bs : List Byte) :
    s.Evolves (writeBoth t d m c va bs).1 := by
  unfold writeBoth
  dsimp only
  split
  · exact .ite ((h.setDie d _).onDie _ _) (h.setDie d _)
  · exact h.setDie d _

theorem evolves_signalBoth (h : s.Evolves t) (d : DieId) (m : Master) (c va : Nat) (v : DWord) :
    s.Evolves (signalBoth t d m c va v).1 := by
  unfold signalBoth
  dsimp only
  split
  · exact .ite ((h.setDie d _).onDie _ _) (h.setDie d _)
  · exact h.setDie d _

theorem evolves_endFrame (h : s.Evolves t) (d : DieId) (q : Fin 4) (extra : BitVec 5) :
    s.Evolves (endFrame t d q extra) := by
  have hstatus := h.onDie d fun x => x.updCsi q fun t => { t with status := t.status ||| extra }
  unfold endFrame
  refine .ite (hstatus.onDie d _) (.onDie (.thenOk (evolves_writeBoth (hstatus.onDie d _) ..) fun u hu => ?_) d _)
  exact .thenOk (evolves_signalBoth hu ..) fun u hu => hu.onDie d _

theorem evolves_writeLine (h : s.Evolves t) (d : DieId) (q : Fin 4) (payload : List Byte) :
    s.Evolves (writeLine t d q payload) := by
  unfold writeLine
  exact .ite (h.onDie d _) (.thenOk (evolves_writeBoth h ..) fun u hu => hu.onDie d _)

theorem evolves_writeBlock (h : s.Evolves t) (d : DieId) (q : Fin 4) (samples : List Word) :
    s.Evolves (writeBlock t d q samples) := by
  have hblock := h.onDie d fun x => x.updTdm q fun f =>
    { f with block := ((t.die d).tdm q).block + 1, startTime := x.time, resumed := false }
  unfold writeBlock
  refine .thenOk (.iteFst hblock (evolves_writeBoth hblock ..)) fun u hu => ?_
  exact .thenOk (evolves_writeBoth hu ..) fun u hu => .thenOk (evolves_signalBoth hu ..) fun u hu => hu.onDie d _

/-! ### Presses, resets and HOLD -/

theorem evolves_torusPress (h : s.Evolves t) (d : DieId) : s.Evolves (torusPress t d) := by
  unfold torusPress
  refine .ite h (.ite (h.onDie d _) ?_)
  extract_lets node dim ok back applied y changed known agree followed cause down
  have hnew : s.Evolves followed := (h.onDie d _).onDie d _
  have hdown : s.Evolves down := .ite ((hnew.onDie d _).onBoth _) hnew
  exact .ite (hnew.onBoth _) (.ite (hdown.onBoth _) (.ite (hdown.onDie d _) hdown))

theorem evolves_pressApply (h : s.Evolves t) (d : DieId) (u : Nat) : s.Evolves (pressApply d u t) := by
  unfold pressApply
  refine .ite h (.ite (h.onDie d _) (.ite (h.onDie d _) (.ite (.ite h (evolves_pipePress h ..)) ?_)))
  exact .ite (h.onDie d _) (.ite h (.ite (evolves_torusPress h d) (.ite (h.onDie d _) (.ite (h.onDie d _)
    (.ite (.ite (evolves_pairApply h d) h) (h.onDie d _))))))

theorem evolves_resetAlone (h : s.Evolves t) (d : DieId) (cause : Nat) : s.Evolves (resetAlone t d cause) := by
  unfold resetAlone
  exact .ite h ((h.onDie _ _).onDie _ _)

theorem evolves_leaveReset (h : s.Evolves t) : s.Evolves (leaveReset t) := by
  unfold leaveReset
  exact .ite h (.ite ((h.onBoth _).onBoth _) (h.onBoth _))

theorem evolves_holdEnter (h : s.Evolves t) (d : DieId) : s.Evolves (holdEnter t d) := by
  have hentered : s.Evolves (if holdTogether t d then (t.onDie d (enterHold true (t.die d.other))).onDie d.other
      (enterHold false (t.die d)) else t.onDie d (enterHold true (t.die d.other))) :=
    .ite ((h.onDie d _).onDie _ _) (h.onDie d _)
  unfold holdEnter
  exact .ite ((hentered.onDie d _).onDie _ _) ((hentered.onDie d _).onDie _ _)

theorem evolves_bridgeBack (h : s.Evolves t) (d : DieId) : s.Evolves (bridgeBack t d) := by
  unfold bridgeBack
  exact .ite h (h.onBoth _)

theorem evolves_holdExit (h : s.Evolves t) (d : DieId) : s.Evolves (holdExit t d) := by
  unfold holdExit
  exact (evolves_bridgeBack (.ite ((h.onDie d _).onDie _ _) (h.onDie d _)) d).onDie d _

/-! ### Writes to the configuration space, and debug access -/

theorem evolves_cfgWriteWord (h : s.Evolves t) (d : DieId) (a : Nat) (v : Word) : s.Evolves (cfgWriteWord t d a v) := by
  unfold cfgWriteWord
  split
  · exact h
  · exact .ite (evolves_pairCfgWrite h ..) (.ite ((h.onDie d _).onDie _ _) (h.onDie d _))

theorem evolves_cfgWriteWords (h : s.Evolves t) (d : DieId) (a : Nat) (vs : List Word) :
    s.Evolves (cfgWriteWords d a vs t) :=
  h.foldl (fun _ _ hu => evolves_cfgWriteWord hu ..) _

theorem evolves_cfgWriteRun (h : s.Evolves t) (d : DieId) (a : Nat) (vs : List Word) :
    s.Evolves (cfgWriteRun t d a vs).1 := by
  unfold cfgWriteRun
  refine .iteFst h (.iteFst h ?_)
  split
  · exact h
  · exact evolves_cfgWriteWords h ..

theorem evolves_accessRun (h : s.Evolves t) (op : DbgOp) (d : DieId) : s.Evolves (accessRun op d t).1 := by
  unfold accessRun
  cases op with
  | cfgRead a => exact .iteFst h (h.setDie d _)
  | cfgWrite a v => exact .iteFst h (evolves_cfgWriteRun h ..)
  | memRead c va n => exact h.setDie d _
  | memWrite c va bs => exact h.setDie d _
  | programKey k digest => dsimp only; exact h.onDie d _
  | manufacture => exact .iteFst h (evolves_resetAlone (h.onDie d _) ..)

/-! ### The commands of a packet -/

theorem evolves_onSibling (h : s.Evolves t) (d : DieId) (c : Nat) (f : Die → Die → Die) :
    s.Evolves (onSibling t d c f) := by
  unfold onSibling
  exact .ite (h.onDie _ _) h

theorem evolves_onCtxDies (h : s.Evolves t) (d : DieId) (c : Nat) (f : Die → Die → Die) :
    s.Evolves (onCtxDies t d c f) := by
  unfold onCtxDies
  exact .ite ((h.onDie d _).onDie _ _) (h.onDie d _)

theorem evolves_answerOn (h : s.Evolves t) (d : DieId) (c : PendCmd) (r : CmdRes) : s.Evolves (answerOn d c r t) :=
  h.onDie d _

theorem evolves_answerEff {e : Eff} (h : s.Evolves e.1) (d : DieId) (c : PendCmd) : s.Evolves (answerEff d c e) := by
  unfold answerEff
  split
  · exact evolves_answerOn h ..
  · exact h

/-- Nothing but its act changes the package when the command whose turn it is runs, save its refusal. -/
theorem evolves_runHead {d : DieId} {ctx : Nat} {op : Op} {act : PendCmd → State → State}
    (hact : ∀ c u, s.Evolves u → s.Evolves (act c u)) (h : s.Evolves t) : s.Evolves (runHead d ctx op act t) := by
  unfold runHead
  dsimp only
  split
  · exact h
  · exact .ite h (.ite (evolves_answerOn h ..) (.ite (evolves_answerOn h ..) (hact _ _ h)))

theorem answers_runDevice {d : DieId} {op : Op} {eff : List Byte → State → Eff}
    (heff : ∀ k u, s.Evolves u → s.Evolves (eff k u).1) : s.Answers (runDevice d op eff s) :=
  (evolves_runHead (fun _ u hu => evolves_answerEff (heff _ u hu) ..) .refl).answers

theorem answers_runContext {d : DieId} {ctx : Nat} {op : Op} {eff : List Byte → State → Eff}
    (heff : ∀ k u, s.Evolves u → s.Evolves (eff k u).1) : s.Answers (runContext d ctx op eff s) := by
  unfold runContext
  split_ifs
  · exact State.Evolves.refl.answers
  · exact (evolves_runHead (fun _ u hu => evolves_answerEff (heff _ u hu) ..) .refl).answers

theorem evolves_effPress (h : s.Evolves t) (d : DieId) : s.Evolves (effPress d t).1 := by
  unfold effPress
  refine .iteFst h ?_
  split
  · exact h
  · exact h.setDie d _

theorem evolves_effOpen (h : s.Evolves t) (d : DieId) (k : List Byte) : s.Evolves (effOpen d k t).1 := by
  unfold effOpen
  exact .iteFst h (.ite (h.onBoth _) (h.onDie d _))

theorem evolves_effClose (h : s.Evolves t) (d : DieId) (k : List Byte) : s.Evolves (effClose d k t).1 := by
  unfold effClose
  exact .iteFst h (evolves_onCtxDies h ..)

theorem evolves_effResume (h : s.Evolves t) (d : DieId) (k : List Byte) : s.Evolves (effResume d k t).1 := by
  unfold effResume
  exact .iteFst h (evolves_onCtxDies h ..)

theorem evolves_effLoadImage (h : s.Evolves t) (d : DieId) (k : List Byte) : s.Evolves (effLoadImage d k t).1 := by
  unfold effLoadImage
  refine .iteFst h ?_
  dsimp only
  exact evolves_onCtxDies h ..

theorem evolves_effDie (h : s.Evolves t) (d : DieId) (r : Except Nat Die) : s.Evolves (effDie d t r).1 := by
  unfold effDie
  split
  · exact h.setDie d _
  · exact h

theorem evolves_effSubmit (h : s.Evolves t) (d : DieId) (c : Nat) (k : List Byte) : s.Evolves (effSubmit d c k t).1 := by
  unfold effSubmit
  dsimp only
  split
  · exact h
  · split
    · exact h.setDie d _
    · exact evolves_onSibling (h.setDie d _) ..

theorem evolves_effFenceSignal (h : s.Evolves t) (d : DieId) (c : Nat) (k : List Byte) :
    s.Evolves (effFenceSignal d c k t).1 := by
  unfold effFenceSignal
  dsimp only
  split
  · exact h.setDie d _
  · dsimp only
    exact evolves_onSibling (h.setDie d _) ..

theorem evolves_effFenceRead (h : s.Evolves t) (d : DieId) (c : Nat) (k : List Byte) :
    s.Evolves (effFenceRead d c k t).1 := by
  unfold effFenceRead
  split <;> exact h.setDie d _

theorem evolves_effCtxStatus (h : s.Evolves t) (d : DieId) (c : Nat) : s.Evolves (effCtxStatus d c t).1 := by
  unfold effCtxStatus
  exact .iteFst (h.setDie d _) h

theorem evolves_suspendStep (h : s.Evolves t) (d : DieId) (c : PendCmd) : s.Evolves (suspendStep d c t) := by
  unfold suspendStep
  exact .ite (evolves_answerOn (evolves_onCtxDies h ..) ..) (evolves_onCtxDies h ..)

theorem evolves_suspendStart (h : s.Evolves t) (d : DieId) (c : PendCmd) : s.Evolves (suspendStart d c t) := by
  unfold suspendStart
  exact .ite (evolves_answerOn h ..) (evolves_suspendStep ((evolves_onCtxDies h ..).onDie d _) ..)

theorem evolves_startXfer (h : s.Evolves t) (d : DieId) (ch : Fin 4) (f : Die → Die) :
    s.Evolves (startXfer d ch f t) := by
  unfold startXfer
  exact .ite h (h.onDie d f)

theorem evolves_forwardPacket (h : s.Evolves t) (d : DieId) (ch : Fin 4) (f : Xfer) (pkt : List Byte) :
    s.Evolves (forwardPacket t d ch f pkt) := by
  unfold forwardPacket
  exact .ite h (evolves_onSibling h ..)

theorem evolves_takeOut (h : s.Evolves t) (d : DieId) (ch : Fin 4) (f : Xfer) (pkt : List Byte) :
    s.Evolves (takeOut t d ch f pkt) := by
  unfold takeOut
  exact .ite ((evolves_forwardPacket (h.onDie d _) ..).onDie d _) (h.onDie d _)

theorem evolves_waitRead (h : s.Evolves t) (d : DieId) (ctx : Nat) (c : PendCmd) : s.Evolves (waitRead d ctx c t) := by
  unfold waitRead
  split
  · exact h.setDie d _
  · exact .ite (evolves_answerOn (h.setDie d _) ..) (h.setDie d _)

theorem evolves_waitStart (h : s.Evolves t) (d : DieId) (ctx : Nat) (c : PendCmd) : s.Evolves (waitStart d ctx c t) :=
  evolves_waitRead (h.onDie d _) ..

theorem evolves_effUnsequenced (h : s.Evolves t) (d : DieId) (op : Op) (k : List Byte) :
    s.Evolves (effUnsequenced d op k t).1 := by
  unfold effUnsequenced
  dsimp only
  split
  · exact h
  · exact h
  · exact h.setDie d _
  · exact evolves_effCtxStatus h ..
  · exact evolves_effFenceRead h ..
  · exact h

theorem evolves_takePacket (h : s.Evolves t) (d : DieId) : s.Evolves (takePacket d t) := by
  unfold takePacket
  dsimp only
  split
  · exact h
  · refine .ite h ?_
    split
    · exact h.onDie d _
    · exact h.onDie d _
    · exact .ite h (.ite (h.onDie d _)
        (evolves_answerEff (evolves_effUnsequenced ((h.onDie d _).onDie d _) ..) ..))

/-! ### The mirror stream, the loss of a partner, and takeover -/

theorem evolves_mirrorCfg (h : s.Evolves t) (d : DieId) (k : List Byte) : s.Evolves (mirrorCfg d k t) := by
  refine h.foldl (fun u i hu => ?_) _
  split
  · exact .ite hu (evolves_cfgWriteWord hu ..)
  · exact hu

theorem evolves_mirrorEffect (h : s.Evolves t) (d : DieId) (k : List Byte) : s.Evolves (mirrorEffect d k t) := by
  unfold mirrorEffect
  split
  · exact evolves_mirrorCfg h ..
  · exact h.onDie d _
  · exact h.onDie d _
  · exact h.onDie d _
  · exact h.onDie d _
  · exact h.onDie d _
  · exact evolves_effDie h ..
  · exact evolves_effDie h ..
  · exact h.onDie d _
  · exact h

theorem evolves_applyMirror (h : s.Evolves t) (d : DieId) (i : MirItem) : s.Evolves (applyMirror d i t) := by
  unfold applyMirror
  split
  · exact h.onDie d _
  · exact h.onDie d _
  · exact h.onDie d _
  · exact h.onDie d _
  · exact .onDie (.ite (evolves_mirrorEffect h ..) h) d _

theorem evolves_drainMirror (h : s.Evolves t) (d : DieId) : s.Evolves (drainMirror d t) :=
  (h.foldl (fun _ i hu => evolves_applyMirror hu d i) _).onDie _ _

theorem evolves_takeOverOn (h : s.Evolves t) (d : DieId) : s.Evolves (takeOverOn d t) := by
  unfold takeOverOn
  exact (State.Evolves.onDie (.ite h (evolves_drainMirror h d)) d _).onDie _ _

theorem evolves_effFailover (h : s.Evolves t) (d : DieId) : s.Evolves (effFailover d t).1 := by
  have hover := (evolves_takeOverOn h d).onDie d fun x => { x with pair.degraded := true }
  unfold effFailover
  exact .iteFst h (.iteFst h (.ite hover (hover.onDie _ _)))

theorem evolves_losePartner (h : s.Evolves t) (d : DieId) (announced : Nat) :
    s.Evolves (losePartner d announced t) := by
  unfold losePartner
  refine .ite h ?_
  have hlost := fun u (hu : s.Evolves u) => hu.onDie d fun x => declareLost (u.die d.other) x announced
  have hdrained := fun (c : Bool) => hlost _ (.ite (c := c = true) (evolves_drainMirror h d) h)
  exact .ite (evolves_takeOverOn (hdrained _) d) (hdrained _)

/-! ### Unfolding -/

theorem evolves_unfoldJob (h : s.Evolves t) (d : DieId) (slot : Nat) (want : Fin 6 → Bool) :
    s.Evolves (unfoldJob d slot want t) := by
  unfold unfoldJob
  dsimp only
  repeat' split
  all_goals apply_rules [State.Evolves.onDie, State.Evolves.setDie]

end

/-! ### The commands -/

section
variable (s : State)

theorem answers_deadlineProgressExchange (d : DieId) : s.Answers (exec (.deadlineProgressExchange d) s) := by
  change s.Answers (execDeadlineProgressExchange d s)
  unfold execDeadlineProgressExchange
  split
  · exact ((State.Evolves.refl.onDie _ _).onDie d _).answers
  · exact State.Evolves.refl.answers

theorem answers_pairedDeadlineDecision (slot : Nat) : s.Answers (exec (.pairedDeadlineDecision slot) s) := by
  change s.Answers (execPairedDeadlineDecision slot s)
  unfold execPairedDeadlineDecision
  split
  · exact ((State.Evolves.refl.setDie .b _).setDie .a _).answers
  · exact State.Evolves.refl.answers

theorem answers_packetRoute (d : DieId) (src : RouteSrc) : s.Answers (exec (.packetRoute d src) s) := by
  change s.Answers (execPacketRoute d src s)
  unfold execPacketRoute
  dsimp only
  split
  · exact (State.Evolves.refl.setDie d _).answers
  · exact ((State.Evolves.refl.setDie d _).onDie _ _).answers

/-- Either of two answers. -/
theorem State.Answers.ite {s : State} {o q : Out} {c : Prop} [Decidable c] (h : s.Answers o) (h' : s.Answers q) :
    s.Answers (if c then o else q) := by
  split
  · exact h
  · exact h'

theorem answers_cmdPairCfgWrite (d : DieId) (v : Word) : s.Answers (exec (.cmdPairCfgWrite d v) s) :=
  .ite State.Evolves.refl.answers (evolves_pairCfgWrite .refl d v).answers

theorem answers_bridgeSlotReceive (d : DieId) (cls : BridgeClass) (slot : List Byte) :
    s.Answers (exec (.bridgeSlotReceive d cls slot) s) :=
  .ite State.Evolves.refl.answers (.ite (State.Evolves.refl.onDie d _).answers
    (.ite ((State.Evolves.refl.onDie d _).onDie _ _).answers (State.Evolves.refl.onBoth _).answers))

theorem answers_pairTagsReceive (d : DieId) : s.Answers (exec (.pairTagsReceive d) s) := by
  change s.Answers (execPairTagsReceive d s)
  unfold execPairTagsReceive
  refine .ite State.Evolves.refl.answers ?_
  split
  · exact State.Evolves.refl.answers
  · exact ((State.Evolves.refl.onDie d _).onDie _ _).answers

theorem answers_pairCfgConfirm (d : DieId) : s.Answers (exec (.pairCfgConfirm d) s) := by
  change s.Answers (execPairCfgConfirm d s)
  unfold execPairCfgConfirm
  dsimp only
  split
  · exact State.Evolves.refl.answers
  · exact .ite State.Evolves.refl.answers ((State.Evolves.refl.onDie d _).onDie _ _).answers

theorem answers_spareInitialCopyDone (d : DieId) : s.Answers (exec (.spareInitialCopyDone d) s) := by
  change s.Answers (execSpareInitialCopyDone d s)
  unfold execSpareInitialCopyDone
  refine .ite State.Evolves.refl.answers ?_
  have hcopied := (((State.Evolves.refl (s := s)).onDie d (copyErrors (s.die d.other))).onDie d fun x =>
    { x with pair.copying := false, pair.mirrorSync := true, pair.mirOut := [] })
  exact ((((hcopied.onDie _ _).onBoth _).onDie _ _).onDie _ _).answers

theorem answers_mirrorWrite (d : DieId) : s.Answers (exec (.mirrorWrite d) s) := by
  change s.Answers (execMirrorWrite d s)
  unfold execMirrorWrite
  split
  · exact State.Evolves.refl.answers
  · exact .ite State.Evolves.refl.answers (((evolves_applyMirror .refl d _).onDie d _).onDie _ _).answers

theorem answers_partnerLost (d : DieId) : s.Answers (exec (.partnerLost d) s) :=
  .ite (evolves_losePartner .refl d 0).answers State.Evolves.refl.answers

theorem answers_partnerSafeAnnounce (d : DieId) : s.Answers (exec (.partnerSafeAnnounce d) s) :=
  .ite ((evolves_losePartner .refl d 1).onDie _ _).answers State.Evolves.refl.answers

/-! #### Display pipes, inputs and memory -/

theorem answers_pairedPipePressAck (p : Fin 4) : s.Answers (exec (.pairedPipePressAck p) s) :=
  .ite State.Evolves.refl.answers ((State.Evolves.refl.setDie .a _).setDie .b _).answers

theorem answers_pipePressApplyDisabled (d : DieId) (p : Fin 4) : s.Answers (exec (.pipePressApplyDisabled d p) s) :=
  .ite (evolves_pipePress .refl d p).answers State.Evolves.refl.answers

theorem answers_frameBoundary (d : DieId) (p : Fin 4) : s.Answers (exec (.frameBoundary d p) s) := by
  change s.Answers (execFrameBoundary d p s)
  unfold execFrameBoundary
  refine .ite State.Evolves.refl.answers (State.Evolves.answers (evolves_tellStart (State.Evolves.onDie ?_ d _) d p))
  exact (evolves_pipePress (State.Evolves.refl.onDie d _) d p).onDie d _

theorem answers_frameStartMessage (d : DieId) (p : Fin 4) : s.Answers (exec (.frameStartMessage d p) s) := by
  change s.Answers (execFrameStartMessage d p s)
  unfold execFrameStartMessage
  dsimp only
  split
  · exact State.Evolves.refl.answers
  · exact .ite State.Evolves.refl.answers ((State.Evolves.refl.onDie d _).onDie _ _).answers

theorem answers_pixelPllRelock (d : DieId) (p : Fin 4) : s.Answers (exec (.pixelPllRelock d p) s) :=
  .ite State.Evolves.refl.answers (evolves_tellStart (State.Evolves.refl.onDie d _) d p).answers

theorem answers_fillWipeDone (d : DieId) : s.Answers (exec (.fillWipeDone d) s) := by
  change s.Answers (execFillWipeDone d s)
  unfold execFillWipeDone
  dsimp only
  split
  · exact State.Evolves.refl.answers
  · exact (State.Evolves.refl.onDie d _).answers
  · exact State.Evolves.refl.answers
  · exact .ite State.Evolves.refl.answers (State.Evolves.refl.onDie d _).answers

theorem answers_csiFrameStart (d : DieId) (p : Fin 4) : s.Answers (exec (.csiFrameStart d p) s) := by
  change s.Answers (execCsiFrameStart d p s)
  unfold execCsiFrameStart
  exact .ite State.Evolves.refl.answers (State.Evolves.answers (.onDie (.ite (evolves_endFrame .refl ..) .refl) d _))

theorem answers_csiLine (d : DieId) (p : Fin 4) (payload : List Byte) (crcOk overflow : Bool) :
    s.Answers (exec (.csiLine d p payload crcOk overflow) s) := by
  change s.Answers (execCsiLine d p payload crcOk overflow s)
  unfold execCsiLine
  have hline := (State.Evolves.refl (s := s)).onDie d fun x => x.updCsi p fun t =>
    { t with lastLine := x.time, selected := false }
  exact .ite State.Evolves.refl.answers (.ite hline.answers (.ite (evolves_endFrame hline ..).answers
    (evolves_writeLine (.ite hline (hline.onDie d _)) ..).answers))

theorem answers_csiFrameEnd (d : DieId) (p : Fin 4) : s.Answers (exec (.csiFrameEnd d p) s) :=
  .ite (evolves_endFrame .refl ..).answers State.Evolves.refl.answers

theorem answers_csiLineWatchdog (d : DieId) (p : Fin 4) : s.Answers (exec (.csiLineWatchdog d p) s) :=
  .ite (evolves_endFrame (State.Evolves.refl.onDie d _) ..).answers State.Evolves.refl.answers

theorem answers_tdmBlockDone (d : DieId) (p : Fin 4) (samples : List Word) :
    s.Answers (exec (.tdmBlockDone d p samples) s) := by
  change s.Answers (execTdmBlockDone d p samples s)
  unfold execTdmBlockDone
  exact .ite State.Evolves.refl.answers
    (State.Evolves.answers (.onDie (.ite (State.Evolves.refl.onDie d _) (evolves_writeBlock .refl ..)) d _))

/-! #### Resets and the TAP -/

theorem answers_resetSource (src : ResetSrc) : s.Answers (exec (.resetSource src) s) := by
  cases src with
  | powerOn d => exact State.Evolves.answers (.ite .refl ((State.Evolves.refl.onDie d _).onDie _ _))
  | packagePin => exact (State.Evolves.refl.onBoth _).answers
  | diePin d => exact (evolves_resetAlone .refl d 3).answers
  | pwrOkLow d => exact (evolves_resetAlone .refl d 4).answers
  | supply d => exact (evolves_resetAlone .refl d 5).answers

theorem answers_resetDeviceBegin (d : DieId) : s.Answers (exec (.resetDeviceBegin d) s) := by
  change s.Answers (execResetDeviceBegin d s)
  unfold execResetDeviceBegin
  dsimp only
  split
  · exact State.Evolves.refl.answers
  · exact .ite State.Evolves.refl.answers (.ite (evolves_resetAlone .refl d 6).answers
      (.ite (State.Evolves.refl.onBoth _).answers (evolves_resetAlone .refl d 8).answers))

theorem answers_thermalTrip (d : DieId) (hot : Bool) : s.Answers (exec (.thermalTrip d hot) s) :=
  .ite State.Evolves.refl.answers (.ite
    (.ite State.Evolves.refl.answers ((evolves_resetAlone .refl d 9).onDie d _).answers)
    (.ite (State.Evolves.refl.onDie d _).answers State.Evolves.refl.answers))

theorem answers_rootPllLock (d : DieId) : s.Answers (exec (.rootPllLock d) s) :=
  .ite State.Evolves.refl.answers (evolves_leaveReset (State.Evolves.refl.onDie d _)).answers

theorem answers_extest : s.Answers (exec .extest s) :=
  .ite State.Evolves.refl.answers ((State.Evolves.refl.tapShift (by decide) _).onBoth _).answers

theorem answers_dbgChallenge (sel : Byte) : s.Answers (exec (.dbgChallenge sel) s) := by
  change s.Answers (execDbgChallenge sel s)
  unfold execDbgChallenge
  split
  · exact (State.Evolves.refl.tapShift (by decide) _).answers
  · exact .ite (State.Evolves.refl.tapShift (by decide) _).answers
      ((State.Evolves.refl.onDie _ _).shift (ir := 0x10) _ _ (by decide)).answers

theorem answers_dbgResponse (resp : List Byte) : s.Answers (exec (.dbgResponse resp) s) := by
  change s.Answers (execDbgResponse resp s)
  unfold execDbgResponse
  split
  · exact (State.Evolves.refl.tapShift (by decide) _).answers
  · exact .ite (State.Evolves.refl.tapShift (by decide) _).answers
      ((State.Evolves.refl.onDie _ _).shift (ir := 0x11) _ _ (by decide)).answers

theorem answers_dbgAccess (op : DbgOp) : s.Answers (exec (.dbgAccess op) s) :=
  .ite ((evolves_accessRun .refl op _).tapShift (by decide) _).answers
    (State.Evolves.refl.tapShift (by decide) _).answers

/-! #### The command processor -/

theorem answers_suspendContext (d : DieId) : s.Answers (exec (.suspendContext d) s) := by
  change s.Answers (execSuspendContext d s)
  unfold execSuspendContext
  refine State.Evolves.answers ?_
  split
  · exact .refl
  · exact .ite (.ite (evolves_suspendStep .refl ..) .refl)
      (evolves_runHead (fun _ _ hu => evolves_suspendStart hu ..) .refl)

theorem answers_resetDevice (d : DieId) : s.Answers (exec (.resetDevice d) s) :=
  (evolves_runHead (fun _ _ hu => (evolves_answerOn hu ..).onDie d _) .refl).answers

theorem answers_attest (d : DieId) : s.Answers (exec (.attest d) s) :=
  (evolves_runHead (fun _ _ hu => evolves_startXfer hu ..) .refl).answers

theorem answers_lcTransition (d : DieId) : s.Answers (exec (.lcTransition d) s) :=
  (evolves_runHead (fun _ _ hu => evolves_startXfer hu ..) .refl).answers

theorem answers_romLoad (d : DieId) : s.Answers (exec (.romLoad d) s) :=
  (evolves_runHead (fun _ _ hu => evolves_startXfer hu ..) .refl).answers

theorem answers_writeMem (d : DieId) (ctx : Nat) : s.Answers (exec (.writeMem d ctx) s) :=
  .ite State.Evolves.refl.answers (evolves_runHead (fun _ _ hu => evolves_startXfer hu ..) .refl).answers

theorem answers_readMem (d : DieId) (ctx : Nat) : s.Answers (exec (.readMem d ctx) s) :=
  .ite State.Evolves.refl.answers (evolves_runHead (fun _ _ hu => evolves_startXfer hu ..) .refl).answers

theorem answers_dataPacketOut (d : DieId) (ch : Fin 4) (pkt : List Byte) :
    s.Answers (exec (.dataPacketOut d ch pkt) s) := by
  change s.Answers (execDataPacketOut d ch pkt s)
  unfold execDataPacketOut
  refine .ite State.Evolves.refl.answers ?_
  split
  · exact .ite (State.Evolves.refl.onDie d _).answers (evolves_takeOut .refl ..).answers
  · exact (State.Evolves.refl.onDie d _).answers

theorem answers_fenceWait (d : DieId) (ctx : Nat) : s.Answers (exec (.fenceWait d ctx) s) :=
  .ite State.Evolves.refl.answers (evolves_runHead (fun _ _ hu => evolves_waitStart hu ..) .refl).answers

theorem answers_fenceWaitPoll (d : DieId) (ctx : Nat) : s.Answers (exec (.fenceWaitPoll d ctx) s) := by
  change s.Answers (execFenceWaitPoll d ctx s)
  unfold execFenceWaitPoll
  refine State.Evolves.answers ?_
  split
  · exact .ite (evolves_waitRead .refl ..) .refl
  · exact .refl

theorem answers_fenceWaitTimeout (d : DieId) (ctx : Nat) : s.Answers (exec (.fenceWaitTimeout d ctx) s) := by
  change s.Answers (execFenceWaitTimeout d ctx s)
  unfold execFenceWaitTimeout
  refine State.Evolves.answers ?_
  split
  · exact .ite (evolves_answerOn .refl ..) .refl
  · exact .refl

/-! #### Folding, caches and shaders -/

theorem answers_ilkAcq (d : DieId) (g : GrpLoc) (w : InstrBits) : s.Answers (exec (.ilkAcq d g w) s) := by
  change s.Answers (execIlkAcq d g w s)
  unfold execIlkAcq
  dsimp only
  split
  · exact State.Evolves.refl.answers
  · exact .ite (answers_nextOn ..) (answers_nextOn ..)

theorem answers_sideBufferFill (d : DieId) (buf : SideLoc) : s.Answers (exec (.sideBufferFill d buf) s) := by
  cases buf with
  | l1 c => exact answers_nextOn ..
  | l2 sl => exact answers_nextOn ..

theorem answers_shareFold (d : DieId) (slot : Nat) (cl : Fin 6) : s.Answers (exec (.shareFold d slot cl) s) := by
  change s.Answers (execShareFold d slot cl s)
  unfold execShareFold
  dsimp only
  split
  · exact .ite ((State.Evolves.refl.setDie d _).onDie _ _).answers (answers_nextOn ..)
  · exact answers_nextOn ..

theorem answers_parityRestart (d : DieId) (g : GrpLoc) (what : ParityAt) :
    s.Answers (exec (.parityRestart d g what) s) := by
  cases what <;> exact answers_nextOn ..

/-! #### All of them -/

/-- What a command can do to the package: it answers a next state that evolves from the one it runs on. The commands
without a lemma of their own are a change of one die. -/
theorem answers_exec (c : Instr) : s.Answers (exec c s) := by
  cases c with
  | commandPacketTake d => exact (evolves_takePacket .refl d).answers
  | dataPacketOut d ch pkt => exact answers_dataPacketOut s d ch pkt
  | ping d => exact answers_runDevice (eff := fun _ => effPing d) fun _ _ hu => hu
  | getStatus d => exact answers_runDevice (eff := fun _ => effGetStatus d) fun _ _ hu => hu
  | cfgRead d => exact answers_runDevice fun _ _ hu => hu.setDie d _
  | cfgWrite d => exact answers_runDevice fun _ _ hu => evolves_cfgWriteRun hu ..
  | press d => exact answers_runDevice fun _ _ hu => evolves_effPress hu d
  | faultRead d => exact answers_runDevice fun _ _ hu => hu.setDie d _
  | openContext d => exact answers_runDevice fun _ _ hu => evolves_effOpen hu ..
  | closeContext d => exact answers_runDevice fun _ _ hu => evolves_effClose hu ..
  | suspendContext d => exact answers_suspendContext s d
  | resumeContext d => exact answers_runDevice fun _ _ hu => evolves_effResume hu ..
  | grantGranules d => exact answers_runDevice fun _ _ hu => evolves_effDie hu ..
  | reclaimGranules d => exact answers_runDevice fun _ _ hu => evolves_effDie hu ..
  | vmConfig d => exact answers_runDevice fun _ _ hu => hu.onDie d _
  | holdEnter d => exact answers_runDevice (eff := fun _ => effHoldEnter d) fun _ _ hu => evolves_holdEnter hu d
  | holdExit d => exact answers_runDevice (eff := fun _ => effHoldExit d) fun _ _ hu => evolves_holdExit hu d
  | failover d => exact answers_runDevice fun _ _ hu => evolves_effFailover hu d
  | resetDevice d => exact answers_resetDevice s d
  | resetDeviceBegin d => exact answers_resetDeviceBegin s d
  | attest d => exact answers_attest s d
  | loadImage d => exact answers_runDevice fun _ _ hu => evolves_effLoadImage hu ..
  | lcTransition d => exact answers_lcTransition s d
  | romLoad d => exact answers_romLoad s d
  | writeMem d ctx => exact answers_writeMem s d ctx
  | readMem d ctx => exact answers_readMem s d ctx
  | submit d ctx => exact answers_runContext fun _ _ hu => evolves_effSubmit hu ..
  | cancelJob d ctx => exact answers_runContext fun _ _ hu => evolves_onCtxDies hu ..
  | fenceSignal d ctx => exact answers_runContext fun _ _ hu => evolves_effFenceSignal hu ..
  | fenceRead d ctx => exact answers_runContext fun _ _ hu => evolves_effFenceRead hu ..
  | fenceWait d ctx => exact answers_fenceWait s d ctx
  | fenceWaitPoll d ctx => exact answers_fenceWaitPoll s d ctx
  | fenceWaitTimeout d ctx => exact answers_fenceWaitTimeout s d ctx
  | ctxStatus d ctx => exact answers_runContext fun _ _ hu => evolves_effCtxStatus hu ..
  | cmdPairCfgWrite d v => exact answers_cmdPairCfgWrite s d v
  | bridgeSlotReceive d cls slot => exact answers_bridgeSlotReceive s d cls slot
  | partnerLost d => exact answers_partnerLost s d
  | partnerSafeAnnounce d => exact answers_partnerSafeAnnounce s d
  | pairTagsReceive d => exact answers_pairTagsReceive s d
  | pairCfgConfirm d => exact answers_pairCfgConfirm s d
  | deadlineProgressExchange d => exact answers_deadlineProgressExchange s d
  | spareInitialCopyDone d => exact answers_spareInitialCopyDone s d
  | mirrorWrite d => exact answers_mirrorWrite s d
  | frameBoundary d p => exact answers_frameBoundary s d p
  | frameStartMessage d p => exact answers_frameStartMessage s d p
  | pipePressApplyDisabled d p => exact answers_pipePressApplyDisabled s d p
  | pixelPllRelock d p => exact answers_pixelPllRelock s d p
  | jobStart d slot => exact (evolves_unfoldJob (State.Evolves.refl.onDie d _) ..).answers
  | shareUnfold d slot cl => exact (evolves_unfoldJob .refl ..).answers
  | packetRoute d src => exact answers_packetRoute s d src
  | pressApply d u => exact (evolves_pressApply .refl d u.val).answers
  | extest => exact answers_extest s
  | idcode => exact (State.Evolves.refl.tapShift (by decide) _).answers
  | samplePreload => exact ((State.Evolves.refl.tapShift (by decide) _).onBoth _).answers
  | dbgChallenge sel => exact answers_dbgChallenge s sel
  | dbgResponse resp => exact answers_dbgResponse s resp
  | dbgAccess op => exact answers_dbgAccess s op
  | bypass => exact (State.Evolves.refl.tapShift (by decide) _).answers
  | fillWipeDone d => exact answers_fillWipeDone s d
  | csiFrameStart d p => exact answers_csiFrameStart s d p
  | csiLine d p payload crcOk overflow => exact answers_csiLine s d p payload crcOk overflow
  | csiFrameEnd d p => exact answers_csiFrameEnd s d p
  | csiLineWatchdog d p => exact answers_csiLineWatchdog s d p
  | tdmBlockDone d p samples => exact answers_tdmBlockDone s d p samples
  | resetSource src => exact answers_resetSource s src
  | rootPllLock d => exact answers_rootPllLock s d
  | thermalTrip d hot => exact answers_thermalTrip s d hot
  | pairedPipePressAck p => exact answers_pairedPipePressAck s p
  | pairedDeadlineDecision slot => exact answers_pairedDeadlineDecision s slot
  | ilkAcq d g w => exact answers_ilkAcq s d g w
  | sideBufferFill d buf => exact answers_sideBufferFill s d buf
  | shareFold d slot cl => exact answers_shareFold s d slot cl
  | parityRestart d g what => exact answers_parityRestart s d g what
  | _ => exact answers_nextOn s _ _

end

/-- A waiting queue that loses its front command keeps the invariant. -/
theorem State.Inv.tail {s : State} {c : Instr} {rest : List Instr} (hs : s.Inv) (hq : s.pending = c :: rest) :
    ({ s with pending := rest } : State).Inv :=
  ⟨hs.dieA, hs.dieB, fun q hqr => hs.queue q (hq ▸ List.mem_cons_of_mem c hqr), hs.tap⟩

/-- Settles O4: a step idles, which changes the dies, or runs the front command, from whose state the next one evolves. -/
theorem stepKeepsTheBlockInvariant : Obligations.StepKeepsTheBlockInvariant := by
  unfold Obligations.StepKeepsTheBlockInvariant
  intro s t hs hstep
  obtain ⟨-, hidle⟩ | ⟨c, rest, hq, hexec⟩ := step_cases s
  · obtain rfl : s.idle = t := Host.Outcome.next.inj (hidle.symm.trans hstep)
    exact (State.Evolves.refl.onBoth _).inv hs
  · obtain ⟨u, hu, hevolves⟩ := answers_exec { s with pending := rest } c
    obtain rfl : u = t := Host.Outcome.next.inj (hu.symm.trans (hexec.symm.trans hstep))
    exact hevolves.inv (hs.tail hq)

/-- Settles O5, field by field of the invariant. -/
theorem resetHoldsTheBlockInvariant : Obligations.ResetHoldsTheBlockInvariant := by
  unfold Obligations.ResetHoldsTheBlockInvariant
  exact ⟨rfl, rfl, fun c hc => absurd hc List.not_mem_nil, by decide⟩

end Sys2Proof.Machine
end

section
/-! PROOFS. What queueing a reply and answering a command change of a die (R61, R68, R69, R101). -/
namespace Sys2Proof.Machine

/-- `x.Replied y`: `y` is `x` but for what answering commands writes: replies, pool, streams, counters and the mirror
stream. -/
def Die.Replied (x y : Die) : Prop :=
  y = { x with regs := y.regs, pair.mirOut := y.pair.mirOut, cmd.replies := y.cmd.replies, cmd.pool := y.cmd.pool,
               cmd.stream0 := y.cmd.stream0, cmd.ctxs := y.cmd.ctxs }

namespace Die.Replied

variable {x y z : Die}

theorem refl (x : Die) : x.Replied x := rfl

theorem trans (h : x.Replied y) (h' : y.Replied z) : x.Replied z := by
  refine Eq.trans (h' : z = _) ?_
  rw [show y = _ from h]

theorem dram_eq (h : x.Replied y) : y.dram = x.dram := Eq.trans (congrArg Die.dram (show y = _ from h)) rfl
theorem cache_eq (h : x.Replied y) : y.cache = x.cache := Eq.trans (congrArg Die.cache (show y = _ from h)) rfl
theorem xlt_eq (h : x.Replied y) : y.xlt = x.xlt := Eq.trans (congrArg Die.xlt (show y = _ from h)) rfl
theorem sh_eq (h : x.Replied y) : y.sh = x.sh := Eq.trans (congrArg Die.sh (show y = _ from h)) rfl
theorem fifo_eq (h : x.Replied y) : y.cmd.fifo = x.cmd.fifo :=
  Eq.trans (congrArg (fun t => t.cmd.fifo) (show y = _ from h)) rfl
theorem xfers_eq (h : x.Replied y) : y.cmd.xfers = x.cmd.xfers :=
  Eq.trans (congrArg (fun t => t.cmd.xfers) (show y = _ from h)) rfl

end Die.Replied

/-! ### Counters -/

@[simp] theorem Die.regs_updStream (x : Die) (c : Nat) (f : Stream → Stream) : (x.updStream c f).regs = x.regs := by
  unfold Die.updStream
  split <;> rfl

@[simp] theorem Die.replies_updStream (x : Die) (c : Nat) (f : Stream → Stream) :
    (x.updStream c f).cmd.replies = x.cmd.replies := by
  unfold Die.updStream
  split <;> rfl

@[simp] theorem Die.pool_updStream (x : Die) (c : Nat) (f : Stream → Stream) :
    (x.updStream c f).cmd.pool = x.cmd.pool := by
  unfold Die.updStream
  split <;> rfl

theorem Die.stream0_updStream_zero (x : Die) (f : Stream → Stream) :
    (x.updStream 0 f).cmd.stream0 = f x.cmd.stream0 := rfl

theorem Die.replied_updStream (x : Die) (c : Nat) (f : Stream → Stream) : x.Replied (x.updStream c f) := by
  unfold Die.updStream
  split <;> exact rfl

/-- A register reads the same on dies whose words agree. -/
theorem Die.reg_of_regs {x y : Die} (h : x.regs = y.regs) (r : Reg) : x.reg r = y.reg r := Die.regI_of_regs h r []

/-! ### A reply -/

theorem Die.reg_queueReply_replyCnt (x : Die) (r : List Byte) :
    (x.queueReply r).reg .cmdReplyCnt = x.reg .cmdReplyCnt + 1 := Die.reg_count _ .cmdReplyCnt

theorem Die.reg_queueReply_ne (x : Die) (r : List Byte) {q : Reg} (h : q.addr [] ≠ Reg.cmdReplyCnt.addr []) :
    (x.queueReply r).reg q = x.reg q := Die.reg_count_ne _ h

theorem Die.reg_sendAgain_replyCnt (x : Die) (r : List Byte) :
    (x.sendAgain r).reg .cmdReplyCnt = x.reg .cmdReplyCnt + 1 :=
  (Die.reg_count_ne _ (by decide)).trans (x.reg_queueReply_replyCnt _)

theorem Die.reg_sendAgain_repeatCnt (x : Die) (r : List Byte) :
    (x.sendAgain r).reg .cmdRepeatCnt = x.reg .cmdRepeatCnt + 1 := by
  rw [Die.sendAgain, Die.reg_count, Die.reg_queueReply_ne _ _ (by decide)]

theorem Die.reg_sendAgain_ne (x : Die) (r : List Byte) {q : Reg} (h : q.addr [] ≠ Reg.cmdReplyCnt.addr [])
    (h' : q.addr [] ≠ Reg.cmdRepeatCnt.addr []) : (x.sendAgain r).reg q = x.reg q :=
  (Die.reg_count_ne _ h').trans (x.reg_queueReply_ne _ h)

/-- A stored reply is sent again `n` times (R68). -/
def Die.sendAgainTimes (x : Die) (r : List Byte) (n : Nat) : Die := (List.range n).foldl (fun y _ => y.sendAgain r) x

theorem Die.sendAgainTimes_zero (x : Die) (r : List Byte) : x.sendAgainTimes r 0 = x := rfl

theorem Die.sendAgainTimes_succ (x : Die) (r : List Byte) (n : Nat) :
    x.sendAgainTimes r (n + 1) = (x.sendAgainTimes r n).sendAgain r := by
  simp [Die.sendAgainTimes, List.range_succ]

/-- What every sending leaves, all of them leave. -/
theorem Die.sendAgainTimes_induction {P : Die → Prop} {r : List Byte} (hstep : ∀ y, P y → P (y.sendAgain r)) {x : Die}
    (hx : P x) (n : Nat) : P (x.sendAgainTimes r n) := by
  induction n with
  | zero => exact hx
  | succ n ih => exact x.sendAgainTimes_succ r n ▸ hstep _ ih

theorem Die.replied_sendAgainTimes (x : Die) (r : List Byte) (n : Nat) : x.Replied (x.sendAgainTimes r n) :=
  Die.sendAgainTimes_induction (fun _ h => h.trans rfl) (.refl x) n

theorem Die.pool_sendAgainTimes (x : Die) (r : List Byte) (n : Nat) :
    (x.sendAgainTimes r n).cmd.pool = x.cmd.pool :=
  Die.sendAgainTimes_induction (P := fun y => y.cmd.pool = x.cmd.pool) (fun _ h => h) rfl n

theorem Die.streams_sendAgainTimes (x : Die) (r : List Byte) (n : Nat) :
    (x.sendAgainTimes r n).cmd.stream0 = x.cmd.stream0 ∧ (x.sendAgainTimes r n).cmd.ctxs = x.cmd.ctxs :=
  Die.sendAgainTimes_induction (P := fun y => y.cmd.stream0 = x.cmd.stream0 ∧ y.cmd.ctxs = x.cmd.ctxs)
    (fun _ h => h) ⟨rfl, rfl⟩ n

theorem Die.replies_sendAgainTimes (x : Die) (r : List Byte) (n : Nat) :
    (x.sendAgainTimes r n).cmd.replies = x.cmd.replies ++ List.replicate n (repeatReply r) := by
  induction n with
  | zero => simp [Die.sendAgainTimes_zero]
  | succ n ih =>
    rw [Die.sendAgainTimes_succ, List.replicate_succ', ← List.append_assoc, ← ih]
    rfl

theorem Die.reg_sendAgainTimes_replyCnt (x : Die) (r : List Byte) (n : Nat) :
    (x.sendAgainTimes r n).reg .cmdReplyCnt = x.reg .cmdReplyCnt + BitVec.ofNat 32 n := by
  induction n with
  | zero => simp [Die.sendAgainTimes_zero]
  | succ n ih => rw [Die.sendAgainTimes_succ, Die.reg_sendAgain_replyCnt, ih, BitVec.ofNat_add, BitVec.add_assoc]; rfl

theorem Die.reg_sendAgainTimes_repeatCnt (x : Die) (r : List Byte) (n : Nat) :
    (x.sendAgainTimes r n).reg .cmdRepeatCnt = x.reg .cmdRepeatCnt + BitVec.ofNat 32 n := by
  induction n with
  | zero => simp [Die.sendAgainTimes_zero]
  | succ n ih => rw [Die.sendAgainTimes_succ, Die.reg_sendAgain_repeatCnt, ih, BitVec.ofNat_add, BitVec.add_assoc]; rfl

theorem Die.reg_sendAgainTimes_ne (x : Die) (r : List Byte) (n : Nat) {q : Reg}
    (h : q.addr [] ≠ Reg.cmdReplyCnt.addr []) (h' : q.addr [] ≠ Reg.cmdRepeatCnt.addr []) :
    (x.sendAgainTimes r n).reg q = x.reg q :=
  Die.sendAgainTimes_induction (P := fun y => y.reg q = x.reg q)
    (fun y hy => (y.reg_sendAgain_ne r h h').trans hy) rfl n

/-! ### An answer -/

/-- The reply of a command of an open context is stored for its number, and mirrored (R38, R69). -/
def Die.keepReply (x : Die) (c : PendCmd) (r : List Byte) : Die :=
  if c.closed || pktSeq c.pkt == 0 then x else
    (if x.mirrorsCommands then { x with pair.mirOut := x.pair.mirOut ++ [.command c.ctx c.pkt r] } else x).updStream c.ctx
      (fun t => t.store (pktSeq c.pkt) r)

theorem Die.deliver_eq (x : Die) (c : PendCmd) (r : List Byte) :
    x.deliver c r = ((x.queueReply r).keepReply c r).sendAgainTimes r c.repeats := rfl

theorem Die.keepReply_of_unstored {c : PendCmd} (h : c.closed = true ∨ pktSeq c.pkt = 0) (x : Die) (r : List Byte) :
    x.keepReply c r = x := by
  unfold Die.keepReply
  rw [if_pos (by simpa using h)]

theorem Die.stream0_keepReply (x : Die) {c : PendCmd} (r : List Byte) (hopen : c.closed = false) (hseq : pktSeq c.pkt ≠ 0)
    (hctx : c.ctx = 0) : (x.keepReply c r).cmd.stream0 = x.cmd.stream0.store (pktSeq c.pkt) r := by
  unfold Die.keepReply
  rw [if_neg (by simp [hopen, hseq]), hctx, Die.stream0_updStream_zero]
  split <;> rfl

theorem Die.replied_keepReply (x : Die) (c : PendCmd) (r : List Byte) : x.Replied (x.keepReply c r) := by
  unfold Die.keepReply
  split
  · exact .refl x
  · refine Die.Replied.trans ?_ (Die.replied_updStream _ _ _)
    split <;> exact rfl

theorem Die.keepReply_keeps (x : Die) (c : PendCmd) (r : List Byte) :
    (x.keepReply c r).regs = x.regs ∧ (x.keepReply c r).cmd.replies = x.cmd.replies ∧
      (x.keepReply c r).cmd.pool = x.cmd.pool := by
  unfold Die.keepReply
  split
  · exact ⟨rfl, rfl, rfl⟩
  · rw [Die.regs_updStream, Die.replies_updStream, Die.pool_updStream]
    split <;> exact ⟨rfl, rfl, rfl⟩

/-- The reply that an answer forms (R61). -/
def Die.replyOf (x : Die) (c : PendCmd) (r : CmdRes) : List Byte :=
  formReply c.pkt r.status x.dev.code (if c.closed then 0 else (x.ctxState c.ctx).code) r.detail r.payload

/-- How often the reply of a command has been asked for before it was formed (R68). -/
def Die.askedAgain (x : Die) (c : PendCmd) : Nat := ((x.cmd.pool.find? (isPend c)).map fun q => q.repeats).getD c.repeats

section
variable (x : Die) (c : PendCmd) (r : CmdRes)

theorem Die.answerCmd_eq : x.answerCmd c r =
    (({ x with cmd.pool := dropFirst (isPend c) x.cmd.pool } : Die).deliver { c with repeats := x.askedAgain c }
      (x.replyOf c r)) := rfl

theorem Die.replied_answerCmd : x.Replied (x.answerCmd c r) := by
  rw [Die.answerCmd_eq, Die.deliver_eq]
  have hqueued : ∀ pool q, x.Replied (({ x with cmd.pool := pool } : Die).queueReply q) := fun _ _ => rfl
  exact ((hqueued _ _).trans (Die.replied_keepReply _ _ _)).trans (Die.replied_sendAgainTimes _ _ _)

theorem Die.replies_answerCmd : (x.answerCmd c r).cmd.replies =
    x.cmd.replies ++ x.replyOf c r :: List.replicate (x.askedAgain c) (repeatReply (x.replyOf c r)) := by
  rw [Die.answerCmd_eq, Die.deliver_eq, Die.replies_sendAgainTimes, (Die.keepReply_keeps _ _ _).2.1]
  exact List.append_assoc _ _ _

theorem Die.pool_answerCmd : (x.answerCmd c r).cmd.pool = dropFirst (isPend c) x.cmd.pool := by
  rw [Die.answerCmd_eq, Die.deliver_eq, Die.pool_sendAgainTimes, (Die.keepReply_keeps _ _ _).2.2]
  rfl

theorem Die.reg_answerCmd_replyCnt : (x.answerCmd c r).reg .cmdReplyCnt =
    x.reg .cmdReplyCnt + BitVec.ofNat 32 (x.askedAgain c + 1) := by
  rw [Die.answerCmd_eq, Die.deliver_eq, Die.reg_sendAgainTimes_replyCnt,
    Die.reg_of_regs (Die.keepReply_keeps _ _ _).1, Die.reg_queueReply_replyCnt, Nat.add_comm, BitVec.ofNat_add,
    BitVec.add_assoc]
  rfl

theorem Die.reg_answerCmd_repeatCnt : (x.answerCmd c r).reg .cmdRepeatCnt =
    x.reg .cmdRepeatCnt + BitVec.ofNat 32 (x.askedAgain c) := by
  rw [Die.answerCmd_eq, Die.deliver_eq, Die.reg_sendAgainTimes_repeatCnt,
    Die.reg_of_regs (Die.keepReply_keeps _ _ _).1, Die.reg_queueReply_ne _ _ (by decide)]
  rfl

theorem Die.reg_answerCmd_ne {q : Reg} (h : q.addr [] ≠ Reg.cmdReplyCnt.addr [])
    (h' : q.addr [] ≠ Reg.cmdRepeatCnt.addr []) : (x.answerCmd c r).reg q = x.reg q := by
  rw [Die.answerCmd_eq, Die.deliver_eq, Die.reg_sendAgainTimes_ne _ _ _ h h',
    Die.reg_of_regs (Die.keepReply_keeps _ _ _).1, Die.reg_queueReply_ne _ _ h]
  rfl

theorem Die.stream0_answerCmd (hopen : c.closed = false) (hseq : pktSeq c.pkt ≠ 0) (hctx : c.ctx = 0) :
    (x.answerCmd c r).cmd.stream0 = x.cmd.stream0.store (pktSeq c.pkt) (x.replyOf c r) := by
  rw [Die.answerCmd_eq, Die.deliver_eq, (Die.streams_sendAgainTimes _ _ _).1]
  exact Die.stream0_keepReply _ _ hopen hseq hctx

theorem Die.streams_answerCmd_of_unstored (h : c.closed = true ∨ pktSeq c.pkt = 0) :
    (x.answerCmd c r).cmd.stream0 = x.cmd.stream0 ∧ (x.answerCmd c r).cmd.ctxs = x.cmd.ctxs := by
  rw [Die.answerCmd_eq, Die.deliver_eq,
    Die.keepReply_of_unstored (c := { c with repeats := x.askedAgain c }) h]
  exact Die.streams_sendAgainTimes _ _ _

end

end Sys2Proof.Machine
end

section
/-! PROOFS. O8: taking a packet from the FIFO, and answering a command (R57, R61, R64, R65, R68 to R70, R101). -/
namespace Sys2Proof.Machine

/-! ### Taking a packet -/

/-- The die once it has taken the packet in front of its FIFO (R57, R101). -/
def Die.took (x : Die) (rest : List (List Byte)) : Die := ({ x with cmd.fifo := rest } : Die).count .cmdRxCnt

theorem Die.reg_took_rxCnt (x : Die) (rest : List (List Byte)) : (x.took rest).reg .cmdRxCnt = x.reg .cmdRxCnt + 1 :=
  Die.reg_count _ .cmdRxCnt

theorem Die.reg_took_ne (x : Die) (rest : List (List Byte)) {q : Reg} (h : q.addr [] ≠ Reg.cmdRxCnt.addr []) :
    (x.took rest).reg q = x.reg q := Die.reg_count_ne _ h

section
variable {s : State} {d : DieId} {k : List Byte} {rest : List (List Byte)}
variable (hfifo : (s.die d).cmd.fifo = k :: rest) (hon : (s.die d).cmdOn = true) (hroom : (s.die d).replyLevel < 512)
include hfifo hon hroom

theorem exec_commandPacketTake_reject {st : Byte} {known : Bool} {detail : Nat} {payload : List Byte}
    (hv : validate (s.die d.other) (s.die d) k = .reject st known detail payload) :
    exec (.commandPacketTake d) s =
      .next (s.onDie d fun x => rejectPacket k st known detail payload (x.took rest)) := by
  change Host.Outcome.next (takePacket d s) = _
  simp only [takePacket, hfifo, hon, hv, Bool.not_true, Bool.false_or, decide_eq_true_eq, Nat.not_le.mpr hroom, if_false]
  rfl

theorem exec_commandPacketTake_again {h : HistEnt} (hv : validate (s.die d.other) (s.die d) k = .again h) :
    exec (.commandPacketTake d) s = .next (s.onDie d fun x => repeatPacket k h (x.took rest)) := by
  change Host.Outcome.next (takePacket d s) = _
  simp only [takePacket, hfifo, hon, hv, Bool.not_true, Bool.false_or, decide_eq_true_eq, Nat.not_le.mpr hroom, if_false]
  rfl

theorem exec_commandPacketTake_sequenced {op : Op} (hv : validate (s.die d.other) (s.die d) k = .pass op true)
    (hpool : (s.die d).cmd.pool.length < 256) :
    exec (.commandPacketTake d) s = .next (s.onDie d fun x => acceptPacket k (x.took rest)) := by
  change Host.Outcome.next (takePacket d s) = _
  simp only [takePacket, hfifo, hon, hv, Bool.not_true, Bool.false_or, decide_eq_true_eq, Nat.not_le.mpr hroom,
    Nat.not_le.mpr hpool, if_false, if_true]
  rfl

theorem exec_commandPacketTake_unsequenced {op : Op} (hv : validate (s.die d.other) (s.die d) k = .pass op false)
    (hpool : (s.die d).cmd.pool.length < 256) :
    exec (.commandPacketTake d) s = .next (runUnsequenced d op k (s.onDie d fun x => x.took rest)) := by
  change Host.Outcome.next (takePacket d s) = _
  simp only [takePacket, hfifo, hon, hv, Bool.not_true, Bool.false_or, decide_eq_true_eq, Nat.not_le.mpr hroom,
    Nat.not_le.mpr hpool, if_false, Bool.false_eq_true]
  rfl

end

/-! ### What the packet leaves -/

/-- A stream that has been updated reads so (R67). -/
theorem Die.stream_updStream (x : Die) (c : Nat) (f : Stream → Stream) (h : c = 0 ∨ (x.ctx? c).isSome = true) :
    (x.updStream c f).stream c = f (x.stream c) := by
  by_cases hc : c = 0
  · subst hc
    rfl
  · obtain ⟨t, ht⟩ := Option.isSome_iff_exists.mp (h.resolve_left hc)
    have hupd : (x.updCtx c fun t => { t with stream := f t.stream }).ctx? c = some { t with stream := f t.stream } :=
      find?_updWhere (fun _ hb => hb) ht
    simp only [Die.updStream, Die.stream, if_neg hc, hupd, ht]

/-- A packet enters the pool as a command that waits (R65). -/
def newCmd (k : List Byte) : PendCmd :=
  { ctx := pktContext k, pkt := k, phase := .waiting, closed := false, repeats := 0 }

theorem acceptPacket_eq (k : List Byte) (x : Die) :
    acceptPacket k x = { x.updStream (pktContext k) (fun t => t.take (BitVec.ofNat 32 (pktSeq k))) with
      cmd.pool := x.cmd.pool ++ [newCmd k] } := rfl

theorem expected_acceptPacket {k : List Byte} {x : Die} (h : pktContext k = 0 ∨ (x.ctx? (pktContext k)).isSome = true) :
    ((acceptPacket k x).stream (pktContext k)).expected = seqNext (BitVec.ofNat 32 (pktSeq k)) := by
  rw [acceptPacket_eq]
  exact congrArg Stream.expected (Die.stream_updStream x _ (fun t => t.take (BitVec.ofNat 32 (pktSeq k))) h)

theorem Die.reg_setReg_same (x : Die) (r : Reg) (v : Word) : (x.setReg r v).reg r = v := Die.regI_setRegI x r [] v

theorem Die.reg_setReg_ne (x : Die) {r q : Reg} (v : Word) (h : q.addr [] ≠ r.addr []) :
    (x.setReg r v).reg q = x.reg q := Die.regI_setRegI_ne x r q [] [] v h

section
variable (k : List Byte) (st : Byte) (known : Bool) (detail : Nat) (payload : List Byte) (x : Die)

theorem reg_rejectPacket_rejectCnt :
    (rejectPacket k st known detail payload x).reg .cmdRejectCnt = x.reg .cmdRejectCnt + 1 := by
  simp only [rejectPacket]
  rw [Die.reg_setReg_ne _ _ (by decide), Die.reg_count, Die.reg_queueReply_ne _ _ (by decide)]

theorem reg_rejectPacket_rxCnt : (rejectPacket k st known detail payload x).reg .cmdRxCnt = x.reg .cmdRxCnt := by
  simp only [rejectPacket]
  rw [Die.reg_setReg_ne _ _ (by decide), Die.reg_count_ne _ (by decide), Die.reg_queueReply_ne _ _ (by decide)]

theorem reg_rejectPacket_lastReject : (rejectPacket k st known detail payload x).reg .cmdLastReject =
    BitVec.ofNat 32 (st.toNat * 2 ^ 24 + pktOp k * 2 ^ 16 + pktContext k % 1024) := Die.reg_setReg_same _ _ _

end

/-- The first command of a pool that a command matches is itself when it stands in front. -/
theorem isPend_self (c : PendCmd) : isPend c c = true := by simp [isPend]

theorem askedAgain_front (x : Die) (c : PendCmd) (l : List PendCmd) :
    ({ x with cmd.pool := c :: l } : Die).askedAgain c = c.repeats := by
  simp [Die.askedAgain, isPend_self]

theorem dropFirst_front (c : PendCmd) (l : List PendCmd) : dropFirst (isPend c) (c :: l) = l := by
  simp [dropFirst, isPend_self]

/-- A command that is answered as it is taken leaves the pool as it was, and its reply follows those queued. -/
theorem answerCmd_front (x : Die) (c : PendCmd) (r : CmdRes) (h : c.repeats = 0) :
    (({ x with cmd.pool := c :: x.cmd.pool } : Die).answerCmd c r).cmd.pool = x.cmd.pool ∧
      (({ x with cmd.pool := c :: x.cmd.pool } : Die).answerCmd c r).cmd.replies = x.cmd.replies ++ [x.replyOf c r] := by
  rw [Die.pool_answerCmd, Die.replies_answerCmd, askedAgain_front, h]
  exact ⟨dropFirst_front _ _, rfl⟩

theorem replyOf_newCmd_zero (x : Die) {k : List Byte} (r : CmdRes) (h : pktContext k = 0) :
    x.replyOf (newCmd k) r = formReply k r.status x.dev.code 1 r.detail r.payload := by
  simp [Die.replyOf, newCmd, Die.ctxState, h, CtxState.code]

/-- An unsequenced PING that is taken: its reply follows those queued (R70). -/
theorem runUnsequenced_ping (d : DieId) (k : List Byte) (s : State) :
    runUnsequenced d .ping k s = answerOn d (newCmd k) (resOk (leBytes 8 (s.die d).localTime.toNat))
      (s.onDie d fun x => { x with cmd.pool := newCmd k :: x.cmd.pool }) := by
  change answerOn d (newCmd k) (resOk (leBytes 8 ((s.onDie d _).die d).localTime.toNat)) _ = _
  rw [State.die_onDie]
  rfl

/-- Settles O8: a packet by its verdict, and what an answer leaves. -/
theorem takingAPacketValidatesItAndAnswers : Obligations.TakingAPacketValidatesItAndAnswers := by
  unfold Obligations.TakingAPacketValidatesItAndAnswers
  refine ⟨fun s d k rest hfifo hon hroom => ?_, fun s d c r => ?_⟩
  · have hrx := (s.die d).reg_took_rxCnt rest
    refine ⟨?_, ?_, ?_, ?_⟩
    · intro op hv hpool
      refine ⟨_, exec_commandPacketTake_sequenced hfifo hon hroom hv hpool, ?_⟩
      have hupd := ((s.die d).took rest).replied_updStream (pktContext k) fun t => t.take (BitVec.ofNat 32 (pktSeq k))
      have hexpected := expected_acceptPacket (k := k) (x := (s.die d).took rest)
      rw [State.die_onDie, State.die_other_onDie]
      exact ⟨hupd.fifo_eq, rfl, Die.replies_updStream _ _ _, (Die.reg_of_regs (Die.regs_updStream _ _ _) _).trans hrx,
        hexpected, hupd.dram_eq, rfl⟩
    · intro st known detail payload hv
      refine ⟨_, exec_commandPacketTake_reject hfifo hon hroom hv, ?_⟩
      have hlast := reg_rejectPacket_lastReject k st known detail payload ((s.die d).took rest)
      have hcount := reg_rejectPacket_rejectCnt k st known detail payload ((s.die d).took rest)
      have hrx' := reg_rejectPacket_rxCnt k st known detail payload ((s.die d).took rest)
      rw [Die.reg_took_ne _ _ (by decide)] at hcount
      rw [State.die_onDie, State.die_other_onDie]
      exact ⟨rfl, rfl, rfl, rfl, rfl, hlast, hcount, hrx'.trans hrx, rfl, rfl⟩
    · intro h hv
      refine ⟨_, exec_commandPacketTake_again hfifo hon hroom hv, ?_⟩
      rw [State.die_onDie, State.die_other_onDie, repeatPacket]
      cases hr : h.reply with
      | none => exact ⟨rfl, rfl, rfl, nofun, fun _ => rfl, hrx, rfl, rfl⟩
      | some r =>
        have hrepeat := ((s.die d).took rest).reg_sendAgain_repeatCnt r
        have hrx' := ((s.die d).took rest).reg_sendAgain_ne r (q := .cmdRxCnt) (by decide) (by decide)
        rw [Die.reg_took_ne _ _ (by decide)] at hrepeat
        refine ⟨rfl, rfl, rfl, fun q hq => ?_, nofun, hrx'.trans hrx, rfl, rfl⟩
        obtain rfl := Option.some.inj hq
        exact ⟨rfl, rfl, hrepeat⟩
    · intro hv hctx hseq hpool
      refine ⟨_, exec_commandPacketTake_unsequenced hfifo hon hroom hv hpool, ?_⟩
      rw [runUnsequenced_ping, answerOn, State.die_onDie, State.die_other_onDie, State.die_other_onDie,
        State.die_other_onDie, State.die_onDie, State.die_onDie]
      let x := (s.die d).took rest
      let y : Die := { x with id := d, cmd.pool := newCmd k :: x.cmd.pool }
      let r := resOk (leBytes 8 (s.die d).localTime.toNat)
      obtain ⟨hpooled, hreplied⟩ := answerCmd_front { x with id := d } (newCmd k) r rfl
      have hrx' := y.reg_answerCmd_ne (newCmd k) r (q := .cmdRxCnt) (by decide) (by decide)
      have hframe := y.replied_answerCmd (newCmd k) r
      rw [replyOf_newCmd_zero _ _ hctx] at hreplied
      exact ⟨hframe.fifo_eq, hpooled, hreplied, hrx'.trans hrx, hframe.dram_eq, rfl⟩
  · rw [answerOn, State.die_onDie, State.die_other_onDie, State.onDie_pending]
    have hreplied := (s.die d).replied_answerCmd c r
    exact ⟨Die.replies_answerCmd _ _ _, Die.reg_answerCmd_replyCnt _ _ _, Die.reg_answerCmd_repeatCnt _ _ _,
      Die.stream0_answerCmd _ _ _, Die.streams_answerCmd_of_unstored _ _ _, Die.pool_answerCmd _ _ _,
      hreplied.fifo_eq, hreplied.dram_eq, hreplied.sh_eq, rfl, rfl⟩

end Sys2Proof.Machine
end

section
/-! PROOFS. Data channels: how a transfer ends (R58, R93). -/
namespace Sys2Proof.Machine

/-- A row that changes one die leaves what its change makes of that die. -/
theorem nextOn_congr {s : State} {d : DieId} {f g : Die → Die} (h : f (s.die d) = g (s.die d)) :
    nextOn d f s = .next (s.onDie d g) := congrArg Host.Outcome.next (State.onDie_congr h)

@[simp] theorem getElem_vmod_same {α : Type} {n : Nat} (v : Vector α n) (i : Fin n) (f : α → α) :
    (vmod v i f)[i] = f v[i] := by
  simp [vmod]

theorem getElem_vmod_ne {α : Type} {n : Nat} (v : Vector α n) {i j : Fin n} (f : α → α) (h : j ≠ i) :
    (vmod v i f)[j] = v[j] := by
  simpa [vmod] using Vector.getElem_set_ne _ _ fun hij => h (Fin.ext hij.symm)

/-- A channel is free (R91). -/
def Die.freeChannel (x : Die) (ch : Fin 4) : Die := { x with cmd.xfers := vmod x.cmd.xfers ch fun _ => none }

section
variable (x : Die) (ch : Fin 4) (r : CmdRes)

theorem Die.endXferWith_of_none (h : x.xferCmd ch = none) : x.endXferWith ch r = x.freeChannel ch := by
  simp [Die.endXferWith, h, Die.freeChannel]

theorem Die.endXferWith_of_some {c : PendCmd} (h : x.xferCmd ch = some c) :
    x.endXferWith ch r = (x.freeChannel ch).answerCmd c r := by
  simp [Die.endXferWith, h, Die.freeChannel]

/-- A transfer that ends frees its channel, and beside that only answers. -/
theorem Die.replied_endXferWith : (x.freeChannel ch).Replied (x.endXferWith ch r) := by
  cases h : x.xferCmd ch with
  | none => exact x.endXferWith_of_none ch r h ▸ .refl _
  | some c => exact x.endXferWith_of_some ch r h ▸ Die.replied_answerCmd _ c r

theorem Die.xfers_endXferWith_same : (x.endXferWith ch r).cmd.xfers[ch] = none := by
  rw [(x.replied_endXferWith ch r).xfers_eq]
  exact getElem_vmod_same _ ch _

theorem Die.replies_endXferWith_of_some {c : PendCmd} (h : x.xferCmd ch = some c) :
    (x.endXferWith ch r).cmd.replies =
      x.cmd.replies ++ x.replyOf c r :: List.replicate (x.askedAgain c) (repeatReply (x.replyOf c r)) := by
  rw [x.endXferWith_of_some ch r h, Die.replies_answerCmd]
  rfl

theorem Die.replies_prefix_endXferWith : x.cmd.replies <+: (x.endXferWith ch r).cmd.replies := by
  cases h : x.xferCmd ch with
  | none => exact x.endXferWith_of_none ch r h ▸ List.prefix_rfl
  | some c => exact x.replies_endXferWith_of_some ch r h ▸ List.prefix_append _ _

theorem Die.reg_endXferWith_ne {q : Reg} (h : q.addr [] ≠ Reg.cmdReplyCnt.addr [])
    (h' : q.addr [] ≠ Reg.cmdRepeatCnt.addr []) : (x.endXferWith ch r).reg q = x.reg q := by
  cases hc : x.xferCmd ch with
  | none => exact x.endXferWith_of_none ch r hc ▸ rfl
  | some c =>
    rw [x.endXferWith_of_some ch r hc, Die.reg_answerCmd_ne _ _ _ h h']
    rfl

end

section
variable {x : Die} {ch : Fin 4} (st : Byte)

theorem Die.endXfer_of_some {f : Xfer} (h : x.cmd.xfers[ch] = some f) :
    x.endXfer ch st = x.endXferWith ch { status := st, detail := 0, payload := donePayload f } := by
  simp only [Die.endXfer, h]

theorem Die.endXfer_of_none (h : x.cmd.xfers[ch] = none) : x.endXfer ch st = x := by
  simp only [Die.endXfer, h]

end

/-- A property that freeing channels and answering keep, every end of a transfer keeps. -/
theorem Die.endXfer_induction {P : Die → Prop} {x : Die} {ch : Fin 4} (st : Byte) (hx : P x)
    (hend : ∀ r, P (x.endXferWith ch r)) : P (x.endXfer ch st) := by
  cases h : x.cmd.xfers[ch] with
  | none => rwa [Die.endXfer_of_none st h]
  | some f => rw [Die.endXfer_of_some st h]; exact hend _

section
variable (x : Die) (ch : Fin 4) (st : Byte)

theorem Die.xfers_endXfer_same : (x.endXfer ch st).cmd.xfers[ch] = none := by
  cases h : x.cmd.xfers[ch] with
  | none => rw [Die.endXfer_of_none st h, h]
  | some f => rw [Die.endXfer_of_some st h, Die.xfers_endXferWith_same]

theorem Die.xfers_endXfer_ne {k : Fin 4} (h : k ≠ ch) : (x.endXfer ch st).cmd.xfers[k] = x.cmd.xfers[k] :=
  Die.endXfer_induction (P := fun y => y.cmd.xfers[k] = x.cmd.xfers[k]) st rfl fun r => by
    rw [(x.replied_endXferWith ch r).xfers_eq]
    exact getElem_vmod_ne _ _ h

theorem Die.dram_endXfer : (x.endXfer ch st).dram = x.dram :=
  Die.endXfer_induction (P := fun y => y.dram = x.dram) st rfl fun r => (x.replied_endXferWith ch r).dram_eq

theorem Die.cache_endXfer : (x.endXfer ch st).cache = x.cache :=
  Die.endXfer_induction (P := fun y => y.cache = x.cache) st rfl fun r => (x.replied_endXferWith ch r).cache_eq

theorem Die.xlt_endXfer : (x.endXfer ch st).xlt = x.xlt :=
  Die.endXfer_induction (P := fun y => y.xlt = x.xlt) st rfl fun r => (x.replied_endXferWith ch r).xlt_eq

theorem Die.fifo_endXfer : (x.endXfer ch st).cmd.fifo = x.cmd.fifo :=
  Die.endXfer_induction (P := fun y => y.cmd.fifo = x.cmd.fifo) st rfl fun r => (x.replied_endXferWith ch r).fifo_eq

theorem Die.replies_prefix_endXfer : x.cmd.replies <+: (x.endXfer ch st).cmd.replies :=
  Die.endXfer_induction (P := fun y => x.cmd.replies <+: y.cmd.replies) st List.prefix_rfl
    fun r => x.replies_prefix_endXferWith ch r

theorem Die.reg_endXfer_ne {q : Reg} (h : q.addr [] ≠ Reg.cmdReplyCnt.addr [])
    (h' : q.addr [] ≠ Reg.cmdRepeatCnt.addr []) : (x.endXfer ch st).reg q = x.reg q :=
  Die.endXfer_induction (P := fun y => y.reg q = x.reg q) st rfl fun r => x.reg_endXferWith_ne ch r h h'

end

/-! ### Every transfer ends (R58) -/

/-- The transfers of a list of channels end, one after another. -/
def Die.endXfers (x : Die) (l : List (Fin 4)) (st : Byte) : Die := l.foldl (fun y ch => y.endXfer ch st) x

section
variable (st : Byte)

/-- What the end of every transfer keeps, the end of all of them keeps. -/
theorem Die.endXfers_induction {P : Die → Prop} (hstep : ∀ y ch, P y → P (y.endXfer ch st)) {x : Die} (hx : P x)
    (l : List (Fin 4)) : P (x.endXfers l st) := by
  induction l generalizing x with
  | nil => exact hx
  | cons ch l ih => exact ih (hstep x ch hx)

theorem Die.xfers_endXfers_of_none {x : Die} {k : Fin 4} (h : x.cmd.xfers[k] = none) (l : List (Fin 4)) :
    (x.endXfers l st).cmd.xfers[k] = none :=
  Die.endXfers_induction st (P := fun y => y.cmd.xfers[k] = none) (fun y ch hy => by
    by_cases hk : k = ch
    · exact hk ▸ y.xfers_endXfer_same k st
    · rw [y.xfers_endXfer_ne ch st hk, hy]) h l

theorem Die.xfers_endXfers_of_mem {k : Fin 4} {l : List (Fin 4)} (h : k ∈ l) (x : Die) :
    (x.endXfers l st).cmd.xfers[k] = none := by
  induction l generalizing x with
  | nil => simp at h
  | cons ch l ih =>
    by_cases hk : k = ch
    · subst hk
      exact Die.xfers_endXfers_of_none st (x.xfers_endXfer_same k st) l
    · exact ih ((List.mem_cons.mp h).resolve_left hk) _

/-- Where no channel of the list carries a transfer nothing ends. -/
theorem Die.endXfers_of_none {x : Die} {l : List (Fin 4)} (h : ∀ k ∈ l, x.cmd.xfers[k] = none) :
    x.endXfers l st = x := by
  induction l with
  | nil => rfl
  | cons ch l ih =>
    change (x.endXfer ch st).endXfers l st = x
    rw [Die.endXfer_of_none st (h ch List.mem_cons_self)]
    exact ih fun k hk => h k (List.mem_cons_of_mem ch hk)

/-- Where one channel carries a transfer, that one ends. -/
theorem Die.endXfers_of_one {x : Die} {ch : Fin 4} {l : List (Fin 4)} (hch : ch ∈ l)
    (h : ∀ k : Fin 4, k ≠ ch → x.cmd.xfers[k] = none) : x.endXfers l st = x.endXfer ch st := by
  induction l with
  | nil => simp at hch
  | cons k l ih =>
    change (x.endXfer k st).endXfers l st = _
    by_cases hk : k = ch
    · subst hk
      refine Die.endXfers_of_none st fun j _ => ?_
      by_cases hj : j = k
      · exact hj ▸ x.xfers_endXfer_same j st
      · rw [x.xfers_endXfer_ne k st hj, h j hj]
    · rw [Die.endXfer_of_none st (h k hk)]
      exact ih ((List.mem_cons.mp hch).resolve_left (Ne.symm hk))

end

end Sys2Proof.Machine
end

section
/-! PROOFS. O7: the endpoints 0x01 and 0x81, and the loss of the USB link (R54 to R56, R58). -/
namespace Sys2Proof.Machine

/-! ### Endpoints -/

@[simp] theorem Die.regs_epBusy (x : Die) (ep : Byte) : (x.epBusy ep).regs = x.regs := by
  unfold Die.epBusy
  split <;> rfl

theorem exec_commandPacketReceive_taken {s : State} {d : DieId} (pkt : List Byte) (hlive : (s.die d).usbLive = true)
    (hroom : (s.die d).cmd.fifo.length < 256) : exec (.commandPacketReceive d pkt) s =
      .next (s.onDie d fun x => ({ x with cmd.fifo := x.cmd.fifo ++ [pkt] } : Die).epServed 0x01 .ack) :=
  nextOn_congr (f := (receiveDie pkt)) (by simp [receiveDie, hlive, Nat.not_le.mpr hroom])

theorem exec_commandPacketReceive_refused {s : State} {d : DieId} (pkt : List Byte) (hlive : (s.die d).usbLive = true)
    (hfull : 256 ≤ (s.die d).cmd.fifo.length) : exec (.commandPacketReceive d pkt) s =
      .next (s.onDie d fun x => (x.epBusy 0x01).count .cmdNakCnt) :=
  nextOn_congr (f := (receiveDie pkt)) (by simp [receiveDie, hlive, hfull])

/-- A refusal that is counted. -/
theorem Die.count_epBusy (x : Die) (ep : Byte) (r : Reg) :
    (x.epBusy ep).count r = (x.epBusy ep).setReg r (x.reg r + 1) := by
  change (x.epBusy ep).setReg r ((x.epBusy ep).reg r + 1) = _
  rw [Die.reg_of_regs (x.regs_epBusy ep)]

theorem exec_replyInToken_refused {s : State} {d : DieId} (hlive : (s.die d).usbLive = true)
    (hnone : (s.die d).cmd.replies = []) : exec (.replyInToken d) s = .next (s.onDie d fun x => x.epBusy 0x81) :=
  nextOn_congr (f := replyDie) (by simp [replyDie, hlive, hnone])

theorem exec_replyInToken_answered {s : State} {d : DieId} {r : List Byte} {rs : List (List Byte)}
    (hlive : (s.die d).usbLive = true) (hreplies : (s.die d).cmd.replies = r :: rs) : exec (.replyInToken d) s =
      .next (s.onDie d fun x => ({ x with cmd.replies := rs } : Die).epServed 0x81 (.data r)) :=
  nextOn_congr (f := replyDie) (by simp [replyDie, hlive, hreplies])

/-! ### Loss of the link -/

/-- The die whose FIFO a bus reset has emptied, before its transfers end (R58). -/
def Die.emptied (x : Die) : Die :=
  ({ x with cmd.fifo := [], io.usb.owed := [], io.usb.erdy := [] } : Die).forget fun m => match m with
    | .usb _ => true
    | _ => false

theorem usbReset_eq (x : Die) :
    usbReset x = (x.emptied.endXfers channelIds stLinkLost).count .cmdUsbResetCnt := rfl

theorem mem_channelIds (ch : Fin 4) : ch ∈ channelIds := by
  fin_cases ch <;> decide

theorem exec_usbLinkLoss {s : State} {d : DieId} (hcon : (s.die d).io.usb.connected = true) :
    exec (.usbLinkLoss d) s = .next (s.onDie d fun x => { usbReset x with io.usb.lowPower := none }) :=
  nextOn_congr (f := linkLossDie) (by simp [linkLossDie, hcon])

/-- What the end of a transfer and the count keep of the emptied die, a bus reset leaves. -/
theorem usbReset_induction {P : Die → Prop} {x : Die} (hx : P x.emptied)
    (hend : ∀ y ch, P y → P (y.endXfer ch stLinkLost)) (hcount : ∀ y, P y → P (y.count .cmdUsbResetCnt)) :
    P (usbReset x) := by
  rw [usbReset_eq]
  exact hcount _ (Die.endXfers_induction stLinkLost hend hx _)

theorem reg_usbReset_resetCnt (x : Die) : (usbReset x).reg .cmdUsbResetCnt = x.reg .cmdUsbResetCnt + 1 := by
  rw [usbReset_eq, Die.reg_count, Die.endXfers_induction stLinkLost
    (P := fun y => y.reg .cmdUsbResetCnt = x.emptied.reg .cmdUsbResetCnt)
    (fun y ch hy => (y.reg_endXfer_ne ch _ (by decide) (by decide)).trans hy) rfl channelIds]
  rfl

theorem replies_prefix_usbReset (x : Die) : x.cmd.replies <+: (usbReset x).cmd.replies :=
  usbReset_induction (P := fun y => x.cmd.replies <+: y.cmd.replies) List.prefix_rfl
    (fun y ch hy => hy.trans (y.replies_prefix_endXfer ch _)) fun _ hy => hy

theorem fifo_usbReset (x : Die) : (usbReset x).cmd.fifo = [] :=
  usbReset_induction (P := fun y => y.cmd.fifo = []) rfl (fun y ch hy => (y.fifo_endXfer ch _).trans hy) fun _ hy => hy

theorem dram_usbReset (x : Die) : (usbReset x).dram = x.dram :=
  usbReset_induction (P := fun y => y.dram = x.dram) rfl (fun y ch hy => (y.dram_endXfer ch _).trans hy) fun _ hy => hy

theorem xfers_usbReset (x : Die) (ch : Fin 4) : (usbReset x).cmd.xfers[ch] = none := by
  rw [usbReset_eq]
  exact Die.xfers_endXfers_of_mem stLinkLost (mem_channelIds ch) x.emptied

/-- Without a transfer in progress no command is answered. -/
theorem usbReset_idle {x : Die} (h : ∀ ch : Fin 4, x.cmd.xfers[ch] = none) :
    (usbReset x).cmd.pool = x.cmd.pool ∧ (usbReset x).cmd.replies = x.cmd.replies ∧
      (usbReset x).cmd.stream0 = x.cmd.stream0 ∧ (usbReset x).cmd.ctxs = x.cmd.ctxs := by
  rw [usbReset_eq, Die.endXfers_of_none stLinkLost (x := x.emptied) fun k _ => h k]
  exact ⟨rfl, rfl, rfl, rfl⟩

/-- The one transfer in progress ends with LINK_LOST and the bytes it moved. -/
theorem usbReset_one {x : Die} {ch : Fin 4} {f : Xfer} {c : PendCmd} (hf : x.cmd.xfers[ch] = some f)
    (hothers : ∀ k : Fin 4, k ≠ ch → x.cmd.xfers[k] = none) (hc : x.xferCmd ch = some c) (hopen : c.closed = false)
    (hasked : x.askedAgain c = 0) :
    (usbReset x).cmd.replies = x.cmd.replies ++
        [formReply c.pkt stLinkLost x.dev.code (x.ctxState c.ctx).code 0 (leBytes 4 f.moved)] ∧
      (usbReset x).cmd.pool = dropFirst (isPend c) x.cmd.pool := by
  have hended : usbReset x = ((x.emptied.freeChannel ch).answerCmd c
      { status := stLinkLost, detail := 0, payload := donePayload f }).count .cmdUsbResetCnt := by
    rw [usbReset_eq, Die.endXfers_of_one stLinkLost (x := x.emptied) (mem_channelIds ch) hothers,
      Die.endXfer_of_some stLinkLost (x := x.emptied) hf, Die.endXferWith_of_some x.emptied ch _ hc]
  have hreplies := (x.emptied.freeChannel ch).replies_answerCmd c
    { status := stLinkLost, detail := 0, payload := donePayload f }
  rw [show (x.emptied.freeChannel ch).askedAgain c = 0 from hasked, Die.replyOf, hopen] at hreplies
  rw [hended]
  exact ⟨hreplies, Die.pool_answerCmd _ _ _⟩

/-- Settles O7, from what each packet, token and loss of the link does to the die. -/
theorem endpointsAnswerTokensAndLoseTheLink : Obligations.EndpointsAnswerTokensAndLoseTheLink := by
  unfold Obligations.EndpointsAnswerTokensAndLoseTheLink
  refine ⟨fun s d pkt hlive => ⟨fun hroom => exec_commandPacketReceive_taken pkt hlive hroom, fun hfull => ?_,
    fun hnone => exec_replyInToken_refused hlive hnone, fun r rs hreplies => exec_replyInToken_answered hlive hreplies⟩,
    fun s d hcon => ⟨_, exec_usbLinkLoss hcon, ?_⟩⟩
  · rw [exec_commandPacketReceive_refused pkt hlive hfull]
    exact congrArg (fun y => Host.Outcome.next (s.setDie d y)) ((s.die d).count_epBusy 0x01 .cmdNakCnt)
  · have hfifo := fifo_usbReset (s.die d)
    have hprefix := replies_prefix_usbReset (s.die d)
    have hfree := xfers_usbReset (s.die d)
    have hreg := reg_usbReset_resetCnt (s.die d)
    have hidle := usbReset_idle (x := s.die d)
    have hone := fun ch f c => usbReset_one (x := s.die d) (ch := ch) (f := f) (c := c)
    have hdram := dram_usbReset (s.die d)
    rw [State.die_onDie, State.die_other_onDie]
    generalize usbReset (s.die d) = y at *
    exact ⟨hfifo, hprefix, hfree, hreg, hidle, fun ch f c hf hothers hc hopen hasked =>
      hone ch f c hf hothers hc hopen (congrArg (fun n => n.getD c.repeats) hasked), hdram, rfl, rfl⟩

end Sys2Proof.Machine
end

section
/-! PROOFS. O10: a command that its device or context state forbids is refused when its turn comes (R66). -/
namespace Sys2Proof.Machine

section
variable {s : State} {d : DieId} {ctx : Nat} {op : Op} {c : PendCmd}

/-- A command of a context that has been closed is answered NO_CONTEXT. -/
theorem runHead_closed (hon : (s.die d).cmdOn = true) (hwait : c.phase = .waiting) (hhead : (s.die d).headCmd ctx = some c)
    (hop : opOf (pktOp c.pkt) = some op) (act : PendCmd → State → State) (hclosed : c.closed = true) :
    runHead d ctx op act s = answerOn d c (resErr stNoContext) s := by
  simp [runHead, hhead, hon, hwait, hop, hclosed]

/-- A command that is no longer legal is answered WRONG_STATE. -/
theorem runHead_illegal (hon : (s.die d).cmdOn = true) (hwait : c.phase = .waiting)
    (hhead : (s.die d).headCmd ctx = some c) (hop : opOf (pktOp c.pkt) = some op) (act : PendCmd → State → State)
    (hopen : c.closed = false)
    (hbad : (opLegal (s.die d.other) (s.die d) op c.pkt && ctxLegal (s.die d) op ctx c.pkt) = false) :
    runHead d ctx op act s = answerOn d c (resErr stWrongState) s := by
  simp [runHead, hhead, hon, hwait, hop, hopen, hbad]

/-- SUSPEND_CONTEXT that has not begun runs as the head of its stream. -/
theorem exec_suspendContext_waiting (hhead : (s.die d).headCmd 0 = some c) (hwait : c.phase = .waiting) :
    exec (.suspendContext d) s = .next (runHead d 0 .suspendContext (suspendStart d) s) := by
  change execSuspendContext d s = _
  simp [execSuspendContext, hhead, hwait]

/-- The row of an opcode of the device stream runs the head of that stream. -/
theorem exec_deviceRow {row : Instr} (hhead : (s.die d).headCmd 0 = some c) (hwait : c.phase = .waiting)
    (hrow : (op, row) ∈ [(.ping, .ping d), (.getStatus, .getStatus d), (.cfgRead, .cfgRead d), (.cfgWrite, .cfgWrite d),
      (.press, .press d), (.faultRead, .faultRead d), (.openContext, .openContext d), (.closeContext, .closeContext d),
      (.suspendContext, .suspendContext d), (.resumeContext, .resumeContext d), (.grantGranules, .grantGranules d),
      (.reclaimGranules, .reclaimGranules d), (.vmConfig, .vmConfig d), (.holdEnter, .holdEnter d),
      (.holdExit, .holdExit d), (.failover, .failover d), (.resetDevice, .resetDevice d), (.attest, .attest d),
      (.loadImage, .loadImage d), (.lcTransition, .lcTransition d), (.romLoad, Instr.romLoad d)]) :
    ∃ act, exec row s = .next (runHead d 0 op act s) := by
  have hsuspend := exec_suspendContext_waiting hhead hwait
  simp only [List.mem_cons, Prod.mk.injEq, List.not_mem_nil, or_false] at hrow
  rcases hrow with ⟨rfl, rfl⟩ | ⟨rfl, rfl⟩ | ⟨rfl, rfl⟩ | ⟨rfl, rfl⟩ | ⟨rfl, rfl⟩ | ⟨rfl, rfl⟩ | ⟨rfl, rfl⟩ | ⟨rfl, rfl⟩ |
    ⟨rfl, rfl⟩ | ⟨rfl, rfl⟩ | ⟨rfl, rfl⟩ | ⟨rfl, rfl⟩ | ⟨rfl, rfl⟩ | ⟨rfl, rfl⟩ | ⟨rfl, rfl⟩ | ⟨rfl, rfl⟩ | ⟨rfl, rfl⟩ |
    ⟨rfl, rfl⟩ | ⟨rfl, rfl⟩ | ⟨rfl, rfl⟩ | ⟨rfl, rfl⟩
  case' inr.inr.inr.inr.inr.inr.inr.inr.inl => exact ⟨_, hsuspend⟩
  all_goals exact ⟨_, rfl⟩

/-- The row of an opcode of a context's stream runs the head of that stream. -/
theorem exec_contextRow {row : Instr} (hctx : ctx ≠ 0)
    (hrow : (op, row) ∈ [(.submit, .submit d ctx), (.cancelJob, .cancelJob d ctx), (.fenceSignal, .fenceSignal d ctx),
      (.fenceRead, .fenceRead d ctx), (.fenceWait, .fenceWait d ctx), (.ctxStatus, .ctxStatus d ctx),
      (.writeMem, .writeMem d ctx), (.readMem, Instr.readMem d ctx)]) :
    ∃ act, exec row s = .next (runHead d ctx op act s) := by
  simp only [List.mem_cons, Prod.mk.injEq, List.not_mem_nil, or_false] at hrow
  rcases hrow with ⟨rfl, rfl⟩ | ⟨rfl, rfl⟩ | ⟨rfl, rfl⟩ | ⟨rfl, rfl⟩ | ⟨rfl, rfl⟩ | ⟨rfl, rfl⟩ | ⟨rfl, rfl⟩ | ⟨rfl, rfl⟩
  all_goals exact ⟨_, if_neg hctx⟩

end

/-- Settles O10: every row runs the head of its stream, which refuses such a command. -/
theorem anIllegalCommandHasNoEffect : Obligations.AnIllegalCommandHasNoEffect := by
  unfold Obligations.AnIllegalCommandHasNoEffect
  intro s d ctx c op row hon hwait hhead hop hrow
  have hrun : ∃ act, exec row s = .next (runHead d ctx op act s) := by
    rcases hrow with ⟨rfl, hrow⟩ | ⟨hctx, hrow⟩
    · exact exec_deviceRow hhead hwait hrow
    · exact exec_contextRow hctx hrow
  obtain ⟨act, hexec⟩ := hrun
  rw [hexec]
  exact ⟨fun hclosed => congrArg Host.Outcome.next (runHead_closed hon hwait hhead hop act hclosed),
    fun hopen hbad => congrArg Host.Outcome.next (runHead_illegal hon hwait hhead hop act hopen hbad)⟩

end Sys2Proof.Machine
end

section
/-! PROOFS. O13: data commands take a channel, and data packets move bytes (R56, R91 to R94, R506, R508, R513, R518). -/
namespace Sys2Proof.Machine

/-! ### Commands whose turn it is -/

section
variable {s : State} {d : DieId} {c : PendCmd}

theorem runDevice_turn {op : Op} (h : turn s d 0 op c = true) (eff : List Byte → State → Eff) :
    runDevice d op eff s = .next (answerEff d c (eff c.pkt s)) :=
  congrArg Host.Outcome.next (runHead_turn h _)

theorem runContext_turn {ctx : Nat} {op : Op} (hctx : ctx ≠ 0) (h : turn s d ctx op c = true)
    (eff : List Byte → State → Eff) : runContext d ctx op eff s = .next (answerEff d c (eff c.pkt s)) :=
  (if_neg hctx).trans (congrArg Host.Outcome.next (runHead_turn h _))

/-- A data command starts on a free channel, and waits for one that carries another transfer (R91). -/
theorem startXfer_answers {o : Out} {ch : Fin 4} {f : Die → Die} (ho : o = .next (startXfer d ch f s)) :
    ((s.die d).cmd.xfers[ch] = none → o = .next (s.onDie d f)) ∧
      (((s.die d).cmd.xfers[ch]).isSome = true → o = .next s) := by
  subst ho
  refine ⟨fun hfree => ?_, fun hbusy => ?_⟩
  · simp [startXfer, hfree]
  · exact congrArg Host.Outcome.next (if_pos hbusy)

theorem exec_writeMem_turn {ctx : Nat} (hctx : ctx ≠ 0) (h : turn s d ctx .writeMem c = true) :
    exec (.writeMem d ctx) s = .next (startMem d ctx .writeMem c s) :=
  (if_neg hctx).trans (congrArg Host.Outcome.next (runHead_turn h _))

theorem exec_readMem_turn {ctx : Nat} (hctx : ctx ≠ 0) (h : turn s d ctx .readMem c = true) :
    exec (.readMem d ctx) s = .next (startMem d ctx .readMem c s) :=
  (if_neg hctx).trans (congrArg Host.Outcome.next (runHead_turn h _))

theorem exec_lcTransition_turn (h : turn s d 0 .lcTransition c = true) : exec (.lcTransition d) s =
    .next (startXfer d (chanOf c.pkt 1) (assignChannel (chanOf c.pkt 1) c .lcAuth 0 0 7348 []) s) :=
  congrArg Host.Outcome.next (runHead_turn h _)

theorem exec_romLoad_turn (h : turn s d 0 .romLoad c = true) : exec (.romLoad d) s =
    .next (startXfer d (chanOf c.pkt 0) (assignChannel (chanOf c.pkt 0) c .romImage 0 0 (par c.pkt 4 4) []) s) :=
  congrArg Host.Outcome.next (runHead_turn h _)

theorem exec_attest_turn (h : turn s d 0 .attest c = true) : exec (.attest d) s =
    .next (startXfer d (chanOf c.pkt 0) (startAttest c (chanOf c.pkt 0)) s) :=
  congrArg Host.Outcome.next (runHead_turn h _)

/-! ### LOAD_IMAGE -/

/-- A command of a context that is used on both dies changes its own die from that die and its partner. -/
theorem die_onCtxDies (s : State) (d : DieId) (c : Nat) (f : Die → Die → Die) :
    (onCtxDies s d c f).die d = { f (s.die d.other) (s.die d) with id := d } := by
  unfold onCtxDies
  dsimp only
  split
  · rw [State.die_onDie_other, State.die_onDie]
  · rw [State.die_onDie]

theorem exec_loadImage_turn (h : turn s d 0 .loadImage c = true)
    (hopen : ((s.die d).ctx? (par c.pkt 0 2)).isSome = true) : exec (.loadImage d) s =
      .next (answerOn d c (resOk []) (onCtxDies s d (par c.pkt 0 2) fun p x =>
        loadImage p x (par c.pkt 0 2) (par c.pkt 4 8) (par c.pkt 12 8) (par c.pkt 20 8)
          (BitVec.ofNat 64 (par c.pkt 28 8)))) := by
  have hsome : ((s.die d).ctx? (par c.pkt 0 2)).isNone = false := by simpa using hopen
  refine (runDevice_turn h (effLoadImage d)).trans ?_
  simp only [effLoadImage, hsome, Bool.false_eq_true, if_false, answerEff]

theorem models_setEntry_same (x : Die) (i : Nat) (e : Option ModelEnt) :
    (setEntry x i e).sec.models.getD i none = e := by
  simp [setEntry, List.getD_eq_getElem?_getD]

end

/-- A load that finds a free entry reserves it and waits behind the others (R508). -/
theorem loadImage_reserved {p x : Die} {i : Nat} (h : freeEntry x = some i) (ctx lba dest fence : Nat) (value : DWord) :
    loadImage p x ctx lba dest fence value =
      { setEntry x i (some (reservedEntry ctx dest)) with sec.loads := x.sec.loads ++
        [{ ctx := ctx, lba := lba, dest := dest, fence := fence, value := value, entry := i, frozen := none }] } := by
  simp [loadImage, h]

/-! ### OUT packets -/

section
variable {s : State} {d : DieId} {ch : Fin 4} {pkt : List Byte}

theorem exec_dataPacketOut_refused (hlive : (s.die d).usbLive = true) (hlen : pkt.length ≤ (s.die d).usbMax)
    (hno : ∀ f, (s.die d).cmd.xfers[ch] = some f → (f.takesOut && (s.die d).running) = false) :
    exec (.dataPacketOut d ch pkt) s = .next (s.onDie d fun x => x.epBusy (outEp ch)) := by
  change execDataPacketOut d ch pkt s = _
  simp only [execDataPacketOut, hlive, Bool.not_true, Bool.false_or, decide_eq_true_eq, Nat.not_lt.mpr hlen, if_false]
  cases hf : (s.die d).cmd.xfers[ch] with
  | none => rfl
  | some f => exact if_pos (by rw [← Bool.not_and, hno f hf]; rfl)

theorem exec_dataPacketOut_taken {f : Xfer} (hlive : (s.die d).usbLive = true) (hrun : (s.die d).running = true)
    (hlen : pkt.length ≤ (s.die d).usbMax) (hf : (s.die d).cmd.xfers[ch] = some f) (htakes : f.takesOut = true) :
    exec (.dataPacketOut d ch pkt) s = .next (takeOut s d ch f pkt) := by
  change execDataPacketOut d ch pkt s = _
  simp [execDataPacketOut, hlive, Nat.not_lt.mpr hlen, hf, htakes, hrun]

end

/-- A packet that does not end an authorisation or an image is kept and counted (R506, R518). -/
theorem collectPacket_continues {x : Die} {ch : Fin 4} {f : Xfer} {pkt : List Byte} (hfull : pkt.length = x.usbMax)
    (hmore : f.moved + pkt.length < f.len) : collectPacket x ch f pkt = x.updXfer ch fun u =>
      { u with moved := u.moved + pkt.length, last := x.localTime, buf := f.buf ++ pkt } := by
  have hmin : min pkt.length (f.len - f.moved) = pkt.length := by omega
  have hmax : ∀ g, (x.updXfer ch g).usbMax = x.usbMax := fun _ => rfl
  have hover : ¬ f.len - f.moved < pkt.length := by omega
  have hlong : ¬ pkt.length < x.usbMax := by omega
  simp only [collectPacket, hmin, hover, hmore.ne, hmax, hlong, List.take_length, if_false]

/-- A channel after bytes of its transfer have moved (R93). -/
def Die.movedOn (x : Die) (ch : Fin 4) (n : Nat) : Die :=
  x.updXfer ch fun u => { u with moved := u.moved + n, last := x.localTime, buf := [] }

section
variable {p x y : Die} {ch : Fin 4} {f : Xfer} {pkt : List Byte} (hsome : 1 ≤ pkt.length)
  (hfits : f.moved + pkt.length ≤ f.len)
  (hunit : writeUnit p x (.usb ch) f.ctx (f.va + f.moved) pkt accWrite = (y, true))
include hsome hfits hunit

/-- A packet of WRITE_MEM whose unit passes has written its bytes; the transfer ends with LEN, or on a short packet. -/
theorem writePacket_passed : writePacket p x ch f pkt =
    (if f.moved + pkt.length = f.len then (y.movedOn ch pkt.length).endXfer ch stOk
     else if pkt.length < x.usbMax then (y.movedOn ch pkt.length).endXfer ch stDataShort
     else y.movedOn ch pkt.length) := by
  have hmin : min pkt.length (f.len - f.moved) = pkt.length := by omega
  have hover : ¬ f.len - f.moved < pkt.length := by omega
  have hne : pkt.length ≠ 0 := by omega
  simp only [writePacket, hmin, List.take_length, if_neg hne, hunit, hover, if_false, Bool.not_true,
    Bool.false_eq_true]
  rfl

theorem writePacket_memory : (writePacket p x ch f pkt).dram = y.dram ∧ (writePacket p x ch f pkt).cache = y.cache ∧
    (writePacket p x ch f pkt).xlt = y.xlt := by
  rw [writePacket_passed hsome hfits hunit]
  split
  · exact ⟨Die.dram_endXfer _ _ _, Die.cache_endXfer _ _ _, Die.xlt_endXfer _ _ _⟩
  · split
    · exact ⟨Die.dram_endXfer _ _ _, Die.cache_endXfer _ _ _, Die.xlt_endXfer _ _ _⟩
    · exact ⟨rfl, rfl, rfl⟩

theorem writePacket_last (hlast : f.moved + pkt.length = f.len) :
    (writePacket p x ch f pkt).cmd.xfers[ch] = none := by
  rw [writePacket_passed hsome hfits hunit, if_pos hlast]
  exact Die.xfers_endXfer_same _ ch _

theorem writePacket_more (hmore : f.moved + pkt.length < f.len) (hfull : pkt.length = x.usbMax) :
    (writePacket p x ch f pkt).cmd.xfers[ch] = (y.cmd.xfers[ch]).map fun u =>
      { u with moved := u.moved + pkt.length, last := y.localTime, buf := [] } := by
  rw [writePacket_passed hsome hfits hunit, if_neg hmore.ne, if_neg (by omega)]
  exact getElem_vmod_same _ ch _

end

/-- A command of a context acts on its own die alone in the sibling's part. -/
theorem die_onSibling (s : State) (d : DieId) (c : Nat) (f : Die → Die → Die) : (onSibling s d c f).die d = s.die d := by
  unfold onSibling
  split
  · rw [State.die_onDie_other]
  · rfl

theorem die_forwardPacket (s : State) (d : DieId) (ch : Fin 4) (f : Xfer) (pkt : List Byte) :
    (forwardPacket s d ch f pkt).die d = s.die d := by
  unfold forwardPacket
  dsimp only
  split
  · rfl
  · exact die_onSibling ..

/-- The die after a packet that its WRITE_MEM transfer took. -/
theorem die_takeOut_writeMem {f : Xfer} (hkind : f.kind = .writeMem) (s : State) (d : DieId) (ch : Fin 4) (pkt : List Byte) :
    (takeOut s d ch f pkt).die d =
      { (writePacket (s.die d.other) (s.die d) ch f pkt).epServed (outEp ch) .ack with id := d } := by
  simp only [takeOut, hkind, if_true]
  rw [State.die_onDie, die_forwardPacket, State.die_onDie]
  rfl

theorem takeOut_collected {f : Xfer} (hkind : f.kind = .lcAuth ∨ f.kind = .romImage) (s : State) (d : DieId) (ch : Fin 4)
    (pkt : List Byte) :
    takeOut s d ch f pkt = s.onDie d fun x => (collectPacket x ch f pkt).epServed (outEp ch) .ack :=
  if_neg (by rcases hkind with h | h <;> simp [h])

/-! ### IN tokens -/

section
variable {s : State} {d : DieId} {ch : Fin 4}

theorem exec_dataPacketIn_refused (hlive : (s.die d).usbLive = true)
    (hno : ∀ f, (s.die d).cmd.xfers[ch] = some f → (f.takesIn && (s.die d).running) = false) :
    exec (.dataPacketIn d ch) s = .next (s.onDie d fun x => x.epBusy (inEp ch)) := by
  refine nextOn_congr (f := dataInDie ch (s.die d.other)) ?_
  simp only [dataInDie, hlive, Bool.not_true, Bool.false_eq_true, if_false]
  cases hf : (s.die d).cmd.xfers[ch] with
  | none => rfl
  | some f => exact if_pos (by rw [← Bool.not_and, hno f hf]; rfl)

theorem exec_dataPacketIn_readMem {f : Xfer} {z : Die} {bs : List Byte} (hlive : (s.die d).usbLive = true)
    (hrun : (s.die d).running = true) (hf : (s.die d).cmd.xfers[ch] = some f) (hfree : f.frozen = none)
    (hkind : f.kind = .readMem) (hread : readPacket (s.die d.other) (s.die d) ch f = (z, some bs)) :
    exec (.dataPacketIn d ch) s = .next (s.onDie d fun _ => z.epServed (inEp ch) (.data bs)) :=
  nextOn_congr (f := dataInDie ch (s.die d.other)) (by
    simp [dataInDie, hlive, hf, Xfer.takesIn, hkind, hfree, hrun, hread])

theorem exec_dataPacketIn_attest {f : Xfer} (hlive : (s.die d).usbLive = true)
    (hrun : (s.die d).running = true) (hf : (s.die d).cmd.xfers[ch] = some f) (hfree : f.frozen = none)
    (hkind : f.kind = .attest) : exec (.dataPacketIn d ch) s = .next (s.onDie d fun x =>
      (reportPacket x ch f).1.epServed (inEp ch)
        (.data ((f.buf.drop f.moved).take (min x.usbMax (f.len - f.moved))))) :=
  nextOn_congr (f := dataInDie ch (s.die d.other)) (by
    simp [dataInDie, hlive, hf, Xfer.takesIn, hkind, hfree, hrun, reportPacket])

theorem exec_dataTimeout_late {f : Xfer} (hon : (s.die d).cmdOn = true) (hf : (s.die d).cmd.xfers[ch] = some f)
    (hfree : f.frozen = none)
    (hlate : 100 * (s.die d).fld .cmdDataCfg [] 15 0 * 400 ≤ ((s.die d).localTime - f.last).toNat) :
    exec (.dataTimeout d ch) s =
      .next (s.onDie d fun x => (x.endXfer ch stDataTimeout).count .cmdDataTimeoutCnt) := by
  have hpassed : (s.die d).passedLocal f.last (100 * (s.die d).fld .cmdDataCfg [] 15 0) = true := decide_eq_true hlate
  exact nextOn_congr (f := dataTimeoutDie ch) (by simp [dataTimeoutDie, hf, hfree, hon, hpassed])

end

/-- The bytes of a READ_MEM packet whose unit passes; the last one frees the channel (R94). -/
theorem readPacket_passed {p x y : Die} {ch : Fin 4} {f : Xfer} {bs : List Byte}
    (hunit : readUnit p x (.usb ch) f.ctx (f.va + f.moved) (min x.usbMax (f.len - f.moved)) accRead = (y, some bs)) :
    ∃ z, readPacket p x ch f = (z, some bs) ∧ z.dram = y.dram ∧
      (f.moved + min x.usbMax (f.len - f.moved) = f.len → z.cmd.xfers[ch] = none) := by
  refine ⟨_, by simp only [readPacket, hunit]; rfl, ?_, fun hlast => ?_⟩
  · split
    · exact Die.dram_endXfer _ _ _
    · rfl
  · rw [if_pos hlast]
    exact Die.xfers_endXfer_same _ ch _

/-- A packet of a report leaves memory, and the last one frees the channel (R513). -/
theorem reportPacket_keeps (x : Die) (ch : Fin 4) (f : Xfer) : (reportPacket x ch f).1.dram = x.dram ∧
    (f.moved + min x.usbMax (f.len - f.moved) = f.len → (reportPacket x ch f).1.cmd.xfers[ch] = none) := by
  refine ⟨?_, fun hlast => ?_⟩
  · unfold reportPacket
    dsimp only
    split
    · exact (Die.replied_endXferWith _ _ _).dram_eq
    · rfl
  · simp only [reportPacket, if_pos hlast]
    exact Die.xfers_endXferWith_same _ ch _

/-- Settles O13: the commands by their channel, and every packet by what its die becomes. -/
theorem dataCommandsAndPackets : Obligations.DataCommandsAndPackets := by
  unfold Obligations.DataCommandsAndPackets
  refine ⟨fun s d c ctx => ⟨fun hctx h => startXfer_answers (exec_writeMem_turn hctx h),
    fun hctx h => startXfer_answers (exec_readMem_turn hctx h), fun h => startXfer_answers (exec_lcTransition_turn h),
    fun h => startXfer_answers (exec_romLoad_turn h), fun h => startXfer_answers (exec_attest_turn h),
    fun h hopen i hi => ?_⟩,
    fun s d ch pkt => ⟨exec_dataPacketOut_refused, exec_dataPacketIn_refused, ?_, ?_, ?_, ?_, ?_⟩⟩
  · refine ⟨_, exec_loadImage_turn h hopen, ?_⟩
    rw [die_onCtxDies, loadImage_reserved hi]
    exact ⟨rfl, congrArg Option.isSome (models_setEntry_same ..), rfl⟩
  · intro f hlive hrun hfull hf hfree hkind hmore
    have htakes : f.takesOut = true := by rcases hkind with h | h <;> simp [Xfer.takesOut, h, hfree]
    refine ⟨_, exec_dataPacketOut_taken hlive hrun hfull.le hf htakes, ?_⟩
    rw [takeOut_collected hkind, State.die_onDie, State.die_other_onDie, collectPacket_continues hfull hmore]
    refine ⟨rfl, (getElem_vmod_same _ ch _).trans ?_, rfl, rfl, rfl⟩
    rw [hf]
    rfl
  · intro f y hlive hrun hlen hf hfree hkind hsome hfits hunit
    have htakes : f.takesOut = true := by simp [Xfer.takesOut, hkind, hfree]
    refine ⟨_, exec_dataPacketOut_taken hlive hrun hlen hf htakes, ?_⟩
    obtain ⟨hdram, hcache, hxlt⟩ := writePacket_memory hsome hfits hunit
    have hlast := writePacket_last hsome hfits hunit
    have hmore := writePacket_more hsome hfits hunit
    rw [die_takeOut_writeMem hkind]
    exact ⟨rfl, hdram, hcache, hxlt, hlast, hmore⟩
  · intro f y bs hlive hrun hf hfree hkind hunit
    obtain ⟨z, hread, hdram, hlast⟩ := readPacket_passed hunit
    refine ⟨_, exec_dataPacketIn_readMem hlive hrun hf hfree hkind hread, ?_⟩
    rw [State.die_onDie, State.die_other_onDie]
    exact ⟨rfl, hdram, hlast, rfl⟩
  · intro f hlive hrun hf hfree hkind
    refine ⟨_, exec_dataPacketIn_attest hlive hrun hf hfree hkind, ?_⟩
    obtain ⟨hdram, hlast⟩ := reportPacket_keeps (s.die d) ch f
    rw [State.die_onDie, State.die_other_onDie]
    exact ⟨rfl, hlast, hdram, rfl⟩
  · intro f hon hf hfree hlate
    refine ⟨_, exec_dataTimeout_late hon hf hfree hlate, ?_⟩
    have hnone := (s.die d).xfers_endXfer_same ch stDataTimeout
    have hreg := ((s.die d).endXfer ch stDataTimeout).reg_count .cmdDataTimeoutCnt
    have hdram := (s.die d).dram_endXfer ch stDataTimeout
    rw [Die.reg_endXfer_ne _ _ _ (by decide) (by decide)] at hreg
    rw [State.die_onDie]
    refine ⟨hnone, hreg, hdram, fun hc => ?_, fun c hc => ?_⟩
    · rw [Die.endXfer_of_some _ hf, Die.endXferWith_of_none _ _ _ hc]
      rfl
    · have hreplies := (s.die d).replies_endXferWith_of_some ch
        { status := stDataTimeout, detail := 0, payload := donePayload f } hc
      rw [← Die.endXfer_of_some _ hf, ← List.singleton_append, ← List.append_assoc] at hreplies
      exact ⟨_, hreplies.symm⟩

end Sys2Proof.Machine
end

section
/-! PROOFS. O14: SUBMIT, CANCEL_JOB and CTX_STATUS (R83, R86, R317, R318). -/
namespace Sys2Proof.Machine

/-! ### The job table -/

theorem Die.freeJobSlot_lowest {x : Die} {slot : Nat} (h : x.freeJobSlot = some slot) :
    slot < 4096 ∧ (∀ j ∈ x.jobs.list, j.slot ≠ slot) ∧ ∀ k < slot, ∃ j ∈ x.jobs.list, j.slot = k := by
  obtain ⟨hfree, hmem, hused⟩ := List.find?_range_eq_some.1 h
  refine ⟨List.mem_range.1 hmem, ?_, fun k hk => ?_⟩
  · simpa using hfree
  · simpa using hused k hk

/-- The die with a descriptor copied into a slot, before the descriptor is checked. -/
def Die.withJob (x : Die) (slot ctx key : Nat) (b : List Byte) : Die :=
  { x with jobs.serial := x.jobs.serial + 1, jobs.order := x.jobs.order + 1,
           jobs.list := x.jobs.list ++ [mkJob slot (BitVec.ofNat 32 (slot + 4096 * (x.jobs.serial + 1).toNat)) ctx
             (x.jobs.order + 1) key b (x.runsPaired ctx b)] }

/-- A descriptor in a free slot that passes its checks and names a wait fence only settles its context's state. -/
theorem copyJob_waits {p x : Die} {ctx slot key va : Nat} {b : List Byte} (hfree : ∀ j ∈ x.jobs.list, j.slot ≠ slot)
    (hok : descOk (x.withJob slot ctx key b) ctx false b = true) (hwait : dWaitVa b ≠ 0) :
    copyJob p x ctx slot key none va b = ((x.withJob slot ctx key b).count .jobCopyCnt).settleCtx ctx := by
  have hkept : x.jobs.list.filter (fun t => t.slot != slot) = x.jobs.list :=
    List.filter_eq_self.2 fun j hj => by simpa using hfree j hj
  have hgood : ¬(!descOk ((x.withJob slot ctx key b).count .jobCopyCnt) ctx false b) = true := by
    rw [show descOk ((x.withJob slot ctx key b).count .jobCopyCnt) ctx false b = true from hok]
    decide
  simp only [copyJob, hkept, Option.getD_none]
  exact (if_neg hgood).trans (if_neg hwait)

/-! ### The commands -/

section
variable {s : State} {d : DieId} {ctx : Nat} {c : PendCmd}

theorem effSubmit_noSpace (h : (s.die d).freeJobSlot = none) (k : List Byte) :
    effSubmit d ctx k s = effRefuse s stNoSpace := by
  unfold effSubmit
  simp only [h]

theorem effSubmit_copies {k : List Byte} {slot : Nat} {y : Die} {b : List Byte} (hslot : (s.die d).freeJobSlot = some slot)
    (hread : readUnit (s.die d.other) (s.die d) (.cmdProc ctx none) ctx (par k 0 8) 256 accRead = (y, some b)) :
    effSubmit d ctx k s =
      (onSibling (s.setDie d (copyJob (s.die d.other) y ctx slot ((y.jobs.order + 1) * 2 ^ 32) none (par k 0 8) b)) d ctx
          (siblingSubmit ctx (par k 0 8) ((y.jobs.order + 1) * 2 ^ 32)
            (BitVec.ofNat 32 (slot + 4096 * (y.jobs.serial + 1).toNat))),
        some (resOk (leBytes 4 (BitVec.ofNat 32 (slot + 4096 * (y.jobs.serial + 1).toNat) : Word).toNat))) := by
  unfold effSubmit
  simp only [hslot, hread]

/-- A die that is no standby answers CTX_STATUS from its own table. -/
theorem effCtxStatus_own {t : Ctx} (hrole : (s.die d).pair.role ≠ .standby) (hctx : (s.die d).ctx? ctx = some t) :
    effCtxStatus d ctx s = (s, some (resOk (leBytes 1 t.state.code ++ [t.attr] ++ leBytes 1 t.vmid.toNat ++
      leBytes 1 0 ++ leBytes 4 t.stream.expected.toNat ++
      leBytes 2 (((s.die d).jobs.list.filter fun j => j.ctx == ctx).filter fun j =>
        decide (j.state = .waiting) || decide (j.state = .released)).length ++
      leBytes 2 (((s.die d).jobs.list.filter fun j => j.ctx == ctx).filter fun j => decide (j.state = .running)).length ++
      leBytes 4 t.faultCnt.toNat))) := by
  simp only [effCtxStatus, hrole, false_and, if_false, ctxPayload, hctx]

end

/-- Settles O14: each command is its effect, run when its turn comes; the table's clauses are those of the free slot and
of the copy. -/
theorem jobCommands : Obligations.JobCommands := by
  unfold Obligations.JobCommands
  intro s d ctx c hctx x
  refine ⟨fun hturn hnone => ?_, fun hturn slot y b hslot hread => ?_, fun slot => Die.freeJobSlot_lowest, ?_,
    fun hturn => runContext_turn hctx hturn _, fun t hturn hrole ht => ?_⟩
  · exact (runContext_turn hctx hturn _).trans
      (congrArg (fun e => Host.Outcome.next (answerEff d c e)) (effSubmit_noSpace hnone c.pkt))
  · exact (runContext_turn hctx hturn _).trans
      (congrArg (fun e => Host.Outcome.next (answerEff d c e)) (effSubmit_copies hslot hread))
  · intro p y slot key va b hfree hok hwait
    exact congrArg (fun z : Die => z.jobs.list) (copyJob_waits (p := p) (va := va) hfree hok hwait)
  · exact (runContext_turn hctx hturn fun _ => effCtxStatus d ctx).trans
      (congrArg (fun e => Host.Outcome.next (answerEff d c e)) (effCtxStatus_own hrole ht))

end Sys2Proof.Machine
end

section
/-! PROOFS. O15: fence signals are maxima; fence reads, waits, polls and time-outs (R29, R39, R87 to R90). -/
namespace Sys2Proof.Machine

/-- A signal that is performed stores the maximum over the die that its translation and its fetch leave. -/
theorem signalUnit_stores_max {p x y : Die} {m : Master} {c va : Nat} {v old : DWord}
    (h : signalUnit p x m c va v = (y, some old)) :
    ∃ w pm, old = BitVec.ofNat 64 (ofLe (viewBytes w pm va 8)) ∧
      let z := if mirrors p w then commitAll p w else w
      y = (if old.toNat < v.toNat then storeBytes p z c pm va (leBytes 8 v.toNat) else z) := by
  unfold signalUnit at h
  split at h
  · exact absurd (congrArg Prod.snd h) nofun
  next _ pm _ =>
    split at h
    · exact absurd (congrArg Prod.snd h) nofun
    next w _ =>
      obtain ⟨hy, hold⟩ := Prod.mk.inj h
      obtain rfl := Option.some.inj hold
      exact ⟨w, pm, rfl, hy.symm⟩

section
variable {s : State} {d : DieId} {ctx : Nat} {c : PendCmd} {y : Die} {v : DWord}

theorem effFenceSignal_passed {k : List Byte} (h : signalUnit (s.die d.other) (s.die d) (.cmdProc ctx none) ctx (par k 0 8)
      (BitVec.ofNat 64 (par k 8 8)) = (y, some v)) :
    effFenceSignal d ctx k s = (onSibling (s.setDie d y) d ctx fun p z =>
        siblingSignal p z (.cmdProc ctx none) ctx (par k 0 8) (BitVec.ofNat 64 (par k 8 8)),
      some (resOk (leBytes 8 v.toNat))) := by
  unfold effFenceSignal
  simp only [h]

theorem effFenceRead_passed {k : List Byte}
    (h : fenceUnit (s.die d.other) (s.die d) (.cmdProc ctx none) ctx (par k 0 8) = (y, some v)) :
    effFenceRead d ctx k s = (s.setDie d y, some (resOk (leBytes 8 v.toNat))) := by
  unfold effFenceRead
  simp only [h]

/-- A wait is answered once a read finds that the fence has reached VALUE (R88). -/
theorem waitRead_passed (h : fenceUnit (s.die d.other) (s.die d) (.cmdProc ctx none) ctx (par c.pkt 0 8) = (y, some v)) :
    waitRead d ctx c s = if par c.pkt 8 8 ≤ v.toNat
      then answerOn d c (resOk (leBytes 8 v.toNat)) (s.setDie d y) else s.setDie d y := by
  unfold waitRead
  simp only [h]

theorem exec_fenceWait_turn (hctx : ctx ≠ 0) (h : turn s d ctx .fenceWait c = true) :
    exec (.fenceWait d ctx) s = .next (waitStart d ctx c s) :=
  (if_neg hctx).trans (congrArg Host.Outcome.next (runHead_turn h _))

theorem State.setDie_onDie (s : State) (d : DieId) (f : Die → Die) (y : Die) : (s.onDie d f).setDie d y = s.setDie d y := by
  cases d <;> rfl

/-- A wait that begins reads its fence in the die whose pool holds it as a wait. -/
theorem waitStart_passed (hid : (s.die d).id = d)
    (h : fenceUnit (s.die d.other) ((s.die d).setPhase c (.fenceWait (s.die d).localTime none)) (.cmdProc ctx none) ctx
      (par c.pkt 0 8) = (y, some v)) :
    waitStart d ctx c s = if par c.pkt 8 8 ≤ v.toNat
      then answerOn d { c with phase := .fenceWait (s.die d).localTime none } (resOk (leBytes 8 v.toNat)) (s.setDie d y)
      else s.setDie d y := by
  have hdie : (s.onDie d fun x => x.setPhase c (.fenceWait (s.die d).localTime none)).die d =
      (s.die d).setPhase c (.fenceWait (s.die d).localTime none) := by
    rw [State.die_onDie]
    exact congrArg (fun i => { (s.die d).setPhase c (.fenceWait (s.die d).localTime none) with id := i }) hid.symm
  have hread := waitRead_passed (s := s.onDie d fun x => x.setPhase c (.fenceWait (s.die d).localTime none)) (d := d)
    (ctx := ctx) (c := { c with phase := .fenceWait (s.die d).localTime none }) (y := y) (v := v)
    (by rw [hdie, State.die_other_onDie]; exact h)
  rw [State.setDie_onDie] at hread
  exact hread

theorem exec_fenceWaitPoll_waiting {since : DWord} (hrun : (s.die d).running = true)
    (hwait : (s.die d).waiting ctx = some (c, since)) (hread : c.isFrozen = false) :
    exec (.fenceWaitPoll d ctx) s = .next (waitRead d ctx c s) := by
  change execFenceWaitPoll d ctx s = _
  simp [execFenceWaitPoll, hwait, hrun, hread]

theorem exec_fenceWaitTimeout_waiting {since : DWord} (hwait : (s.die d).waiting ctx = some (c, since)) :
    exec (.fenceWaitTimeout d ctx) s = .next (if (s.die d).cmdOn && (s.die d).passedLocal since (par c.pkt 16 4)
      then answerOn d c (resErr stWaitTimeout) s else s) := by
  change execFenceWaitTimeout d ctx s = _
  simp only [execFenceWaitTimeout, hwait]

end

/-- Settles O15: a signal stores a maximum, and each fence command is the read or the signal that it performs. -/
theorem fencesReachTheirValues : Obligations.FencesReachTheirValues := by
  unfold Obligations.FencesReachTheirValues
  refine ⟨fun p x y m c va v old => signalUnit_stores_max, fun s d ctx c y v hctx => ?_⟩
  refine ⟨fun hturn h => ?_, fun hturn h => ?_, fun hturn hid h => ?_, fun since hrun hwait hread h => ?_,
    fun since hon hwait hlate => ?_, fun since hwait hearly => ?_⟩
  · exact (runContext_turn hctx hturn _).trans
      (congrArg (fun e => Host.Outcome.next (answerEff d c e)) (effFenceSignal_passed h))
  · exact (runContext_turn hctx hturn _).trans
      (congrArg (fun e => Host.Outcome.next (answerEff d c e)) (effFenceRead_passed h))
  · exact (exec_fenceWait_turn hctx hturn).trans (congrArg Host.Outcome.next (waitStart_passed hid h))
  · exact (exec_fenceWaitPoll_waiting hrun hwait hread).trans (congrArg Host.Outcome.next (waitRead_passed h))
  · have hpassed : (s.die d).passedLocal since (par c.pkt 16 4) = true := decide_eq_true hlate
    exact (exec_fenceWaitTimeout_waiting hwait).trans (congrArg Host.Outcome.next (if_pos (by rw [hon, hpassed]; rfl)))
  · have hpassed : (s.die d).passedLocal since (par c.pkt 16 4) = false := decide_eq_false hearly.not_ge
    exact (exec_fenceWaitTimeout_waiting hwait).trans
      (congrArg Host.Outcome.next (if_neg (by rw [hpassed, Bool.and_false]; decide)))

end Sys2Proof.Machine
end

section
/-! PROOFS. O55: what each reset leaves, and the root PLL's lock (R75, R453, R559, R561 to R568, R580). -/
namespace Sys2Proof.Machine

/-! ### A standby's mirrored job table (R38, R44) -/

theorem keepMirror_of_standby {x : Die} (hmode : x.pair.mode = 2) (hrole : x.pair.role = .standby)
    (hsync : x.pair.mirrorSync = true) (lost : Die) :
    keepMirror lost x = { mirrorCtxs lost x with jobs := lost.jobs } := if_pos ⟨hmode, hrole, hsync⟩

theorem keepMirror_of_other {x : Die} (h : x.pair.mode ≠ 2 ∨ x.pair.role ≠ .standby ∨ x.pair.mirrorSync = false)
    (lost : Die) : keepMirror lost x = x := by
  refine if_neg fun ⟨hmode, hrole, hsync⟩ => ?_
  rcases h with hm | hr | hs
  · exact hm hmode
  · exact hr hrole
  · exact Bool.false_ne_true (hs.symm.trans hsync)

/-- Of the surviving die, only its contexts and its job table can change. -/
theorem keepMirror_keeps (lost x : Die) : (keepMirror lost x).regs = x.regs ∧ (keepMirror lost x).dram = x.dram ∧
    (keepMirror lost x).power = x.power ∧ (keepMirror lost x).dev = x.dev := by
  unfold keepMirror
  split
  · exact ⟨rfl, rfl, rfl, rfl⟩
  · exact ⟨rfl, rfl, rfl, rfl⟩

/-! ### Resets of one die and of the package (R562 to R564) -/

section
variable {s : State} {d : DieId}

theorem resetAlone_off (h : (s.die d).dev = .off) (code : Nat) : resetAlone s d code = s := if_pos h

/-- The die itself: only what a reset keeps, with its end of the bridge in reset. -/
theorem die_resetAlone (hon : (s.die d).dev ≠ .off) (code : Nat) : ∃ sync, (resetAlone s d code).die d =
    { (afterAlone sync (s.die d) (resetDie code (s.die d))).bridgeInReset with id := d } := by
  refine ⟨(s.die d.other).pair.mirrorSync && decide ((s.die d.other).pair.role = .standby), ?_⟩
  rw [resetAlone, if_neg hon, State.die_onDie, State.die_onDie_other]

/-- Its partner: it keeps the mirror it holds, with its end of the bridge in reset. -/
theorem die_other_resetAlone (hon : (s.die d).dev ≠ .off) (code : Nat) : (resetAlone s d code).die d.other =
    { (keepMirror (s.die d) (s.die d.other)).bridgeInReset with id := d.other } := by
  rw [resetAlone, if_neg hon, State.die_other_onDie, State.die_onDie]

theorem resetDie_cause (code : Nat) (x : Die) :
    (resetDie code x).power.resetCause = if x.resetting then x.power.resetCause else code := rfl

theorem packageDie_on {x : Die} (hon : x.dev ≠ .off) (code : Nat) :
    packageDie code x = { resetDie code x with power.inReset := true, pair.bridgeReset := false } := if_neg hon

theorem die_resetPackage (hon : (s.die d).dev ≠ .off) (code : Nat) : (resetPackage s code).die d =
    { resetDie code (s.die d) with power.inReset := true, pair.bridgeReset := false, id := d } := by
  rw [resetPackage, State.die_onBoth, packageDie_on hon]

end

/-! ### The events that reset or power off (R75, R561, R562, R580) -/

section
variable {s : State} {d : DieId}

theorem exec_powerOn_off (hoff : (s.die d).dev = .off) : exec (.resetSource (.powerOn d)) s =
    .next ((s.onDie d fun x =>
      ({ resetDie 1 x with power.tripped := false, power.inReset := false } : Die).bridgeInReset).onDie
        d.other Die.bridgeInReset) :=
  congrArg Host.Outcome.next (if_neg (not_not_intro hoff))

theorem exec_powerOff_resetting (hin : (s.die d).resetting = true) : exec (.powerOff d) s = .next (s.onDie d fun x =>
    { resetDie x.power.resetCause x with dev := .off, power.tripped := false, power.inReset := false }) :=
  nextOn_congr (if_pos hin)

theorem exec_resetDeviceBegin_none (h : (s.die d).power.resetDue = none) : exec (.resetDeviceBegin d) s = .next s := by
  change execResetDeviceBegin d s = _
  simp only [execResetDeviceBegin, h]

theorem exec_resetDeviceBegin_due {scope : Nat} {since : DWord} {reply : List Byte}
    (h : (s.die d).power.resetDue = some (scope, since, reply)) : exec (.resetDeviceBegin d) s =
      if (s.die d).cmd.replies.contains reply && decide (((s.die d).localTime - since).toNat < 10000 * localUs) then .next s
      else if scope = 0 then .next (resetAlone s d 6) else if scope = 1 then .next (resetPackage s 7)
      else .next (resetAlone s d 8) := by
  change execResetDeviceBegin d s = _
  simp only [execResetDeviceBegin, h]

theorem exec_thermalTrip_off (hoff : (s.die d).dev = .off) (hot : Bool) : exec (.thermalTrip d hot) s = .next s :=
  if_pos hoff

theorem exec_thermalTrip_hot (hon : (s.die d).dev ≠ .off) (htrip : (s.die d).power.tripped = false) :
    exec (.thermalTrip d true) s =
      .next ((resetAlone s d 9).onDie d fun y => { y with power.tripped := true, power.inReset := true }) :=
  ((if_neg hon).trans (if_pos rfl)).trans (if_neg (by rw [htrip]; decide))

theorem exec_thermalTrip_stillHot (hon : (s.die d).dev ≠ .off) (htrip : (s.die d).power.tripped = true) :
    exec (.thermalTrip d true) s = .next s :=
  ((if_neg hon).trans (if_pos rfl)).trans (if_pos htrip)

theorem exec_thermalTrip_cool (hon : (s.die d).dev ≠ .off) (htrip : (s.die d).power.tripped = true) :
    exec (.thermalTrip d false) s =
      .next (s.onDie d fun y => { y with power.tripped := false, power.inReset := false }) :=
  ((if_neg hon).trans (if_neg Bool.false_ne_true)).trans (if_pos htrip)

theorem exec_thermalTrip_cool_untripped (htrip : (s.die d).power.tripped = false) :
    exec (.thermalTrip d false) s = .next s := by
  by_cases hoff : (s.die d).dev = .off
  · exact exec_thermalTrip_off hoff false
  · exact ((if_neg hoff).trans (if_neg Bool.false_ne_true)).trans (if_neg (by rw [htrip]; decide))

end

/-! ### Leaving reset (R563, R568) -/

/-- The core domains of a die leave reset, with RESET_n of its memory, unless a trip holds them. -/
def Die.leftReset (x : Die) : Die :=
  if x.power.tripped then x
  else { x with power.inReset := false, dram.resetLow := x.dram.resetLow && !x.power.pllLock }

/-- A die whose root PLL has locked, its local time starting over. -/
def Die.locked (x : Die) : Die := { x with power.pllLock := true, power.refOk := true, time := 0 }

/-- Whether a die does not stand in the way of leaving reset. -/
def Die.lockedOrOff (x : Die) : Bool := x.power.pllLock || decide (x.dev = .off)

section
variable {s : State} {d : DieId}

theorem leaveReset_waits (h : (s.die d).lockedOrOff = false) : leaveReset s = s := by
  refine if_pos ?_
  change (!s.a.lockedOrOff || !s.b.lockedOrOff) = true
  cases d
  · rw [show s.a.lockedOrOff = false from h]; rfl
  · rw [show s.b.lockedOrOff = false from h, Bool.not_false, Bool.or_true]

/-- Dies that may leave reset do so together; whether the bridge then trains does not touch the rest. -/
theorem die_leaveReset (h : (s.die d).lockedOrOff = true) (h' : (s.die d.other).lockedOrOff = true) (e : DieId) :
    ∃ up, (leaveReset s).die e = { (s.die e).leftReset with id := e, pair.bridgeUp := up } := by
  have hboth : ¬(!s.a.lockedOrOff || !s.b.lockedOrOff) = true := by
    cases d
    · rw [show s.a.lockedOrOff = true from h, show s.b.lockedOrOff = true from h']; decide
    · rw [show s.a.lockedOrOff = true from h', show s.b.lockedOrOff = true from h]; decide
  unfold leaveReset
  dsimp only
  split
  next hwait => exact absurd hwait hboth
  next =>
    split
    · exact ⟨true, by rw [State.die_onBoth, State.die_onBoth]; rfl⟩
    · exact ⟨(s.die e).leftReset.pair.bridgeUp, by rw [State.die_onBoth]; rfl⟩

theorem Die.leftReset_of_untripped {x : Die} (h : x.power.tripped = false) : x.leftReset =
    { x with power.inReset := false, dram.resetLow := x.dram.resetLow && !x.power.pllLock } :=
  if_neg (by rw [h]; decide)

theorem Die.leftReset_locked {x : Die} (h : x.power.tripped = false) :
    x.locked.leftReset = { x.locked with power.inReset := false, dram.resetLow := false } := by
  rw [Die.leftReset_of_untripped (x := x.locked) h]
  simp [Die.locked]

theorem exec_rootPllLock_locks (hin : (s.die d).resetting = true) (htrip : (s.die d).power.tripped = false) :
    exec (.rootPllLock d) s = .next (leaveReset (s.onDie d Die.locked)) :=
  if_neg (by rw [hin, htrip]; decide)

/-- A lock whose partner stands in the way waits for it. -/
theorem leaveReset_locked_waits (h : (s.die d.other).lockedOrOff = false) :
    leaveReset (s.onDie d Die.locked) = s.onDie d Die.locked :=
  leaveReset_waits (d := d.other) (by rw [State.die_other_onDie]; exact h)

/-- A lock whose partner may leave reset takes both dies out of it. -/
theorem die_leaveReset_locked (h : (s.die d.other).lockedOrOff = true) (htrip : (s.die d).power.tripped = false) :
    (∃ up, (leaveReset (s.onDie d Die.locked)).die d = { (s.die d).locked with
      id := d, power.inReset := false, dram.resetLow := false, pair.bridgeUp := up }) ∧
    ∃ up, (leaveReset (s.onDie d Die.locked)).die d.other =
      { (s.die d.other).leftReset with id := d.other, pair.bridgeUp := up } := by
  have hout := die_leaveReset (s := s.onDie d Die.locked) (d := d) (by rw [State.die_onDie]; rfl)
    (by rw [State.die_other_onDie]; exact h)
  refine ⟨(hout d).imp fun up hd => ?_, (hout d.other).imp fun up ho => ?_⟩
  · have hleft := Die.leftReset_locked (x := { s.die d with id := d }) htrip
    rw [hd, State.die_onDie]
    exact congrArg (fun y : Die => { y with id := d, pair.bridgeUp := up }) hleft
  · rw [ho, State.die_other_onDie]

end

/-- Settles O55: each source is a reset of one die, of the package, or neither, and those leave what their definitions
keep. -/
theorem resetsLeaveTheStatedState : Obligations.ResetsLeaveTheStatedState := by
  unfold Obligations.ResetsLeaveTheStatedState
  intro s d x p alone both off
  have halone : ∀ code, ¬ off → alone code (resetAlone s d code) := by
    intro code hon
    obtain ⟨sync, hd⟩ := die_resetAlone hon code
    have ho := die_other_resetAlone hon code
    obtain ⟨hregs, hdram, hpower, hdev⟩ := keepMirror_keeps x p
    have hcause := resetDie_cause code x
    dsimp only [alone]
    rw [hd, ho]
    refine ⟨rfl, rfl, rfl, rfl, fun hout => hcause.trans (by rw [hout]; rfl), fun hin => hcause.trans (by rw [hin]; rfl),
      rfl, rfl, rfl, rfl, rfl, rfl, rfl, rfl, rfl, rfl, rfl, rfl, rfl, rfl, rfl, hregs, hdram, hpower, hdev,
      fun hother => ?_, fun hmode hrole hsync => ?_⟩
    · have hjobs := congrArg Die.jobs (keepMirror_of_other hother x)
      exact hjobs
    · have hjobs := congrArg Die.jobs (keepMirror_of_standby hmode hrole hsync x)
      exact hjobs
  have hboth : ∀ code, both code (resetPackage s code) := by
    intro code e hon
    have hcause := resetDie_cause code (s.die e)
    rw [die_resetPackage hon]
    exact ⟨rfl, rfl, rfl, rfl, rfl, rfl, rfl, rfl, fun hout => hcause.trans (by rw [hout]; rfl)⟩
  refine ⟨fun hon => ⟨⟨_, rfl, halone 3 hon⟩, ⟨_, rfl, halone 4 hon⟩, ⟨_, rfl, halone 5 hon⟩,
      congrArg Host.Outcome.next (if_pos hon)⟩, fun hoff => ?_, ⟨_, rfl, hboth 2⟩, fun hin => ?_, fun hout => ?_, rfl,
    fun hnone => ?_, fun scope since reply hdue => ⟨fun hheld hearly => ?_, fun hready hon => ?_⟩, fun hon htrip => ?_,
    fun hon htrip => ⟨?_, ?_⟩, fun hidle => ?_, fun hoff => ⟨?_, fun r hr => ?_⟩, fun hidle => ?_, fun hin htrip => ?_⟩
  · refine ⟨_, exec_powerOn_off hoff, ?_⟩
    rw [State.die_onDie_onDie_other]
    exact ⟨rfl, rfl, rfl, rfl, rfl⟩
  · refine ⟨_, exec_powerOff_resetting hin, ?_⟩
    rw [State.die_onDie]
    exact ⟨rfl, rfl, rfl, State.die_other_onDie s d _⟩
  · exact nextOn_congr (if_neg (by rw [show (s.die d).resetting = false from hout]; decide))
  · exact exec_resetDeviceBegin_none hnone
  · exact (exec_resetDeviceBegin_due hdue).trans
      (if_pos (Bool.and_eq_true_iff.2 ⟨hheld, decide_eq_true hearly⟩))
  · have hdone := (exec_resetDeviceBegin_due hdue).trans (if_neg fun hwait => by
      obtain ⟨hheld, hearly⟩ := Bool.and_eq_true_iff.1 hwait
      rcases hready with hgone | hlate
      · exact Bool.false_ne_true (hgone.symm.trans hheld)
      · exact absurd (of_decide_eq_true hearly) (Nat.not_lt.2 hlate))
    by_cases hdie : scope = 0
    · exact ⟨_, hdone.trans (if_pos hdie), fun _ => halone 6 hon, fun h => by omega, fun h => by omega⟩
    · by_cases hpackage : scope = 1
      · exact ⟨_, hdone.trans ((if_neg hdie).trans (if_pos hpackage)), fun h => by omega, fun _ => hboth 7, fun h => by omega⟩
      · exact ⟨_, hdone.trans ((if_neg hdie).trans (if_neg hpackage)), fun h => by omega, fun h => by omega,
          fun _ => halone 8 hon⟩
  · obtain ⟨sync, hd⟩ := die_resetAlone hon 9
    have hcause := resetDie_cause 9 x
    refine ⟨_, exec_thermalTrip_hot hon htrip, ?_⟩
    rw [State.die_onDie, hd]
    exact ⟨rfl, rfl, rfl, fun hout => hcause.trans (by rw [hout]; rfl), rfl⟩
  · exact exec_thermalTrip_stillHot hon htrip
  · exact exec_thermalTrip_cool hon htrip
  · rcases hidle with hoff | htrip
    · exact exec_thermalTrip_off hoff false
    · exact exec_thermalTrip_cool_untripped htrip
  · exact exec_thermalTrip_off hoff true
  · simp only [List.mem_cons, List.not_mem_nil, or_false] at hr
    rcases hr with rfl | rfl | rfl
    · exact congrArg Host.Outcome.next (resetAlone_off hoff 3)
    · exact congrArg Host.Outcome.next (resetAlone_off hoff 4)
    · exact congrArg Host.Outcome.next (resetAlone_off hoff 5)
  · refine if_pos (Bool.or_eq_true_iff.2 (hidle.imp_left fun hout => ?_))
    rw [show (s.die d).resetting = false from hout]
    rfl
  · refine ⟨_, exec_rootPllLock_locks hin htrip, ?_⟩
    cases hp : (s.die d.other).lockedOrOff
    case false =>
      obtain ⟨hlock, hon⟩ := Bool.or_eq_false_iff.1 hp
      rw [leaveReset_locked_waits hp, State.die_onDie]
      refine ⟨rfl, rfl, rfl, fun hother => ?_, fun _ _ => ⟨rfl, rfl⟩⟩
      rcases hother with hl | ho
      · exact absurd (hlock.symm.trans hl) Bool.false_ne_true
      · exact absurd ho (of_decide_eq_false hon)
    case true =>
      obtain ⟨⟨up, hd⟩, up', ho⟩ := die_leaveReset_locked hp htrip
      rw [hd, ho]
      refine ⟨rfl, rfl, rfl, fun _ => ⟨rfl, rfl, fun hcool => ?_⟩, fun hlock hon => ?_⟩
      · rw [Die.leftReset_of_untripped hcool]
      · rcases Bool.or_eq_true_iff.1 hp with hl | hoff
        · exact absurd (hlock.symm.trans hl) Bool.false_ne_true
        · exact absurd (of_decide_eq_true hoff) hon

end Sys2Proof.Machine
end

section
/-! PROOFS. What a shader instruction leaves that changes its group alone, or its group and the die's numeric counters
(R129, R130, R165). -/
namespace Sys2Proof.Machine

/-! ### The wait counter is no operand -/

theorem Group.putResult_wait (t : Group) (n ty : Nat) (w : InstrBits) (f : Nat → Nat) :
    ({ t with wait := n } : Group).putResult ty w f = { t.putResult ty w f with wait := n } := by
  unfold Group.putResult
  split
  · exact t.putPair_wait n _ _ _
  · exact t.putLanes_wait n _ _ _

@[simp] theorem Group.pc_putResult (t : Group) (ty : Nat) (w : InstrBits) (f : Nat → Nat) :
    (t.putResult ty w f).pc = t.pc := by
  unfold Group.putResult
  split <;> rfl

/-! ### Instructions that run -/

section
variable {s : State} {d : DieId} {g : GrpLoc} {port : Port} {t : Group} {w : InstrBits} {plan : Group → Plan}

/-- An instruction that may run and brings its die to `y` and its group to `u`. -/
theorem onGroup_acts (h : groupReady s d g port t = true) {q : Plan} (hp : planRuns t w q = true) {cls op : Nat}
    (hq : plan t = q) {act : Die → Group → Die} {y : Die} {u : Group}
    (hact : act (atIssue s d port t) { t with wait := 0 } = settleGroup y { u with wait := 0, pc := t.pc + 8 }) :
    onGroup d g cls op port w plan act s = .next (onward s d y t u) := by
  subst hq
  rw [onGroup_runs s d g cls op port w plan act t h hp, hact, onward]

/-- An instruction that changes its group alone. -/
theorem onGroup_simple (h : groupReady s d g port t = true) {q : Plan} (hp : planRuns t w q = true) {cls op : Nat}
    (hq : plan t = q) {f : Group → Group} {u : Group}
    (hf : (f { t with wait := 0 }).next = { u with wait := 0, pc := t.pc + 8 }) :
    onGroup d g cls op port w plan (simple f) s = .next (goesOn s d port t u) :=
  onGroup_acts h hp hq (congrArg (settleGroup (atIssue s d port t)) hf)

/-- A conversion: the group takes the results, and their events count in its status and on the die (R129). -/
theorem onGroup_convAct (h : groupReady s d g port t = true) {q : Plan} (hp : planRuns t w q = true) {cls op : Nat}
    (hq : plan t = q) {conv : Group → Nat → Conv} {put : Group → (Nat → Nat) → Group} {f : Nat → Conv} {u : Group}
    (hconv : conv { t with wait := 0 } = f) (hput : put { t with wait := 0 } (fun i => (f i).bits) = { u with wait := 0 })
    (hpc : u.pc = t.pc) :
    onGroup d g cls op port w plan (convAct w conv put) s = .next (onward s d
      ((atIssue s d port t).countEvents (convEvents ((threadsOf (t.selected w)).map f))) t
      (u.raise (convEvents ((threadsOf (t.selected w)).map f)))) := by
  refine onGroup_acts h hp hq ?_
  rw [convAct, simple, hconv, hput, ← hpc]
  rfl

end

end Sys2Proof.Machine
end

section
/-! PROOFS. O36: floating-point arithmetic on FP32 words and binary16 pairs (R107 to R110, R165 to R167, R169). -/
namespace Sys2Proof.Machine

section
variable {s : State} {d : DieId} {g : GrpLoc} {t : Group} {w : InstrBits} {half : Bool}

/-- What a row of class 0x2 or 0x3 leaves of its group: its function of the threads' operands, in the selected threads. -/
def Group.putFloat (t : Group) (w : InstrBits) (half : Bool) (run : FFmt → List Nat → Nat) (vs : Nat → List Nat) : Group :=
  t.putLanes (t.selected w) (wDst w) fun i => BitVec.ofNat 32 (perHalf half run (vs i))

theorem aluFloat2_runs (h : groupReady s d g .alu t = true) (f : FFmt → FVal → FVal → Nat)
    (hp : planRuns t w (Plan.alu (badFloat half w false true false)
      ([(wDst w, 1), (wSrc0 w, 1)] ++ (if isI w then [] else [(wSrc1 w, 1)]))) = true) (op : Nat) :
    aluFloat2 d g half op w f s = .next (goesOn s d .alu t (t.putFloat w half
      (fun fm vs => f fm (readFloat fm (vs.getD 0 0)) (readFloat fm (vs.getD 1 0)))
      fun i => [(t.lane (wSrc0 w) i).toNat, floatSrc1 w t i])) :=
  onGroup_simple h hp rfl rfl

/-- A wrong encoding freezes the group (R167). -/
theorem aluFloat2_stops (h : groupReady s d g .alu t = true) (f : FFmt → FVal → FVal → Nat)
    (hbad : badFloat half w false true false = true ∨ predLegal w = false) (hfree : t.awaited = []) (op : Nat) :
    aluFloat2 d g half op w f s = .next (s.setDie d
      (trapGroup (fetched s d t) t clsBadInstruction 0 (instrWord (floatClass half) op w))) :=
  (onGroup_stops s d g _ op .alu w _ _ t h (by simp [Group.busy, hfree]) rfl).1 hbad

theorem aluFloat1_runs (h : groupReady s d g .alu t = true) (f : FFmt → FVal → Nat)
    (hp : planRuns t w (Plan.alu (badFloat half w false false false) [(wDst w, 1), (wSrc0 w, 1)]) = true) (op : Nat) :
    aluFloat1 d g half op w f s = .next (goesOn s d .alu t (t.putFloat w half
      (fun fm vs => f fm (readFloat fm (vs.getD 0 0))) fun i => [(t.lane (wSrc0 w) i).toNat])) :=
  onGroup_simple h hp rfl rfl

theorem aluApprox_runs (h : groupReady s d g .alu t = true)
    (hp : planRuns t w (Plan.alu (!isR w || !(wTypeR w == 4 || wTypeR w == 5) || wModeR w != 0 || wLow w != 0 ||
      wSrc1 w != 0 || wSrc2 w != 0) [(wDst w, 1), (wSrc0 w, 1)]) = true) (op : Nat) :
    aluApprox d g op w s = .next (goesOn s d .alu t (t.putFloat w (wTypeR w == 5)
      (fun fm vs => approxBits fm op (vs.getD 0 0)) fun i => [(t.lane (wSrc0 w) i).toNat])) :=
  onGroup_simple h hp rfl rfl

end

/-- Settles O36. That FABS and FNEG flush subnormals, and what the approximations answer in special cases, is log 51; which
value within R110's bounds they answer is log 52. -/
theorem floatInstructions : Obligations.FloatInstructions := by
  unfold Obligations.FloatInstructions
  intro s d g w t half h each src
  refine ⟨fun c f hc hp => ?_, fun op c hc hbad hfree => ?_, fun hp => ?_, fun hp => ⟨?_, ?_⟩, fun c code hc hp => ?_⟩
  · simp only [List.mem_cons, Prod.mk.injEq, List.not_mem_nil, or_false] at hc
    rcases hc with ⟨rfl, rfl⟩ | ⟨rfl, rfl⟩ | ⟨rfl, rfl⟩ | ⟨rfl, rfl⟩ | ⟨rfl, rfl⟩
    case inl => exact aluFloat2_runs h faddBits hp 0
    case inr.inl => exact aluFloat2_runs h (fun fm a b => faddBits fm a b.neg) hp 1
    case inr.inr.inl => exact aluFloat2_runs h fmulBits hp 2
    case inr.inr.inr.inl => exact aluFloat2_runs h (fun fm a b => fminBits fm false a b) hp 4
    case inr.inr.inr.inr => exact aluFloat2_runs h (fun fm a b => fminBits fm true a b) hp 5
  · simp only [List.mem_cons, Prod.mk.injEq, List.not_mem_nil, or_false] at hc
    rcases hc with ⟨rfl, rfl⟩ | ⟨rfl, rfl⟩ | ⟨rfl, rfl⟩ | ⟨rfl, rfl⟩ | ⟨rfl, rfl⟩
    case inl => exact aluFloat2_stops h faddBits hbad hfree 0
    case inr.inl => exact aluFloat2_stops h (fun fm a b => faddBits fm a b.neg) hbad hfree 1
    case inr.inr.inl => exact aluFloat2_stops h fmulBits hbad hfree 2
    case inr.inr.inr.inl => exact aluFloat2_stops h (fun fm a b => fminBits fm false a b) hbad hfree 4
    case inr.inr.inr.inr => exact aluFloat2_stops h (fun fm a b => fminBits fm true a b) hbad hfree 5
  · exact onGroup_simple h hp rfl rfl
  · exact aluFloat1_runs h (fun fm a => a.abs.bits fm) hp 6
  · exact aluFloat1_runs h (fun fm a => a.neg.bits fm) hp 7
  · have hrow : exec c s = aluApprox d g code w s := by
      simp only [List.mem_cons, Prod.mk.injEq, List.not_mem_nil, or_false] at hc
      rcases hc with ⟨rfl, rfl⟩ | ⟨rfl, rfl⟩ | ⟨rfl, rfl⟩ | ⟨rfl, rfl⟩ <;> rfl
    rw [hrow]
    exact aluApprox_runs h hp code

end Sys2Proof.Machine
end

section
/-! PROOFS. O37: conversions, packing and unpacking (R115, R125 to R129, R169). -/
namespace Sys2Proof.Machine

/-! ### Elements of a word (R103) -/

/-- A word with one element replaced: what stood below the element, the new element, and what stood above it. -/
theorem setElem_eq (el : Elem) (k old v : Nat) : setElem el k old v = old % 2 ^ (el.width * k) +
    2 ^ (el.width * k) * (v % 2 ^ el.width + 2 ^ el.width * (old / 2 ^ (el.width * k) / 2 ^ el.width)) := by
  unfold setElem elemAt
  generalize 2 ^ (el.width * k) = p
  generalize 2 ^ el.width = b
  have hold : old = old % p + p * (b * (old / p / b)) + old / p % b * p := by
    calc old = old % p + p * (old / p) := (Nat.mod_add_div old p).symm
      _ = old % p + p * (old / p % b + b * (old / p / b)) := by rw [Nat.mod_add_div (old / p) b]
      _ = _ := by ring
  rw [Nat.sub_eq_of_eq_add hold]
  ring

theorem elemAt_setElem_same (el : Elem) (k old v : Nat) : elemAt el k (setElem el k old v) = v % 2 ^ el.width := by
  have hlow : old % 2 ^ (el.width * k) < 2 ^ (el.width * k) := Nat.mod_lt _ (Nat.two_pow_pos _)
  rw [elemAt, setElem_eq, Nat.add_mul_div_left _ _ (Nat.two_pow_pos _), Nat.div_eq_of_lt hlow, Nat.zero_add,
    Nat.add_mul_mod_self_left, Nat.mod_mod]

/-- Below the replaced element the word is as it was. -/
theorem setElem_mod (el : Elem) (k old v : Nat) :
    setElem el k old v % 2 ^ (el.width * k) = old % 2 ^ (el.width * k) := by
  rw [setElem_eq, Nat.add_mul_mod_self_left, Nat.mod_mod]

/-- Above the replaced element the word is as it was. -/
theorem setElem_div (el : Elem) (k old v : Nat) :
    setElem el k old v / 2 ^ (el.width * (k + 1)) = old / 2 ^ (el.width * (k + 1)) := by
  have hlow : old % 2 ^ (el.width * k) < 2 ^ (el.width * k) := Nat.mod_lt _ (Nat.two_pow_pos _)
  have helem : v % 2 ^ el.width < 2 ^ el.width := Nat.mod_lt _ (Nat.two_pow_pos _)
  rw [Nat.mul_succ, Nat.pow_add, ← Nat.div_div_eq_div_mul, ← Nat.div_div_eq_div_mul, setElem_eq,
    Nat.add_mul_div_left _ _ (Nat.two_pow_pos _), Nat.div_eq_of_lt hlow, Nat.zero_add,
    Nat.add_mul_div_left _ _ (Nat.two_pow_pos _), Nat.div_eq_of_lt helem, Nat.zero_add]

/-- An element below a boundary between elements depends on what stands below the boundary alone. -/
theorem elemAt_mod (el : Elem) {j k : Nat} (h : j < k) (v : Nat) :
    elemAt el j (v % 2 ^ (el.width * k)) = elemAt el j v := by
  have hdvd : 2 ^ el.width ∣ 2 ^ (el.width * k - el.width * j) :=
    Nat.pow_dvd_pow 2 (by rw [← Nat.mul_sub]; exact Nat.le_mul_of_pos_right _ (Nat.sub_pos_of_lt h))
  rw [elemAt, elemAt, ← Nat.add_sub_of_le (Nat.mul_le_mul_left el.width h.le), Nat.pow_add, Nat.mod_mul_right_div_self,
    Nat.mod_mod_of_dvd _ hdvd]

/-- An element above a boundary between elements is an element of what stands above the boundary. -/
theorem elemAt_add (el : Elem) (k i v : Nat) : elemAt el (k + i) v = elemAt el i (v / 2 ^ (el.width * k)) := by
  rw [elemAt, elemAt, Nat.mul_add, Nat.pow_add, Nat.div_div_eq_div_mul]

theorem elemAt_setElem_ne (el : Elem) {j k : Nat} (h : j ≠ k) (old v : Nat) :
    elemAt el j (setElem el k old v) = elemAt el j old := by
  rcases Nat.lt_or_gt_of_ne h with hlt | hgt
  · rw [← elemAt_mod el hlt, setElem_mod, elemAt_mod el hlt]
  · obtain ⟨i, rfl⟩ := Nat.exists_eq_add_of_lt hgt
    rw [Nat.add_right_comm, elemAt_add, setElem_div, ← elemAt_add]

/-! ### The rows -/

/-- Settles O37: each row is a conversion per selected thread, and a replaced element stands between what it keeps. -/
theorem conversionInstructions : Obligations.ConversionInstructions := by
  unfold Obligations.ConversionInstructions
  intro s d g w t h m y counts done
  refine ⟨fun hp => ?_, fun hp => ?_, fun hp => ?_, fun hp => ?_, fun el k j old v _ _ _ => ?_⟩
  · exact onGroup_convAct h hp rfl rfl (t.putResult_wait 0 _ w _) (t.pc_putResult _ w _)
  · exact onGroup_convAct h hp rfl rfl (t.putLanes_wait 0 _ _ _) rfl
  · exact onGroup_convAct h hp rfl rfl (t.putLanes_wait 0 _ _ _) rfl
  · exact onGroup_convAct h hp rfl rfl (t.putLanes_wait 0 _ _ _) rfl
  · split
    case isTrue hjk => rw [hjk, elemAt_setElem_same]
    case isFalse hjk => exact elemAt_setElem_ne el hjk old v

end Sys2Proof.Machine
end

section
/-! PROOFS. O41: matrix instructions and their accumulators (R105, R116 to R124, R172 to R185, R194 to R198). -/
namespace Sys2Proof.Machine

/-! ### Grids written row by row -/

/-- A grid of `a` rows and `b` columns, row after row. -/
def rowMajor {α : Type} (a b : Nat) (f : Nat → Nat → α) : List α :=
  ((List.range a).map fun m => (List.range b).map fun n => f m n).flatten

theorem rowMajor_succ {α : Type} (a b : Nat) (f : Nat → Nat → α) :
    rowMajor (a + 1) b f = rowMajor a b f ++ (List.range b).map fun n => f a n := by
  simp [rowMajor, List.range_succ]

@[simp] theorem length_rowMajor {α : Type} (a b : Nat) (f : Nat → Nat → α) : (rowMajor a b f).length = b * a := by
  induction a with
  | zero => rfl
  | succ a ih => simp [rowMajor_succ, ih, Nat.mul_succ]

theorem getElem?_rowMajor {α : Type} {a b m n : Nat} (f : Nat → Nat → α) (hm : m < a) (hn : n < b) :
    (rowMajor a b f)[b * m + n]? = some (f m n) := by
  induction a with
  | zero => exact absurd hm (Nat.not_lt_zero m)
  | succ a ih =>
    rw [rowMajor_succ]
    rcases Nat.lt_succ_iff_lt_or_eq.1 hm with hlt | rfl
    · have hlen : b * m + n < b * a := calc
        b * m + n < b * (m + 1) := Nat.add_lt_add_left hn _
        _ ≤ b * a := Nat.mul_le_mul_left b hlt
      rw [List.getElem?_append_left (by simpa using hlen), ih hlt]
    · rw [List.getElem?_append_right (by simp)]
      simp [hn]

/-! ### Runs of a list that are written one after another -/

section
variable {α : Type} (f : Nat → α) (base : Nat) (l : List α)

/-- A list with `n` elements from `base` on written anew. -/
def setRun (n : Nat) : List α := (List.range n).foldl (fun l i => l.set (base + i) (f i)) l

theorem setRun_succ (n : Nat) : setRun f base l (n + 1) = (setRun f base l n).set (base + n) (f n) := by
  simp [setRun, List.range_succ]

@[simp] theorem length_setRun (n : Nat) : (setRun f base l n).length = l.length := by
  induction n with
  | zero => rfl
  | succ n ih => rw [setRun_succ, List.length_set, ih]

theorem getElem?_setRun_outside {n k : Nat} (h : k < base ∨ base + n ≤ k) : (setRun f base l n)[k]? = l[k]? := by
  induction n with
  | zero => rfl
  | succ n ih => rw [setRun_succ, List.getElem?_set_ne (by omega), ih (by omega)]

theorem getElem?_setRun_inside {n i : Nat} (hi : i < n) (hlen : base + n ≤ l.length) :
    (setRun f base l n)[base + i]? = some (f i) := by
  induction n with
  | zero => exact absurd hi (Nat.not_lt_zero i)
  | succ n ih =>
    rw [setRun_succ]
    rcases Nat.lt_succ_iff_lt_or_eq.1 hi with hlt | rfl
    · rw [List.getElem?_set_ne (by omega), ih hlt (by omega)]
    · exact List.getElem?_set_self (by rw [length_setRun]; omega)

end

/-! ### Accumulator tiles (R177) -/

section
variable (t : Group)

/-- A tile's words as the lanes of its register `i`. -/
def tileLanes (ws : List Nat) (i : Nat) : Lanes := Vector.ofFn fun k : Fin 64 => BitVec.ofNat 32 (ws.getD (64 * i + k.val) 0)

theorem Group.accs_putTile (base : Nat) (ws : List Nat) :
    (t.putTile base ws).accs = setRun (tileLanes ws) base t.accs 4 := rfl

/-- The words of a tile, row by row. -/
theorem Group.accWord_putTile {base m n : Nat} (hm : m < 16) (hn : n < 16) (hbase : base + 4 ≤ t.accs.length)
    (ws : List Nat) : (t.putTile base ws).accWord base m n = BitVec.ofNat 32 (ws.getD (16 * m + n) 0) := by
  have hi : m / 4 < 4 := by omega
  have hk : 16 * (m % 4) + n < 64 := by omega
  have hword : 64 * (m / 4) + (16 * (m % 4) + n) = 16 * m + n := by omega
  have hreg := getElem?_setRun_inside (tileLanes ws) base t.accs hi hbase
  simp [Group.accWord, Group.accs_putTile, List.getD, hreg, tileLanes, hk, hword]

end

/-! ### Multiply-accumulate -/

/-- An element of a result tile, over the free value that stands at its place. -/
def tileElement (t : Group) (w : InstrBits) (r : MmaRow) (free m n : Nat) : Nat × Nat :=
  mmaElement t w r (Config.word (free + 16 * m + n)).toNat m n

theorem mmaTile_fst (t : Group) (w : InstrBits) (r : MmaRow) (free : Nat) :
    (mmaTile t w r free).1 = (rowMajor 16 16 (tileElement t w r free)).map fun e => e.1 := by
  simp only [mmaTile, rowMajor, tileElement]

theorem getD_mmaTile (t : Group) (w : InstrBits) (r : MmaRow) (free : Nat) {m n : Nat} (hm : m < 16) (hn : n < 16) :
    (mmaTile t w r free).1.getD (16 * m + n) 0 = (tileElement t w r free m n).1 := by
  rw [mmaTile_fst, List.getD, List.getElem?_map, getElem?_rowMajor _ hm hn]
  rfl

/-- The numeric events of a multiply-accumulate: those of reading either operand, and its overflows (R115, R123, R124). -/
def mmaEvents (t : Group) (w : InstrBits) (r : MmaRow) (free : Nat) : Events :=
  ((operandEvents t r r.a (mAscaled w) (mA32 w) (wSrc0 w) (mAsc w) (mAj w) (mKhalf w)).plus
    (operandEvents t r r.b (mBscaled w) (mB32 w) (mBreg w) (mBsc w) (mBj w) (mKhalf w))).plus
    { ovf := (mmaTile t w r free).2, sat := 0, nan := 0 }

theorem mmaTile_wait (t : Group) (k : Nat) (w : InstrBits) (r : MmaRow) (free : Nat) :
    mmaTile { t with wait := k } w r free = mmaTile t w r free := rfl

theorem mmaEvents_wait (t : Group) (k : Nat) (w : InstrBits) (r : MmaRow) (free : Nat) :
    mmaEvents { t with wait := k } w r free = mmaEvents t w r free := rfl

/-- The die once it has taken the free values of a tile and counted the MACs (R198). -/
def Die.countMacs (x : Die) (r : MmaRow) : Die :=
  { x with free := x.free + 256, sh.kmac := x.sh.kmac + BitVec.ofNat 64 r.kmac }

@[simp] theorem Die.kmac_countMacs (x : Die) (r : MmaRow) :
    (x.countMacs r).sh.kmac = x.sh.kmac + BitVec.ofNat 64 r.kmac := rfl
@[simp] theorem Die.dram_countMacs (x : Die) (r : MmaRow) : (x.countMacs r).dram = x.dram := rfl
@[simp] theorem Die.regs_countMacs (x : Die) (r : MmaRow) : (x.countMacs r).regs = x.regs := rfl
@[simp] theorem Die.groups_countMacs (x : Die) (r : MmaRow) : (x.countMacs r).sh.groups = x.sh.groups := rfl

theorem mmaAct_eq (op : Nat) (w : InstrBits) (x : Die) (t : Group) : mmaAct op w x t =
    settleGroup (((x.countMacs (mmaRow op)).countEvents (mmaEvents t w (mmaRow op) x.free)).count .mtxMmaCnt)
      ((t.putTile (wDst w) (mmaTile t w (mmaRow op) x.free).1).raise (mmaEvents t w (mmaRow op) x.free)).next := rfl

theorem mmaAct_wait (op : Nat) (w : InstrBits) (x : Die) (t : Group) (k : Nat) : mmaAct op w x { t with wait := k } =
    settleGroup (((x.countMacs (mmaRow op)).countEvents (mmaEvents t w (mmaRow op) x.free)).count .mtxMmaCnt)
      { (t.putTile (wDst w) (mmaTile t w (mmaRow op) x.free).1).raise (mmaEvents t w (mmaRow op) x.free) with
        wait := k, pc := t.pc + 8 } := by
  rw [mmaAct_eq, mmaTile_wait, mmaEvents_wait]
  rfl

section
variable {s : State} {d : DieId} {g : GrpLoc} {t : Group} {w : InstrBits}

theorem aluMma_runs (h : groupReady s d g .mtx t = true) {op : Nat} (hp : planRuns t w (mmaPlan op w) = true) :
    let y := atIssue s d .mtx t
    let r := mmaRow op
    ∃ (ws : List Nat) (ev : Events) (z : Die), aluMma d g op w s =
        .next (onward s d ((z.countEvents ev).count .mtxMmaCnt) t ((t.putTile (wDst w) ws).raise ev)) ∧
      z.sh.kmac = y.sh.kmac + BitVec.ofNat 64 r.kmac ∧ z.dram = y.dram ∧ z.regs = y.regs ∧ z.sh.groups = y.sh.groups ∧
      ∀ m n, m < 16 → n < 16 → ∃ opn, ws.getD (16 * m + n) 0 = (mmaElement t w r opn m n).1 := by
  intro y r
  refine ⟨(mmaTile t w r y.free).1, mmaEvents t w r y.free, y.countMacs r,
    onGroup_acts h hp rfl (mmaAct_wait op w y t 0), y.kmac_countMacs r, y.dram_countMacs r, y.regs_countMacs r,
    y.groups_countMacs r, fun m n hm hn => ?_⟩
  exact ⟨_, getD_mmaTile t w r y.free hm hn⟩

/-- A wrong encoding freezes the group (R182, R185; another PRED is wrong as well, log 147). -/
theorem aluMma_stops (h : groupReady s d g .mtx t = true) {op : Nat} (hfree : t.busy (mmaPlan op w) = false)
    (hbad : mmaBad op w = true) : aluMma d g op w s =
      .next (s.setDie d (trapGroup (fetched s d t) t clsBadInstruction 0 (instrWord 6 op w))) :=
  (onGroup_stops s d g 6 op .mtx w _ _ t h hfree rfl).1 (.inl hbad)

end

/-! ### Products of whole numbers (R105, R118, R120) -/

theorem fragElem_lt (t : Group) (reg row e width : Nat) : fragElem t reg row e width < 2 ^ width :=
  Nat.mod_lt _ (Nat.two_pow_pos _)

theorem operandElem_lt (t : Group) (r : MmaRow) (e : Elem) (reg khalf row k : Nat) :
    operandElem t r (.el e) reg khalf row k < 2 ^ e.width := by
  unfold operandElem
  dsimp only
  split
  case isTrue => exact fragElem_lt _ _ _ _ _
  case isFalse =>
    split
    case isTrue hw => exact hw.1 ▸ fragElem_lt _ _ _ _ _
    case isFalse => exact fragElem_lt _ _ _ _ _

/-- A whole number as an exact value. -/
def FVal.ofInt (i : Int) : FVal := .fin (decide (i < 0)) i.natAbs 0

theorem elemVal_of_isInt {e : Elem} (he : (MmaFmt.el e).isInt = true) {v : Nat} (hv : v < 2 ^ e.width) :
    elemVal e v = .ofInt (signExtend e.width v) := by
  cases e
  case int8 => rw [← Nat.mod_eq_of_lt hv]; exact congrArg (fun u => FVal.ofInt (signExtend 8 u)) (Nat.mod_mod v 256)
  case int4 => rw [← Nat.mod_eq_of_lt hv]; exact congrArg (fun u => FVal.ofInt (signExtend 4 u)) (Nat.mod_mod v 16)
  case fn8 => exact absurd he Bool.false_ne_true
  case fn4 => exact absurd he Bool.false_ne_true

theorem signed_natAbs_mul (x y : Int) :
    signed (decide (x < 0) != decide (y < 0)) (x.natAbs * y.natAbs) = x * y := by
  have hmag : ∀ z : Int, (z.natAbs : Int) = if z < 0 then -z else z := by omega
  rw [signed, Nat.cast_mul, hmag x, hmag y]
  by_cases hx : x < 0
  · by_cases hy : y < 0 <;> simp [hx, hy]
  · by_cases hy : y < 0 <;> simp [hx, hy]

theorem fixed64_ofInt_times (x y : Int) : fixed64 ((FVal.ofInt x).times (.ofInt y)) = x * y * 2 ^ 64 := by
  have hunits : ∀ n m, signed n (m * 2 ^ 64) = signed n m * 2 ^ 64 := by
    intro n m
    cases n <;> simp [signed]
  rw [← signed_natAbs_mul x y, ← hunits]
  simp [FVal.ofInt, FVal.times, fixed64]

theorem isFn_of_isInt : ∀ e : Elem, (MmaFmt.el e).isInt = true → (MmaFmt.el e).isFn = false := by
  intro e
  cases e <;> decide

theorem product_of_isInt {ea eb : Elem} (ha : (MmaFmt.el ea).isInt = true) (hb : (MmaFmt.el eb).isInt = true)
    {a b : Nat} (hav : a < 2 ^ ea.width) (hbv : b < 2 ^ eb.width) :
    product (.el ea) (.el eb) a b = signExtend ea.width a * signExtend eb.width b * 2 ^ 64 := by
  rw [product, isFn_of_isInt ea ha, if_neg Bool.false_ne_true, elemVal_of_isInt ha hav, elemVal_of_isInt hb hbv,
    fixed64_ofInt_times]

/-- In the table of R172 an integer first operand meets an integer second one. -/
theorem isInt_b_of_isInt_a : ∀ r ∈ mmaRows, r.a.isInt = true → r.b.isInt = true := by decide

theorem k_pos_of_mem_mmaRows : ∀ r ∈ mmaRows, 0 < r.k := by decide

theorem intAccumulate_eq_true {r : MmaRow} {w : InstrBits} (h : intAccumulate r w = true) :
    r.a.isInt = true ∧ mAscaled w = false ∧ mBscaled w = false := by
  simpa [intAccumulate, and_assoc] using h

section
variable {t : Group} {w : InstrBits} {r : MmaRow} (hint : intAccumulate r w = true)
include hint

/-- Unscaled operands make one segment (R119). -/
theorem segmentLen_of_intAccumulate : segmentLen r w = r.k := by
  obtain ⟨-, ha, hb⟩ := intAccumulate_eq_true hint
  simp [segmentLen, ha, hb]

/-- The products of a segment of whole numbers, in units of 2^-64. -/
theorem segmentSum_of_intAccumulate {ea eb : Elem} (hea : r.a = .el ea) (heb : r.b = .el eb) (hb : r.b.isInt = true)
    (m n k0 len : Nat) : segmentSum t w r m n k0 len = ((List.range len).map fun i =>
      signExtend ea.width (operandElem t r r.a (wSrc0 w) (mKhalf w) m (k0 + i)) *
      signExtend eb.width (operandElem t r r.b (mBreg w) (mKhalf w) n (k0 + i))).sum * 2 ^ 64 := by
  obtain ⟨ha, hsa, hsb⟩ := intAccumulate_eq_true hint
  rw [hea] at ha
  rw [heb] at hb
  have hprod : ∀ i, product (.el ea) (.el eb) (operandElem t r (.el ea) (wSrc0 w) (mKhalf w) m (k0 + i))
      (operandElem t r (.el eb) (mBreg w) (mKhalf w) n (k0 + i)) = _ := fun i =>
    product_of_isInt ha hb (operandElem_lt t r ea _ _ _ _) (operandElem_lt t r eb _ _ _ _)
  simp [segmentSum, operandExp, hsa, hsb, hea, heb, hprod, List.sum_map_mul_right]

/-- Unscaled integer operands: the saturating sum of the start value and the products (R105, R118). -/
theorem mmaElement_of_intAccumulate (hr : r ∈ mmaRows) {ea eb : Elem} (hea : r.a = .el ea) (heb : r.b = .el eb)
    (opn m n : Nat) :
    mmaElement t w r opn m n =
      let q := intAdd (if mZero w then 0 else (t.accWord (wDst w) m n).toNat) ((List.range r.k).map fun k =>
        signExtend ea.width (operandElem t r r.a (wSrc0 w) (mKhalf w) m k) *
        signExtend eb.width (operandElem t r r.b (mBreg w) (mKhalf w) n k)).sum
      (q.1, if q.2 then 1 else 0) := by
  have hb := isInt_b_of_isInt_a r hr (intAccumulate_eq_true hint).1
  have hone : List.range (r.k / r.k) = [0] := by rw [Nat.div_self (k_pos_of_mem_mmaRows r hr)]; rfl
  simp only [mmaElement, segmentLen_of_intAccumulate hint, hone, List.foldl_cons, List.foldl_nil, hint, if_true,
    segmentSum_of_intAccumulate hint hea heb hb, Nat.zero_mul, Nat.zero_add,
    Int.mul_ediv_cancel _ (show (2 : Int) ^ 64 ≠ 0 by decide)]

end

/-! ### Moves and the numeric status (R124, R181, R183, R194, R195) -/

/-- A register's words as they are loaded into an accumulator in FP32 (R124). -/
def Group.accF32 (t : Group) (r : Nat) : List Conv := (t.regs.getD r zeroLanes).toList.map fun v => readAccF32 v.toNat

def Group.accF32Lanes (t : Group) (r : Nat) : Lanes :=
  Vector.ofFn fun k : Fin 64 => BitVec.ofNat 32 (((t.accF32 r).map fun c => c.bits).getD k.val 0)

theorem Group.getElem_accF32Lanes (t : Group) (r : Nat) (i : Fin 64) :
    (t.accF32Lanes r)[i] = BitVec.ofNat 32 (readAccF32 (t.lane r i.val).toNat).bits := by
  simp [Group.accF32Lanes, Group.accF32, Group.lane, List.getD]

theorem movaF32Act_wait (w : InstrBits) (x : Die) (t : Group) (k : Nat) : movaF32Act w x { t with wait := k } =
    settleGroup (x.countEvents (convEvents (t.accF32 (wSrc0 w))))
      { ({ t with accs := t.accs.set (wDst w) (t.accF32Lanes (wSrc0 w)) } : Group).raise
          (convEvents (t.accF32 (wSrc0 w))) with wait := k, pc := t.pc + 8 } := rfl

/-- MSTAT.RD's WHICH: GSTAT, or one of the three counters. -/
theorem Group.status_eq (t : Group) (which : Nat) : t.status which =
    if which = 0 then t.gstat.setWidth 32 else if which = 1 then t.ovf else if which = 2 then t.sat else t.nan := by
  match which with
  | 0 => rfl
  | 1 => rfl
  | 2 => rfl
  | _ + 3 => rfl

theorem scwAct_of_lt {w : InstrBits} (h : wDst w < 8) (t : Group) : scwAct w t =
    { t with scales := t.scales.set (wDst w) (Vector.ofFn fun k : Fin 64 =>
      BitVec.ofNat 8 ((t.lane (wSrc0 w) (16 * wImm w + k.val / 4)).toNat / 2 ^ (8 * (k.val % 4)))) } := dif_pos h

/-- A run that an instruction names in the accumulators is there when it runs (R167). -/
theorem accs_of_planRuns {t : Group} {w : InstrBits} {q : Plan} (h : planRuns t w q = true) {a n : Nat}
    (hmem : (a, n) ∈ q.accs) : a + n ≤ t.accs.length := by
  simp only [planRuns, Plan.inRange, Bool.and_eq_true, List.all_eq_true, decide_eq_true_eq] at h
  obtain ⟨-, -, haccs⟩ := h
  exact haccs (a, n) hmem

/-- Settles O41. The value over a NaN accumulator is a free value (log 61), and another PRED than 7 is a wrong encoding
(log 147). -/
theorem matrixInstructions : Obligations.MatrixInstructions := by
  unfold Obligations.MatrixInstructions
  intro s d g w t h y go
  refine ⟨fun c op hc => ?_, fun r hr hint opn m n ea eb hea heb => mmaElement_of_intAccumulate hint hr hea heb opn m n,
    fun hp => ?_, fun hp => ⟨?_, ?_⟩, fun hp => ⟨t.putTile (wDst w) [], ?_, fun m n hm hn => ?_, rfl, fun k hk => ?_⟩,
    fun hp hdst => ?_, fun hp => ?_, fun hp => ?_, fun hp => ?_⟩
  · have hrow : exec c s = aluMma d g op w s := by
      simp only [List.mem_cons, Prod.mk.injEq, List.not_mem_nil, or_false] at hc
      rcases hc with ⟨rfl, rfl⟩ | ⟨rfl, rfl⟩ | ⟨rfl, rfl⟩ | ⟨rfl, rfl⟩ | ⟨rfl, rfl⟩ | ⟨rfl, rfl⟩ | ⟨rfl, rfl⟩ | ⟨rfl, rfl⟩ |
        ⟨rfl, rfl⟩ <;> rfl
    rw [hrow]
    exact ⟨aluMma_runs h, aluMma_stops h⟩
  · exact onGroup_simple h hp rfl rfl
  · exact onGroup_simple h hp rfl rfl
  · exact ⟨t.accF32Lanes (wSrc0 w), convEvents (t.accF32 (wSrc0 w)), onGroup_acts h hp rfl (movaF32Act_wait w y t 0),
      t.getElem_accF32Lanes (wSrc0 w)⟩
  · exact onGroup_simple h hp rfl rfl
  · exact t.accWord_putTile hm hn (accs_of_planRuns hp (List.mem_singleton_self _)) []
  · rw [Group.accs_putTile, getElem?_setRun_outside _ _ _ hk]
  · exact onGroup_simple h hp rfl (by rw [scwAct_of_lt hdst]; rfl)
  · exact onGroup_simple h hp rfl rfl
  · simp only [← Group.status_eq]
    exact onGroup_simple h hp rfl rfl
  · exact onGroup_simple h hp rfl rfl

end Sys2Proof.Machine
end

section
/-! PROOFS. O30: what a group reads after a masked write of a register, a register pair or a predicate, and after a load's
values have reached their threads (R133, R138, R165). -/
namespace Sys2Proof.Machine

/-! ### Registers -/

theorem Group.getD_regs_set (t : Group) {r : Nat} (hr : r < t.regs.length) (q : Nat) (v : Lanes) :
    (t.regs.set r v).getD q zeroLanes = if q = r then v else t.regs.getD q zeroLanes := by
  by_cases h : q = r
  · subst h
    rw [if_pos rfl, List.getD_eq_getElem?_getD, List.getElem?_set_self hr, Option.getD_some]
  · rw [if_neg h, List.getD_eq_getElem?_getD, List.getD_eq_getElem?_getD, List.getElem?_set_ne (Ne.symm h)]

theorem Lanes.getD_toList (ls : Lanes) {i : Nat} (hi : i < 64) : ls.toList.getD i 0 = ls[i] := by
  rw [List.getD_eq_getElem _ _ (by simpa using hi), Vector.getElem_toList]

theorem Group.lane_putLanes (t : Group) (m : BitVec 64) {r : Nat} (hr : r < t.regs.length) (f : Nat → Word) (q : Nat)
    {i : Nat} (hi : i < 64) :
    (t.putLanes m r f).lane q i = if q = r ∧ m.getLsbD i = true then f i else t.lane q i := by
  unfold Group.lane Group.putLanes
  rw [t.getD_regs_set hr]
  by_cases hq : q = r
  · subst hq
    simp only [↓reduceIte, true_and, Lanes.getD_toList _ hi]
    rw [maskLanes, Vector.getElem_ofFn]
    rfl
  · simp [hq]

@[simp] theorem Group.length_regs_putLanes (t : Group) (m : BitVec 64) (r : Nat) (f : Nat → Word) :
    (t.putLanes m r f).regs.length = t.regs.length := List.length_set

theorem Group.pair_putPair (t : Group) (m : BitVec 64) {r : Nat} (hr : r + 1 < t.regs.length) (f : Nat → Nat) {i : Nat}
    (hi : i < 64) : (t.putPair m r f).pair r i = if m.getLsbD i = true then f i % 2 ^ 64 else t.pair r i := by
  have hlow : ((t.putPair m r f).lane r i) = if m.getLsbD i = true then BitVec.ofNat 32 (f i) else t.lane r i := by
    rw [Group.putPair, Group.lane_putLanes _ _ (by simpa using hr) _ _ hi, t.lane_putLanes _ (by omega) _ _ hi]
    simp
  have hhigh : ((t.putPair m r f).lane (r + 1) i) =
      if m.getLsbD i = true then BitVec.ofNat 32 (f i / 2 ^ 32) else t.lane (r + 1) i := by
    rw [Group.putPair, Group.lane_putLanes _ _ (by simpa using hr) _ _ hi, t.lane_putLanes _ (by omega) _ _ hi]
    simp
  rw [Group.pair, hlow, hhigh, Group.pair]
  split
  · simp only [BitVec.toNat_ofNat]
    omega
  · rfl

/-! ### Predicates -/

/-- The number whose bits below `n` are given one by one. -/
theorem testBit_foldl_bits (f : Nat → Bool) (n : Nat) :
    (List.range n).foldl (fun v i => if f i then v + 2 ^ i else v) 0 < 2 ^ n ∧
    ∀ i, ((List.range n).foldl (fun v i => if f i then v + 2 ^ i else v) 0).testBit i = (decide (i < n) && f i) := by
  induction n with
  | zero => simp
  | succ n ih =>
    obtain ⟨hlt, hbit⟩ := ih
    have hsucc : ∀ i, (decide (i < n + 1) && f i) = (decide (i < n) && f i || decide (n = i) && f n) := fun i => by
      by_cases h : n = i
      · subst h; simp
      · simp [h, show i < n + 1 ↔ i < n by omega]
    rw [List.range_succ, List.foldl_append, List.foldl_cons, List.foldl_nil]
    split
    case isTrue hf =>
      refine ⟨by omega, fun i => ?_⟩
      rw [Nat.add_comm, ← Nat.mul_one (2 ^ n), Nat.two_pow_add_eq_or_of_lt hlt, Nat.mul_one, Nat.or_comm, Nat.testBit_or,
        Nat.testBit_two_pow, hbit, hsucc, hf, Bool.and_true]
    case isFalse hf =>
      refine ⟨by omega, fun i => ?_⟩
      rw [hbit, hsucc, Bool.eq_false_of_not_eq_true hf, Bool.and_false, Bool.or_false]

theorem Group.getLsbD_predicate_putPred (t : Group) (m : BitVec 64) (f : Nat → Bool) {n : Nat} (hn : n < 7) (k : Nat)
    {i : Nat} (hi : i < 64) : ((t.putPred m n f).predicate k).getLsbD i =
      if k = n ∧ m.getLsbD i = true then f i else (t.predicate k).getLsbD i := by
  obtain ⟨hlt, hbit⟩ := testBit_foldl_bits f 64
  simp only [Group.putPred, dif_pos hn, Group.predicate, List.getD_eq_getElem?_getD, Vector.toList_set, List.getElem?_set]
  by_cases hk : k = n
  · subst hk
    have hold : t.preds.toList[k]? = some t.preds[k] := by simp [hn]
    simp only [hold, ↓reduceIte, Vector.length_toList, hn, Option.getD_some, BitVec.getLsbD_or, BitVec.getLsbD_and,
      BitVec.getLsbD_not, BitVec.getLsbD_ofNat, hbit, hi, true_and]
    cases m.getLsbD i <;> simp
  · simp [hk, Ne.symm hk]

/-! ### Loads -/

theorem mem_threadsOf {m : BitVec 64} {i : Nat} : i ∈ threadsOf m ↔ i < 64 ∧ m.getLsbD i = true := by
  simp [threadsOf]

theorem nodup_threadsOf (m : BitVec 64) : (threadsOf m).Nodup := List.nodup_range.filter _

@[simp] theorem Group.length_regs_setReg (t : Group) (r i : Nat) (v : Word) :
    (t.setReg r i v).regs.length = t.regs.length := List.length_set

theorem Group.lane_setReg (t : Group) {r : Nat} (hr : r < t.regs.length) {i : Nat} (hi : i < 64) (v : Word) {j : Nat}
    (hj : j < 64) : (t.setReg r i v).lane r j = if j = i then v else t.lane r j := by
  unfold Group.lane Group.setReg
  rw [t.getD_regs_set hr, if_pos rfl, Lanes.getD_toList _ hj, Lanes.getD_toList _ hj, setLane, dif_pos hi,
    Vector.getElem_set]
  simp only [eq_comm]
  rfl

/-- Words written to distinct threads of a register, one after another: each thread has its own. -/
theorem Group.lane_foldl_setReg {r : Nat} (ths : List Nat) (hths : ths.Nodup) (hlt : ∀ i ∈ ths, i < 64) (v : Nat → Word)
    (n : Nat) (hn : n ≤ ths.length) (t : Group) (hr : r < t.regs.length) :
    let u := (List.range n).foldl (fun (t : Group) k => t.setReg r (ths.getD k 0) (v k)) t
    u.regs.length = t.regs.length ∧ ∀ k i, k < n → ths[k]? = some i → u.lane r i = v k := by
  induction n with
  | zero => simp
  | succ n ih =>
    obtain ⟨hlen, hlane⟩ := ih (by omega)
    have hget : ths.getD n 0 = ths[n] := List.getD_eq_getElem _ _ hn
    have hlast : ths[n] < 64 := hlt _ (List.getElem_mem _)
    simp only [List.range_succ, List.foldl_append, List.foldl_cons, List.foldl_nil, hget]
    refine ⟨by simpa using hlen, fun k i hk hi => ?_⟩
    obtain ⟨hkl, rfl⟩ := List.getElem?_eq_some_iff.mp hi
    rw [Group.lane_setReg _ (by omega) hlast _ (hlt _ (List.getElem_mem _))]
    by_cases hkn : k = n
    · simp [hkn]
    · rw [if_neg fun h => hkn (hths.getElem_inj_iff.mp h)]
      exact hlane k _ (by omega) hi

theorem Group.lane_takeLoad (t : Group) {l : PendLoad} (hsize : l.size ≤ 4) (hr : l.dst < t.regs.length) {k i : Nat}
    (hk : (threadsOf l.mask)[k]? = some i) :
    (t.takeLoad l).lane l.dst i = extend32 l.signed l.size (ofLe (loadValue l k)) := by
  obtain ⟨hlen, -⟩ := List.getElem?_eq_some_iff.mp hk
  simp only [Group.takeLoad, if_pos hsize]
  exact (Group.lane_foldl_setReg _ (nodup_threadsOf _) (fun j hj => (mem_threadsOf.mp hj).1)
    (fun k => extend32 l.signed l.size (ofLe (loadValue l k))) _ le_rfl t hr).2 k i hlen hk

/-- Settles O30. -/
theorem maskedWritesKeepOtherLanes : Obligations.MaskedWritesKeepOtherLanes := by
  unfold Obligations.MaskedWritesKeepOtherLanes
  intro t m r hr
  refine ⟨fun f q i hi => t.lane_putLanes m hr f q hi, fun f i hi hr1 => t.pair_putPair m hr1 f hi,
    fun f n k i hn hi => t.getLsbD_predicate_putPred m f hn k hi, fun l k i hsize hdst hk => ?_⟩
  subst hdst
  exact t.lane_takeLoad hsize hr hk

end Sys2Proof.Machine
end

section
/-! PROOFS. O34 and O35: integer rows, comparisons and selects of class 0x1 (R165 to R169). -/
namespace Sys2Proof.Machine

/-! ### Groups that wait, and encodings that stop a group -/

/-- Of a ready group, an instruction one of whose registers awaits a load changes nothing (R139, R140). -/
theorem onGroup_busy {s : State} {d : DieId} {g : GrpLoc} {port : Port} {t : Group} {w : InstrBits} {plan : Group → Plan}
    (h : groupReady s d g port t = true) (hb : t.busy (plan t) = true) (cls op : Nat) (act : Die → Group → Die) :
    onGroup d g cls op port w plan act s = .next (s.onDie d id) := by
  simp only [groupReady, Bool.and_eq_true, decide_eq_true_eq] at h
  obtain ⟨⟨⟨hgroup, -⟩, -⟩, -⟩ := h
  simp only [onGroup, nextOn, State.onDie, issueDie, hgroup, hb, Bool.or_true, Bool.true_or, if_true, id]

/-! ### The group at the next instruction, its results written -/

theorem Group.next_putResult_wait (t : Group) (ty : Nat) (w : InstrBits) (f : Nat → Nat) :
    (({ t with wait := 0 } : Group).putResult ty w f).next = { t.putResult ty w f with wait := 0, pc := t.pc + 8 } := by
  rw [t.putResult_wait, Group.next, Group.pc_putResult]

theorem Group.pc_putPred (t : Group) (m : BitVec 64) (n : Nat) (f : Nat → Bool) : (t.putPred m n f).pc = t.pc := by
  unfold Group.putPred
  split <;> rfl

theorem Group.next_putPred_wait (t : Group) (m : BitVec 64) (n : Nat) (f : Nat → Bool) :
    (({ t with wait := 0 } : Group).putPred m n f).next = { t.putPred m n f with wait := 0, pc := t.pc + 8 } := by
  rw [t.putPred_wait, Group.next, Group.pc_putPred]

/-! ### Rows with two sources -/

section
variable {s : State} {d : DieId} {g : GrpLoc} {t : Group} {w : InstrBits}

/-- What a row of class 0x1 with two sources leaves of its group. -/
def Group.putBinary (t : Group) (op : Nat) (w : InstrBits) (f : Nat → Nat → Nat → Nat) : Group :=
  t.putResult (intType op w) w fun i =>
    f (widthOf (intType op w)) (t.operand (intType op w) (wSrc0 w) i) (t.operand1 (intType op w) w i)

/-- An instruction of class 0x1 with two sources that does not run: its group waits, or freezes. -/
def BinaryStops (s : State) (d : DieId) (t : Group) (w : InstrBits) (op : Nat) (o : Out) : Prop :=
  (t.busy (binaryPlan op w) = true → o = .next (s.onDie d id)) ∧
  (t.busy (binaryPlan op w) = false → badBinary w = true ∨ predLegal w = false →
    o = .next (s.setDie d (trapGroup (fetched s d t) t clsBadInstruction 0 (instrWord 1 op w)))) ∧
  (t.busy (binaryPlan op w) = false → badBinary w = false → predLegal w = true → (binaryPlan op w).inRange t = false →
    o = .next (s.setDie d (trapGroup (fetched s d t) t clsRegRange 0 (instrWord 1 op w))))

theorem onGroup_binaryStops (h : groupReady s d g .alu t = true) (op : Nat) (act : Die → Group → Die) :
    BinaryStops s d t w op (onGroup d g 1 op .alu w (fun _ => binaryPlan op w) act s) :=
  ⟨fun hb => onGroup_busy h hb 1 op act,
   fun hb => (onGroup_stops s d g 1 op .alu w (fun _ => binaryPlan op w) act t h hb rfl).1,
   fun hb => (onGroup_stops s d g 1 op .alu w (fun _ => binaryPlan op w) act t h hb rfl).2⟩

theorem binaryAct_next (op : Nat) (w : InstrBits) (f : Nat → Nat → Nat → Nat) (t : Group) :
    (binaryAct op w f { t with wait := 0 }).next = { t.putBinary op w f with wait := 0, pc := t.pc + 8 } :=
  t.next_putResult_wait _ w _

theorem aluBinary_runs (h : groupReady s d g .alu t = true) {op : Nat} (hp : planRuns t w (binaryPlan op w) = true)
    (f : Nat → Nat → Nat → Nat) : aluBinary d g op w f s = .next (goesOn s d .alu t (t.putBinary op w f)) :=
  onGroup_simple h hp rfl (binaryAct_next op w f t)

theorem aluSigned_runs (h : groupReady s d g .alu t = true) {op : Nat} (hp : planRuns t w (binaryPlan op w) = true)
    (f : Bool → Nat → Nat → Nat → Nat) {sg : Bool} (hsg : signedness (intType op w) = some sg) :
    aluSigned d g op w f s = .next (goesOn s d .alu t (t.putBinary op w (f sg))) := by
  refine onGroup_acts h hp rfl ?_
  rw [signedAct, hsg, ← binaryAct_next]
  rfl

/-- A type that does not say whether values are signed leaves the result free. -/
theorem aluSigned_free (h : groupReady s d g .alu t = true) {op : Nat} (hp : planRuns t w (binaryPlan op w) = true)
    (f : Bool → Nat → Nat → Nat → Nat) (hsg : signedness (intType op w) = none) :
    aluSigned d g op w f s = .next (onward s d (atIssue s d .alu t).tick t
      (t.putLanes (t.selected w) (wDst w) (Config.lane (atIssue s d .alu t).free 0))) := by
  refine onGroup_acts h hp rfl ?_
  rw [signedAct, hsg]
  rfl

end

/-- Settles O34. That BAD_INSTRUCTION comes before REG_RANGE is log 148; the type of an I-form instruction is a free value
(log 48), and so is a signed row's result under TYPE 4 or 5 (log 49). -/
theorem integerInstructions : Obligations.IntegerInstructions := by
  unfold Obligations.IntegerInstructions
  intro s d g w t h m plain signedRows runs stops
  refine ⟨fun c op f hc => ?_, fun c op f hc => ?_, fun hp => ?_, fun hp => ?_⟩
  · have hrow : exec c s = aluBinary d g op w f s := by
      simp only [plain, List.mem_cons, Prod.mk.injEq, List.not_mem_nil, or_false] at hc
      rcases hc with ⟨rfl, rfl, rfl⟩ | ⟨rfl, rfl, rfl⟩ | ⟨rfl, rfl, rfl⟩ | ⟨rfl, rfl, rfl⟩ | ⟨rfl, rfl, rfl⟩ |
        ⟨rfl, rfl, rfl⟩ | ⟨rfl, rfl, rfl⟩ <;> rfl
    simp only [runs, stops, hrow]
    exact ⟨fun hp => aluBinary_runs h hp f, onGroup_binaryStops h op _⟩
  · have hrow : exec c s = aluSigned d g op w f s := by
      simp only [signedRows, List.mem_cons, Prod.mk.injEq, List.not_mem_nil, or_false] at hc
      rcases hc with ⟨rfl, rfl, rfl⟩ | ⟨rfl, rfl, rfl⟩ | ⟨rfl, rfl, rfl⟩ | ⟨rfl, rfl, rfl⟩ <;> rfl
    simp only [runs, stops, hrow]
    exact ⟨fun sg hsg hp => aluSigned_runs h hp f hsg, onGroup_binaryStops h op _,
      fun hsg hp => ⟨_, aluSigned_free h hp f hsg⟩⟩
  · exact onGroup_simple h hp rfl (t.next_putResult_wait _ w _)
  · exact onGroup_simple h hp rfl (t.next_putResult_wait _ w _)

/-! ### Comparisons and selects -/

/-- Of the comparisons of floats, "not equal" and "unordered" hold of a NaN, and no other. -/
theorem fcmp_of_isNan {a b : FVal} (h : a.isNan = true ∨ b.isNan = true) (hlt : a.below false b = false)
    (hgt : b.below false a = false) (mode : Nat) : fcmp mode a b = (mode == 1 || decide (5 < mode)) := by
  have hun : (a.isNan || b.isNan) = true := by simpa using h
  match mode with
  | 0 | 1 | 2 | 3 | 4 | 5 => simp [fcmp, hun, hlt, hgt]
  | _ + 6 => simp [fcmp, hun]

theorem FVal.below_nan (a : FVal) : a.below false .nan = false := by cases a <;> rfl

theorem selAct_eq (w : InstrBits) (t : Group) : selAct w t = t.putResult (wTypeR w) w fun i =>
    if (t.predicate (wSrc2 w)).getLsbD i then t.operand (wTypeR w) (wSrc0 w) i
    else t.operand (wTypeR w) (wSrc1 w) i := by
  refine congrArg (t.putResult (wTypeR w) w) (funext fun i => ?_)
  exact apply_ite (fun r => t.operand (wTypeR w) r i) _ _ _

/-- Settles O35. What an order comparison under TYPE 4 or 5 answers is a free value (log 49), and so are the type and mode
of the I form (log 48). -/
theorem compareAndSelectInstructions : Obligations.CompareAndSelectInstructions := by
  unfold Obligations.CompareAndSelectInstructions
  intro s d g w t h m
  refine ⟨fun hp => ⟨fun sg hsg => ?_, fun hsg hmode => ?_, fun hsg hmode =>
      ⟨(Config.dword (atIssue s d .alu t).free).getLsbD, ?_⟩⟩, fun half hp => ?_, fun hp => ?_,
    fun a b => ?_, fun a mode => ⟨?_, ?_⟩⟩
  · refine onGroup_acts h hp rfl ?_
    rw [setpAct, hsg, ← t.next_putPred_wait]
    rfl
  · refine onGroup_acts h hp rfl ?_
    rw [setpAct, hsg, if_pos hmode, ← t.next_putPred_wait]
    rfl
  · refine onGroup_acts h hp rfl ?_
    rw [setpAct, hsg, if_neg (Nat.not_le.mpr hmode), ← t.next_putPred_wait]
    rfl
  · refine onGroup_simple h hp rfl ?_
    rw [← t.next_putPred_wait]
    cases half <;> rfl
  · refine onGroup_simple h hp rfl ?_
    rw [selAct_eq]
    exact t.next_putResult_wait _ w _
  · simp [cmpInt]
  · exact fcmp_of_isNan (.inl rfl) rfl a.below_nan mode
  · exact fcmp_of_isNan (.inr rfl) a.below_nan rfl mode

end Sys2Proof.Machine
end

section
/-! PROOFS. O33: special registers, lanes, masks and predicate operations (R136, R168, R169). -/
namespace Sys2Proof.Machine

section
variable {s : State} {d : DieId} {g : GrpLoc} {t : Group} {w : InstrBits}

/-- MOVS of a special register other than the two halves of TIME. -/
theorem execMovs_special (h : groupReady s d g .alu t = true)
    (hp : planRuns t w (Plan.alu (!isI w || wSrc0 w != 0 || decide (7 < wImm w)) [(wDst w, 1)]) = true)
    {code : Nat} (hcode : wImm w = code) (hlt : code < 6) :
    execMovs d g w s = .next (goesOn s d .alu t (t.putLanes (t.selected w) (wDst w) fun i =>
      BitVec.ofNat 32 (specialReg (fetched s d t).id t code i))) := by
  subst hcode
  refine onGroup_acts h hp rfl ?_
  rw [movsAct, if_neg (by omega), if_neg (by omega)]
  rfl

theorem execMovs_timeLo (h : groupReady s d g .alu t = true)
    (hp : planRuns t w (Plan.alu (!isI w || wSrc0 w != 0 || decide (7 < wImm w)) [(wDst w, 1)]) = true)
    (hcode : wImm w = 6) :
    execMovs d g w s = .next (goesOn s d .alu t
      { t.putLanes (t.selected w) (wDst w) (fun _ => (fetched s d t).time.setWidth 32) with
        timeHi := ((fetched s d t).time >>> 32).setWidth 32 }) := by
  refine onGroup_acts h hp rfl ?_
  rw [movsAct, if_pos hcode]
  rfl

theorem execMovs_timeHi (h : groupReady s d g .alu t = true)
    (hp : planRuns t w (Plan.alu (!isI w || wSrc0 w != 0 || decide (7 < wImm w)) [(wDst w, 1)]) = true)
    (hcode : wImm w = 7) :
    execMovs d g w s = .next (goesOn s d .alu t (t.putLanes (t.selected w) (wDst w) fun _ => t.timeHi)) := by
  refine onGroup_acts h hp rfl ?_
  rw [movsAct, if_neg (by omega), if_pos hcode]
  rfl

end

/-- The result of PLOP under its four modes. -/
theorem plopAct_eq {w : InstrBits} {t : Group} {v : BitVec 64}
    (h : (wModeR w, v) ∈ [(0, t.predicate (wSrc0 w) &&& t.predicate (wSrc1 w)),
      (1, t.predicate (wSrc0 w) ||| t.predicate (wSrc1 w)), (2, t.predicate (wSrc0 w) ^^^ t.predicate (wSrc1 w)),
      (3, t.predicate (wSrc0 w) &&& ~~~t.predicate (wSrc1 w))]) :
    plopAct w t = t.putPred (t.selected w) (wDst w) v.getLsbD := by
  simp only [List.mem_cons, Prod.mk.injEq, List.not_mem_nil, or_false] at h
  rcases h with ⟨hm, rfl⟩ | ⟨hm, rfl⟩ | ⟨hm, rfl⟩ | ⟨hm, rfl⟩ <;>
    simp only [plopAct, hm]

/-- Settles O33. A code of MOVS above 7 freezes the group, which is the model's choice (log 146). -/
theorem laneAndMaskInstructions : Obligations.LaneAndMaskInstructions := by
  unfold Obligations.LaneAndMaskInstructions
  intro s d g w t h m dst
  refine ⟨fun hb hcode => ?_, fun hp => ?_, fun hp => ?_, fun hp => ⟨?_, ?_⟩, fun hp => ?_, fun hp => ?_⟩
  · refine (onGroup_stops s d g 0xC 0 .alu w _ _ t h hb rfl).1 (.inl ?_)
    simp [Plan.alu, hcode]
  · have special := fun (code : Nat) hc hlt => execMovs_special (g := g) (code := code) h hp hc hlt
    refine ⟨fun hc => special 0 hc (by decide), fun hc => special 1 hc (by decide), fun hc => special 2 hc (by decide),
      fun hc => special 3 hc (by decide), fun hc => special 4 hc (by decide), fun hc hid => ?_,
      execMovs_timeLo h hp, execMovs_timeHi h hp⟩
    have hplace := special 5 hc (by decide)
    rw [hid] at hplace
    exact hplace
  · exact onGroup_simple h hp rfl rfl
  · exact onGroup_simple h hp rfl rfl
  · exact onGroup_simple h hp rfl rfl
  · exact onGroup_simple h hp rfl rfl
  · intro a b mode v hv hmode
    subst hmode
    refine onGroup_simple h hp rfl ?_
    rw [plopAct_eq (t := { t with wait := 0 }) hv]
    exact t.next_putPred_wait _ _ _

end Sys2Proof.Machine
end

section
/-! PROOFS. O32: branches, calls, ends and barriers (R145 to R150, R169, R332). -/
namespace Sys2Proof.Machine

/-! ### Threads that an instruction selects (R165) -/

theorem Group.selected_eq_and (t : Group) (w : InstrBits) : ∃ q, t.selected w = t.active &&& q := by
  unfold Group.selected
  split
  · exact ⟨t.active, BitVec.and_self.symm⟩
  · exact ⟨_, rfl⟩

/-- No active thread is left over where the instruction selects every one. -/
theorem Group.unselected_eq_zero_iff (t : Group) (w : InstrBits) :
    t.active &&& ~~~(t.selected w) = 0 ↔ t.selected w = t.active := by
  obtain ⟨q, hq⟩ := t.selected_eq_and w
  constructor
  · intro h
    rw [hq] at h ⊢
    refine BitVec.eq_of_getLsbD_eq fun i hi => ?_
    have hi' := congrArg (·.getLsbD i) h
    simp only [BitVec.getLsbD_and, BitVec.getLsbD_not, hi, decide_true, Bool.true_and, BitVec.ofNat_eq_ofNat,
      BitVec.getLsbD_zero] at hi' ⊢
    revert hi'
    cases t.active.getLsbD i <;> cases q.getLsbD i <;> simp
  · intro h
    rw [h]
    exact BitVec.and_not_self _

/-! ### Barriers -/

/-- Threads of the group stand parked at a barrier from another address. -/
def Group.apart (t : Group) (b : Fin 9) : Prop :=
  (t.arrivals[b]).mixed = true ∨ (t.arrivals[b]).mask ≠ 0 ∧ (t.arrivals[b]).pc ≠ t.pc

theorem Group.mixed_park (t : Group) (b : Fin 9) : ((t.park b).arrivals[b]).mixed = true ↔ t.apart b := by
  simp [Group.park, Group.apart, vmod]

/-- The selected threads of a group parked at a barrier; the others stand at the next instruction. -/
def Group.parkSelected (t : Group) (b : Fin 9) (w : InstrBits) : Group :=
  { ({ t with active := t.selected w } : Group).park b with
    active := t.active &&& ~~~(t.selected w), pc := if t.active &&& ~~~(t.selected w) = 0 then t.pc else t.pc + 8 }

theorem Group.mixed_parkSelected (t : Group) (b : Fin 9) (w : InstrBits) :
    ((t.parkSelected b w).arrivals[b]).mixed = true ↔ t.apart b :=
  Group.mixed_park { t with active := t.selected w } b

/-- Where every active thread parks, the group stays at the instruction. -/
theorem Group.parkSelected_of_all {t : Group} {w : InstrBits} (h : t.selected w = t.active) (b : Fin 9) :
    t.parkSelected b w = t.park b := by
  have hrest := (t.unselected_eq_zero_iff w).mpr h
  rw [Group.parkSelected, if_pos hrest, hrest, h]
  rfl

theorem Group.pc_parkSelected_of_some {t : Group} {w : InstrBits} (h : t.selected w ≠ t.active) (b : Fin 9) :
    (t.parkSelected b w).pc = t.pc + 8 :=
  if_neg (mt (t.unselected_eq_zero_iff w).mp h)

theorem parkAt_of_none {t : Group} {w : InstrBits} (hm : t.selected w = 0) (b : Fin 9) (x : Die) :
    parkAt b w x t = simple id x t := if_pos hm

theorem parkAt_of_together {t : Group} {w : InstrBits} {b : Fin 9} (hm : t.selected w ≠ 0) (hb : ¬ t.apart b) (x : Die) :
    parkAt b w x t = settleGroup x (t.parkSelected b w) :=
  (if_neg hm).trans (if_neg (mt (t.mixed_parkSelected b w).mp hb))

theorem parkAt_of_apart {t : Group} {w : InstrBits} {b : Fin 9} (hm : t.selected w ≠ 0) (hb : t.apart b) (x : Die) :
    let u := (t.parkSelected b w).reconverge 66
    parkAt b w x t = barrierDiverged (x.putGroup u) u :=
  (if_neg hm).trans (if_pos ((t.mixed_parkSelected b w).mpr hb))

section
variable {s : State} {d : DieId} {g : GrpLoc} {port : Port} {t : Group} {w : InstrBits} {plan : Group → Plan}

/-- An instruction that may run, by what its effect leaves of the die. -/
theorem onGroup_leaves (h : groupReady s d g port t = true) {q : Plan} (hp : planRuns t w q = true) {cls op : Nat}
    (hq : plan t = q) {act : Die → Group → Die} {y : Die} (hact : act (atIssue s d port t) { t with wait := 0 } = y) :
    onGroup d g cls op port w plan act s = .next (s.setDie d y) := by
  subst hq
  rw [onGroup_runs s d g cls op port w plan act t h hp, hact]

end

section
variable {s : State} {d : DieId} {g : GrpLoc} {t : Group} {w : InstrBits}

/-- BAR and BARW: the selected threads park at a barrier (R148, R150). -/
theorem onGroup_parkAt (h : groupReady s d g .alu t = true) {q : Plan} (hp : planRuns t w q = true) (op : Nat) (b : Fin 9) :
    let t0 : Group := { t with wait := 0 }
    let o := onGroup d g 0xB op .alu w (fun _ => q) (parkAt b w) s
    (t.selected w = 0 → o = .next (goesOn s d .alu t t)) ∧
    (t.selected w ≠ 0 → ¬ t.apart b → t.selected w ≠ t.active → o = .next (goesOn s d .alu t (t.parkSelected b w))) ∧
    (t.selected w ≠ 0 → ¬ t.apart b → t.selected w = t.active →
      o = .next (s.setDie d (settleGroup (atIssue s d .alu t) { t0.park b with pc := t.pc }))) ∧
    (t.selected w ≠ 0 → t.apart b → o = .next (s.setDie d (barrierDiverged
      ((atIssue s d .alu t).putGroup ((t0.parkSelected b w).reconverge 66)) ((t0.parkSelected b w).reconverge 66)))) := by
  refine ⟨fun hm => ?_, fun hm hb hne => ?_, fun hm hb he => ?_, fun hm hb => ?_⟩
  · exact onGroup_acts h hp rfl (parkAt_of_none (t := { t with wait := 0 }) hm b _)
  · refine onGroup_acts h hp rfl ((parkAt_of_together (t := { t with wait := 0 }) hm hb _).trans ?_)
    rw [← Group.pc_parkSelected_of_some hne b]
    rfl
  · refine onGroup_leaves h hp rfl ((parkAt_of_together (t := { t with wait := 0 }) hm hb _).trans ?_)
    rw [Group.parkSelected_of_all (t := { t with wait := 0 }) he]
    rfl
  · exact onGroup_leaves h hp rfl (parkAt_of_apart (t := { t with wait := 0 }) hm hb _)

end

/-! ### Branches (R146, R147) -/

theorem branchTo_of_all {w : InstrBits} {t : Group} (h : t.active &&& ~~~(t.selected w) = 0) (x : Die) :
    branchTo w x t = settleGroup x { t with pc := pcOff t.pc (wTarget w) } := if_pos h

theorem branchTo_of_none {w : InstrBits} {t : Group} (h : t.active &&& ~~~(t.selected w) ≠ 0) (hm : t.selected w = 0)
    (x : Die) : branchTo w x t = settleGroup x t.next := (if_neg h).trans (if_pos hm)

theorem branchTo_of_some {w : InstrBits} {t : Group} (h : t.active &&& ~~~(t.selected w) ≠ 0) (hm : t.selected w ≠ 0)
    (hroom : t.stack.length < 32) (x : Die) :
    branchTo w x t = settleGroup x { t with
      stack := { reconv := pcOff t.pc (wReconv w), pendPc := t.pc + 8, pendMask := t.active &&& ~~~(t.selected w),
                 outer := t.active } :: t.stack,
      active := t.selected w, pc := pcOff t.pc (wTarget w) } :=
  (if_neg h).trans ((if_neg hm).trans (if_neg (Nat.not_le.mpr hroom)))

theorem branchTo_of_full {w : InstrBits} {t : Group} (h : t.active &&& ~~~(t.selected w) ≠ 0) (hm : t.selected w ≠ 0)
    (hfull : 32 ≤ t.stack.length) (x : Die) :
    branchTo w x t = trapGroup x t clsStackOverflow 0 (positionOf x t) :=
  (if_neg h).trans ((if_neg hm).trans (if_pos hfull))

theorem brxAct_of_agree {w : InstrBits} {t : Group}
    (h : ∀ v ∈ (threadsOf t.active).map (brxTarget w t), v = ((threadsOf t.active).map (brxTarget w t)).headD 0) (x : Die) :
    brxAct w x t = settleGroup x { t with pc := BitVec.ofNat 48 (((threadsOf t.active).map (brxTarget w t)).headD 0) } :=
  if_pos (List.all_eq_true.mpr fun v hv => beq_iff_eq.mpr (h v hv))

theorem brxAct_of_disagree {w : InstrBits} {t : Group}
    (h : ∃ v ∈ (threadsOf t.active).map (brxTarget w t), v ≠ ((threadsOf t.active).map (brxTarget w t)).headD 0) (x : Die) :
    brxAct w x t = trapGroup x t clsBadBranch 0 (positionOf x t) := by
  obtain ⟨v, hv, hne⟩ := h
  exact if_neg fun hall => hne (beq_iff_eq.mp (List.all_eq_true.mp hall v hv))

/-- Settles O32: each row by the form of its effect on the group's masks, stack and address. -/
theorem controlInstructions : Obligations.ControlInstructions := by
  unfold Obligations.ControlInstructions
  intro s d g w t h y t0 m leaves goto apart parks
  refine ⟨fun hp => ⟨?_, ?_, fun hall => ?_, ?_⟩, fun hp => ⟨fun hf => ?_, fun hf => ?_⟩,
    fun hp => ⟨fun hrest => ?_, fun hrest hm => ?_, fun hrest hm hroom => ?_, fun hrest hm hfull => ?_⟩,
    fun hp => ⟨fun hagree => ?_, fun hne => ?_⟩, fun hp => ?_, fun hp => ?_⟩
  case refine_1 => exact onGroup_simple h hp rfl rfl
  case refine_2 => exact onGroup_acts h hp rfl rfl
  case refine_3 =>
    refine onGroup_acts h hp ?_ rfl
    rw [hall, Bool.not_true, Bool.or_false]
  case refine_4 => exact onGroup_parkAt h hp 1 8
  case refine_5 => exact onGroup_acts h hp rfl (if_neg (Bool.eq_false_iff.mp hf))
  case refine_6 => exact onGroup_leaves h hp rfl (if_pos hf)
  case refine_7 => exact onGroup_leaves h hp rfl (branchTo_of_all (t := t0) hrest y)
  case refine_8 => exact onGroup_acts h hp rfl (branchTo_of_none (t := t0) hrest hm y)
  case refine_9 => exact onGroup_leaves h hp rfl (branchTo_of_some (t := t0) hrest hm hroom y)
  case refine_10 => exact onGroup_leaves h hp rfl (branchTo_of_full (t := t0) hrest hm hfull y)
  case refine_11 => exact onGroup_leaves h hp rfl (brxAct_of_agree (t := t0) hagree y)
  case refine_12 => exact onGroup_leaves h hp rfl (brxAct_of_disagree (t := t0) hne y)
  case refine_13 => exact onGroup_leaves h hp rfl rfl
  case refine_14 => exact onGroup_parkAt h hp 0 _

end Sys2Proof.Machine
end

section
/-! PROOFS. O38: loads, stores, prefetches and fences (R39, R152 to R154, R160, R161, R214 to R217, R221, R229, R234). -/
namespace Sys2Proof.Machine

/-! ### Loads (R152, R214) -/

theorem firstMisaligned_eq_none {n : Nat} {vas : List Nat} (h : ∀ v ∈ vas, v % n = 0) : firstMisaligned n vas = none :=
  List.find?_eq_none.mpr fun v hv => by simp [h v hv]

section
variable {w : InstrBits} {p x : Die} {t : Group} {sg par : Bool}

theorem loadAct_of_misaligned {v : Nat}
    (h : firstMisaligned (accBytes w) ((threadsOf (t.selected w)).map (t.vaOf w)) = some v) :
    loadAct w sg par p x t = trapGroup x t clsMisaligned 0 v := by
  simp only [loadAct, h]

theorem loadAct_of_none (h : threadsOf (t.selected w) = []) : loadAct w sg par p x t = simple id x t := by
  simp only [loadAct, h, List.map_nil, firstMisaligned, List.find?_nil, List.isEmpty_nil, if_true]

/-- The load that the threads' addresses make, in their pages. -/
def Group.pendLoad (t : Group) (w : InstrBits) (sg : Bool) (pm : PageMap) : PendLoad :=
  let vas := (threadsOf (t.selected w)).map (t.vaOf w)
  let pas := vas.map (paOf pm)
  { dst := wDst w, size := accBytes w, signed := sg, mask := t.selected w, vas := vas, pas := pas,
    sectors := (pas.map fun pa => pa / 32 * 32).eraseDups, got := [] }

theorem loadAct_of_prewalk {z : Die} {pm : PageMap}
    (hal : ∀ v ∈ (threadsOf (t.selected w)).map (t.vaOf w), v % accBytes w = 0) (hne : threadsOf (t.selected w) ≠ [])
    (hwalk : prewalk p x (.group t.loc) t.ctx (((threadsOf (t.selected w)).map (t.vaOf w)).map fun v =>
      { va := v, len := accBytes w, acc := accRead }) = (z, some pm)) :
    loadAct w sg par p x t = serveCore p (simple (fun t' => { t' with loads := t'.loads ++ [t.pendLoad w sg pm] })
      (if par then lineFails z t (t.pendLoad w sg pm).pas else z) t) (coreOf t.loc) := by
  have hempty : (threadsOf (t.selected w)).isEmpty = false := by simpa using hne
  simp only [loadAct, firstMisaligned_eq_none hal, hempty, Bool.false_eq_true, if_false, hwalk]
  rfl

/-! ### Stores (R153, R214) -/

theorem storeAct_of_misaligned {v : Nat}
    (h : firstMisaligned (accBytes w) ((threadsOf (t.selected w)).map (t.vaOf w)) = some v) :
    storeAct w p x t = trapGroup x t clsMisaligned 0 v := by
  simp only [storeAct, h]

theorem storeAct_of_none (hal : ∀ v ∈ (threadsOf (t.selected w)).map (t.vaOf w), v % accBytes w = 0)
    (h : threadsOf (t.selected w &&& ~~~t.helpers) = []) : storeAct w p x t = simple id x t := by
  simp only [storeAct, firstMisaligned_eq_none hal, h, List.isEmpty_nil, if_true]

/-- The bytes of a store by address, a higher thread's over a lower one's. -/
def Group.storedBytes (t : Group) (w : InstrBits) (pm : PageMap) : List (Nat × Byte) :=
  (threadsOf (t.selected w &&& ~~~t.helpers)).foldl
    (fun l i => overBytes l (placed (paOf pm (t.vaOf w i)) (storeData w t i))) []

/-- The lines that a store writes, in the order of their first thread. -/
def Group.storedLines (t : Group) (w : InstrBits) (pm : PageMap) : List Nat :=
  (((threadsOf (t.selected w &&& ~~~t.helpers)).map (t.vaOf w)).map fun v => lineOf (paOf pm v)).eraseDups

theorem storeAct_of_prewalk {z : Die} {pm : PageMap}
    (hal : ∀ v ∈ (threadsOf (t.selected w)).map (t.vaOf w), v % accBytes w = 0)
    (hne : threadsOf (t.selected w &&& ~~~t.helpers) ≠ [])
    (hwalk : prewalk p x (.group t.loc) t.ctx (((threadsOf (t.selected w &&& ~~~t.helpers)).map (t.vaOf w)).map fun v =>
      { va := v, len := accBytes w, acc := accWrite }) = (z, some pm)) :
    storeAct w p x t = simple id ((t.storedLines w pm).foldl (fun z ln => l1Store p z (coreOf t.loc) t.ctx t.job ln
      (((t.storedBytes w pm).filter fun q => lineOf q.1 == ln).map fun q => (q.1 % 128, q.2))) z) t := by
  have hempty : (threadsOf (t.selected w &&& ~~~t.helpers)).isEmpty = false := by simpa using hne
  simp only [storeAct, firstMisaligned_eq_none hal, hempty, Bool.false_eq_true, if_false, hwalk]
  rfl

end

theorem lookup_filter_of_forall {α β : Type} [BEq α] [LawfulBEq α] (q : α × β → Bool) {a : α} (h : ∀ b, q (a, b) = true)
    (l : List (α × β)) : (l.filter q).lookup a = l.lookup a := by
  induction l with
  | nil => rfl
  | cons e l ih =>
    obtain ⟨k, b⟩ := e
    by_cases hk : a = k
    · subst hk; simp [h]
    · have hk' : (a == k) = false := by simpa using hk
      rw [List.filter_cons]
      split <;> simp [List.lookup_cons, hk', ih]

theorem lookup_overBytes (old new : List (Nat × Byte)) (a : Nat) :
    (overBytes old new).lookup a = (new.lookup a).or (old.lookup a) := by
  rw [overBytes, List.lookup_append]
  cases hnew : new.lookup a with
  | some b => rfl
  | none =>
    have hno : ∀ r ∈ new, r.1 ≠ a := fun r hr => by
      have := List.lookup_eq_none_iff.mp hnew r hr
      exact fun h => by simp [h] at this
    rw [lookup_filter_of_forall _ fun b => by simpa using hno]

/-! ### Fences (R160, R161, R217) -/

section
variable {w : InstrBits} {x : Die} {t : Group}

theorem fenceAct_of_release (hkind : wSize w ≠ 1) (hscope : 2 ≤ wHint w) : fenceAct w x t =
    simple (fun t => { t with fence := some { kind := wSize w, scope := wHint w, sent := false } })
      (askL1 x (coreOf t.loc)) t := if_pos ⟨hkind, hscope⟩

theorem fenceAct_of_acquire (hkind : wSize w = 1) (hscope : 2 ≤ wHint w) :
    fenceAct w x t = simple id (acquireCore x (coreOf t.loc)) t := by
  rw [fenceAct, if_neg fun hrel => hrel.1 hkind, fenceAcquire, if_pos ⟨by omega, hscope⟩]

/-- Below cluster scope a fence is complete at once, and changes nothing. -/
theorem fenceAct_of_narrow (hscope : wHint w < 2) : fenceAct w x t = simple id x t := by
  rw [fenceAct, if_neg fun hrel => by omega, fenceAcquire, if_neg fun hacq => by omega]

end

/-- A waiting fence: what FENCE_COMPLETE leaves of the die. -/
theorem fenceCompleteDie_eq {g : GrpLoc} {x : Die} {t : Group} {f : FenceReq} (hg : x.group? g = some t)
    (hf : t.fence = some f) (hrun : x.running = true) : fenceCompleteDie g x =
      if t.loads ≠ [] ∨ l1Drained x (coreOf g) = false then x
      else if 4 ≤ f.scope ∧ f.sent = false then
        askL2 (x.updGroup g fun t => { t with fence := some { f with sent := true } })
      else if 4 ≤ f.scope ∧ l2Drained x = false then x
      else if f.scope = 5 ∧ x.pair.mode = 2 ∧ x.pair.mirOut ≠ [] then x
      else fenceAcquire (x.updGroup g fun t => { t with fence := none }) t f.kind f.scope := by
  simp only [fenceCompleteDie, hg, hf, hrun]
  simp

/-- An event of one die, by what it leaves of the die. -/
theorem nextOn_of_eq {d : DieId} {f : Die → Die} {s : State} {y : Die} (h : f (s.die d) = y) :
    nextOn d f s = .next (s.setDie d y) := by
  rw [nextOn_eq, State.onDie, h]

/-! #### The merging buffer of a core -/

theorem find?_updWhere_const {α : Type} {p : α → Bool} {u : α} (hu : p u = true) {l : List α} (h : l.any p = true) :
    (updWhere p (fun _ => u) l).find? p = some u := by
  induction l with
  | nil => simp at h
  | cons e l ih =>
    rw [updWhere, List.map_cons]
    by_cases he : p e = true
    · rw [if_pos he, List.find?_cons_of_pos hu]
    · rw [if_neg he, List.find?_cons_of_neg he]
      exact ih (by simpa [he] using h)

theorem Die.loc_l1 (x : Die) (c : CoreLoc) : (x.l1 c).loc = c := by
  unfold Die.l1
  cases h : x.cache.l1s.find? (fun t => decide (t.loc = c)) with
  | none => rfl
  | some u => simpa using List.find?_some h

theorem Die.l1_setL1 (x : Die) (u : L1) : (x.setL1 u).l1 u.loc = u := by
  unfold Die.l1 Die.setL1
  by_cases h : x.cache.l1s.any (fun t => decide (t.loc = u.loc)) = true
  · have hfound := find?_updWhere_const (p := fun t : L1 => decide (t.loc = u.loc)) (u := u) (decide_eq_true rfl) h
    rw [if_pos h, hfound, Option.getD_some]
  · have hnone : x.cache.l1s.find? (fun t => decide (t.loc = u.loc)) = none :=
      List.find?_eq_none.mpr fun t ht hp => h (List.any_eq_true.mpr ⟨t, ht, hp⟩)
    simp [h, hnone]

theorem Die.l1_onL1 (x : Die) (c : CoreLoc) {f : L1 → L1} (hf : (f (x.l1 c)).loc = (x.l1 c).loc) :
    (x.onL1 c f).l1 c = f (x.l1 c) := by
  have hloc : (f (x.l1 c)).loc = c := hf.trans (x.loc_l1 c)
  simpa only [Die.onL1, hloc] using x.l1_setL1 (f (x.l1 c))

theorem asked_askL1 (x : Die) (c : CoreLoc) : ∀ e ∈ ((askL1 x c).l1 c).merge, e.asked = true := by
  rw [askL1, x.l1_onL1 c rfl]
  simp

/-- Settles O38. That a line fails parity as a load reads it is an operand of the load (log 168). -/
theorem memoryAndFenceInstructions : Obligations.MemoryAndFenceInstructions := by
  unfold Obligations.MemoryAndFenceInstructions
  refine ⟨fun s d g w t h => ?_, fun s d g w t => ⟨fun h hp => ?_, fun f => ?_, fun x c => ⟨asked_askL1 x c, rfl⟩⟩⟩
  · intro p y n vas stores loads loadsSigned
    have hnone : vas = [] → threadsOf (t.selected w) = [] := List.map_eq_nil_iff.mp
    refine ⟨fun par c sg q hc hp => ?_, fun hp => ⟨fun v hv => ?_, fun hal hno => ?_, fun z pm hal hne hwalk => ?_⟩,
      fun hp => ?_, lookup_overBytes⟩
    · have hrow : ∃ op, exec c s = onGroup d g 8 op .mem w (fun _ => q) (loadAct w sg par p) s := by
        simp only [List.mem_cons, Prod.mk.injEq, List.not_mem_nil, or_false] at hc
        rcases hc with ⟨rfl, rfl, rfl⟩ | ⟨rfl, rfl, rfl⟩
        · exact ⟨0, rfl⟩
        · exact ⟨1, rfl⟩
      obtain ⟨op, hrow⟩ := hrow
      rw [hrow]
      refine ⟨fun v hv => ?_, fun hal hno => ?_, fun z pm hal hne hwalk => ?_⟩
      · exact onGroup_leaves h hp rfl (loadAct_of_misaligned (t := { t with wait := 0 }) hv)
      · exact onGroup_acts h hp rfl (loadAct_of_none (t := { t with wait := 0 }) (hnone hno))
      · exact onGroup_leaves h hp rfl (loadAct_of_prewalk (t := { t with wait := 0 }) hal (mt (congrArg _) hne) hwalk)
    · exact onGroup_leaves h hp rfl (storeAct_of_misaligned (t := { t with wait := 0 }) hv)
    · exact onGroup_acts h hp rfl (storeAct_of_none (t := { t with wait := 0 }) hal hno)
    · exact onGroup_acts h hp rfl (storeAct_of_prewalk (t := { t with wait := 0 }) hal hne hwalk)
    · exact onGroup_acts h hp rfl rfl
  · intro y
    refine ⟨fun hkind hscope => ?_, fun hkind hscope => ?_, fun hscope => ?_⟩
    · exact onGroup_acts h hp rfl (fenceAct_of_release hkind hscope)
    · exact onGroup_acts h hp rfl (fenceAct_of_acquire hkind hscope)
    · exact onGroup_acts h hp rfl (fenceAct_of_narrow hscope)
  · intro x hg hf hrun done
    have hdie := fenceCompleteDie_eq hg hf hrun
    refine ⟨fun hwait => ?_, fun hloads hl1 => ?_⟩
    · exact nextOn_of_eq (hdie.trans (if_pos hwait))
    · rw [if_neg (by simp [hloads, hl1])] at hdie
      refine ⟨fun hscope => ?_, fun hscope hsent => ?_, fun hscope hsent hl2 => ?_, fun hscope hsent hl2 hmode hmir => ?_,
        fun hscope hsent hl2 hmir => ?_⟩
      · rw [if_neg (by omega), if_neg (by omega), if_neg (by omega)] at hdie
        exact nextOn_of_eq hdie
      · exact nextOn_of_eq (hdie.trans (if_pos ⟨hscope, hsent⟩))
      · rw [if_neg (by simp [hsent])] at hdie
        exact nextOn_of_eq (hdie.trans (if_pos ⟨hscope, hl2⟩))
      · rw [if_neg (by simp [hsent]), if_neg (by simp [hl2])] at hdie
        exact nextOn_of_eq (hdie.trans (if_pos ⟨hscope, hmode, hmir⟩))
      · rw [if_neg (by simp [hsent]), if_neg (by simp [hl2]), if_neg fun hsys => hsys.2.2 (hmir hsys.1 hsys.2.1)] at hdie
        exact nextOn_of_eq hdie

end Sys2Proof.Machine
end

section
/-! PROOFS. O40: atomic operations and their replies (R154 to R159, R214, R250). -/
namespace Sys2Proof.Machine

/-! ### One thread after another at a word -/

/-- What each thread sees that replaces a word by `h thread word`, in the order given. -/
def seen (h : Nat → Nat → Nat) : List Nat → Nat → List (Nat × Nat)
  | [], _ => []
  | i :: is, v => (i, v) :: seen h is (h i v)

theorem foldl_seen (h : Nat → Nat → Nat) (ths : List Nat) (v : Nat) (l : List (Nat × Nat)) :
    ths.foldl (fun (r : Nat × List (Nat × Nat)) i => (h i r.1, r.2 ++ [(i, r.1)])) (v, l) =
      (ths.foldl (fun v i => h i v) v, l ++ seen h ths v) := by
  induction ths generalizing v l with
  | nil => simp [seen]
  | cons i is ih => simp [seen, ih]

/-- A thread sees the word as the threads before it left it. -/
theorem lookup_seen (h : Nat → Nat → Nat) {ths : List Nat} (hnodup : ths.Nodup) {k : Nat} (hk : k < ths.length) (v : Nat) :
    (seen h ths v).lookup ths[k] = some ((ths.take k).foldl (fun v i => h i v) v) := by
  induction ths generalizing k v with
  | nil => simp at hk
  | cons i is ih =>
    obtain ⟨hi, his⟩ := List.nodup_cons.mp hnodup
    cases k with
    | zero => simp [seen]
    | succ k =>
      have hk' : k < is.length := by simpa using hk
      have hne : (is[k] == i) = false := beq_false_of_ne fun he => hi (he ▸ List.getElem_mem hk')
      simp [seen, List.lookup_cons, hne, ih his]

theorem map_lookup_seen (h : Nat → Nat → Nat) {ths : List Nat} (hnodup : ths.Nodup) (v : Nat) :
    (ths.map fun i => BitVec.ofNat 64 (((seen h ths v).lookup i).getD 0)) =
      (List.range ths.length).map fun k => BitVec.ofNat 64 ((ths.take k).foldl (fun v i => h i v) v) := by
  refine List.ext_getElem (by simp) fun k h1 h2 => ?_
  simp [lookup_seen h hnodup (by simpa using h1)]

/-! ### The effect of an atomic -/

/-- The threads whose atomic is performed: the selected ones that are no helpers (R250). -/
def Group.atomThreads (t : Group) (w : InstrBits) : List Nat := threadsOf (t.selected w &&& ~~~t.helpers)

theorem Group.nodup_atomThreads (t : Group) (w : InstrBits) : (t.atomThreads w).Nodup := nodup_threadsOf _

/-- The addresses of an atomic, in the order of first use. -/
def Group.atomVas (t : Group) (w : InstrBits) : List Nat := ((t.atomThreads w).map (t.vaOf w)).eraseDups

/-- The threads of an address. -/
def Group.atomAt (t : Group) (w : InstrBits) (va : Nat) : List Nat := (t.atomThreads w).filter fun i => t.vaOf w i == va

/-- One performance for each address: the die they leave, and the values of all threads. -/
def atomRuns (run : Die → Nat → Die × List (Nat × Nat)) (vas : List Nat) (z : Die) : Die × List (Nat × Nat) :=
  vas.foldl (fun r va => ((run r.1 va).1, r.2 ++ (run r.1 va).2)) (z, [])

theorem atomRuns_fst (run : Die → Nat → Die × List (Nat × Nat)) (vas : List Nat) (z : Die) :
    (atomRuns run vas z).1 = vas.foldl (fun z va => (run z va).1) z := by
  unfold atomRuns
  generalize ([] : List (Nat × Nat)) = l
  induction vas generalizing z l with
  | nil => rfl
  | cons va vas ih => exact ih _ _

theorem atomRuns_singleton (run : Die → Nat → Die × List (Nat × Nat)) (va : Nat) (z : Die) :
    atomRuns run [va] z = run z va := rfl

/-- The values that an atomic brings back, as they wait for ATOMIC_REPLY. -/
def Group.pendAtomic (t : Group) (w : InstrBits) (vals : List (Nat × Nat)) : PendAtomic :=
  { dst := wDst w, wide := atomWide w, mask := t.selected w &&& ~~~t.helpers,
    values := (t.atomThreads w).map fun i => BitVec.ofNat 64 ((vals.lookup i).getD 0) }

/-- The values of threads of one address: each has the word as the threads before it left it. -/
def Group.pendSeen (t : Group) (w : InstrBits) (f : Nat → Nat → Nat) (old : Nat) : PendAtomic :=
  { dst := wDst w, wide := atomWide w, mask := t.selected w &&& ~~~t.helpers,
    values := (List.range (t.atomThreads w).length).map fun k =>
      BitVec.ofNat 64 (((t.atomThreads w).take k).foldl (fun v i => f i v) old) }

theorem Group.pendAtomic_seen (t : Group) (w : InstrBits) (f : Nat → Nat → Nat) (old : Nat) :
    t.pendAtomic w (seen f (t.atomThreads w) old) = t.pendSeen w f old := by
  rw [Group.pendAtomic, map_lookup_seen f (t.nodup_atomThreads w), Group.pendSeen]

/-- The group once the values wait, where the row returns any. -/
def Group.awaits (t : Group) (w : InstrBits) (q : PendAtomic) : Group :=
  if atomReturns w then { t with atomics := t.atomics ++ [q] } else t

section
variable {w : InstrBits} {run : Die → Group → AtomRun} {p x : Die} {t : Group}

theorem atomAct_of_misaligned {v : Nat}
    (h : firstMisaligned (atomBytes w) ((threadsOf (t.selected w)).map (t.vaOf w)) = some v) :
    atomAct w run p x t = trapGroup x t clsMisaligned 0 v := by
  simp only [atomAct, h]

theorem atomAct_of_none (hal : ∀ v ∈ (threadsOf (t.selected w)).map (t.vaOf w), v % atomBytes w = 0)
    (h : t.atomThreads w = []) : atomAct w run p x t = simple id x t := by
  unfold Group.atomThreads at h
  simp only [atomAct, firstMisaligned_eq_none hal, h, List.isEmpty_nil, if_true]

/-- The units of an atomic's access, one per thread. -/
def Group.atomUnits (t : Group) (w : InstrBits) : List URange :=
  (t.atomThreads w).map fun i => { va := t.vaOf w i, len := atomBytes w, acc := accAtomic }

/-- Aligned, with a thread, every page good and every line at its slice: the atomic is performed. -/
structure AtomGood (w : InstrBits) (p x : Die) (t : Group) (pm : PageMap) (zz : Die) : Prop where
  aligned : ∀ v ∈ (threadsOf (t.selected w)).map (t.vaOf w), v % atomBytes w = 0
  threads : t.atomThreads w ≠ []
  walked : ∃ z, prewalk p x (.group t.loc) t.ctx (t.atomUnits w) = (z, some pm) ∧
    atomLines p z t pm (t.atomUnits w) = (zz, true)

theorem atomAct_of_good {pm : PageMap} {zz : Die} (h : AtomGood w p x t pm zz) :
    let r := atomRuns (fun z va => run z t z (paOf pm va) (t.atomAt w va)) (t.atomVas w) zz
    atomAct w run p x t = simple (fun t' => t'.awaits w (t.pendAtomic w r.2)) r.1 t := by
  obtain ⟨hal, hne, z, hwalk, hlines⟩ := h
  unfold Group.atomThreads at hne
  have hempty : (threadsOf (t.selected w &&& ~~~t.helpers)).isEmpty = false := by simpa using hne
  unfold Group.atomUnits Group.atomThreads at hwalk hlines
  simp only [atomAct, firstMisaligned_eq_none hal, hempty, Bool.false_eq_true, if_false, hwalk, hlines]
  unfold Group.awaits
  split <;> rfl

theorem Group.atomAt_of_atomVas {va : Nat} (h : t.atomVas w = [va]) : t.atomAt w va = t.atomThreads w := by
  refine List.filter_eq_self.mpr fun i hi => ?_
  have hmem : t.vaOf w i ∈ t.atomVas w := List.mem_eraseDups.mpr (List.mem_map_of_mem hi)
  simpa [h] using hmem

end

theorem Group.next_awaits_wait (t : Group) (w : InstrBits) (q : PendAtomic) :
    (({ t with wait := 0 } : Group).awaits w q).next = { t.awaits w q with wait := 0, pc := t.pc + 8 } := by
  unfold Group.awaits
  split <;> rfl

/-! ### Rows that change the word thread by thread (R155, R156, R159) -/

theorem combined_eq (w : InstrBits) (p : Die) (f : Nat → Nat → Nat → Nat) (x : Die) (t : Group) (z : Die) (pa : Nat)
    (ths : List Nat) :
    let h := fun i v => f (8 * atomBytes w) v (atomOperand w t (wData w) i)
    let old := sliceWord z pa (atomBytes w)
    combined w p f x t z pa ths = ((sliceWrite p z t.ctx pa (atomBytes w) (ths.foldl (fun v i => h i v) old)).count
      .grpAtomicCnt, seen h ths old) := by
  simp only [combined, foldl_seen fun i v => f (8 * atomBytes w) v (atomOperand w t (wData w) i), List.nil_append]

theorem serialised_eq (w : InstrBits) (p : Die) (f : Group → Nat → Nat → Nat) (x : Die) (t : Group) (z : Die) (pa : Nat)
    (ths : List Nat) :
    let old := sliceWord z pa (atomBytes w)
    serialised w p f x t z pa ths = ((sliceWrite p z t.ctx pa (atomBytes w) (ths.foldl (fun v i => f t i v) old)).countN
      .grpAtomicCnt ths.length, seen (f t) ths old) := by
  simp only [serialised, foldl_seen (f t), List.nil_append]

section
variable {s : State} {d : DieId} {g : GrpLoc} {w : InstrBits} {t : Group} {run : Die → Group → AtomRun} {pm : PageMap}
  {zz : Die}

/-- An atomic that is performed. -/
theorem onGroup_atomAct (h : groupReady s d g .mem t = true) {k : Nat} {wide : Bool}
    (hp : planRuns t w (atomPlan w k wide t) = true)
    (hgood : AtomGood w (s.die d.other) (atIssue s d .mem t) { t with wait := 0 } pm zz) (op : Nat) :
    let r := atomRuns (fun z va => run z { t with wait := 0 } z (paOf pm va) (t.atomAt w va)) (t.atomVas w) zz
    onGroup d g 0xA op .mem w (atomPlan w k wide) (atomAct w run (s.die d.other)) s =
      .next (onward s d r.1 t (t.awaits w (t.pendAtomic w r.2))) := by
  intro r
  refine onGroup_acts h hp rfl ((atomAct_of_good hgood).trans ?_)
  rw [simple, Group.next_awaits_wait]
  rfl

/-- A row whose threads replace the word one after another, each by `f thread word`, with the values they saw. -/
theorem onGroup_atomAct_seen (h : groupReady s d g .mem t = true) {k : Nat} {wide : Bool}
    (hp : planRuns t w (atomPlan w k wide t) = true)
    (hgood : AtomGood w (s.die d.other) (atIssue s d .mem t) { t with wait := 0 } pm zz)
    {put : Die → Nat → Nat → Nat → Die} {f : Nat → Nat → Nat}
    (hrun : ∀ z pa ths, run z { t with wait := 0 } z pa ths =
      (put z pa (ths.foldl (fun v i => f i v) (sliceWord z pa (atomBytes w))) ths.length,
        seen f ths (sliceWord z pa (atomBytes w)))) (op : Nat) :
    let o := onGroup d g 0xA op .mem w (atomPlan w k wide) (atomAct w run (s.die d.other)) s
    (∃ vals, o = .next (onward s d ((t.atomVas w).foldl (fun z va => put z (paOf pm va)
      ((t.atomAt w va).foldl (fun v i => f i v) (sliceWord z (paOf pm va) (atomBytes w))) (t.atomAt w va).length) zz) t
      (t.awaits w (t.pendAtomic w vals)))) ∧
    ∀ va, t.atomVas w = [va] →
      let old := sliceWord zz (paOf pm va) (atomBytes w)
      o = .next (onward s d (put zz (paOf pm va) ((t.atomThreads w).foldl (fun v i => f i v) old) (t.atomThreads w).length) t
        (t.awaits w (t.pendSeen w f old))) := by
  have hgo := onGroup_atomAct (run := run) h hp hgood op
  simp only [hrun] at hgo
  refine ⟨?_, fun va hva => ?_⟩
  · rw [atomRuns_fst] at hgo
    exact ⟨_, hgo⟩
  · rw [hgo, hva, atomRuns_singleton, Group.atomAt_of_atomVas hva, Group.pendAtomic_seen]

end

/-! ### FADD (R30, R158) -/

theorem freeOrder_perm (n : Nat) (l : List Nat) : (freeOrder l.length n l).Perm l := by
  induction hk : l.length generalizing n l with
  | zero => rw [List.length_eq_zero_iff.mp hk]; exact .nil
  | succ k ih =>
    match l, hk with
    | h :: is, hk =>
      have hmem : (h :: is).getD (Config.choice n % (h :: is).length) h ∈ h :: is := by
        rw [List.getD_eq_getElem _ _ (Nat.mod_lt _ (List.length_pos_of_mem List.mem_cons_self))]
        exact List.getElem_mem _
      have hlen : ((h :: is).erase ((h :: is).getD (Config.choice n % (h :: is).length) h)).length = k := by
        rw [List.length_erase_of_mem hmem, hk, Nat.add_sub_cancel]
      exact ((ih (n + 1) _ hlen).cons _).trans (List.perm_cons_erase hmem).symm

/-- The total of the threads' values, added in the order given. -/
theorem prefixes_snd (v : Nat → Nat) {ths : List Nat} (h : ths ≠ []) :
    (prefixes v ths).2 = some ((ths.map v).tail.foldl addFp32 ((ths.map v).headD 0)) := by
  have hgo : ∀ (is : List Nat) (l : List (Nat × Option Nat)) (a : Nat),
      (is.foldl (fun (r : List (Nat × Option Nat) × Option Nat) i => (r.1 ++ [(i, r.2)], some (match r.2 with
        | none => v i
        | some a => addFp32 a (v i)))) (l, some a)).2 = some ((is.map v).foldl addFp32 a) := by
    intro is
    induction is with
    | nil => intros; rfl
    | cons i is ih => intros; exact ih _ _
  match ths, h with
  | i :: is, _ => exact hgo is _ _

/-- The order in which FADD takes the threads of an address: lane order for a paired job, any other otherwise. -/
def faddOrder (x : Die) (t : Group) (ths : List Nat) : List Nat :=
  if (x.job? t.job).any Job.paired then ths else freeOrder ths.length x.free ths

theorem faddOrder_perm (x : Die) (t : Group) (ths : List Nat) : (faddOrder x t ths).Perm ths := by
  unfold faddOrder
  split
  · exact .refl _
  · exact freeOrder_perm _ _

theorem faddOrder_of_paired {x : Die} {t : Group} {j : Job} (hj : x.job? t.job = some j) (hpaired : j.paired = true)
    (ths : List Nat) : faddOrder x t ths = ths := if_pos (by rw [hj]; exact hpaired)

/-- What FADD leaves at a word: the old value and the total of its threads' values. -/
theorem combinedFadd_fst (w : InstrBits) (p x : Die) (t : Group) (z : Die) (pa : Nat) {ths : List Nat} (h : ths ≠ []) :
    let vs := (faddOrder z t ths).map fun i => (t.lane (wData w) i).toNat
    (combinedFadd w p x t z pa ths).1 = (sliceWrite p { z with free := z.free + ths.length } t.ctx pa 4
      (addFp32 (sliceWord z pa 4) (vs.tail.foldl addFp32 (vs.headD 0)))).count .grpAtomicCnt := by
  have hne : faddOrder z t ths ≠ [] := fun he => h (List.perm_nil.mp (he ▸ (faddOrder_perm z t ths).symm))
  have htotal := prefixes_snd (fun i => (t.lane (wData w) i).toNat) hne
  unfold faddOrder at htotal ⊢
  cases hj : z.job? t.job with
  | none =>
    simp only [hj, Option.any_none] at htotal
    simp only [combinedFadd, hj, htotal, Option.any_none]
    rfl
  | some j =>
    simp only [hj, Option.any_some] at htotal
    simp only [combinedFadd, hj, htotal, Option.any_some]
    rfl

theorem not_bad_of_planRuns {t : Group} {w : InstrBits} {q : Plan} (hp : planRuns t w q = true) : q.bad = false := by
  simp only [planRuns, Bool.and_eq_true, Bool.not_eq_true'] at hp
  obtain ⟨⟨⟨-, hbad⟩, -⟩, -⟩ := hp
  exact hbad

/-- FADD's words are 32 bits wide (R158). -/
theorem atomBytes_of_fadd {t : Group} {w : InstrBits} (hp : planRuns t w (atomPlan w 1 false t) = true) :
    atomBytes w = 4 := by
  have hbad := not_bad_of_planRuns hp
  simp only [atomPlan, Bool.false_and, Bool.or_false, Bool.or_eq_false_iff, Bool.not_eq_false', beq_iff_eq] at hbad
  obtain ⟨⟨⟨-, hsize⟩, -⟩, -⟩ := hbad
  simp [atomBytes, atomWide, hsize]

/-! ### ATOMIC_REPLY (R214) -/

theorem Die.group?_updGroup {f : Group → Group} (hf : ∀ t, (f t).loc = t.loc) (x : Die) (g : GrpLoc) :
    (x.updGroup g f).group? g = (x.group? g).map f := by
  unfold Die.group? Die.updGroup updWhere
  induction x.sh.groups with
  | nil => rfl
  | cons t ts ih =>
    by_cases h : t.loc = g
    · simp [h, hf]
    · simpa [h] using ih

/-- The values of an atomic reach their threads. -/
def Group.takeAtomic (t : Group) : Group :=
  match t.atomics with
  | [] => t
  | a :: as =>
    let v : Nat → Nat := fun i => ((((threadsOf a.mask).zip a.values).lookup i).getD 0).toNat
    if a.wide then ({ t with atomics := as } : Group).putPair a.mask a.dst v
    else ({ t with atomics := as } : Group).putLanes a.mask a.dst fun i => BitVec.ofNat 32 (v i)

theorem atomicReplyDie_eq (g : GrpLoc) (x : Die) : atomicReplyDie g x = x.updGroup g Group.takeAtomic := rfl

theorem Group.loc_takeAtomic (t : Group) : t.takeAtomic.loc = t.loc := by
  unfold Group.takeAtomic
  split
  · rfl
  · split <;> rfl

theorem Group.takeAtomic_cons {t : Group} {a : PendAtomic} {as : List PendAtomic} (h : t.atomics = a :: as) :
    t.takeAtomic =
      let v : Nat → Nat := fun i => ((((threadsOf a.mask).zip a.values).lookup i).getD 0).toNat
      if a.wide then ({ t with atomics := as } : Group).putPair a.mask a.dst v
      else ({ t with atomics := as } : Group).putLanes a.mask a.dst fun i => BitVec.ofNat 32 (v i) := by
  rw [Group.takeAtomic, h]

theorem minW_unsigned (n : Nat) : minW false n = fun v a => min v a := by
  funext v a
  simp [minW, asInt, Nat.min_def]

theorem maxW_unsigned (n : Nat) : maxW false n = fun v a => max v a := by
  funext v a
  simp [maxW, asInt, Nat.max_def]

/-- Settles O40. The threads of an address act one after another on its word, or, in FADD, add their total in an order that
is free unless the job is paired (R30). -/
theorem atomicInstructions : Obligations.AtomicInstructions := by
  unfold Obligations.AtomicInstructions
  intro s d g w t h p y n m ths vas us val combine serial waits one good write
  have hgood : ∀ {z zz pm}, good z zz pm → AtomGood w p y { t with wait := 0 } pm zz :=
    fun ⟨hal, hne, hwalk, hlines⟩ => ⟨hal, hne, _, hwalk, hlines⟩
  have hcombine : ∀ c f, (c, f) ∈ combine → ∃ op F, f = F (8 * n) ∧
      exec c s = onGroup d g 0xA op .mem w (atomPlan w 1 true) (atomAct w (combined w p F) p) s := by
    intro c f hc
    simp only [combine, List.mem_cons, Prod.mk.injEq, List.not_mem_nil, or_false] at hc
    rcases hc with ⟨rfl, rfl⟩ | ⟨rfl, rfl⟩ | ⟨rfl, rfl⟩ | ⟨rfl, rfl⟩ | ⟨rfl, rfl⟩ | ⟨rfl, rfl⟩ | ⟨rfl, rfl⟩ | ⟨rfl, rfl⟩
    · exact ⟨0, addW, rfl, rfl⟩
    · exact ⟨1, minW true, rfl, rfl⟩
    · exact ⟨2, minW false, (minW_unsigned _).symm, rfl⟩
    · exact ⟨3, maxW true, rfl, rfl⟩
    · exact ⟨4, maxW false, (maxW_unsigned _).symm, rfl⟩
    · exact ⟨5, _, rfl, rfl⟩
    · exact ⟨6, _, rfl, rfl⟩
    · exact ⟨7, _, rfl, rfl⟩
  have hserial : ∀ c k f, (c, k, f) ∈ serial → ∃ op F, f = F { t with wait := 0 } ∧
      exec c s = onGroup d g 0xA op .mem w (atomPlan w k true) (atomAct w (serialised w p F) p) s := by
    intro c k f hc
    simp only [serial, List.mem_cons, Prod.mk.injEq, List.not_mem_nil, or_false] at hc
    rcases hc with ⟨rfl, rfl, rfl⟩ | ⟨rfl, rfl, rfl⟩
    · exact ⟨9, fun t i _ => atomOperand w t (wData w) i, rfl, rfl⟩
    · exact ⟨10, fun t i v => if v = atomOperand w t (wData w) i then atomOperand w t (casNew w) i else v, rfl, rfl⟩
  refine ⟨fun c k wide hc hp => ?_, fun c f z zz pm hc hp hg => ?_, fun c k f z zz pm hc hp hg => ?_,
    fun z zz pm hp hg => ⟨?_, fun va hva => ?_⟩, fun hrun u a as hu ha => ?_⟩
  · have hrow : ∃ op run, exec c s = onGroup d g 0xA op .mem w (atomPlan w k wide) (atomAct w run p) s := by
      simp only [List.mem_append, List.mem_map, List.mem_singleton] at hc
      rcases hc with (⟨⟨c', f⟩, hmem, heq⟩ | ⟨⟨c', k', f⟩, hmem, heq⟩) | heq
      · cases heq
        obtain ⟨op, F, -, hrow⟩ := hcombine _ f hmem
        exact ⟨op, _, hrow⟩
      · cases heq
        obtain ⟨op, F, -, hrow⟩ := hserial _ _ f hmem
        exact ⟨op, _, hrow⟩
      · cases heq
        exact ⟨8, _, rfl⟩
    obtain ⟨op, run, hrow⟩ := hrow
    rw [hrow]
    refine ⟨fun v hv => ?_, fun hal hno => ?_⟩
    · exact onGroup_leaves h hp rfl (atomAct_of_misaligned (t := { t with wait := 0 }) hv)
    · exact onGroup_acts h hp rfl (atomAct_of_none (t := { t with wait := 0 }) hal hno)
  · obtain ⟨op, F, rfl, hrow⟩ := hcombine c f hc
    obtain ⟨⟨vals, hmany⟩, hone⟩ := onGroup_atomAct_seen h hp (hgood hg)
      (put := fun z pa v _ => (write z pa v).count .grpAtomicCnt) (f := fun i v => F (8 * n) v (val i))
      (fun z pa ths => combined_eq w p F z { t with wait := 0 } z pa ths) op
    rw [hrow]
    exact ⟨⟨t.pendAtomic w vals, rfl, rfl, rfl, List.length_map _, hmany⟩, hone⟩
  · obtain ⟨op, F, rfl, hrow⟩ := hserial c k f hc
    obtain ⟨⟨vals, hmany⟩, hone⟩ := onGroup_atomAct_seen h hp (hgood hg)
      (put := fun z pa v k => (write z pa v).countN .grpAtomicCnt k)
      (fun z pa ths => serialised_eq w p F z { t with wait := 0 } z pa ths) op
    rw [hrow]
    exact ⟨⟨t.pendAtomic w vals, rfl, rfl, rfl, List.length_map _, hmany⟩, hone⟩
  · exact ⟨_, _, onGroup_atomAct h hp (hgood hg) 8, rfl, List.length_map _⟩
  · have hne : t.atomThreads w ≠ [] := (hgood hg).threads
    have hfst := combinedFadd_fst w p zz { t with wait := 0 } zz (paOf pm va) hne
    have hrun := onGroup_atomAct (run := combinedFadd w p) h hp (hgood hg) 8
    rw [← atomBytes_of_fadd hp] at hfst
    rw [show t.atomVas w = [va] from hva, atomRuns_singleton, Group.atomAt_of_atomVas hva] at hrun
    dsimp only at hrun
    rw [hfst] at hrun
    exact ⟨faddOrder zz t ths, _, faddOrder_perm _ _ _, rfl, rfl, fun j hj hpaired => faddOrder_of_paired hj hpaired _, hrun⟩
  · refine ⟨_, nextOn_of_eq ((if_pos hrun).trans (atomicReplyDie_eq g _)), ?_, ?_⟩ <;> rw [State.die_setDie]
    · refine (Die.group?_updGroup Group.loc_takeAtomic (s.die d) g).trans ?_
      rw [hu, Option.map_some, Group.takeAtomic_cons ha]
    · rfl

end Sys2Proof.Machine
end

section
/-! PROOFS. O60: the telemetry target, the captured counts and a register write (R13, R14, R96 to R99, R198, R542, R553,
R554, R584). -/
namespace Sys2Proof.Machine

/-! ### The telemetry target (R553, R554) -/

section
variable {x : Die}

/-- A powered target takes a command code's effect. -/
theorem i3cStep_of_on (hon : x.i3cOn = true) (f : I3c → I3c) : i3cStep f x = { x with io.i3c := f x.io.i3c } := if_pos hon

/-- A powered target that the effect leaves as it is. -/
theorem i3cStep_of_fixed (hon : x.i3cOn = true) {f : I3c → I3c} (h : f x.io.i3c = x.io.i3c) : i3cStep f x = x := by
  rw [i3cStep_of_on hon, h]

theorem i3cAnswer_of_dyn (hon : x.i3cOn = true) (hdyn : x.io.i3c.dyn.isSome = true) (words : Die → List Word) :
    i3cAnswer words x = { x with io.i3c.answer := words x } := if_pos (by rw [hon, hdyn]; rfl)

theorem i3cAnswer_of_no_dyn (hdyn : x.io.i3c.dyn = none) (words : Die → List Word) : i3cAnswer words x = x :=
  if_neg (by simp [hdyn])

theorem privateReadDie_of_dyn (hon : x.i3cOn = true) (hdyn : x.io.i3c.dyn.isSome = true) (n : Nat) : privateReadDie n x =
    { x with io.i3c.answer := (List.range n).map fun i => (x.io.i3c.snap.lookup (x.io.i3c.index.toNat + i)).getD 0 }.count
      .i3tReadCnt :=
  if_neg (by rw [hon, Option.isNone_eq_false_iff.mpr hdyn]; decide)

theorem privateReadDie_of_no_dyn (hdyn : x.io.i3c.dyn = none) (n : Nat) : privateReadDie n x = x :=
  if_pos (by simp [hdyn])

/-- PID[32] marks the identity as a random value. -/
theorem getLsbD_provisionalId (x : Die) : ((provisionalId x).getD 1 0).getLsbD 0 = true := by
  simp [provisionalId]

end

/-- Bits that a mask leaves out are 0. -/
theorem and_and_eq_zero (v : Word) {m n : Word} (h : m &&& n = 0) : v &&& m &&& n = 0 := by
  rw [BitVec.and_assoc, h]
  exact BitVec.and_zero

/-- A target that has an address keeps it, and one without an address takes the one offered. -/
theorem I3c.takeAddr_eq (i : I3c) (a : BitVec 7) :
    (if i.dyn.isNone then { i with dyn := some a } else i) = { i with dyn := some (i.dyn.getD a) } := by
  cases h : i.dyn with
  | none => rfl
  | some b => exact congrArg (fun o => { i with dyn := o }) h

/-! ### Captured counts (R198, R542) -/

/-- The port whose frame count is read holds the count's high word, and its count. -/
theorem csi_csiFrameLo (x : Die) (q : Fin 4) :
    (csiFrameLo x q).csi q = { x.csi q with frameHi := hiWord (x.csi q).frame } :=
  getElem_vmod_same x.io.csi q _

/-! ### A register write (R13, R14) -/

theorem getLsbD_rwpMerge {r : Reg} {i : Nat} (h : r.info.rwp.getLsbD i = true) (old new : Word) :
    (rwpMerge r old new).getLsbD i = new.getLsbD i := by
  simp [rwpMerge, h]

@[simp] theorem Die.regI_writeShadow (x : Die) (r q : Reg) (is js : List Nat) (v : Word) :
    (x.writeShadow r is v).regI q js = x.regI q js := rfl

theorem Die.shadowI_writeShadow (x : Die) (r : Reg) (is : List Nat) (v : Word) :
    (x.writeShadow r is v).shadowI r is = rwpMerge r (x.shadowI r is) v := Die.shadowI_setShadowI x r is _

theorem Die.shadowI_writeShadow_ne (x : Die) {r q : Reg} {is js : List Nat} (v : Word) (h : q.addr js ≠ r.addr is) :
    (x.writeShadow r is v).shadowI q js = x.shadowI q js := spGet_spSet_ne _ _ _ _ h

/-- The active word after a write: RW bits take the word's, W1C bits clear where it has a one. -/
def Reg.written (r : Reg) (old v : Word) : Word := ((old &&& ~~~r.info.rw) ||| (v &&& r.info.rw)) &&& ~~~(v &&& r.info.w1c)

theorem Reg.getLsbD_written (r : Reg) (old v : Word) {i : Nat} (hi : i < 32) : (r.written old v).getLsbD i =
    (if r.info.w1c.getLsbD i && v.getLsbD i then false else if r.info.rw.getLsbD i then v.getLsbD i else old.getLsbD i) := by
  simp only [written, BitVec.getLsbD_and, BitVec.getLsbD_or, BitVec.getLsbD_not, hi, decide_true, Bool.true_and]
  cases r.info.w1c.getLsbD i <;> cases r.info.rw.getLsbD i <;> simp [Bool.and_comm]

/-- The die whose register's active word took a write. -/
def Die.writeActive (x : Die) (r : Reg) (is : List Nat) (v : Word) : Die :=
  if r.written (x.regI r is) v = x.regI r is then x else x.setRegI r is (r.written (x.regI r is) v)

theorem plainWrite_eq (r : Reg) (is : List Nat) (v : Word) (x : Die) : plainWrite r is v x =
    if r.info.rwp = 0 then x.writeActive r is v else (x.writeActive r is v).writeShadow r is v := rfl

theorem Die.regI_writeActive (x : Die) (r : Reg) (is : List Nat) (v : Word) :
    (x.writeActive r is v).regI r is = r.written (x.regI r is) v := by
  unfold writeActive
  split
  case isTrue hsame => exact hsame.symm
  case isFalse => exact regI_setRegI x r is _

theorem Die.regI_writeActive_ne (x : Die) {r q : Reg} {is js : List Nat} (v : Word) (h : q.addr js ≠ r.addr is) :
    (x.writeActive r is v).regI q js = x.regI q js := by
  unfold writeActive
  split
  · rfl
  · exact regI_setRegI_ne x r q is js _ h

@[simp] theorem Die.shadowI_writeActive (x : Die) (r q : Reg) (is js : List Nat) (v : Word) :
    (x.writeActive r is v).shadowI q js = x.shadowI q js := by
  unfold writeActive
  split <;> rfl

theorem regI_plainWrite (r q : Reg) (is js : List Nat) (v : Word) (x : Die) :
    (plainWrite r is v x).regI q js = (x.writeActive r is v).regI q js := by
  rw [plainWrite_eq]
  split <;> rfl

theorem shadowI_plainWrite_ne {r q : Reg} {is js : List Nat} (v : Word) (x : Die) (h : q.addr js ≠ r.addr is) :
    (plainWrite r is v x).shadowI q js = x.shadowI q js := by
  rw [plainWrite_eq]
  split
  · exact x.shadowI_writeActive r q is js v
  · rw [Die.shadowI_writeShadow_ne _ v h, Die.shadowI_writeActive]

theorem getLsbD_shadowI_plainWrite {r : Reg} {i : Nat} (h : r.info.rwp.getLsbD i = true) (is : List Nat) (v : Word)
    (x : Die) : ((plainWrite r is v x).shadowI r is).getLsbD i = v.getLsbD i := by
  have hrwp : r.info.rwp ≠ 0 := fun h0 => by simp [h0] at h
  rw [plainWrite_eq, if_neg hrwp, Die.shadowI_writeShadow, getLsbD_rwpMerge h]

/-- A register write leaves memory, jobs and the command interface as they are. -/
theorem plainWrite_keeps (r : Reg) (is : List Nat) (v : Word) (x : Die) : (plainWrite r is v x).dram = x.dram ∧
    (plainWrite r is v x).jobs = x.jobs ∧ (plainWrite r is v x).cmd = x.cmd := by
  rw [plainWrite_eq, Die.writeActive]
  split <;> split <;> exact ⟨rfl, rfl, rfl⟩

/-- An address without a register ignores a word (R98). -/
theorem cfgWriteWord_of_none {a : Nat} (h : regAt a = none) (s : State) (d : DieId) (w : Word) :
    cfgWriteWord s d a w = s := by
  rw [cfgWriteWord, h]

/-! ### The obligation -/

section
variable {s : State} {d : DieId}

theorem exec_entdaa (hon : (s.die d).i3cOn = true) (a : BitVec 7) : exec (.entdaa d a) s =
    .next (s.onDie d fun x => { x with io.i3c.dyn := some (x.io.i3c.dyn.getD a) }) :=
  nextOn_congr ((i3cStep_of_on hon _).trans (by rw [I3c.takeAddr_eq]))

theorem exec_i3cPrivateWrite_unaddressed (hon : (s.die d).i3cOn = true) (hdyn : (s.die d).io.i3c.dyn = none)
    (bs : List Byte) : exec (.i3cPrivateWrite d bs) s = .next (s.onDie d id) := by
  cases bs with
  | nil => rfl
  | cons b bs => exact nextOn_congr (i3cStep_of_fixed hon (if_neg (by simp [hdyn])))

/-- A private read answers the words of the snapshot from the index on, and is counted. -/
theorem exec_i3cPrivateRead_addressed (hon : (s.die d).i3cOn = true) (hdyn : (s.die d).io.i3c.dyn.isSome = true) (n : Nat) :
    ∃ t, exec (.i3cPrivateRead d n) s = .next t ∧ (t.die d).io.i3c.answer.length = n ∧
      (∀ i, i < n → (t.die d).io.i3c.answer.getD i 0 =
        ((s.die d).io.i3c.snap.lookup ((s.die d).io.i3c.index.toNat + i)).getD 0) ∧
      (t.die d).reg .i3tReadCnt = (s.die d).reg .i3tReadCnt + 1 ∧ (t.die d).io.i3c.dyn = (s.die d).io.i3c.dyn := by
  refine ⟨_, nextOn_of_eq (privateReadDie_of_dyn hon hdyn n), ?_⟩
  rw [State.die_setDie]
  refine ⟨?_, fun i hi => ?_, Die.reg_count _ .i3tReadCnt, rfl⟩
  · exact (List.length_map _).trans List.length_range
  · exact (List.getD_eq_getElem?_getD ..).trans (by simp [hi])

end

/-- Settles O60, clause by clause from what each command code makes of the target, and from the words that a register
write leaves. The byte order and the bit of the provisional ID are log 111, and the rows of the registers log 24. -/
theorem telemetryAndRegisterWrites : Obligations.TelemetryAndRegisterWrites := by
  unfold Obligations.TelemetryAndRegisterWrites
  refine ⟨fun s d hon => ⟨exec_entdaa hon, fun st a => ⟨fun hst => ?_, fun hst => ?_⟩, ⟨rfl, rfl⟩,
    nextOn_congr (i3cStep_of_on hon _), nextOn_congr (i3cStep_of_fixed hon rfl), nextOn_congr (i3cStep_of_fixed hon rfl),
    fun hdyn => ⟨?_, ?_, ?_, ?_, fun b bs => ?_, exec_i3cPrivateRead_addressed hon hdyn⟩,
    fun hdyn => ⟨?_, ?_, ?_, exec_i3cPrivateWrite_unaddressed hon hdyn, fun n => ?_⟩, ?_, fun hrun => ?_, fun q => ?_,
    rfl, rfl⟩, fun r is v x => ?_⟩
  · exact nextOn_congr ((i3cStep_of_on hon _).trans (by rw [if_pos hst]))
  · exact nextOn_congr (i3cStep_of_fixed hon (if_neg hst))
  · exact ⟨nextOn_congr (i3cAnswer_of_dyn hon hdyn _), getLsbD_provisionalId _, rfl⟩
  · exact ⟨_, _, nextOn_of_eq (i3cAnswer_of_dyn hon hdyn _), by rw [State.die_setDie], and_and_eq_zero _ (by decide)⟩
  · exact ⟨_, _, nextOn_of_eq (i3cAnswer_of_dyn hon hdyn _), by rw [State.die_setDie], and_and_eq_zero _ (by decide)⟩
  · exact ⟨_, _, nextOn_of_eq (congrArg Die.tick (i3cAnswer_of_dyn hon hdyn _)), by rw [State.die_setDie]; rfl,
      and_and_eq_zero _ (by decide)⟩
  · exact nextOn_congr ((i3cStep_of_on hon _).trans (by rw [if_pos hdyn]))
  · exact nextOn_congr (i3cAnswer_of_no_dyn hdyn _)
  · exact nextOn_congr (i3cAnswer_of_no_dyn hdyn _)
  · exact nextOn_congr (i3cAnswer_of_no_dyn hdyn _)
  · exact nextOn_congr (privateReadDie_of_no_dyn hdyn n)
  · exact ⟨_, nextOn_of_eq (i3cStep_of_on hon _), by rw [State.die_setDie], rfl, rfl, by rw [State.die_setDie]⟩
  · exact nextOn_congr (if_pos hrun)
  · have hport := csi_csiFrameLo (s.die d) q
    refine ⟨_, rfl, ?_⟩
    rw [State.die_onDie]
    exact ⟨rfl, (congrArg CsiPort.frameHi hport :), (congrArg CsiPort.frame hport :)⟩
  · obtain ⟨hdram, hjobs, hcmd⟩ := plainWrite_keeps r is v x
    refine ⟨fun i hi => ?_, fun q js hne => ⟨?_, shadowI_plainWrite_ne v x hne⟩,
      fun i _ hrwp => getLsbD_shadowI_plainWrite hrwp is v x, hdram, hjobs, hcmd,
      fun s d a w h => cfgWriteWord_of_none h s d w⟩
    · rw [regI_plainWrite, Die.regI_writeActive, Reg.getLsbD_written r _ v hi]
    · rw [regI_plainWrite, Die.regI_writeActive_ne x v hne]

end Sys2Proof.Machine
end

section
/-! PROOFS. Slices and L1s: what is read after an update, and a line that enters a slice, and the bytes that a
slice's masters read (R226, R227, R229). -/
namespace Sys2Proof.Machine

/-! ### One L1 or slice among others -/

theorem find?_updWhere_const_ne {α : Type} {p q : α → Bool} {u : α} (hu : q u = false) (l : List α)
    (hpq : ∀ a, p a = true → q a = false) : (updWhere p (fun _ => u) l).find? q = l.find? q := by
  induction l with
  | nil => rfl
  | cons e l ih =>
    rw [updWhere, List.map_cons]
    by_cases he : p e = true
    · rw [if_pos he, List.find?_cons_of_neg (by simp [hu]), List.find?_cons_of_neg (by simp [hpq e he])]
      exact ih
    · rw [if_neg he, List.find?_cons, List.find?_cons]
      cases q e
      · exact ih
      · rfl

theorem Die.l1_setL1_ne (x : Die) (u : L1) {c : CoreLoc} (h : c ≠ u.loc) : (x.setL1 u).l1 c = x.l1 c := by
  have hu : decide (u.loc = c) = false := by simpa using h.symm
  unfold Die.l1 Die.setL1
  split
  · have hfound := find?_updWhere_const_ne (p := fun t : L1 => decide (t.loc = u.loc))
      (q := fun t : L1 => decide (t.loc = c)) hu x.cache.l1s fun t ht => by simp_all
    exact congrArg (Option.getD · _) hfound
  · simp [hu]

theorem Die.l1_onL1_ne (x : Die) {c c' : CoreLoc} {f : L1 → L1} (hf : (f (x.l1 c)).loc = (x.l1 c).loc) (h : c' ≠ c) :
    (x.onL1 c f).l1 c' = x.l1 c' := x.l1_setL1_ne _ (by rwa [hf, x.loc_l1])

theorem Die.slice_l2 (x : Die) (sl : Fin 16) : (x.l2 sl).slice = sl := by
  unfold Die.l2
  cases h : x.cache.l2s.find? (fun t => decide (t.slice = sl)) with
  | none => rfl
  | some u => simpa using List.find?_some h

theorem Die.l2_setL2 (x : Die) (u : L2) : (x.setL2 u).l2 u.slice = u := by
  unfold Die.l2 Die.setL2
  by_cases h : x.cache.l2s.any (fun t => decide (t.slice = u.slice)) = true
  · have hfound := find?_updWhere_const (p := fun t : L2 => decide (t.slice = u.slice)) (u := u) (decide_eq_true rfl) h
    rw [if_pos h, hfound, Option.getD_some]
  · have hnone : x.cache.l2s.find? (fun t => decide (t.slice = u.slice)) = none :=
      List.find?_eq_none.mpr fun t ht hp => h (List.any_eq_true.mpr ⟨t, ht, hp⟩)
    simp [h, hnone]

theorem Die.l2_setL2_ne (x : Die) (u : L2) {sl : Fin 16} (h : sl ≠ u.slice) : (x.setL2 u).l2 sl = x.l2 sl := by
  have hu : decide (u.slice = sl) = false := by simpa using h.symm
  unfold Die.l2 Die.setL2
  split
  · have hfound := find?_updWhere_const_ne (p := fun t : L2 => decide (t.slice = u.slice))
      (q := fun t : L2 => decide (t.slice = sl)) hu x.cache.l2s fun t ht => by simp_all
    exact congrArg (Option.getD · _) hfound
  · simp [hu]

theorem Die.l2_onL2 (x : Die) (sl : Fin 16) {f : L2 → L2} (hf : (f (x.l2 sl)).slice = (x.l2 sl).slice) :
    (x.onL2 sl f).l2 sl = f (x.l2 sl) := by
  have hslice : (f (x.l2 sl)).slice = sl := hf.trans (x.slice_l2 sl)
  simpa only [Die.onL2, hslice] using x.l2_setL2 (f (x.l2 sl))

theorem Die.l2_onL2_ne (x : Die) {sl sl' : Fin 16} {f : L2 → L2} (hf : (f (x.l2 sl)).slice = (x.l2 sl).slice)
    (h : sl' ≠ sl) : (x.onL2 sl f).l2 sl' = x.l2 sl' := x.l2_setL2_ne _ (by rwa [hf, x.slice_l2])

/-- What an update of one slice leaves alone there, it leaves alone in every slice. -/
theorem Die.proj_l2_onL2 {α : Type} (x : Die) (sl sl' : Fin 16) {f : L2 → L2} (π : L2 → α)
    (hf : (f (x.l2 sl)).slice = (x.l2 sl).slice) (hπ : π (f (x.l2 sl)) = π (x.l2 sl)) :
    π ((x.onL2 sl f).l2 sl') = π (x.l2 sl') := by
  by_cases h : sl' = sl
  · subst h; rw [x.l2_onL2 sl' hf, hπ]
  · rw [x.l2_onL2_ne hf h]

/-- What an update of one L1 leaves alone there, it leaves alone in every L1. -/
theorem Die.proj_l1_onL1 {α : Type} (x : Die) (c c' : CoreLoc) {f : L1 → L1} (π : L1 → α)
    (hf : (f (x.l1 c)).loc = (x.l1 c).loc) (hπ : π (f (x.l1 c)) = π (x.l1 c)) :
    π ((x.onL1 c f).l1 c') = π (x.l1 c') := by
  by_cases h : c' = c
  · subst h; rw [x.l1_onL1 c' hf, hπ]
  · rw [x.l1_onL1_ne hf h]

/-! ### A line enters a slice (R227) -/

/-- A slice takes a line or leaves it: at most its list of lines changes, and a free value may be used. -/
theorem l2Install_cases (x : Die) (pa : Nat) : x.l2Install pa = x ∨
    ∃ ls, x.l2Install pa = x.onL2 (sliceOf pa) (fun t => { t with lines := ls }) ∨
      x.l2Install pa = (x.onL2 (sliceOf pa) fun t => { t with lines := ls }).tick := by
  unfold Die.l2Install
  dsimp only
  split
  · exact .inl rfl
  · split
    · exact .inr ⟨_, .inl rfl⟩
    · split
      · exact .inl rfl
      · exact .inr ⟨_, .inr rfl⟩

/-- Whatever an update of a slice's lines leaves alone, taking a line leaves alone. -/
theorem l2Install_keeps {α : Type} (π : Die → α) (htick : ∀ y : Die, π y.tick = π y) (x : Die) (pa : Nat)
    (hlines : ∀ ls, π (x.onL2 (sliceOf pa) fun t => { t with lines := ls }) = π x) : π (x.l2Install pa) = π x := by
  obtain h | ⟨ls, h | h⟩ := l2Install_cases x pa
  · rw [h]
  · rw [h, hlines]
  · rw [h, htick, hlines]

@[simp] theorem Die.regs_l2Install (x : Die) (pa : Nat) : (x.l2Install pa).regs = x.regs :=
  l2Install_keeps Die.regs (fun _ => rfl) x pa fun _ => rfl

@[simp] theorem Die.dram_l2Install (x : Die) (pa : Nat) : (x.l2Install pa).dram = x.dram :=
  l2Install_keeps Die.dram (fun _ => rfl) x pa fun _ => rfl

@[simp] theorem Die.l1_l2Install (x : Die) (pa : Nat) (c : CoreLoc) : (x.l2Install pa).l1 c = x.l1 c :=
  l2Install_keeps (fun y => y.l1 c) (fun _ => rfl) x pa fun _ => rfl

@[simp] theorem Die.l2carve_l2Install (x : Die) (pa : Nat) : (x.l2Install pa).cache.l2carve = x.cache.l2carve :=
  l2Install_keeps (fun y => y.cache.l2carve) (fun _ => rfl) x pa fun _ => rfl

@[simp] theorem Die.merge_l2_l2Install (x : Die) (pa : Nat) (sl : Fin 16) :
    ((x.l2Install pa).l2 sl).merge = (x.l2 sl).merge :=
  l2Install_keeps (fun y => (y.l2 sl).merge) (fun _ => rfl) x pa fun _ => x.proj_l2_onL2 _ sl L2.merge rfl rfl

@[simp] theorem Die.miss_l2_l2Install (x : Die) (pa : Nat) (sl : Fin 16) :
    ((x.l2Install pa).l2 sl).miss = (x.l2 sl).miss :=
  l2Install_keeps (fun y => (y.l2 sl).miss) (fun _ => rfl) x pa fun _ => x.proj_l2_onL2 _ sl L2.miss rfl rfl

/-! ### What a master reads at a slice (R227, R229) -/

/-- The byte of an entry at a physical address. -/
def MergeEnt.byteAt (e : MergeEnt) (pa : Nat) : Option Byte :=
  if e.pa = lineOf pa then e.bytes.lookup (pa % 128) else none

/-- The byte at a physical address in the newest entry that holds it. -/
def mergedByte (es : List MergeEnt) (pa : Nat) : Option Byte := es.reverse.findSome? fun e => e.byteAt pa

theorem mergedByte_cons (e : MergeEnt) (es : List MergeEnt) (pa : Nat) :
    mergedByte (e :: es) pa = (mergedByte es pa).or (e.byteAt pa) := by
  simp [mergedByte, List.findSome?_append]

theorem mergedByte_append_singleton (es : List MergeEnt) (e : MergeEnt) (pa : Nat) :
    mergedByte (es ++ [e]) pa = (e.byteAt pa).or (mergedByte es pa) := by
  simp only [mergedByte, List.reverse_append, List.reverse_singleton, List.singleton_append, List.findSome?_cons]
  cases e.byteAt pa <;> rfl

theorem MergeEnt.byteAt_of_line {e : MergeEnt} {pa : Nat} (h : lineOf pa = e.pa) :
    e.byteAt pa = e.bytes.lookup (pa % 128) := if_pos h.symm

theorem MergeEnt.byteAt_of_ne {e : MergeEnt} {pa : Nat} (h : lineOf pa ≠ e.pa) : e.byteAt pa = none := if_neg (Ne.symm h)

theorem Die.l2Byte_of_window (x : Die) {pa : Nat} (h : inWindow pa = true) :
    x.l2Byte pa = Mem.byte x.cache.l2carve (pa - windowBase) := if_pos h

theorem Die.l2Byte_of_dram (x : Die) {pa : Nat} (h : inWindow pa = false) :
    x.l2Byte pa = (mergedByte (x.l2 (sliceOf pa)).merge pa).getD (Mem.byte x.dram.cells pa) := by
  unfold Die.l2Byte mergedByte MergeEnt.byteAt
  rw [if_neg (by simp [h])]
  dsimp only
  generalize List.findSome? _ _ = b
  cases b <;> rfl

/-- What a slice's masters read depends on the carve, the merging buffers and the contents of DRAM. -/
theorem Die.l2Byte_congr {x y : Die} (hcarve : y.cache.l2carve = x.cache.l2carve)
    (hmerge : ∀ sl, (y.l2 sl).merge = (x.l2 sl).merge) (hcells : y.dram.cells = x.dram.cells) (pa : Nat) :
    y.l2Byte pa = x.l2Byte pa := by
  cases h : inWindow pa with
  | true => rw [y.l2Byte_of_window h, x.l2Byte_of_window h, hcarve]
  | false => rw [y.l2Byte_of_dram h, x.l2Byte_of_dram h, hmerge, hcells]

theorem inWindow_iff (pa : Nat) : inWindow pa = true ↔ windowBase ≤ pa ∧ pa < 0x2000000000 := by
  simp only [inWindow, Bool.and_eq_true, decide_eq_true_eq]

theorem inWindow_lineOf (pa : Nat) : inWindow (lineOf pa) = inWindow pa := by
  rw [Bool.eq_iff_iff, inWindow_iff, inWindow_iff, windowBase, lineOf]
  omega

/-- The bytes of a line have one slice (R226). -/
theorem sliceOf_lineOf (pa : Nat) : sliceOf (lineOf pa) = sliceOf pa := by
  have h128 : lineOf pa / 128 = pa / 128 := by simp only [lineOf]; omega
  have h2048 : lineOf pa / 2048 = pa / 2048 := by simp only [lineOf]; omega
  have h32768 : lineOf pa / 32768 = pa / 32768 := by simp only [lineOf]; omega
  have h524288 : lineOf pa / 524288 = pa / 524288 := by simp only [lineOf]; omega
  simp only [sliceOf, inWindow_lineOf, h128, h2048, h32768, h524288]

end Sys2Proof.Machine
end

section
/-! PROOFS. The DRAM behind the slices: reading words whose parity is right, what an entry leaves in DRAM, and what
reading, repairing, poisoning and committing leave of the parity counts and of the stores that the cores still hold (R229,
R234, R477, R479, R529). -/
namespace Sys2Proof.Machine

/-! ### What the work behind the cores leaves alone -/

/-- The registers that tell of parity errors in the L1s and the slices (R237). -/
def parityRegs : List Reg := [.locParityCnt, .l2cParityCnt, .l2cFlags]

/-- `x.KeepsStores y`: `y` has the parity counts of `x`, and its cores hold the stores that those of `x` hold. -/
structure Die.KeepsStores (x y : Die) : Prop where
  reg : ∀ r ∈ parityRegs, y.reg r = x.reg r
  merge : ∀ c, (y.l1 c).merge = (x.l1 c).merge

namespace Die.KeepsStores

variable {x y z : Die}

theorem refl (x : Die) : x.KeepsStores x := ⟨fun _ _ => rfl, fun _ => rfl⟩

theorem trans (h : x.KeepsStores y) (h' : y.KeepsStores z) : x.KeepsStores z :=
  ⟨fun r hr => (h'.reg r hr).trans (h.reg r hr), fun c => (h'.merge c).trans (h.merge c)⟩

/-- An update that leaves the registers and the L1s alone. -/
theorem of_eq (hregs : y.regs = x.regs) (hl1s : y.cache.l1s = x.cache.l1s) : x.KeepsStores y :=
  ⟨fun r _ => Die.reg_of_regs hregs r, fun c => by rw [Die.l1, Die.l1, hl1s]⟩

theorem foldl {α : Type} {f : Die → α → Die} (hf : ∀ (y : Die) a, y.KeepsStores (f y a)) (l : List α) (x : Die) :
    x.KeepsStores (l.foldl f x) := by
  induction l generalizing x with
  | nil => exact refl x
  | cons a l ih => exact (hf x a).trans (ih (f x a))

theorem setReg (x : Die) (r : Reg) (v : Word) (h : ∀ q ∈ parityRegs, q.addr [] ≠ r.addr []) :
    x.KeepsStores (x.setRegI r [] v) := ⟨fun q hq => x.regI_setRegI_ne r q [] [] v (h q hq), fun _ => rfl⟩

theorem count (x : Die) (r : Reg) (h : ∀ q ∈ parityRegs, q.addr [] ≠ r.addr []) : x.KeepsStores (x.count r) :=
  setReg x r _ h

theorem countN (x : Die) (r : Reg) (n : Nat) (h : ∀ q ∈ parityRegs, q.addr [] ≠ r.addr []) :
    x.KeepsStores (x.countN r n) := setReg x r _ h

theorem setL2 (x : Die) (t : L2) : x.KeepsStores (x.setL2 t) := of_eq rfl rfl

theorem l2Install (x : Die) (pa : Nat) : x.KeepsStores (x.l2Install pa) :=
  ⟨fun r _ => Die.reg_of_regs (x.regs_l2Install pa) r, fun c => congrArg L1.merge (x.l1_l2Install pa c)⟩

end Die.KeepsStores

/-! ### Words of DRAM (R477, R479, R529) -/

theorem Die.merge_l1_dropL1Granule (x : Die) (g : Nat) (c : CoreLoc) :
    ((x.dropL1Granule g).l1 c).merge = (x.l1 c).merge := by
  unfold Die.l1 Die.dropL1Granule
  rw [Die.cache_countN, List.find?_map]
  change (Option.getD (Option.map _ (x.cache.l1s.find? fun t => decide (t.loc = c))) (L1.fresh c)).merge = _
  cases x.cache.l1s.find? fun t => decide (t.loc = c) <;> rfl

theorem Die.keepsStores_dropL1Granule (x : Die) (g : Nat) : x.KeepsStores (x.dropL1Granule g) :=
  ⟨fun r hr => Die.regI_setRegI_ne _ .locPfDropCnt r [] [] _ (by revert r; decide), x.merge_l1_dropL1Granule g⟩

theorem Die.keepsStores_enterSafe (x : Die) : x.KeepsStores x.enterSafe := by
  unfold Die.enterSafe
  split <;> exact .of_eq rfl rfl

theorem Die.keepsStores_poison (x : Die) (g : Nat) : x.KeepsStores (x.poison g) := by
  have h : x.KeepsStores ((((x.setOwn g (ownWithState (x.ownEntry g) 3)).dropL1Granule g).flag .fltFlags 1).count
      .fltPoisonCnt) :=
    (((KeepsStores.of_eq rfl rfl : x.KeepsStores (x.setOwn g _)).trans (Die.keepsStores_dropL1Granule _ g)).trans
      (.setReg _ .fltFlags _ (by decide))).trans (.count _ .fltPoisonCnt (by decide))
  unfold Die.poison
  dsimp only
  split
  · exact h.trans (Die.keepsStores_enterSafe _)
  · exact h

theorem Die.keepsStores_unspoil (x : Die) (w : Nat) : x.KeepsStores (x.unspoil w) := .of_eq rfl rfl

theorem Die.keepsStores_repair (x : Die) (m : Mem) (w : Nat) :
    x.KeepsStores (({ x with dram.cells := m } : Die).unspoil w) := .of_eq rfl rfl

theorem keepsStores_persistentError (p x : Die) (w : Nat) (stuck : Bool) :
    x.KeepsStores (persistentError p x w stuck).1 := by
  have hcount := Die.KeepsStores.count x .fltDramParityCnt (by decide)
  unfold persistentError
  dsimp only
  split
  · have hread := hcount.trans (.count _ .fltSiblingReadCnt (by decide))
    split
    · exact hread.trans (Die.keepsStores_poison _ _)
    · have hrepair := fun m => hread.trans (Die.keepsStores_repair _ m w)
      split
      · exact (hrepair _).trans (Die.keepsStores_poison _ _)
      · exact hrepair _
  · exact hcount.trans (Die.keepsStores_poison _ _)

theorem keepsStores_readWord (p x : Die) (w fails : Nat) : x.KeepsStores (readWord p x w fails).1 := by
  unfold readWord
  dsimp only
  split
  · exact .refl x
  · split
    · exact .countN x .fltDramRereadCnt fails (by decide)
    · exact (Die.KeepsStores.countN x .fltDramRereadCnt 2 (by decide)).trans (keepsStores_persistentError p _ w _)

/-- A word whose parity is right reads at once. -/
theorem readWord_of_clean (p : Die) {x : Die} {w : Nat} (h : w ∉ x.dram.spoiled) : readWord p x w 0 = (x, true) := by
  simp [readWord, h]

/-- A line whose words all have right parity reads at once. -/
theorem readLine_of_clean (p : Die) {x : Die} {line : Nat} (hline : line % 128 = 0)
    (h : ∀ w ∈ x.dram.spoiled, w / 16 ≠ line / 128) : readLine p x line [] = (x, true) := by
  have hword : ∀ i ∈ List.range 16, readWord p x (line / 8 + i) 0 = (x, true) := fun i hi =>
    readWord_of_clean p fun hw => h _ hw (by have := List.mem_range.mp hi; omega)
  unfold readLine
  generalize List.range 16 = is at hword
  induction is with
  | nil => rfl
  | cons i is ih =>
    rw [List.foldl_cons, List.lookup_nil, Option.getD_none, hword i (.head _)]
    exact ih fun j hj => hword j (.tail _ hj)

theorem Die.parityLine_cases (x : Die) (pa : Nat) : x.parityLine pa = x ∨
    ∃ l, x.parityLine pa = ({ x with dram.parLines := l } : Die).count .drcParMissCnt := by
  unfold Die.parityLine
  dsimp only
  split
  · exact .inl rfl
  · exact .inr ⟨_, rfl⟩

@[simp] theorem Die.cells_parityLine (x : Die) (pa : Nat) : (x.parityLine pa).dram.cells = x.dram.cells := by
  obtain h | ⟨l, h⟩ := x.parityLine_cases pa <;> exact congrArg (fun y => y.dram.cells) h

@[simp] theorem Die.spoiled_parityLine (x : Die) (pa : Nat) : (x.parityLine pa).dram.spoiled = x.dram.spoiled := by
  obtain h | ⟨l, h⟩ := x.parityLine_cases pa <;> exact congrArg (fun y => y.dram.spoiled) h

@[simp] theorem Die.cache_parityLine (x : Die) (pa : Nat) : (x.parityLine pa).cache = x.cache := by
  obtain h | ⟨l, h⟩ := x.parityLine_cases pa <;> exact congrArg (fun y => y.cache) h

@[simp] theorem Die.l1_parityLine (x : Die) (pa : Nat) (c : CoreLoc) : (x.parityLine pa).l1 c = x.l1 c := by
  rw [Die.l1, Die.l1, Die.cache_parityLine]

@[simp] theorem Die.l2_parityLine (x : Die) (pa : Nat) (sl : Fin 16) : (x.parityLine pa).l2 sl = x.l2 sl := by
  rw [Die.l2, Die.l2, Die.cache_parityLine]

theorem Die.keepsStores_parityLine (x : Die) (pa : Nat) : x.KeepsStores (x.parityLine pa) := by
  obtain h | ⟨l, h⟩ := x.parityLine_cases pa <;> rw [h]
  · exact .refl x
  · exact (KeepsStores.of_eq rfl rfl : x.KeepsStores { x with dram.parLines := l }).trans
      (.count _ .drcParMissCnt (by decide))

/-! ### Committing an entry (R229) -/

/-- A byte written at its place from an address, where there is one. -/
def Mem.put (f : Nat → Option Byte) (a : Nat) (m : Mem) (i : Nat) : Mem :=
  match f i with
  | some b => Mem.setByte m (a + i) b
  | none => m

theorem Mem.byte_put (f : Nat → Option Byte) (a : Nat) (m : Mem) (i : Nat) :
    Mem.byte (Mem.put f a m i) (a + i) = (f i).getD (Mem.byte m (a + i)) := by
  unfold Mem.put
  cases f i <;> simp

theorem Mem.byte_put_ne (f : Nat → Option Byte) (a : Nat) (m : Mem) {i c : Nat} (h : c ≠ a + i) :
    Mem.byte (Mem.put f a m i) c = Mem.byte m c := by
  unfold Mem.put
  cases f i
  · rfl
  · exact Mem.byte_setByte_ne m _ _ h

theorem Mem.byte_foldl_put_ne (f : Nat → Option Byte) (a : Nat) (m : Mem) {is : List Nat} {c : Nat}
    (h : ∀ i ∈ is, c ≠ a + i) : Mem.byte (is.foldl (Mem.put f a) m) c = Mem.byte m c := by
  induction is generalizing m with
  | nil => rfl
  | cons i is ih => exact (ih _ fun j hj => h j (.tail _ hj)).trans (Mem.byte_put_ne f a m (h i (.head _)))

theorem Mem.byte_foldl_put (f : Nat → Option Byte) (a : Nat) (m : Mem) {is : List Nat} {j : Nat} (h : j ∈ is) :
    Mem.byte (is.foldl (Mem.put f a) m) (a + j) = (f j).getD (Mem.byte m (a + j)) := by
  induction is generalizing m with
  | nil => simp at h
  | cons i is ih =>
    rw [List.foldl_cons]
    by_cases hji : j = i
    · subst hji
      by_cases hmem : j ∈ is
      · rw [ih _ hmem, Mem.byte_put]
        cases f j <;> rfl
      · rw [Mem.byte_foldl_put_ne f a _ fun k hk hjk => hmem (by rwa [show j = k by omega]), Mem.byte_put]
    · rw [ih _ ((List.mem_cons.mp h).resolve_left hji), Mem.byte_put_ne f a m (by omega)]

/-- A word of an entry is read before it is written in part (R529). -/
def readForCommit (p x : Die) (e : MergeEnt) (w : Nat) (whole : Bool) (fails : List (Nat × Nat)) : Die × Bool :=
  if whole then (x, true) else readWord p (x.count .drcRmwCnt) ((e.pa + 8 * w) / 8) ((fails.lookup w).getD 0)

/-- The bytes of a word of an entry, in DRAM. -/
def Die.storeWord (x : Die) (e : MergeEnt) (w : Nat) : Die :=
  { x with dram.cells :=
      (List.range 8).foldl (Mem.put (fun i => e.bytes.lookup (8 * w + i)) (e.pa + 8 * w)) x.dram.cells }

/-- The parity of a word that has been written, and the record of one that could not be read (R234, R477). -/
def Die.markWord (x : Die) (e : MergeEnt) (w : Nat) (good : Bool) : Die :=
  let y := if e.spoil.getLsbD w || !good then x.spoilWord ((e.pa + 8 * w) / 8) else x.unspoil ((e.pa + 8 * w) / 8)
  if good then y else y.note clsDramParity (.dram (channelOf (e.pa + 8 * w)))
    (FaultInfo.mk 0 e.ctx 0 (e.pa + 8 * w) ((e.pa + 8 * w) / 262144))

/-- A word that has been written goes to the standby (R38). -/
def Die.mirrorWord (x p : Die) (e : MergeEnt) (w : Nat) (good : Bool) : Die :=
  if mirrors p x then
    { x with pair.mirOut := x.pair.mirOut ++
        [.write (e.pa + 8 * w) ((List.range 8).map fun i => Mem.byte x.dram.cells (e.pa + 8 * w + i))] ++
        (if e.spoil.getLsbD w || !good then [.spoil ((e.pa + 8 * w) / 8)] else []) }
  else x

theorem foldl_storeByte (f : Nat → Option Byte) (a : Nat) (is : List Nat) (x : Die) :
    is.foldl (fun (y : Die) i => match f i with
      | some b => { y with dram.cells := Mem.setByte y.dram.cells (a + i) b }
      | none => y) x = { x with dram.cells := is.foldl (Mem.put f a) x.dram.cells } := by
  induction is generalizing x with
  | nil => rfl
  | cons i is ih =>
    rw [List.foldl_cons, List.foldl_cons, ih]
    unfold Mem.put
    cases f i <;> rfl

theorem commitWord_eq (p x : Die) (e : MergeEnt) (w : Nat) (whole : Bool) (fails : List (Nat × Nat)) :
    commitWord p x e w whole fails =
      let r := readForCommit p x e w whole fails
      ((r.1.storeWord e w).markWord e w r.2).mirrorWord p e w r.2 := by
  simp only [Die.storeWord, ← foldl_storeByte]
  rfl

theorem keepsStores_readForCommit (p x : Die) (e : MergeEnt) (w : Nat) (whole : Bool) (fails : List (Nat × Nat)) :
    x.KeepsStores (readForCommit p x e w whole fails).1 := by
  unfold readForCommit
  split
  · exact .refl x
  · exact (Die.KeepsStores.count x .drcRmwCnt (by decide)).trans (keepsStores_readWord p _ _ _)

theorem Die.keepsStores_spoilWord (x : Die) (w : Nat) : x.KeepsStores (x.spoilWord w) := by
  unfold Die.spoilWord
  split
  · exact .refl x
  · exact .of_eq rfl rfl

theorem Die.keepsStores_note (x : Die) (cls : Byte) (m : Master) (i : FaultInfo) : x.KeepsStores (x.note cls m i) :=
  .of_eq rfl rfl

theorem Die.keepsStores_markWord (x : Die) (e : MergeEnt) (w : Nat) (good : Bool) :
    x.KeepsStores (x.markWord e w good) := by
  have hmark : ∀ b : Bool, x.KeepsStores (if b then x.spoilWord ((e.pa + 8 * w) / 8) else x.unspoil ((e.pa + 8 * w) / 8))
    | true => x.keepsStores_spoilWord _
    | false => x.keepsStores_unspoil _
  unfold Die.markWord
  dsimp only
  split
  · exact hmark _
  · exact (hmark _).trans (Die.keepsStores_note _ _ _ _)

/-- A mirrored word changes the mirror stream alone. -/
theorem Die.mirrorWord_cases (x p : Die) (e : MergeEnt) (w : Nat) (good : Bool) :
    ∃ l, x.mirrorWord p e w good = { x with pair.mirOut := l } := by
  unfold Die.mirrorWord
  split
  · exact ⟨_, rfl⟩
  · exact ⟨_, rfl⟩

theorem keepsStores_commitWord (p x : Die) (e : MergeEnt) (w : Nat) (whole : Bool) (fails : List (Nat × Nat)) :
    x.KeepsStores (commitWord p x e w whole fails) := by
  have hread := keepsStores_readForCommit p x e w whole fails
  rw [commitWord_eq]
  generalize readForCommit p x e w whole fails = r at hread
  obtain ⟨l, hl⟩ := Die.mirrorWord_cases ((r.1.storeWord e w).markWord e w r.2) p e w r.2
  have hstore : r.1.KeepsStores (r.1.storeWord e w) := .of_eq rfl rfl
  refine ((hread.trans hstore).trans (Die.keepsStores_markWord _ e w r.2)).trans ?_
  rw [hl]
  exact .of_eq rfl rfl

theorem keepsStores_commitEntry (p x : Die) (e : MergeEnt) (fails : List (Nat × Nat)) :
    x.KeepsStores (commitEntry p x e fails) := by
  have hwords := Die.KeepsStores.foldl (f := fun y wp => commitWord p y e wp.1 wp.2 fails)
    (fun y wp => keepsStores_commitWord p y e wp.1 wp.2 fails) (entryWords e) (x.parityLine e.pa)
  exact (((x.keepsStores_parityLine e.pa).trans hwords).trans (.setL2 _ _)).trans (.count _ .l2cDrainCnt (by decide))

theorem keepsStores_commitOldest (p x : Die) (sl : Fin 16) : x.KeepsStores (commitOldest p x sl) := by
  unfold commitOldest
  split
  · exact .refl x
  · exact keepsStores_commitEntry p x _ []

/-! ### What an entry leaves in DRAM -/

/-- `y` is `x` with some words of an entry stored with right parity. -/
structure Die.StoresWords (e : MergeEnt) (ws : List Nat) (x y : Die) : Prop where
  cache : y.cache = x.cache
  spoiled : ∀ w ∈ y.dram.spoiled, w ∈ x.dram.spoiled
  below : ∀ a, a < e.pa → Mem.byte y.dram.cells a = Mem.byte x.dram.cells a
  byte : ∀ k, Mem.byte y.dram.cells (e.pa + k) =
    if k / 8 ∈ ws then (e.bytes.lookup k).getD (Mem.byte x.dram.cells (e.pa + k)) else Mem.byte x.dram.cells (e.pa + k)

theorem Die.StoresWords.nil (e : MergeEnt) (x : Die) : x.StoresWords e [] x :=
  ⟨rfl, fun _ h => h, fun _ _ => rfl, fun _ => (if_neg List.not_mem_nil).symm⟩

theorem Die.StoresWords.cons {e : MergeEnt} {w : Nat} {ws : List Nat} {x y z : Die} (h : x.StoresWords e [w] y)
    (h' : y.StoresWords e ws z) : x.StoresWords e (w :: ws) z where
  cache := h'.cache.trans h.cache
  spoiled v hv := h.spoiled v (h'.spoiled v hv)
  below a ha := (h'.below a ha).trans (h.below a ha)
  byte k := by
    rw [h'.byte, h.byte]
    by_cases hws : k / 8 ∈ ws
    · rw [if_pos hws, if_pos (List.mem_cons_of_mem _ hws)]
      cases e.bytes.lookup k <;> simp
    · simp [hws]

theorem readForCommit_of_clean (p : Die) {x : Die} {e : MergeEnt} {w : Nat} (whole : Bool)
    (h : (e.pa + 8 * w) / 8 ∉ x.dram.spoiled) : ∃ y, readForCommit p x e w whole [] = (y, true) ∧
      y.cache = x.cache ∧ y.dram = x.dram := by
  cases whole with
  | true => exact ⟨x, rfl, rfl, rfl⟩
  | false => exact ⟨x.count .drcRmwCnt, readWord_of_clean p h, rfl, rfl⟩

/-- Storing a word changes its bytes alone. -/
theorem Die.byte_storeWord (x : Die) (e : MergeEnt) (w k : Nat) : Mem.byte (x.storeWord e w).dram.cells (e.pa + k) =
    if k / 8 = w then (e.bytes.lookup k).getD (Mem.byte x.dram.cells (e.pa + k))
    else Mem.byte x.dram.cells (e.pa + k) := by
  unfold Die.storeWord
  dsimp only
  split
  case isTrue hk =>
    have hmem : k % 8 ∈ List.range 8 := List.mem_range.mpr (by omega)
    have hput := Mem.byte_foldl_put (fun i => e.bytes.lookup (8 * w + i)) (e.pa + 8 * w) x.dram.cells hmem
    rwa [show e.pa + 8 * w + k % 8 = e.pa + k by omega, show 8 * w + k % 8 = k by omega] at hput
  case isFalse hk =>
    exact Mem.byte_foldl_put_ne _ _ _ fun i hi => by have := List.mem_range.mp hi; omega

theorem storesWords_commitWord (p : Die) {x : Die} {e : MergeEnt} {w : Nat} (whole : Bool) (hspoil : e.spoil = 0)
    (h : (e.pa + 8 * w) / 8 ∉ x.dram.spoiled) : x.StoresWords e [w] (commitWord p x e w whole []) := by
  obtain ⟨y, hread, hcache, hdram⟩ := readForCommit_of_clean p whole h
  have hmark : (y.storeWord e w).markWord e w true = (y.storeWord e w).unspoil ((e.pa + 8 * w) / 8) := by
    simp [Die.markWord, hspoil]
  obtain ⟨l, hl⟩ := Die.mirrorWord_cases ((y.storeWord e w).unspoil ((e.pa + 8 * w) / 8)) p e w true
  rw [commitWord_eq, hread]
  dsimp only
  rw [hmark, hl]
  refine ⟨hcache, fun v hv => ?_, fun a ha => ?_, fun k => ?_⟩
  · exact hdram ▸ List.mem_of_mem_filter hv
  · refine (Mem.byte_foldl_put_ne _ _ _ fun i _ => by omega).trans ?_
    rw [hdram]
  · simp only [List.mem_singleton, ← hdram]
    exact y.byte_storeWord e w k

theorem storesWords_foldl_commitWord (p : Die) {e : MergeEnt} (hspoil : e.spoil = 0) (ws : List (Nat × Bool)) {x : Die}
    (h : ∀ w ∈ ws, (e.pa + 8 * w.1) / 8 ∉ x.dram.spoiled) :
    x.StoresWords e (ws.map Prod.fst) (ws.foldl (fun y wp => commitWord p y e wp.1 wp.2 []) x) := by
  induction ws generalizing x with
  | nil => exact .nil e x
  | cons w ws ih =>
    have hword := storesWords_commitWord p w.2 hspoil (h w (.head _))
    exact hword.cons (ih fun v hv hbad => h v (.tail _ hv) (hword.spoiled _ hbad))

theorem lt_of_mem_entryWords {e : MergeEnt} {w : Nat × Bool} (h : w ∈ entryWords e) : w.1 < 16 := by
  obtain ⟨v, hv, hw⟩ := List.mem_filterMap.mp h
  dsimp only at hw
  split at hw
  · cases hw
  · cases hw
    exact List.mem_range.mp hv

/-- A word that an entry does not touch has no byte in it. -/
theorem lookup_of_not_mem_entryWords {e : MergeEnt} {k : Nat} (hk : k < 128)
    (h : k / 8 ∉ (entryWords e).map Prod.fst) : e.bytes.lookup k = none := by
  by_contra hsome
  refine h (List.mem_map.mpr
    ⟨(k / 8, ((List.range 8).filter fun i => (e.bytes.lookup (8 * (k / 8) + i)).isSome).length == 8),
    List.mem_filterMap.mpr ⟨k / 8, List.mem_range.mpr (by omega), if_neg fun hn => ?_⟩, rfl⟩)
  have hnone := List.filter_eq_nil_iff.mp (List.eq_nil_of_length_eq_zero hn) (k % 8) (List.mem_range.mpr (by omega))
  rw [show 8 * (k / 8) + k % 8 = k by omega] at hnone
  exact hsome (Option.not_isSome_iff_eq_none.mp hnone)

/-- An entry leaves its slice. -/
def L2.dropEntry (e : MergeEnt) (t : L2) : L2 := { t with merge := dropFirst (fun m => decide (m = e)) t.merge }

/-- An entry whose line has right parity reaches DRAM: its bytes are stored, and it leaves its slice (R229). -/
structure EntryCommitted (e : MergeEnt) (x y : Die) : Prop where
  slice : ∀ sl, (y.l2 sl).merge =
    if sl = sliceOf e.pa then dropFirst (fun m => decide (m = e)) (x.l2 sl).merge else (x.l2 sl).merge
  carve : y.cache.l2carve = x.cache.l2carve
  byte : ∀ i, i < 128 → Mem.byte y.dram.cells (e.pa + i) = (e.bytes.lookup i).getD (Mem.byte x.dram.cells (e.pa + i))
  byte_ne : ∀ a, lineOf a ≠ e.pa → Mem.byte y.dram.cells a = Mem.byte x.dram.cells a

theorem entryCommitted_commitEntry (p : Die) {x : Die} {e : MergeEnt} (hspoil : e.spoil = 0) (hline : e.pa % 128 = 0)
    (h : ∀ w ∈ x.dram.spoiled, w / 16 ≠ e.pa / 128) : EntryCommitted e x (commitEntry p x e []) := by
  have hwords := storesWords_foldl_commitWord p hspoil (entryWords e) (x := x.parityLine e.pa) fun w hw hbad =>
    h _ (x.spoiled_parityLine e.pa ▸ hbad) (by have := lt_of_mem_entryWords hw; omega)
  have hcache := hwords.cache.trans (x.cache_parityLine e.pa)
  have hcells := x.cells_parityLine e.pa
  unfold commitEntry
  dsimp only
  generalize (entryWords e).foldl (fun y wp => commitWord p y e wp.1 wp.2 []) (x.parityLine e.pa) = y at hwords hcache ⊢
  have hslices : ∀ sl, y.l2 sl = x.l2 sl := fun sl => by rw [Die.l2, Die.l2, hcache]
  refine ⟨fun sl => ?_, (congrArg Caches.l2carve hcache :), fun i hi => ?_, fun a ha => ?_⟩
  · split
    case isTrue hsl =>
      subst hsl
      rw [← hslices]
      exact congrArg L2.merge (y.l2_onL2 (sliceOf e.pa) (f := L2.dropEntry e) rfl)
    case isFalse hsl =>
      rw [← hslices]
      exact congrArg L2.merge (y.l2_onL2_ne (f := L2.dropEntry e) rfl hsl)
  · refine (hwords.byte i).trans ?_
    rw [hcells]
    split
    · rfl
    · rw [lookup_of_not_mem_entryWords hi ‹_›]; rfl
  · rcases Nat.lt_or_ge a e.pa with hlt | hge
    · exact (hwords.below a hlt).trans (by rw [hcells])
    · obtain ⟨k, rfl⟩ := Nat.exists_eq_add_of_le hge
      refine (hwords.byte k).trans ?_
      rw [hcells, if_neg fun hk => ?_]
      obtain ⟨w, hw, hwk⟩ := List.mem_map.mp hk
      have := lt_of_mem_entryWords hw
      exact ha (by simp only [lineOf]; omega)

end Sys2Proof.Machine
end

section
/-! PROOFS. O28: the merging buffers of the cores and of the slices drain (R218 to R220, R229, R234). -/
namespace Sys2Proof.Machine

/-! ### Entries of a slice's buffer (R229) -/

/-- An L1's buffer holds these entries. -/
def L1.setMerge (es : List MergeEnt) (t : L1) : L1 := { t with merge := es }

/-- A slice's buffer holds these entries. -/
def L2.setMerge (es : List MergeEnt) (t : L2) : L2 := { t with merge := es }

/-- The entry that a write opens. -/
def MergeEnt.opened (x : Die) (ctx ln : Nat) (new : List (Nat × Byte)) (spoil : BitVec 16) : MergeEnt :=
  { pa := ln, bytes := new, closed := false, born := x.time, asked := false, ctx := ctx, jobs := [], spoil := spoil }

theorem l2MergeMask_of_room (p : Die) {x : Die} (ctx : Nat) {ln : Nat} (new : List (Nat × Byte)) (spoil : BitVec 16)
    (hroom : (x.l2 (sliceOf ln)).merge.length < 32)
    (hclosed : ∀ m ∈ (x.l2 (sliceOf ln)).merge, m.pa = ln → m.closed = true) :
    l2MergeMask p x ctx ln new spoil =
      x.onL2 (sliceOf ln) fun t => { t with merge := t.merge ++ [MergeEnt.opened x ctx ln new spoil] } := by
  have hno : ((x.l2 (sliceOf ln)).merge.any fun e => e.pa == ln && !e.closed) = false := by
    simpa using hclosed
  simp only [l2MergeMask, hno, hroom, if_true, Bool.false_eq_true, if_false]
  rfl

theorem keepsStores_l2MergeMask (p x : Die) (ctx ln : Nat) (new : List (Nat × Byte)) (spoil : BitVec 16) :
    x.KeepsStores (l2MergeMask p x ctx ln new spoil) := by
  unfold l2MergeMask
  dsimp only
  split
  · exact .setL2 _ _
  · split
    · exact .setL2 _ _
    · exact (keepsStores_commitOldest p x _).trans (.setL2 _ _)

theorem l2CountWrite_cases (x : Die) (pa : Nat) :
    l2CountWrite x pa = x.count .l2cHitCnt ∨ l2CountWrite x pa = x.count .l2cMissCnt := by
  unfold l2CountWrite
  split
  · exact .inl rfl
  · exact .inr rfl

theorem keepsStores_l2CountWrite (x : Die) (pa : Nat) : x.KeepsStores (l2CountWrite x pa) := by
  obtain h | h := l2CountWrite_cases x pa <;> rw [h] <;> exact .count _ _ (by decide)

@[simp] theorem Die.cache_l2CountWrite (x : Die) (pa : Nat) : (l2CountWrite x pa).cache = x.cache := by
  obtain h | h := l2CountWrite_cases x pa <;> exact congrArg (fun y => y.cache) h

@[simp] theorem Die.dram_l2CountWrite (x : Die) (pa : Nat) : (l2CountWrite x pa).dram = x.dram := by
  obtain h | h := l2CountWrite_cases x pa <;> exact congrArg (fun y => y.dram) h

/-! ### An entry of an L1 is written (R220, R232, R234) -/

/-- A line leaves a slice and its side buffer. -/
def L2.dropLine (pa : Nat) (t : L2) : L2 :=
  { t with lines := t.lines.filter fun l => l.pa != pa, side := t.side.filter fun l => l.pa != pa }

theorem l1EntryWrite_of_spoiled (p x : Die) {e : MergeEnt} {par : BitVec 16} (hwin : inWindow e.pa = false)
    (hpar : par ≠ 0) : l1EntryWrite p x e par =
      ((l2MergeMask p (l2CountWrite x e.pa) e.ctx e.pa e.bytes par).onL2 (sliceOf e.pa) (L2.dropLine e.pa)).count
        .locParityCnt := by
  simp only [l1EntryWrite, hwin, hpar, ne_eq, not_false_eq_true, if_true, Bool.false_eq_true, if_false]
  rfl

theorem foldl_setByte_l2carve (a : Nat) (bs : List (Nat × Byte)) (x : Die) :
    bs.foldl (fun (y : Die) b => { y with cache.l2carve := Mem.setByte y.cache.l2carve (a + b.1) b.2 }) x =
      { x with cache.l2carve := bs.foldl (fun m b => Mem.setByte m (a + b.1) b.2) x.cache.l2carve } := by
  induction bs generalizing x with
  | nil => rfl
  | cons b bs ih => rw [List.foldl_cons, List.foldl_cons, ih]

theorem l1EntryWrite_of_window (p x : Die) {e : MergeEnt} (hwin : inWindow e.pa = true) : l1EntryWrite p x e 0 =
    let y := l2CountWrite x e.pa
    { y with cache.l2carve :=
        e.bytes.foldl (fun m b => Mem.setByte m (e.pa - windowBase + b.1) b.2) y.cache.l2carve } := by
  rw [← foldl_setByte_l2carve]
  simp only [l1EntryWrite, hwin, if_true]

/-- The bytes of an entry written at its slice: what the slice's masters read, and nothing else, changes by them. -/
structure EntryWritten (e : MergeEnt) (x y : Die) : Prop where
  l1 : ∀ c, y.l1 c = x.l1 c
  dram : y.dram = x.dram
  byte : ∀ pa, y.l2Byte pa =
    if lineOf pa = e.pa then (e.bytes.lookup (pa % 128)).getD (x.l2Byte pa) else x.l2Byte pa

theorem entryWritten_append {x : Die} {e f : MergeEnt} (hpa : f.pa = e.pa) (hbytes : f.bytes = e.bytes)
    (hwin : inWindow e.pa = false) :
    EntryWritten e x (x.onL2 (sliceOf e.pa) fun t => { t with merge := t.merge ++ [f] }) := by
  refine ⟨fun _ => rfl, rfl, fun pa => ?_⟩
  by_cases hline : lineOf pa = e.pa
  · have hpaWin : inWindow pa = false := by rw [← inWindow_lineOf, hline, hwin]
    have hslice : sliceOf pa = sliceOf e.pa := by rw [← sliceOf_lineOf, hline]
    rw [if_pos hline, Die.l2Byte_of_dram _ hpaWin, Die.l2Byte_of_dram _ hpaWin, hslice, x.l2_onL2 _ rfl,
      mergedByte_append_singleton, MergeEnt.byteAt_of_line (hline.trans hpa.symm), hbytes]
    cases e.bytes.lookup (pa % 128) <;> rfl
  · rw [if_neg hline]
    cases hpaWin : inWindow pa with
    | true => rw [Die.l2Byte_of_window _ hpaWin, Die.l2Byte_of_window _ hpaWin]; rfl
    | false =>
      rw [Die.l2Byte_of_dram _ hpaWin, Die.l2Byte_of_dram _ hpaWin]
      by_cases hslice : sliceOf pa = sliceOf e.pa
      · rw [hslice, x.l2_onL2 _ rfl, mergedByte_append_singleton, MergeEnt.byteAt_of_ne (hpa ▸ hline)]
        rfl
      · rw [x.l2_onL2_ne rfl hslice]
        rfl

theorem EntryWritten.l2Install {e : MergeEnt} {x y : Die} (h : EntryWritten e x y) (pa : Nat) :
    EntryWritten e x (y.l2Install pa) where
  l1 c := (y.l1_l2Install pa c).trans (h.l1 c)
  dram := (y.dram_l2Install pa).trans h.dram
  byte a := (Die.l2Byte_congr (y.l2carve_l2Install pa) (y.merge_l2_l2Install pa)
    (congrArg Dram.cells (y.dram_l2Install pa)) a).trans (h.byte a)

theorem entryWritten_l1EntryWrite (p : Die) {x : Die} {e : MergeEnt} (hwin : inWindow e.pa = false)
    (hroom : (x.l2 (sliceOf e.pa)).merge.length < 32)
    (hclosed : ∀ m ∈ (x.l2 (sliceOf e.pa)).merge, m.pa = e.pa → m.closed = true) :
    EntryWritten e x (l1EntryWrite p x e 0) := by
  have hcache := x.cache_l2CountWrite e.pa
  have hl2 : ∀ sl, (l2CountWrite x e.pa).l2 sl = x.l2 sl := fun sl => by rw [Die.l2, Die.l2, hcache]
  have hmerge := l2MergeMask_of_room p e.ctx e.bytes 0 ((hl2 _).symm ▸ hroom) ((hl2 _).symm ▸ hclosed)
  have hput : EntryWritten e (l2CountWrite x e.pa) (l2MergeMask p (l2CountWrite x e.pa) e.ctx e.pa e.bytes 0) :=
    hmerge ▸ entryWritten_append rfl rfl hwin
  have hwritten : EntryWritten e x (l2MergeMask p (l2CountWrite x e.pa) e.ctx e.pa e.bytes 0) :=
    { l1 := fun c => (hput.l1 c).trans (by rw [Die.l1, Die.l1, hcache])
      dram := hput.dram.trans (x.dram_l2CountWrite e.pa)
      byte := fun pa => by
        rw [hput.byte, Die.l2Byte_congr (congrArg _ hcache) (fun sl => congrArg _ (hl2 sl))
          (congrArg _ (x.dram_l2CountWrite e.pa)) pa] }
  simp only [l1EntryWrite, hwin, ne_eq, not_true_eq_false, Bool.false_eq_true, if_false]
  split
  · exact hwritten.l2Install e.pa
  · exact hwritten

/-! ### When an entry drains (R219, R229) -/

/-- The oldest entry of an L1's buffer is due: WB_HIGH entries, WB_AGE, or a fence or a request asks for it. -/
def Die.l1Due (x : Die) (c : CoreLoc) (e : MergeEnt) : Prop :=
  wbits (x.regU .locCfg c.cl.val) 20 16 ≤ (x.l1 c).merge.length ∨
    wbits (x.regU .locCfg c.cl.val) 15 8 ≤ x.aclkSince e.born ∨ e.asked = true

/-- The oldest entry of a slice's buffer is due. -/
def Die.l2Due (x : Die) (sl : Fin 16) (e : MergeEnt) : Prop :=
  wbits (x.regU .l2cCfg (6 + sl.val)) 20 16 ≤ (x.l2 sl).merge.length ∨
    10 * wbits (x.regU .l2cCfg (6 + sl.val)) 15 8 ≤ x.since e.born ∨ e.asked = true

section
variable {x : Die} {c : CoreLoc} {sl : Fin 16} {e : MergeEnt} {es : List MergeEnt}

theorem l1DrainDie_of_due (h : (x.l1 c).merge = e :: es) (hopen : e.closed = false) (hdue : x.l1Due c e) :
    l1DrainDie c x = x.onL1 c (L1.setMerge ({ e with closed := true } :: es)) := by
  simp only [l1DrainDie, h]
  refine if_pos ?_
  simpa only [Die.l1Due, h, hopen, Bool.not_false, Bool.true_and, Bool.or_eq_true, decide_eq_true_eq, or_assoc] using hdue

theorem l1DrainDie_of_not_due (h : (x.l1 c).merge = e :: es) (hdue : ¬ x.l1Due c e) : l1DrainDie c x = x := by
  simp only [l1DrainDie, h]
  refine if_neg fun hrun => hdue ?_
  simp only [Bool.and_eq_true, Bool.or_eq_true, decide_eq_true_eq, or_assoc] at hrun
  simpa only [Die.l1Due, h] using hrun.2

theorem l2DrainDie_of_due (h : (x.l2 sl).merge = e :: es) (hopen : e.closed = false) (hdue : x.l2Due sl e) :
    l2DrainDie sl x = x.onL2 sl (L2.setMerge ({ e with closed := true } :: es)) := by
  simp only [l2DrainDie, h]
  refine if_pos ?_
  simpa only [Die.l2Due, h, hopen, Bool.not_false, Bool.true_and, Bool.or_eq_true, decide_eq_true_eq, or_assoc] using hdue

theorem l2DrainDie_of_not_due (h : (x.l2 sl).merge = e :: es) (hdue : ¬ x.l2Due sl e) : l2DrainDie sl x = x := by
  simp only [l2DrainDie, h]
  refine if_neg fun hrun => hdue ?_
  simp only [Bool.and_eq_true, Bool.or_eq_true, decide_eq_true_eq, or_assoc] at hrun
  simpa only [Die.l2Due, h] using hrun.2

/-! ### The entry that drains -/

theorem l1WriteDoneDie_of_open (p : Die) (h : (x.l1 c).merge = e :: es) (hopen : e.closed = false) (par : BitVec 16) :
    l1WriteDoneDie c par p x = x := by
  simp only [l1WriteDoneDie, h, hopen, Bool.false_eq_true, if_false]

theorem l1WriteDoneDie_of_closed (p : Die) (h : (x.l1 c).merge = e :: es) (hclosed : e.closed = true) (par : BitVec 16) :
    l1WriteDoneDie c par p x = l1EntryWrite p (x.onL1 c (L1.setMerge es)) e par := by
  simp only [l1WriteDoneDie, l1WriteOldest, h, hclosed, if_true]
  rfl

/-- The oldest entry of an L1's buffer frees. -/
theorem Die.merge_l1_onL1_merge (x : Die) (c : CoreLoc) (es : List MergeEnt) :
    ((x.onL1 c (L1.setMerge es)).l1 c).merge = es := by
  rw [x.l1_onL1 c (f := L1.setMerge es) rfl]; rfl

/-- A spoiled entry leaves no copy of its line in the slice, and is counted (R234). -/
theorem l1WriteDoneDie_of_spoiled (p : Die) (h : (x.l1 c).merge = e :: es) (hclosed : e.closed = true)
    (hwin : inWindow e.pa = false) {par : BitVec 16} (hpar : par ≠ 0) : let y := l1WriteDoneDie c par p x
    (y.l1 c).merge = es ∧ y.reg .locParityCnt = x.reg .locParityCnt + 1 ∧
      ∀ l ∈ (y.l2 (sliceOf e.pa)).lines, l.pa ≠ e.pa := by
  rw [l1WriteDoneDie_of_closed p h hclosed, l1EntryWrite_of_spoiled p _ hwin hpar]
  have hkeep := (keepsStores_l2CountWrite (x.onL1 c (L1.setMerge es)) e.pa).trans
    (keepsStores_l2MergeMask p _ e.ctx e.pa e.bytes par)
  generalize l2MergeMask p _ e.ctx e.pa e.bytes par = y at hkeep
  refine ⟨(hkeep.merge c).trans (x.merge_l1_onL1_merge c es), ?_, fun l hl => ?_⟩
  · exact (Die.reg_count _ .locParityCnt).trans (congrArg (· + 1) (hkeep.reg .locParityCnt (by decide)))
  · have hl2 := y.l2_onL2 (sliceOf e.pa) (f := L2.dropLine e.pa) rfl
    have hmem : l ∈ (L2.dropLine e.pa (y.l2 (sliceOf e.pa))).lines := hl2 ▸ hl
    simpa using (List.mem_filter.mp hmem).2

theorem l2CommitDie_of_open (p : Die) (h : (x.l2 sl).merge = e :: es) (hopen : e.closed = false) (par : BitVec 16)
    (fails : List (Nat × Nat)) : l2CommitDie sl par fails p x = x := by
  simp only [l2CommitDie, h, hopen, Bool.not_false, if_true]

theorem l2CommitDie_of_closed (p : Die) (h : (x.l2 sl).merge = e :: es) (hclosed : e.closed = true) (par : BitVec 16)
    (fails : List (Nat × Nat)) : l2CommitDie sl par fails p x =
      let f := { e with spoil := e.spoil ||| par }
      let y := x.onL2 sl (L2.setMerge (f :: es))
      commitEntry p (if par = 0 then y else (y.count .l2cParityCnt).flag .l2cFlags 1) f fails := by
  unfold l2CommitDie
  rw [h]
  exact if_neg (by simp [hclosed])

/-- Words that failed parity in a slice's buffer are counted and flagged (R234). -/
theorem l2CommitDie_of_spoiled (p : Die) (h : (x.l2 sl).merge = e :: es) (hclosed : e.closed = true) {par : BitVec 16}
    (hpar : par ≠ 0) (fails : List (Nat × Nat)) : let y := l2CommitDie sl par fails p x
    y.reg .l2cParityCnt = x.reg .l2cParityCnt + 1 ∧ (y.reg .l2cFlags).getLsbD 1 = true := by
  rw [l2CommitDie_of_closed p h hclosed]
  dsimp only
  rw [if_neg hpar]
  have hkeep := fun y => keepsStores_commitEntry p y { e with spoil := e.spoil ||| par } fails
  refine ⟨((hkeep _).reg .l2cParityCnt (by decide)).trans ?_, ?_⟩
  · exact (Die.reg_flag_ne _ 1 (by decide)).trans (Die.reg_count _ .l2cParityCnt)
  · rw [(hkeep _).reg .l2cFlags (by decide)]
    exact Die.getLsbD_reg_flag _ .l2cFlags (by decide)

/-- An entry that reaches DRAM changes its bytes there, and nothing that a master reads (R229). -/
theorem l2CommitDie_of_clean (p : Die) (h : (x.l2 sl).merge = e :: es) (hclosed : e.closed = true) (hspoil : e.spoil = 0)
    (hline : e.pa % 128 = 0) (hslice : sliceOf e.pa = sl) (hclean : ∀ w ∈ x.dram.spoiled, w / 16 ≠ e.pa / 128) :
    let y := l2CommitDie sl 0 [] p x
    (y.l2 sl).merge = es ∧
      (∀ i, i < 128 → Mem.byte y.dram.cells (e.pa + i) = (e.bytes.lookup i).getD (Mem.byte x.dram.cells (e.pa + i))) ∧
      (∀ a, lineOf a ≠ e.pa → Mem.byte y.dram.cells a = Mem.byte x.dram.cells a) ∧ ∀ pa, y.l2Byte pa = x.l2Byte pa := by
  subst hslice
  have hsame : ({ e with spoil := e.spoil ||| 0 } : MergeEnt) = e := by simp
  rw [l2CommitDie_of_closed p h hclosed]
  dsimp only
  rw [hsame, if_pos rfl]
  have hmerge : ∀ sl, ((x.onL2 (sliceOf e.pa) (L2.setMerge (e :: es))).l2 sl).merge = (x.l2 sl).merge :=
    fun sl => x.proj_l2_onL2 _ sl L2.merge rfl h.symm
  have hentry := entryCommitted_commitEntry p (x := x.onL2 (sliceOf e.pa) (L2.setMerge (e :: es))) hspoil hline hclean
  generalize commitEntry p _ e [] = y at hentry
  have hfree : (y.l2 (sliceOf e.pa)).merge = es := by
    rw [hentry.slice, if_pos rfl, hmerge, h]
    exact if_pos (decide_eq_true rfl)
  refine ⟨hfree, hentry.byte, hentry.byte_ne, fun pa => ?_⟩
  cases hwin : inWindow pa with
  | true => rw [Die.l2Byte_of_window _ hwin, Die.l2Byte_of_window _ hwin, hentry.carve]; rfl
  | false =>
    rw [Die.l2Byte_of_dram _ hwin, Die.l2Byte_of_dram _ hwin]
    by_cases hpa : lineOf pa = e.pa
    · have hbyte := hentry.byte (pa % 128) (Nat.mod_lt _ (by decide))
      rw [show e.pa + pa % 128 = pa by simp only [← hpa, lineOf]; omega] at hbyte
      have hslice : sliceOf pa = sliceOf e.pa := by rw [← sliceOf_lineOf, hpa]
      rw [hslice, hfree, h, mergedByte_cons, MergeEnt.byteAt_of_line hpa, hbyte]
      cases mergedByte es pa <;> cases e.bytes.lookup (pa % 128) <;> rfl
    · rw [hentry.byte_ne pa hpa]
      by_cases hslice : sliceOf pa = sliceOf e.pa
      · rw [hslice, hfree, h, mergedByte_cons, MergeEnt.byteAt_of_ne hpa, Option.or_none]
        rfl
      · rw [hentry.slice, if_neg hslice, hmerge]
        rfl

end

/-- Settles O28. An entry that drains moves its bytes one level down, where they are read as before: in the slice's buffer
they stand in the newest entry, in DRAM below the entries that remain. -/
theorem mergingBuffersDrain : Obligations.MergingBuffersDrain := by
  unfold Obligations.MergingBuffersDrain
  refine fun s d => ⟨fun c e es h => ⟨fun hopen hdue => ?_, fun hdue => ?_, fun hopen par => ?_,
    fun par hclosed hwin hpar => ?_, fun hclosed hwin => ?_, fun hclosed hwin _ hroom hothers => ?_⟩,
    fun sl e es h => ⟨fun hopen hdue => ?_, fun hdue => ?_, fun hopen par fails => ?_, fun par hclosed hpar => ?_,
      fun hclosed hspoil hline hslice hclean => ?_⟩⟩
  · refine ⟨_, nextOn_of_eq (l1DrainDie_of_due h hopen hdue), ?_⟩
    rw [State.die_setDie]
    exact ⟨(s.die d).l1_onL1 c (f := L1.setMerge _) rfl, rfl, rfl⟩
  · exact nextOn_congr (l1DrainDie_of_not_due h hdue)
  · exact nextOn_congr (l1WriteDoneDie_of_open _ h hopen par)
  · refine ⟨_, rfl, ?_⟩
    rw [State.die_onDie]
    exact l1WriteDoneDie_of_spoiled _ h hclosed hwin hpar
  · refine ⟨_, nextOn_of_eq ((l1WriteDoneDie_of_closed _ h hclosed 0).trans (l1EntryWrite_of_window _ _ hwin)), ?_⟩
    rw [State.die_setDie]
    have hcache := Die.cache_l2CountWrite ((s.die d).onL1 c (L1.setMerge es)) e.pa
    refine ⟨?_, Die.dram_l2CountWrite _ e.pa, fun a => ?_⟩
    · exact ((keepsStores_l2CountWrite _ e.pa).merge c).trans (Die.merge_l1_onL1_merge _ c es)
    · exact congrArg (fun u : Caches => Mem.byte
        (e.bytes.foldl (fun m b => Mem.setByte m (e.pa - windowBase + b.1) b.2) u.l2carve) a) hcache
  · have hwritten := entryWritten_l1EntryWrite (s.die d.other) (x := (s.die d).onL1 c (L1.setMerge es))
      hwin hroom hothers
    refine ⟨_, nextOn_of_eq (l1WriteDoneDie_of_closed _ h hclosed 0), ?_⟩
    rw [State.die_setDie]
    exact ⟨(congrArg L1.merge (hwritten.l1 c)).trans (Die.merge_l1_onL1_merge _ c es), hwritten.dram, hwritten.byte⟩
  · refine ⟨_, nextOn_of_eq (l2DrainDie_of_due h hopen hdue), ?_⟩
    rw [State.die_setDie]
    exact ⟨(s.die d).l2_onL2 sl (f := L2.setMerge _) rfl, rfl, rfl⟩
  · exact nextOn_congr (l2DrainDie_of_not_due h hdue)
  · exact nextOn_congr (l2CommitDie_of_open _ h hopen par fails)
  · refine ⟨_, rfl, ?_⟩
    rw [State.die_onDie]
    exact l2CommitDie_of_spoiled _ h hclosed hpar []
  · refine ⟨_, rfl, ?_⟩
    rw [State.die_onDie]
    exact l2CommitDie_of_clean _ h hclosed hspoil hline hslice hclean

end Sys2Proof.Machine
end

section
/-! PROOFS. O27: the lines that the L1s and the slices miss arrive (R216, R217, R228, R234, R477). -/
namespace Sys2Proof.Machine

/-! ### What a request to a slice leaves alone -/

theorem Die.KeepsStores.onL1 (x : Die) (c : CoreLoc) {f : L1 → L1} (hloc : (f (x.l1 c)).loc = (x.l1 c).loc)
    (hmerge : (f (x.l1 c)).merge = (x.l1 c).merge) : x.KeepsStores (x.onL1 c f) :=
  ⟨fun _ _ => rfl, fun c' => x.proj_l1_onL1 c c' L1.merge hloc hmerge⟩

/-- `x.Requests y`: `y` is `x` after requests between its cores and its slices, which leave parity counts, stores, lines
held and DRAM alone. -/
structure Die.Requests (x y : Die) : Prop where
  keeps : x.KeepsStores y
  dram : y.dram = x.dram
  lines : ∀ c, (y.l1 c).lines = (x.l1 c).lines

namespace Die.Requests

variable {x y z : Die}

theorem refl (x : Die) : x.Requests x := ⟨.refl x, rfl, fun _ => rfl⟩

theorem trans (h : x.Requests y) (h' : y.Requests z) : x.Requests z :=
  ⟨h.keeps.trans h'.keeps, h'.dram.trans h.dram, fun c => (h'.lines c).trans (h.lines c)⟩

theorem count (x : Die) (r : Reg) (h : ∀ q ∈ parityRegs, q.addr [] ≠ r.addr []) : x.Requests (x.count r) :=
  ⟨.count x r h, rfl, fun _ => rfl⟩

theorem setL2 (x : Die) (t : L2) : x.Requests (x.setL2 t) := ⟨.setL2 x t, rfl, fun _ => rfl⟩

theorem l2Install (x : Die) (pa : Nat) : x.Requests (x.l2Install pa) :=
  ⟨.l2Install x pa, x.dram_l2Install pa, fun c => congrArg L1.lines (x.l1_l2Install pa c)⟩

end Die.Requests

theorem requests_setAnswer (x : Die) (c : CoreLoc) (ln : Nat) (bs : List Byte) : x.Requests (setAnswer x c ln bs) :=
  ⟨.onL1 x c rfl rfl, rfl, fun c' => x.proj_l1_onL1 c c' L1.lines rfl rfl⟩

theorem requests_l2Request (x : Die) (c : CoreLoc) (ln : Nat) : x.Requests (l2Request x c ln) := by
  unfold l2Request
  dsimp only
  split
  · exact (Die.Requests.count x .l2cHitCnt (by decide)).trans (requests_setAnswer _ c ln _)
  · split
    · exact ((((Die.Requests.setL2 x _).trans (.l2Install _ ln)).trans (.count _ .l2cPfUseCnt (by decide))).trans
        (.count _ .l2cHitCnt (by decide))).trans (requests_setAnswer _ c ln _)
    · split
      · split
        · exact .refl x
        · exact ((Die.Requests.setL2 x _).trans (.count _ .l2cMissCnt (by decide))).trans
            (.count _ .l2cMergeCnt (by decide))
      · split
        · exact .refl x
        · exact (Die.Requests.setL2 x _).trans (.count _ .l2cMissCnt (by decide))

/-! ### Lines and their parity errors (R212, R234, R235) -/

/-- An L1 holds these lines. -/
def L1.setLines (ls : List L1Line) (t : L1) : L1 := { t with lines := ls }

/-- An L1 takes a line or leaves it: at most its list of lines changes, and a free value may be used. -/
theorem l1Install_cases (x : Die) (c : CoreLoc) (l : L1Line) : (l1Install x c l).1 = x ∨
    ∃ ls, (l1Install x c l).1 = x.onL1 c (L1.setLines ls) ∨
      (l1Install x c l).1 = (x.onL1 c (L1.setLines ls)).tick := by
  unfold l1Install
  dsimp only
  split
  · split
    · exact .inr ⟨_, .inl rfl⟩
    · exact .inl rfl
  · split
    · exact .inr ⟨_, .inl rfl⟩
    · split
      · exact .inl rfl
      · exact .inr ⟨_, .inr rfl⟩

theorem l1Install_keeps (x : Die) (c : CoreLoc) (l : L1Line) :
    x.KeepsStores (l1Install x c l).1 ∧ (l1Install x c l).1.dram = x.dram := by
  obtain h | ⟨ls, h | h⟩ := l1Install_cases x c l <;> rw [h]
  · exact ⟨.refl x, rfl⟩
  · exact ⟨.onL1 x c rfl rfl, rfl⟩
  · exact ⟨(Die.KeepsStores.onL1 x c (f := L1.setLines ls) rfl rfl).trans (.of_eq rfl rfl), rfl⟩

/-- A parity error of an L1 counts once (R234). -/
theorem l1Error_keeps (x : Die) (c : CoreLoc) (way st : Nat) :
    (x.count .locParityCnt).KeepsStores (l1Error x c way st) ∧ (l1Error x c way st).dram = x.dram := by
  have hset : ∀ f : L1 → L1, (f (x.l1 c)).loc = (x.l1 c).loc → (f (x.l1 c)).merge = (x.l1 c).merge →
      (x.count .locParityCnt).KeepsStores ((x.count .locParityCnt).setL1 (f (x.l1 c))) :=
    fun f => Die.KeepsStores.onL1 (x.count .locParityCnt) c (f := f)
  unfold l1Error
  dsimp only
  split
  · split
    · exact ⟨.refl _, rfl⟩
    · exact ⟨((hset (fun t => { t with retired := (way, st) :: t.retired }) rfl rfl).trans
        (.count _ .locWayRetireCnt (by decide))).trans (Die.keepsStores_note _ _ _ _), rfl⟩
  · exact ⟨hset (fun t => { t with errs := (way, st) :: t.errs }) rfl rfl, rfl⟩

/-- A parity error of a slice counts once, and touches neither the entries nor the misses of a slice. -/
structure SliceErred (x y : Die) : Prop where
  keeps : ((x.count .l2cParityCnt).flag .l2cFlags 1).KeepsStores y
  dram : y.dram = x.dram
  miss : ∀ sl, (y.l2 sl).miss = (x.l2 sl).miss

theorem sliceErred_l2Error (x : Die) (sl : Fin 16) (way st : Nat) : SliceErred x (l2Error x sl way st) := by
  have hset : ∀ (f : L2 → L2) sl', (f (x.l2 sl)).slice = (x.l2 sl).slice → (f (x.l2 sl)).miss = (x.l2 sl).miss →
      ((x.setL2 (f (x.l2 sl))).l2 sl').miss = (x.l2 sl').miss :=
    fun f sl' => x.proj_l2_onL2 sl sl' (f := f) L2.miss
  unfold l2Error
  dsimp only
  split
  · split
    · exact ⟨.refl _, rfl, fun _ => rfl⟩
    · exact ⟨((Die.KeepsStores.setL2 _ _).trans (.count _ .l2cWayRetireCnt (by decide))).trans
        (Die.keepsStores_note _ _ _ _), rfl,
        fun sl' => hset (fun t => { t with retired := (way, st) :: t.retired }) sl' rfl rfl⟩
  · exact ⟨.setL2 _ _, rfl, fun sl' => hset (fun t => { t with errs := (way, st) :: t.errs }) sl' rfl rfl⟩

theorem sliceErred_l2LineError {x : Die} {sl : Fin 16} {ln : Nat} {l : L2Line}
    (h : (x.l2 sl).lines.find? (fun l => l.pa == ln) = some l) : SliceErred x (l2LineError x sl ln) := by
  have herr := sliceErred_l2Error x sl l.way (l2SetOf ln)
  simp only [l2LineError, h]
  generalize l2Error x sl l.way (l2SetOf ln) = y at herr
  exact ⟨herr.keeps.trans (.setL2 _ _), herr.dram,
    fun sl' => (y.proj_l2_onL2 sl sl' L2.miss rfl rfl).trans (herr.miss sl')⟩

theorem SliceErred.reg {x y : Die} (h : SliceErred x y) : y.reg .l2cParityCnt = x.reg .l2cParityCnt + 1 :=
  (h.keeps.reg .l2cParityCnt (by decide)).trans ((Die.reg_flag_ne _ 1 (by decide)).trans (Die.reg_count x .l2cParityCnt))

/-! ### Requests that stop (R234, R477) -/

/-- A group whose loads wait for a line that cannot be read stops. -/
def stopOnLine (cls : Byte) (ln word : Nat) (z : Die) (g : GrpLoc) : Die :=
  match z.group? g with
  | none => z
  | some u =>
    if u.frozen.isSome then z else
    let hits := (u.loads.map fun l =>
      ((l.vas.zip l.pas).filter fun q => lineOf q.2 == ln).map fun q => firstInPage l.vas q.1).flatten
    let z := z.updGroup g fun t =>
      { t with loads := t.loads.filter fun l => !l.sectors.any fun s => lineOf s == ln }
    z.faultMaster cls (.group g) { flags := 0, ctx := u.ctx, va := hits.headD 0, detail := word, thing := ln / 262144 }

/-- The miss registers of a line free. -/
def L1.dropMiss (ln : Nat) (t : L1) : L1 := { t with miss := t.miss.filter fun m => m.pa != ln }

theorem failLine_singleton (cls : Byte) (x : Die) (ln word : Nat) (c : CoreLoc) : failLine cls x ln word [c] =
    (((x.l1 c).miss.filter fun m => m.pa == ln).map fun m => m.reqs.map fun r => r.grp).flatten.eraseDups.foldl
      (stopOnLine cls ln word) (x.onL1 c (L1.dropMiss ln)) := rfl

theorem Die.keepsStores_freezeGroup (x : Die) (g : GrpLoc) (cls : Byte) : x.KeepsStores (x.freezeGroup g cls) :=
  (KeepsStores.of_eq rfl rfl : x.KeepsStores (x.updGroup g fun t => { t with frozen := some cls })).trans
    (.count _ .grpFreezeCnt (by decide))

theorem stopOnLine_keeps (cls : Byte) (ln word : Nat) (z : Die) (g : GrpLoc) :
    z.KeepsStores (stopOnLine cls ln word z g) ∧ (stopOnLine cls ln word z g).cache = z.cache := by
  unfold stopOnLine
  split
  · exact ⟨.refl z, rfl⟩
  · split
    · exact ⟨.refl z, rfl⟩
    · exact ⟨((Die.KeepsStores.of_eq rfl rfl : z.KeepsStores (z.updGroup g _)).trans
        (Die.keepsStores_freezeGroup _ g cls)).trans (.of_eq rfl rfl), rfl⟩

theorem foldl_stopOnLine_keeps (cls : Byte) (ln word : Nat) (gs : List GrpLoc) (x : Die) :
    x.KeepsStores (gs.foldl (stopOnLine cls ln word) x) ∧ (gs.foldl (stopOnLine cls ln word) x).cache = x.cache := by
  induction gs generalizing x with
  | nil => exact ⟨.refl x, rfl⟩
  | cons g gs ih =>
    obtain ⟨hkeeps, hcache⟩ := stopOnLine_keeps cls ln word x g
    exact ⟨hkeeps.trans (ih _).1, (ih _).2.trans hcache⟩

/-- The requests of a core that stop leave no miss register for their line. -/
theorem failLine_singleton_keeps (cls : Byte) (x : Die) (ln word : Nat) (c : CoreLoc) :
    x.KeepsStores (failLine cls x ln word [c]) ∧ ∀ k ∈ ((failLine cls x ln word [c]).l1 c).miss, k.pa ≠ ln := by
  rw [failLine_singleton]
  obtain ⟨hkeeps, hcache⟩ := foldl_stopOnLine_keeps cls ln word
    (((x.l1 c).miss.filter fun m => m.pa == ln).map fun m => m.reqs.map fun r => r.grp).flatten.eraseDups
    (x.onL1 c (L1.dropMiss ln))
  refine ⟨(Die.KeepsStores.onL1 x c (f := L1.dropMiss ln) rfl rfl).trans hkeeps, fun k hk => ?_⟩
  rw [Die.l1, hcache] at hk
  have hmiss := congrArg L1.miss (x.l1_onL1 c (f := L1.dropMiss ln) rfl)
  have hmem : k ∈ (L1.dropMiss ln (x.l1 c)).miss := hmiss ▸ hk
  simpa using (List.mem_filter.mp hmem).2

/-! ### L1_LINE_FILL (R216, R217, R234) -/

/-- The line that a miss register of an L1 receives. -/
def fillLine (x : Die) (c : CoreLoc) (m : MissReg) : L1Line :=
  { pa := m.pa, way := 0, ctx := m.ctx, vmid := m.vmid, stale := m.fenced, data := coreLine x c m.pa }

/-- A line that failed parity in its L1 leaves it, and its miss register waits again. -/
def L1.askAgain (pa : Nat) (t : L1) : L1 :=
  { t with lines := t.lines.filter fun k => k.pa != pa,
           miss := updWhere (fun k => k.pa == pa) (fun k => { k with answer := none }) t.miss }

/-- The parity error of an installed line: of its way, or of no way where the line was not kept. -/
def fillError (r : Die × Option Nat) (c : CoreLoc) (st : Nat) : Die :=
  match r.2 with
  | some w => l1Error r.1 c w st
  | none => r.1.count .locParityCnt

theorem fillError_keeps (r : Die × Option Nat) (c : CoreLoc) (st : Nat) :
    (r.1.count .locParityCnt).KeepsStores (fillError r c st) ∧ (fillError r c st).dram = r.1.dram := by
  unfold fillError
  split
  · exact l1Error_keeps r.1 c _ st
  · exact ⟨.refl _, rfl⟩

section
variable (p : Die) {x : Die} {c : CoreLoc} {mr : Nat} {m : MissReg} (hmr : (x.l1 c).miss[mr]? = some m)
include hmr

theorem l1FillDie_of_waiting (hans : m.answer = none) (par : FillParity) :
    l1FillDie c mr par p x = l2Request x c m.pa := by
  simp only [l1FillDie, hmr, hans]

theorem l1FillDie_good {bs : List Byte} (hans : m.answer = some bs) : l1FillDie c mr .good p x =
    let y := (l1Install x c (fillLine x c m)).1.onL1 c (L1.dropMiss m.pa)
    serveCore p ((m.reqs.map fun r => r.grp).eraseDups.foldl (fun y g => y.updGroup g fun t =>
      t.receive (m.reqs.filter fun r => decide (r.grp = g)) m.pa (coreLine x c m.pa)) y) c := by
  simp only [l1FillDie, hmr, hans]
  rfl

theorem l1FillDie_core {bs : List Byte} (hans : m.answer = some bs) : l1FillDie c mr .core p x =
    l2Request ((fillError (l1Install x c (fillLine x c m)) c (l1SetOf m.pa)).onL1 c (L1.askAgain m.pa)) c m.pa := by
  simp only [l1FillDie, hmr, hans]
  rfl

theorem l1FillDie_slice {bs : List Byte} (hans : m.answer = some bs) : l1FillDie c mr .slice p x = l2CopyFails x c m := by
  simp only [l1FillDie, hmr, hans, if_true]

/-- A line that fails parity as the core reads it is counted, not kept, and asked for again. -/
theorem l1FillDie_core_keeps {bs : List Byte} (hans : m.answer = some bs) : let y := l1FillDie c mr .core p x
    y.dram = x.dram ∧ y.reg .locParityCnt = x.reg .locParityCnt + 1 ∧ ∀ l ∈ (y.l1 c).lines, l.pa ≠ m.pa := by
  rw [l1FillDie_core p hmr hans]
  obtain ⟨hinstall, hinstallDram⟩ := l1Install_keeps x c (fillLine x c m)
  generalize l1Install x c (fillLine x c m) = r at hinstall hinstallDram
  obtain ⟨herror, herrorDram⟩ := fillError_keeps r c (l1SetOf m.pa)
  generalize fillError r c (l1SetOf m.pa) = y at herror herrorDram
  have hreq := requests_l2Request (y.onL1 c (L1.askAgain m.pa)) c m.pa
  refine ⟨hreq.dram.trans (herrorDram.trans hinstallDram), ?_, fun l hl => ?_⟩
  · rw [hreq.keeps.reg .locParityCnt (by decide), ← hinstall.reg .locParityCnt (by decide), ← r.1.reg_count .locParityCnt]
    exact herror.reg .locParityCnt (by decide)
  · rw [hreq.lines, y.l1_onL1 c (f := L1.askAgain m.pa) rfl] at hl
    simpa using (List.mem_filter.mp hl).2

/-- A copy that fails parity in the slice leaves it and is counted there. -/
theorem l1FillDie_slice_keeps {bs : List Byte} (hans : m.answer = some bs) (hwin : inWindow m.pa = false) {l : L2Line}
    (hl : (x.l2 (sliceOf m.pa)).lines.find? (fun l => l.pa == m.pa) = some l) : let y := l1FillDie c mr .slice p x
    y.dram = x.dram ∧ y.reg .l2cParityCnt = x.reg .l2cParityCnt + 1 := by
  rw [l1FillDie_slice p hmr hans]
  simp only [l2CopyFails, hwin, Bool.false_eq_true, if_false]
  have herr := sliceErred_l2LineError hl
  generalize l2LineError x (sliceOf m.pa) m.pa = y at herr
  have hreq := requests_l2Request (y.onL1 c fun t =>
    { t with miss := updWhere (fun k => k.pa == m.pa) (fun k => { k with answer := none }) t.miss }) c m.pa
  exact ⟨hreq.dram.trans herr.dram, (hreq.keeps.reg .l2cParityCnt (by decide)).trans herr.reg⟩

/-- A word of the carved L2 that fails parity is counted, and its requests stop. -/
theorem l1FillDie_window_keeps {bs : List Byte} (hans : m.answer = some bs) (hwin : inWindow m.pa = true) :
    let y := l1FillDie c mr .slice p x
    y.reg .l2cParityCnt = x.reg .l2cParityCnt + 1 ∧ ∀ k ∈ (y.l1 c).miss, k.pa ≠ m.pa := by
  rw [l1FillDie_slice p hmr hans]
  simp only [l2CopyFails, hwin, if_true]
  obtain ⟨hkeeps, hmiss⟩ := failLine_singleton_keeps clsL2cParity
    (((x.count .l2cParityCnt).flag .l2cFlags 1).poison (m.pa / 262144)) m.pa m.pa c
  refine ⟨?_, hmiss⟩
  rw [hkeeps.reg .l2cParityCnt (by decide), (Die.keepsStores_poison _ _).reg .l2cParityCnt (by decide)]
  exact (Die.reg_flag_ne _ 1 (by decide)).trans (Die.reg_count x .l2cParityCnt)

end

/-! ### L2_LINE_FILL (R228, R234, R477) -/

theorem drainLine_of_no_entry (p : Die) {x : Die} {ln : Nat} (h : ∀ e ∈ (x.l2 (sliceOf ln)).merge, e.pa ≠ ln) :
    drainLine p x ln = x := by
  have hall : (x.l2 (sliceOf ln)).merge.reverse.takeWhile (fun e => e.pa != ln) = (x.l2 (sliceOf ln)).merge.reverse :=
    List.takeWhile_eq_self_iff.mpr fun e he => by simpa using h e (List.mem_reverse.mp he)
  simp [drainLine, hall]

theorem mem_waiterCores {ws : List L2Waiter} {c : CoreLoc} : c ∈ waiterCores ws ↔ L2Waiter.core c ∈ ws := by
  refine List.mem_filterMap.trans ⟨fun ⟨w, hw, hc⟩ => ?_, fun h => ⟨_, h, rfl⟩⟩
  cases w with
  | core c' => cases hc; exact hw
  | prefetch _ => cases hc
  | sidePrefetch => cases hc

/-- The answer of every miss register of a line that waits. -/
def answerMisses (ln : Nat) (bs : List Byte) (ms : List MissReg) : List MissReg :=
  updWhere (fun m => m.pa == ln && m.answer.isNone) (fun m => { m with answer := some bs }) ms

theorem updWhere_updWhere {α : Type} {p : α → Bool} {f : α → α} (h : ∀ a, p (f a) = false) (l : List α) :
    updWhere p f (updWhere p f l) = updWhere p f l := by
  unfold updWhere
  rw [List.map_map]
  refine List.map_congr_left fun a _ => ?_
  by_cases hp : p a = true <;> simp [hp, h]

/-- Answered registers do not wait. -/
theorem answerMisses_answerMisses (ln : Nat) (bs : List Byte) (ms : List MissReg) :
    answerMisses ln bs (answerMisses ln bs ms) = answerMisses ln bs ms := updWhere_updWhere (fun m => by simp) ms

theorem miss_l1_setAnswer (x : Die) (c : CoreLoc) (ln : Nat) (bs : List Byte) (c' : CoreLoc) :
    ((setAnswer x c ln bs).l1 c').miss = if c' = c then answerMisses ln bs (x.l1 c').miss else (x.l1 c').miss := by
  split
  case isTrue h =>
    subst h
    exact congrArg L1.miss (x.l1_onL1 c' rfl)
  case isFalse h => exact congrArg L1.miss (x.l1_onL1_ne rfl h)

/-- Answers to some cores change their miss registers alone. -/
theorem foldl_setAnswer (cs : List CoreLoc) (x : Die) (ln : Nat) (bs : List Byte) :
    let y := cs.foldl (fun y c => setAnswer y c ln bs) x
    y.dram = x.dram ∧ (∀ sl, y.l2 sl = x.l2 sl) ∧
      ∀ c, (y.l1 c).miss = if c ∈ cs then answerMisses ln bs (x.l1 c).miss else (x.l1 c).miss := by
  induction cs generalizing x with
  | nil => exact ⟨rfl, fun _ => rfl, fun _ => rfl⟩
  | cons c cs ih =>
    obtain ⟨hdram, hl2, hmiss⟩ := ih (setAnswer x c ln bs)
    refine ⟨hdram, hl2, fun c' => (hmiss c').trans ?_⟩
    rw [miss_l1_setAnswer]
    by_cases hc : c' = c <;> by_cases hcs : c' ∈ cs <;> simp [hc, hcs, answerMisses_answerMisses]

/-- The miss register of a line frees. -/
def L2.dropMiss (pa : Nat) (t : L2) : L2 := { t with miss := t.miss.filter fun k => !realMiss k || k.pa != pa }

theorem l2LineError_keeps (x : Die) (sl : Fin 16) (ln : Nat) :
    (l2LineError x sl ln).dram = x.dram ∧ ∀ sl', ((l2LineError x sl ln).l2 sl').miss = (x.l2 sl').miss := by
  cases h : (x.l2 sl).lines.find? (fun l => l.pa == ln) with
  | none =>
    have hsame : l2LineError x sl ln = x := by simp only [l2LineError, h]
    rw [hsame]
    exact ⟨rfl, fun _ => rfl⟩
  | some l => exact ⟨(sliceErred_l2LineError h).dram, (sliceErred_l2LineError h).miss⟩

section
variable (p : Die) {x : Die} {sl : Fin 16} {mr : Nat} {m : L2Miss}
  (hmr : ((x.l2 sl).miss.filter realMiss)[mr]? = some m)
include hmr

/-- A line with a word that cannot be read stops the requests that wait on it (R477). -/
theorem l2FillDie_of_failed {fails : List (Nat × Nat)} {z : Die}
    (hread : readLine p ((drainLine p x m.pa).parityLine m.pa) m.pa fails = (z, false)) (par : Bool) :
    l2FillDie sl mr fails par p x = failLine clsDramParity (z.onL2 sl (L2.dropMiss m.pa)) m.pa
      (failedWord p z m.pa fails) (waiterCores m.waiters) := by
  simp only [l2FillDie, hmr, hread]
  rfl

variable (hslice : sliceOf m.pa = sl) (hentries : ∀ e ∈ (x.l2 sl).merge, e.pa ≠ m.pa)
  (hclean : ∀ w ∈ x.dram.spoiled, w / 16 ≠ m.pa / 128) (hline : m.pa % 128 = 0)
include hslice hentries hclean hline

theorem l2FillDie_of_clean (par : Bool) : l2FillDie sl mr [] par p x =
    let y := (x.parityLine m.pa).l2Install m.pa
    if par then l2LineError y sl m.pa
    else (waiterCores m.waiters).foldl (fun y' c => setAnswer y' c m.pa (y.l2Bytes m.pa 128))
      (y.onL2 sl (L2.dropMiss m.pa)) := by
  have hread := readLine_of_clean p (x := x.parityLine m.pa) hline fun w hw => hclean w (x.spoiled_parityLine m.pa ▸ hw)
  simp only [l2FillDie, hmr, drainLine_of_no_entry p (hslice ▸ hentries), hread]
  rfl

omit hmr hslice hentries hclean hline in
/-- A line that a slice takes from DRAM leaves entries and misses alone, and the bytes that masters read. -/
theorem fetchLine_keeps (x : Die) (pa : Nat) : let y := (x.parityLine pa).l2Install pa
    y.dram.cells = x.dram.cells ∧ (∀ sl, (y.l2 sl).merge = (x.l2 sl).merge) ∧ (∀ sl, (y.l2 sl).miss = (x.l2 sl).miss) ∧
      (∀ c, y.l1 c = x.l1 c) ∧ ∀ a, y.l2Byte a = x.l2Byte a := by
  have hcells : ((x.parityLine pa).l2Install pa).dram.cells = x.dram.cells := by simp
  have hmerge : ∀ sl, (((x.parityLine pa).l2Install pa).l2 sl).merge = (x.l2 sl).merge := by simp
  exact ⟨hcells, hmerge, by simp, by simp, Die.l2Byte_congr (by simp) hmerge hcells⟩

theorem l2FillDie_arrives : let y := l2FillDie sl mr [] false p x
    y.dram.cells = x.dram.cells ∧ (y.l2 sl).miss = (L2.dropMiss m.pa (x.l2 sl)).miss ∧
      (y.l2 sl).merge = (x.l2 sl).merge ∧ ∀ c, L2Waiter.core c ∈ m.waiters →
        (y.l1 c).miss = answerMisses m.pa (x.l2Bytes m.pa 128) (x.l1 c).miss := by
  rw [l2FillDie_of_clean p hmr hslice hentries hclean hline]
  obtain ⟨hcells, hmerge, hmiss, hl1, hbyte⟩ := fetchLine_keeps x m.pa
  generalize (x.parityLine m.pa).l2Install m.pa = y at hcells hmerge hmiss hl1 hbyte
  have hbytes : y.l2Bytes m.pa 128 = x.l2Bytes m.pa 128 := by simp only [Die.l2Bytes, hbyte]
  obtain ⟨hdram, hl2, hanswer⟩ :=
    foldl_setAnswer (waiterCores m.waiters) (y.onL2 sl (L2.dropMiss m.pa)) m.pa (y.l2Bytes m.pa 128)
  have hdrop := y.l2_onL2 sl (f := L2.dropMiss m.pa) rfl
  refine ⟨(congrArg Dram.cells hdram).trans hcells, ?_, ?_, fun c hc => ?_⟩
  · exact (congrArg L2.miss ((hl2 sl).trans hdrop)).trans
      (congrArg (List.filter fun k => !realMiss k || k.pa != m.pa) (hmiss sl))
  · exact (congrArg L2.merge ((hl2 sl).trans hdrop)).trans (hmerge sl)
  · refine (hanswer c).trans ?_
    rw [if_pos (mem_waiterCores.mpr hc), hbytes]
    exact congrArg (fun u : L1 => answerMisses m.pa (x.l2Bytes m.pa 128) u.miss) (hl1 c)

theorem l2FillDie_refetches : let y := l2FillDie sl mr [] true p x
    y.dram.cells = x.dram.cells ∧ (y.l2 sl).miss = (x.l2 sl).miss := by
  rw [l2FillDie_of_clean p hmr hslice hentries hclean hline]
  obtain ⟨hcells, -, hmiss, -, -⟩ := fetchLine_keeps x m.pa
  generalize (x.parityLine m.pa).l2Install m.pa = y at hcells hmiss
  obtain ⟨hdram, herrMiss⟩ := l2LineError_keeps y sl m.pa
  exact ⟨(congrArg Dram.cells hdram).trans hcells, (herrMiss sl).trans (hmiss sl)⟩

end

/-- Settles O27, by what each outcome of a fill makes of the die. -/
theorem missedLinesArrive : Obligations.MissedLinesArrive := by
  unfold Obligations.MissedLinesArrive
  refine fun s d => ⟨fun c mr m bs hmr hans => ⟨?_, ?_, fun l hwin hl => ?_, fun hwin => ?_⟩,
    fun c mr par m hmr hans => nextOn_congr (l1FillDie_of_waiting _ hmr hans par), fun sl mr m hmr hslice =>
      ⟨fun hentries hclean hline => ⟨?_, ?_⟩,
        fun fails par z hread => nextOn_of_eq (l2FillDie_of_failed _ hmr hread par)⟩⟩
  · exact nextOn_of_eq (l1FillDie_good _ hmr hans)
  · obtain ⟨hdram, hcnt, hlines⟩ := l1FillDie_core_keeps (s.die d.other) hmr hans
    refine ⟨_, rfl, ?_⟩
    rw [State.die_onDie]
    exact ⟨congrArg Dram.cells hdram, hcnt, hlines⟩
  · obtain ⟨hdram, hcnt⟩ := l1FillDie_slice_keeps (s.die d.other) hmr hans hwin hl
    refine ⟨_, rfl, ?_⟩
    rw [State.die_onDie]
    exact ⟨congrArg Dram.cells hdram, hcnt⟩
  · refine ⟨_, rfl, ?_⟩
    rw [State.die_onDie]
    exact l1FillDie_window_keeps (s.die d.other) hmr hans hwin
  · refine ⟨_, rfl, ?_⟩
    rw [State.die_onDie]
    exact l2FillDie_arrives (s.die d.other) hmr hslice hentries hclean hline
  · refine ⟨_, rfl, ?_⟩
    rw [State.die_onDie]
    exact l2FillDie_refetches (s.die d.other) hmr hslice hentries hclean hline

end Sys2Proof.Machine
end

section
/-! PROOFS. O29: side buffers, the zeroing of tile memory, rotations and the carve of the slices (R142, R143, R206, R210,
R222, R230 to R233). -/
namespace Sys2Proof.Machine

/-! ### Side buffers (R222, R230) -/

theorem l1DrainLine_of_no_entry (p : Die) {x : Die} {c : CoreLoc} {ln : Nat} (h : ∀ e ∈ (x.l1 c).merge, e.pa ≠ ln) :
    l1DrainLine p x c ln = x := by
  have hall : (x.l1 c).merge.reverse.takeWhile (fun e => e.pa != ln) = (x.l1 c).merge.reverse :=
    List.takeWhile_eq_self_iff.mpr fun e he => by simpa using h e (List.mem_reverse.mp he)
  simp [l1DrainLine, hall]

/-- An L1's prefetches that are on their way. -/
def L1.setFetching (fs : List (Nat × Nat × BitVec 8)) (t : L1) : L1 := { t with fetching := fs }

theorem sideL1_of_room {p x y : Die} {c : CoreLoc} {ln ctx : Nat} {v : BitVec 8} {fs : List (Nat × Nat × BitVec 8)}
    (hfetch : (x.l1 c).fetching = (ln, ctx, v) :: fs) (hentries : ∀ e ∈ (x.l1 c).merge, e.pa ≠ ln)
    (hread : l2ReadLine p (x.onL1 c (L1.setFetching fs)) ln = (y, true))
    (hno : ∀ l ∈ (y.l1 c).lines ++ (y.l1 c).side, l.pa ≠ ln) (hroom : (y.l1 c).side.length < 16) :
    sideL1 c p x = y.onL1 c fun t => { t with side := t.side ++
      [{ pa := ln, way := 0, ctx := ctx, vmid := v, stale := false, data := y.l2Bytes ln 128 }] } := by
  have hdrain : l1DrainLine p (x.onL1 c (L1.setFetching fs)) c ln = x.onL1 c (L1.setFetching fs) :=
    l1DrainLine_of_no_entry p (by rwa [x.l1_onL1 c (f := L1.setFetching fs) rfl])
  have hlines : ((y.l1 c).lines.any fun l => l.pa == ln) = false := by
    simpa using fun l hl => hno l (List.mem_append_left _ hl)
  have hside : ((y.l1 c).side.any fun l => l.pa == ln) = false := by
    simpa using fun l hl => hno l (List.mem_append_right _ hl)
  have hread' : l2ReadLine p (l1DrainLine p (x.onL1 c fun t => { t with fetching := fs }) c ln) ln = (y, true) :=
    (congrArg (l2ReadLine p · ln) hdrain).trans hread
  simp only [sideL1, hfetch, hread', hlines, hside, hroom, Bool.not_true, Bool.or_self, Bool.false_eq_true, if_false,
    if_true]
  rfl

/-- A prefetch of a slice is no longer on its way. -/
def L2.dropPrefetch (pa : Nat) (t : L2) : L2 := { t with miss := t.miss.filter fun k => realMiss k || k.pa != pa }

/-- A line stands in a slice's side buffer. -/
def L2.addSide (l : L2Line) (t : L2) : L2 := { t with side := t.side ++ [l] }

theorem sideL2_of_room (p : Die) {x : Die} {sl : Fin 16} {m : L2Miss}
    (hmiss : (x.l2 sl).miss.find? (fun m => !realMiss m) = some m) (hslice : sliceOf m.pa = sl)
    (hentries : ∀ e ∈ (x.l2 sl).merge, e.pa ≠ m.pa) (hclean : ∀ w ∈ x.dram.spoiled, w / 16 ≠ m.pa / 128)
    (hline : m.pa % 128 = 0) (hno : ∀ l ∈ (x.l2 sl).lines, l.pa ≠ m.pa) (hroom : (x.l2 sl).side.length < 64) :
    sideL2 sl p x = ((x.onL2 sl (L2.dropPrefetch m.pa)).parityLine m.pa).onL2 sl
      (L2.addSide { pa := m.pa, way := 0 }) := by
  have hdrop := x.l2_onL2 sl (f := L2.dropPrefetch m.pa) rfl
  have hread := readLine_of_clean p (x := (x.onL2 sl (L2.dropPrefetch m.pa)).parityLine m.pa) hline
    fun w hw => hclean w ((Die.spoiled_parityLine (x.onL2 sl (L2.dropPrefetch m.pa)) m.pa) ▸ hw)
  have hdrain : drainLine p (x.onL2 sl (L2.dropPrefetch m.pa)) m.pa = x.onL2 sl (L2.dropPrefetch m.pa) :=
    drainLine_of_no_entry p (by rwa [hslice, hdrop])
  have hl2 : ((x.onL2 sl (L2.dropPrefetch m.pa)).parityLine m.pa).l2 sl = L2.dropPrefetch m.pa (x.l2 sl) := by
    rw [Die.l2_parityLine, hdrop]
  have hlines : ((L2.dropPrefetch m.pa (x.l2 sl)).lines.any fun l => l.pa == m.pa) = false := by
    simpa [L2.dropPrefetch] using hno
  have hread' : readLine p ((drainLine p
      (x.onL2 sl fun t => { t with miss := t.miss.filter fun k => realMiss k || k.pa != m.pa }) m.pa).parityLine m.pa)
      m.pa [] = ((x.onL2 sl (L2.dropPrefetch m.pa)).parityLine m.pa, true) :=
    (congrArg (fun y : Die => readLine p (y.parityLine m.pa) m.pa []) hdrain).trans hread
  simp only [sideL2, hmiss, hread', hl2, hlines, Bool.not_true, Bool.or_self, Bool.false_eq_true, if_false]
  exact (if_pos hroom).trans (congrArg (fun t => Die.setL2 _ (L2.addSide { pa := m.pa, way := 0 } t)) hl2.symm)

/-- What a prefetch that arrived leaves in its slice. -/
theorem sideL2_adds (x : Die) (sl : Fin 16) (m : L2Miss) :
    let y := ((x.onL2 sl (L2.dropPrefetch m.pa)).parityLine m.pa).onL2 sl (L2.addSide { pa := m.pa, way := 0 })
    (y.l2 sl).side = (x.l2 sl).side ++ [{ pa := m.pa, way := 0 }] ∧
      (y.l2 sl).miss = (x.l2 sl).miss.filter (fun k => realMiss k || k.pa != m.pa) ∧ y.dram.cells = x.dram.cells := by
  have hl2 : (((x.onL2 sl (L2.dropPrefetch m.pa)).parityLine m.pa).onL2 sl (L2.addSide { pa := m.pa, way := 0 })).l2 sl =
      L2.addSide { pa := m.pa, way := 0 } (L2.dropPrefetch m.pa (x.l2 sl)) := by
    rw [Die.l2_onL2 _ sl (f := L2.addSide { pa := m.pa, way := 0 }) rfl, Die.l2_parityLine,
      x.l2_onL2 sl (f := L2.dropPrefetch m.pa) rfl]
  exact ⟨congrArg L2.side hl2, congrArg L2.miss hl2, Die.cells_parityLine (x.onL2 sl (L2.dropPrefetch m.pa)) m.pa⟩

/-! ### Steps of tile memory (R206) -/

/-- A step of every core of a cluster reads 0. -/
def clearStep (cl : Fin 6) (k : Nat) (cs : List (Fin 16)) (m : Mem) : Mem :=
  cs.foldl (fun m c => spClear (tlmAddr { cl := cl, core := c } (32768 * k))
    (tlmAddr { cl := cl, core := c } (32768 * k) + 32768) m) m

/-- An address lies in a step of a cluster's core. -/
def inStep (cl : Fin 6) (k : Nat) (core : Fin 16) (a : Nat) : Prop :=
  ∃ i, i < 32768 ∧ a = tlmAddr { cl := cl, core := core } (32768 * k) + i

theorem inStep_iff {cl : Fin 6} {k : Nat} {core : Fin 16} {a : Nat} : inStep cl k core a ↔
    tlmAddr { cl := cl, core := core } (32768 * k) ≤ a ∧ a < tlmAddr { cl := cl, core := core } (32768 * k) + 32768 :=
  ⟨fun ⟨i, hi, ha⟩ => by omega, fun h => ⟨a - tlmAddr { cl := cl, core := core } (32768 * k), by omega, by omega⟩⟩

theorem byte_clearStep_of_forall_not (cl : Fin 6) (k : Nat) {cs : List (Fin 16)} (m : Mem) {a : Nat}
    (h : ∀ core ∈ cs, ¬ inStep cl k core a) : Mem.byte (clearStep cl k cs m) a = Mem.byte m a := by
  induction cs generalizing m with
  | nil => rfl
  | cons c cs ih =>
    refine (ih _ fun core hcore => h core (.tail _ hcore)).trans ?_
    rw [Mem.byte_spClear, if_neg (mt inStep_iff.mpr (h c (.head _)))]

theorem byte_clearStep_of_zero (cl : Fin 6) (k : Nat) (cs : List (Fin 16)) {m : Mem} {a : Nat} (h : Mem.byte m a = 0) :
    Mem.byte (clearStep cl k cs m) a = 0 := by
  induction cs generalizing m with
  | nil => exact h
  | cons c cs ih =>
    refine ih ?_
    rw [Mem.byte_spClear, h, ite_self]

theorem byte_clearStep_of_inStep {cl : Fin 6} {k : Nat} {cs : List (Fin 16)} (m : Mem) {core : Fin 16} {a : Nat}
    (hcore : core ∈ cs) (h : inStep cl k core a) : Mem.byte (clearStep cl k cs m) a = 0 := by
  induction cs generalizing m with
  | nil => simp at hcore
  | cons c cs ih =>
    rcases List.mem_cons.mp hcore with rfl | hmem
    · refine byte_clearStep_of_zero cl k cs ?_
      rw [Mem.byte_spClear, if_pos (inStep_iff.mp h)]
    · exact ih _ hmem

/-- A step of a cluster is free, and its tile memory holds these bytes. -/
def Die.freeStep (x : Die) (cl : Fin 6) (k : Nat) (m : Mem) : Die :=
  { x with sh.tlm := m, sh.zeroing := x.sh.zeroing.set cl (x.sh.zeroing[cl] &&& ~~~((1 : BitVec 16) <<< k)) }

theorem stepZeroDie_of_find {cl : Fin 6} {x : Die} {k : Nat}
    (h : tlmSteps.find? (fun k => (x.sh.zeroing[cl]).getLsbD k) = some k) :
    stepZeroDie cl x = (x.freeStep cl k (clearStep cl k coreIds x.sh.tlm)).count .tlmZeroCnt := by
  simp only [stepZeroDie, h]
  rfl

theorem getLsbD_clearBit {b : BitVec 16} {j k : Nat} (hj : j < 16) :
    (b &&& ~~~((1 : BitVec 16) <<< k)).getLsbD j = (b.getLsbD j && decide (j ≠ k)) := by
  rcases Nat.lt_trichotomy j k with h | rfl | h
  · simp [hj, h, Nat.ne_of_lt h]
  · simp
  · have hpos : j - k ≠ 0 := by omega
    simp [hj, hpos, Nat.ne_of_gt h]

theorem Die.getLsbD_zeroing_freeStep (x : Die) (cl : Fin 6) (k : Nat) (m : Mem) {j : Nat} (hj : j < 16) :
    ((x.freeStep cl k m).sh.zeroing[cl]).getLsbD j = ((x.sh.zeroing[cl]).getLsbD j && decide (j ≠ k)) := by
  rw [← getLsbD_clearBit hj]
  exact congrArg (BitVec.getLsbD · j) (Vector.getElem_set_self cl.isLt)

theorem Die.zeroing_freeStep_ne (x : Die) {cl c : Fin 6} (k : Nat) (m : Mem) (h : c ≠ cl) :
    (x.freeStep cl k m).sh.zeroing[c] = x.sh.zeroing[c] :=
  Vector.getElem_set_ne cl.isLt c.isLt fun hc => h (Fin.ext hc.symm)

/-! ### Rotations (R30, R142, R143) -/

section
variable {c : CoreLoc} {pipe : Fin 4} {port : Port} {x : Die}

/-- The key of a port of a pipe of a core. -/
def corePortKey (c : CoreLoc) (pipe : Fin 4) (port : Port) : Nat :=
  portKey { cl := c.cl, core := c.core, pipe := pipe, slot := 0 } port

/-- A rotation starts on a port, one slot above the one that last issued there. -/
def Die.startRotation (x : Die) (k : Nat) : Die :=
  { x with sh.rotation := (k, rotationFrom (((x.sh.lastIssue.lookup k).getD 15 + 1) % 16)) :: x.sh.rotation }

theorem rotateDie_of_never (h : x.neverRotates c pipe = true) : rotateDie c pipe port x = x := by
  simp [rotateDie, h]

theorem rotateDie_of_always (hidle : x.sh.rotation.lookup (corePortKey c pipe port) = none)
    (hnever : x.neverRotates c pipe = false) (halways : x.alwaysRotates c pipe = true) :
    rotateDie c pipe port x = x.startRotation (corePortKey c pipe port) := by
  simp only [corePortKey] at hidle
  simp only [rotateDie, hidle, hnever, halways, Option.isSome_none, Bool.true_or, Bool.not_true, Bool.or_self,
    Bool.false_eq_true, if_false, if_true]
  rfl

theorem rotateDie_of_wait (hidle : x.sh.rotation.lookup (corePortKey c pipe port) = none)
    (hnever : x.neverRotates c pipe = false) (halways : x.alwaysRotates c pipe = false)
    (hwait : ∃ u ∈ x.onPipe c pipe, wbits (x.regU .grpSchedCfg c.cl.val) 9 0 ≤ u.wait) :
    rotateDie c pipe port x = (x.startRotation (corePortKey c pipe port)).count .grpRrRotationCnt := by
  have hany : ((x.onPipe c pipe).any fun t => decide (wbits (x.regU .grpSchedCfg c.cl.val) 9 0 ≤ t.wait)) = true := by
    simpa using hwait
  simp only [corePortKey] at hidle
  simp only [rotateDie, hidle, hnever, halways, hany, Option.isSome_none, Bool.or_true, Bool.not_true, Bool.or_self,
    Bool.false_eq_true, if_false]
  rfl

end

/-! ### The carve (R231 to R233) -/

/-- A slice drops the lines of its added ways and zeroes them. -/
def L2.startZeroing (n : Nat) (t : L2) : L2 :=
  { t with zeroing := some n, lines := t.lines.filter fun l => decide (l.way < 16 - 2 * n) }

/-- The carve shrinks, and the window's part beyond it reads 0. -/
def Die.shrinkCarve (x : Die) (n : Nat) : Die :=
  { x with cache.carveActive := n,
           cache.l2carve := spClear (4194304 * n) (4194304 * x.cache.carveActive) x.cache.l2carve }

/-- Every slice that waits refuses the press. -/
def refuseSlices (x : Die) : Die :=
  (unitRun 6 16).foldl (fun z v => if z.unitWaits v then z.unitRefuses v else z) x

section
variable {sl : Fin 16} {x : Die}

theorem carveApplyDie_of_not_waiting (h : x.unitWaits (6 + sl.val) = false) : carveApplyDie sl x = x := by
  simp [carveApplyDie, h]

section
variable (hwaits : x.unitWaits (6 + sl.val) = true) (hzero : (x.l2 sl).zeroing = none)
  (hshadow : x.shadowFails (6 + sl.val) = false)
include hwaits hzero hshadow

theorem carveApplyDie_of_increase (h : x.cache.carveActive < wbits (x.pressedI .l2cCfg []) 2 0) :
    carveApplyDie sl x = x.onL2 sl (L2.startZeroing (wbits (x.pressedI .l2cCfg []) 2 0)) := by
  simp only [carveApplyDie, hwaits, hzero, hshadow, h, Option.isSome_none, Bool.not_true, Bool.or_self,
    Bool.false_eq_true, if_false, if_true]
  rfl

theorem carveApplyDie_of_unchanged (h : wbits (x.pressedI .l2cCfg []) 2 0 = x.cache.carveActive) :
    carveApplyDie sl x = x.unitApplies (6 + sl.val) := by
  simp only [carveApplyDie, hwaits, hzero, hshadow, h, Option.isSome_none, Bool.not_true, Bool.or_self,
    Bool.false_eq_true, Nat.lt_irrefl, false_and, if_false]

theorem carveApplyDie_of_wiped (h : wbits (x.pressedI .l2cCfg []) 2 0 < x.cache.carveActive)
    (hwiped : carveWiped x (wbits (x.pressedI .l2cCfg []) 2 0) x.cache.carveActive = true) :
    carveApplyDie sl x = (x.shrinkCarve (wbits (x.pressedI .l2cCfg []) 2 0)).unitApplies (6 + sl.val) := by
  simp only [carveApplyDie, hwaits, hzero, hshadow, h, hwiped, Nat.not_lt_of_gt h, Option.isSome_none, Bool.not_true,
    Bool.or_self, Bool.false_eq_true, and_false, if_false, if_true]
  rfl

theorem carveApplyDie_of_unwiped (h : wbits (x.pressedI .l2cCfg []) 2 0 < x.cache.carveActive)
    (hwiped : carveWiped x (wbits (x.pressedI .l2cCfg []) 2 0) x.cache.carveActive = false) :
    carveApplyDie sl x = refuseSlices ((x.flag .l2cFlags 0).count .l2cCarveRefusedCnt) := by
  simp only [carveApplyDie, hwaits, hzero, hshadow, h, hwiped, Nat.not_lt_of_gt h, Option.isSome_none, Bool.not_true,
    Bool.not_false, Bool.or_self, Bool.false_eq_true, and_self, if_false, if_true]
  rfl

end

/-- Units that refuse a press change what the press is about alone. -/
theorem foldl_unitRefuses_cases (us : List Nat) (x : Die) :
    ∃ q, us.foldl (fun z v => if z.unitWaits v then z.unitRefuses v else z) x = { x with press := q } := by
  induction us generalizing x with
  | nil => exact ⟨x.press, rfl⟩
  | cons u us ih =>
    rw [List.foldl_cons]
    split
    · obtain ⟨q, hq⟩ := ih (x.unitRefuses u)
      exact ⟨q, hq⟩
    · exact ih x

theorem unitWaits_unitRefuses (x : Die) (v u : Nat) : (x.unitRefuses v).unitWaits u =
    (x.press.behind.getLsbD u && !(x.press.applied.getLsbD u || (bit44 v).getLsbD u) && !x.lateUnit u) := by
  rw [← BitVec.getLsbD_or]
  rfl

theorem getLsbD_bit44_self {u : Nat} (hu : u < 44) : (bit44 u).getLsbD u = true := by
  simp [bit44, hu]

/-- Units that refuse a press no longer wait for it, and none begins to. -/
theorem unitWaits_foldl_unitRefuses {us : List Nat} {x : Die} {u : Nat} (hu : u < 44)
    (h : u ∈ us ∨ x.unitWaits u = false) :
    (us.foldl (fun z v => if z.unitWaits v then z.unitRefuses v else z) x).unitWaits u = false := by
  induction us generalizing x with
  | nil => simpa using h
  | cons v us ih =>
    rw [List.foldl_cons]
    refine ih (or_iff_not_imp_left.mpr fun hmem => ?_)
    split
    case isTrue hv =>
      rw [unitWaits_unitRefuses]
      by_cases huv : u = v
      · subst huv
        simp [getLsbD_bit44_self hu]
      · have hx : x.unitWaits u = false := h.resolve_left (by simp [huv, hmem])
        unfold Die.unitWaits at hx
        cases (bit44 v).getLsbD u <;> simp_all
    case isFalse hv =>
      rcases h with hus | hx
      · obtain rfl : u = v := (List.mem_cons.mp hus).resolve_right hmem
        simpa using hv
      · exact hx

theorem unitWaits_refuseSlices (x : Die) (sl : Fin 16) : (refuseSlices x).unitWaits (6 + sl.val) = false :=
  unitWaits_foldl_unitRefuses (by omega) (.inl (List.mem_map.mpr ⟨sl.val, List.mem_range.mpr sl.isLt, rfl⟩))

theorem activate_cases (rs : List (Reg × List Nat)) (x : Die) : ∃ r, x.activate rs = { x with regs := r } := by
  induction rs generalizing x with
  | nil => exact ⟨x.regs, rfl⟩
  | cons q rs ih =>
    obtain ⟨r, hr⟩ := ih (x.setRegI q.1 q.2 (rwpMerge q.1 (x.regI q.1 q.2) (x.pressedI q.1 q.2)))
    exact ⟨r, hr⟩

/-- A unit that applies a press changes registers, and what the press is about. -/
theorem unitApplies_cases (x : Die) (u : Nat) : ∃ r q, x.unitApplies u = { x with regs := r, press := q } := by
  unfold Die.unitApplies
  dsimp only
  split
  · obtain ⟨r, hr⟩ := activate_cases (unitRegs u) { ((x.setUnitEpoch u).unitAcks u) with
      press.cfgBad := ((x.setUnitEpoch u).unitAcks u).press.cfgBad.filter fun e => e.1 != u }
    exact ⟨r, _, hr⟩
  · exact ⟨x.regs, _, rfl⟩

theorem carveZeroDie_of_zeroing {n : Nat} (h : (x.l2 sl).zeroing = some n) : carveZeroDie sl x =
    let y := (x.onL2 sl fun t => { t with zeroing := none }).unitApplies (6 + sl.val)
    if (unitGroup (6 + sl.val)).all (fun v => y.unitDone v) then { y with cache.carveActive := n } else y := by
  simp only [carveZeroDie, h]

end

/-- Settles O29, by what each event makes of the die. That a rotation starts when a group anywhere on the pipe has waited
is log 57. -/
theorem buffersTilesRotationsAndTheCarve : Obligations.BuffersTilesRotationsAndTheCarve := by
  unfold Obligations.BuffersTilesRotationsAndTheCarve
  refine ⟨fun s d => ⟨fun c ln ctx v fs y hfetch hentries hread hno hroom => ?_,
    fun sl m hmiss hslice hentries hclean hline hno hroom => ?_, fun cl k hk => ?_, fun c who pipe hrun => ?_,
    fun c pipe port => ⟨fun hnever => ?_, fun hidle hnever => ⟨fun halways => ?_, fun halways hwait => ?_⟩⟩⟩,
    fun s d sl => ⟨fun hwaits => ?_, fun hwaits hzero hshadow => ⟨fun h => ?_, fun h => ?_, fun h hwiped => ?_,
      fun h hwiped => ?_⟩, fun n hzero => ?_⟩⟩
  · exact nextOn_of_eq (sideL1_of_room hfetch hentries hread hno hroom)
  · refine ⟨_, nextOn_of_eq (sideL2_of_room _ hmiss hslice hentries hclean hline hno hroom), ?_⟩
    rw [State.die_setDie]
    exact sideL2_adds (s.die d) sl m
  · refine ⟨_, nextOn_of_eq (stepZeroDie_of_find hk), ?_⟩
    have hzero : ∀ core ∈ coreIds, ∀ i, i < 32768 → Mem.byte (clearStep cl k coreIds (s.die d).sh.tlm)
        (tlmAddr { cl := cl, core := core } (32768 * k) + i) = 0 :=
      fun core hcore i hi => byte_clearStep_of_inStep _ hcore ⟨i, hi, rfl⟩
    have hsame : ∀ a, (∀ core ∈ coreIds, ¬ inStep cl k core a) →
        Mem.byte (clearStep cl k coreIds (s.die d).sh.tlm) a = Mem.byte (s.die d).sh.tlm a :=
      fun a => byte_clearStep_of_forall_not cl k _
    rw [State.die_setDie]
    generalize clearStep cl k coreIds (s.die d).sh.tlm = m at hzero hsame
    exact ⟨hzero, fun a ha => hsame a fun core hcore ⟨i, hi, hai⟩ => ha core hcore i hi hai,
      fun j hj => (s.die d).getLsbD_zeroing_freeStep cl k m hj, fun c hc => (s.die d).zeroing_freeStep_ne k m hc,
      Die.reg_count ((s.die d).freeStep cl k m) .tlmZeroCnt⟩
  · exact nextOn_congr (if_pos hrun)
  · exact nextOn_congr (rotateDie_of_never hnever)
  · exact nextOn_congr (rotateDie_of_always hidle hnever halways)
  · refine ⟨_, nextOn_of_eq (rotateDie_of_wait hidle hnever halways hwait), ?_⟩
    rw [State.die_setDie]
    exact ⟨rfl, rfl, Die.reg_count _ .grpRrRotationCnt⟩
  · exact nextOn_congr (carveApplyDie_of_not_waiting hwaits)
  · exact nextOn_congr (carveApplyDie_of_increase hwaits hzero hshadow h)
  · exact nextOn_congr (carveApplyDie_of_unchanged hwaits hzero hshadow h)
  · obtain ⟨r, q, hq⟩ :=
      unitApplies_cases ((s.die d).shrinkCarve (wbits ((s.die d).pressedI .l2cCfg []) 2 0)) (6 + sl.val)
    refine ⟨_, nextOn_of_eq ((carveApplyDie_of_wiped hwaits hzero hshadow h hwiped).trans hq), ?_⟩
    rw [State.die_setDie]
    exact ⟨rfl, rfl, Mem.byte_spClear _ _ _⟩
  · obtain ⟨q, hq⟩ := foldl_unitRefuses_cases (unitRun 6 16) (((s.die d).flag .l2cFlags 0).count .l2cCarveRefusedCnt)
    have hunit := unitWaits_refuseSlices (((s.die d).flag .l2cFlags 0).count .l2cCarveRefusedCnt) sl
    rw [refuseSlices, hq] at hunit
    refine ⟨_, nextOn_of_eq ((carveApplyDie_of_unwiped hwaits hzero hshadow h hwiped).trans hq), ?_⟩
    rw [State.die_setDie]
    refine ⟨rfl, hunit, ?_, ?_⟩
    · exact (Die.reg_count _ .l2cCarveRefusedCnt).trans (congrArg (· + 1) (Die.reg_flag_ne _ 0 (by decide)))
    · refine (congrArg (BitVec.getLsbD · 0) (Die.reg_count_ne _ (by decide))).trans ?_
      exact Die.getLsbD_reg_flag (s.die d) .l2cFlags (by decide)
  · exact nextOn_of_eq (carveZeroDie_of_zeroing hzero)

end Sys2Proof.Machine
end

section
/-! PROOFS. O39: loads and stores of carved L1 and of tile memory (R203, R207, R224, R234). -/
namespace Sys2Proof.Machine

/-! ### The checks of a local access (R207, R224) -/

section
variable {w : InstrBits} {size : Nat} {r : Reg} {carved : Bool} {x : Die} {t : Group} {go : Die → List Nat → Die}

theorem localAccess_of_misaligned {o : Int} (h : ((threadsOf (t.selected w)).map (t.ofsOf w)).find?
      (fun o => decide (o % (accBytes w : Int) ≠ 0)) = some o) :
    localAccess w size r carved x t go = trapGroup x t clsMisaligned 0 (o % 2 ^ 32).toNat := by
  simp only [localAccess, h]

theorem find?_misaligned_eq_none {n : Nat} {os : List Int} (h : ∀ o ∈ os, o % (n : Int) = 0) :
    os.find? (fun o => decide (o % (n : Int) ≠ 0)) = none :=
  List.find?_eq_none.mpr fun o ho => by simp [h o ho]

theorem localAccess_of_outside {o : Int}
    (hal : ∀ o ∈ (threadsOf (t.selected w)).map (t.ofsOf w), o % (accBytes w : Int) = 0)
    (h : firstOutside (accBytes w) size ((threadsOf (t.selected w)).map (t.ofsOf w)) = some o) :
    localAccess w size r carved x t go = localRange x t r o carved := by
  have hne : ((threadsOf (t.selected w)).map (t.ofsOf w)).isEmpty = false :=
    List.isEmpty_eq_false_iff.mpr fun hnil => by simp [hnil, firstOutside] at h
  simp only [localAccess, find?_misaligned_eq_none hal, hne, h, Bool.and_false, Bool.false_eq_true, if_false]

theorem localAccess_of_absent (hsize : size = 0) (h : (threadsOf (t.selected w)).map (t.ofsOf w) = []) :
    ∃ v, localAccess w size r carved x t go = (trapGroup x.tick t clsLocalRange 0 v).count r := by
  refine ⟨_, Eq.trans ?_ (rfl : localRange x.tick t r ((Config.dword x.free).toNat : Int) carved = _)⟩
  simp only [localAccess, hsize, h, List.find?_nil, decide_true, List.isEmpty_nil, Bool.and_self, if_true]

/-- Offsets that are aligned and lie inside a carve or partition that stands. -/
def LocalInside (w : InstrBits) (size : Nat) (t : Group) : Prop :=
  0 < size ∧ ∀ o ∈ (threadsOf (t.selected w)).map (t.ofsOf w),
    o % (accBytes w : Int) = 0 ∧ 0 ≤ o ∧ o + (accBytes w : Int) ≤ (size : Int)

theorem localAccess_of_inside (h : LocalInside w size t) : localAccess w size r carved x t go =
    go x (((threadsOf (t.selected w)).map (t.ofsOf w)).map fun o => o.toNat) := by
  obtain ⟨hsize, hin⟩ := h
  have hno : firstOutside (accBytes w) size ((threadsOf (t.selected w)).map (t.ofsOf w)) = none :=
    List.find?_eq_none.mpr fun o ho => by
      obtain ⟨-, hlo, hhi⟩ := hin o ho
      simp [hlo, hhi]
  simp only [localAccess, find?_misaligned_eq_none fun o ho => (hin o ho).1, hno, Nat.ne_of_gt hsize, decide_false,
    Bool.false_and, Bool.false_eq_true, if_false]

end

/-! ### Registers that a load writes -/

theorem Group.foldl_wait {α : Type} {f : Group → α → Group}
    (hf : ∀ t n a, f { t with wait := n } a = { f t a with wait := n }) (as : List α) (t : Group) (n : Nat) : as.foldl f { t with wait := n } = { as.foldl f t with wait := n } := by
  induction as generalizing t with
  | nil => rfl
  | cons a as ih => rw [List.foldl_cons, List.foldl_cons, hf, ih]

theorem Group.foldl_pc {α : Type} {f : Group → α → Group} (hf : ∀ t a, (f t a).pc = t.pc) (as : List α) (t : Group) :
    (as.foldl f t).pc = t.pc := by
  induction as generalizing t with
  | nil => rfl
  | cons a as ih => exact (ih _).trans (hf t a)

theorem Group.takeBytes_wait (t : Group) (n : Nat) (w : InstrBits) (i : Nat) (bs : List Byte) :
    ({ t with wait := n } : Group).takeBytes w i bs = { t.takeBytes w i bs with wait := n } :=
  Group.foldl_wait (f := fun t k => t.setReg (wDst w + k) i (BitVec.ofNat 32 (fieldNat bs (4 * k) (min 4 (accBytes w)))))
    (fun _ _ _ => rfl) (List.range (accRegs w)) t n

theorem Group.pc_takeBytes (t : Group) (w : InstrBits) (i : Nat) (bs : List Byte) : (t.takeBytes w i bs).pc = t.pc :=
  Group.foldl_pc (f := fun t k => t.setReg (wDst w + k) i (BitVec.ofNat 32 (fieldNat bs (4 * k) (min 4 (accBytes w)))))
    (fun _ _ => rfl) (List.range (accRegs w)) t

/-- The selected threads take the bytes at their offsets. -/
def Group.takeLocal (t : Group) (w : InstrBits) (bytes : Nat → List Byte) (qs : List (Nat × Nat)) : Group :=
  qs.foldl (fun u q => u.takeBytes w q.1 (bytes q.2)) t

theorem Group.takeLocal_wait (t : Group) (n : Nat) (w : InstrBits) (bytes : Nat → List Byte) (qs : List (Nat × Nat)) :
    ({ t with wait := n } : Group).takeLocal w bytes qs = { t.takeLocal w bytes qs with wait := n } :=
  Group.foldl_wait (f := fun u (q : Nat × Nat) => u.takeBytes w q.1 (bytes q.2))
    (fun u n _ => u.takeBytes_wait n w _ _) qs t n

theorem Group.pc_takeLocal (t : Group) (w : InstrBits) (bytes : Nat → List Byte) (qs : List (Nat × Nat)) :
    (t.takeLocal w bytes qs).pc = t.pc :=
  Group.foldl_pc (f := fun u (q : Nat × Nat) => u.takeBytes w q.1 (bytes q.2)) (fun u _ => u.pc_takeBytes w _ _) qs t

/-- A load of local memory leaves its group at the next instruction. -/
theorem simple_takeLocal (t : Group) (w : InstrBits) (bytes : Nat → List Byte) (qs : List (Nat × Nat)) (x : Die) :
    simple (fun u => u.takeLocal w bytes qs) x { t with wait := 0 } =
      settleGroup x { t.takeLocal w bytes qs with wait := 0, pc := t.pc + 8 } := by
  rw [simple, t.takeLocal_wait, ← t.pc_takeLocal w bytes qs]
  rfl

/-! ### The rows -/

section
variable {w : InstrBits} {p x : Die} {t : Group}

/-- Offsets of the selected threads. -/
def Group.localOfs (t : Group) (w : InstrBits) : List Nat :=
  ((threadsOf (t.selected w)).map (t.ofsOf w)).map fun o => o.toNat

theorem ldcAct_of_inside (h : LocalInside w (carveSize x t) t) : ldcAct w false p x t =
    simple (fun u => u.takeLocal w (fun a => Mem.bytes (x.l1 (coreOf t.loc)).carveMem a (accBytes w))
      ((threadsOf (t.selected w)).zip (t.localOfs w))) x t := by
  rw [ldcAct, localAccess_of_inside h]
  rfl

theorem ldcAct_of_parity (h : LocalInside w (carveSize x t) t) (hne : t.localOfs w ≠ []) : ldcAct w true p x t =
    parityRestartDie t.loc (.carvedL1 (BitVec.ofNat 19 ((t.localOfs w).headD 0))) p x := by
  rw [ldcAct, localAccess_of_inside h]
  exact if_pos (by simpa [Group.localOfs] using hne)

theorem tldAct_of_inside (h : LocalInside w (32768 * maskSteps (partMask x t)) t) : tldAct w false p x t =
    simple (fun u => u.takeLocal w (fun a => partBytes x (partMask x t) (coreOf t.loc) a (accBytes w))
      ((threadsOf (t.selected w)).zip (t.localOfs w))) x t := by
  rw [tldAct, localAccess_of_inside h]
  rfl

theorem tldAct_of_parity (h : LocalInside w (32768 * maskSteps (partMask x t)) t) (hne : t.localOfs w ≠ []) :
    tldAct w true p x t =
      parityRestartDie t.loc (.tileMemory (BitVec.ofNat 19 (physOf (partMask x t) ((t.localOfs w).headD 0)))) p x := by
  rw [tldAct, localAccess_of_inside h]
  exact if_pos (by simpa [Group.localOfs] using hne)

/-- Selected threads that are no helpers, with their offsets. -/
def Group.localWriters (t : Group) (w : InstrBits) : List (Nat × Nat) :=
  ((threadsOf (t.selected w)).zip (t.localOfs w)).filter fun q => !t.helpers.getLsbD q.1

/-- The threads' bytes in a carve, a later thread's over an earlier one's. -/
def L1.storeLocal (w : InstrBits) (t : Group) (u : L1) : L1 :=
  { u with carveMem := (t.localWriters w).foldl (fun m q => Mem.setBytes m q.2 (storeData w t q.1)) u.carveMem }

theorem stcAct_of_inside {par : Bool} (hpar : par = false ∨ 2 ≤ wSize w) (h : LocalInside w (carveSize x t) t) :
    stcAct w par p x t = simple id (x.onL1 (coreOf t.loc) (L1.storeLocal w t)) t := by
  rw [stcAct, localAccess_of_inside h]
  exact if_neg (by rcases hpar with rfl | hsize <;> simp; omega)

theorem stcAct_of_parity (hsize : wSize w < 2) (h : LocalInside w (carveSize x t) t) (hne : t.localOfs w ≠ []) :
    stcAct w true p x t = parityRestartDie t.loc (.carvedL1 (BitVec.ofNat 19 ((t.localOfs w).headD 0))) p x := by
  rw [stcAct, localAccess_of_inside h]
  exact if_pos (by simpa [Group.localOfs, hsize] using hne)

theorem tstAct_of_inside {par : Bool} (hpar : par = false ∨ 2 ≤ wSize w)
    (h : LocalInside w (32768 * maskSteps (partMask x t)) t) : tstAct w par p x t =
      simple id ((t.localWriters w).foldl
        (fun z q => setPartBytes z (partMask x t) (coreOf t.loc) q.2 (storeData w t q.1)) x) t := by
  rw [tstAct, localAccess_of_inside h]
  exact if_neg (by rcases hpar with rfl | hsize <;> simp; omega)

theorem tstAct_of_parity (hsize : wSize w < 2) (h : LocalInside w (32768 * maskSteps (partMask x t)) t)
    (hne : t.localOfs w ≠ []) : tstAct w true p x t =
      parityRestartDie t.loc (.tileMemory (BitVec.ofNat 19 (physOf (partMask x t) ((t.localOfs w).headD 0)))) p x := by
  rw [tstAct, localAccess_of_inside h]
  exact if_pos (by simpa [Group.localOfs, hsize] using hne)

end

/-- Settles O39, row by row, from the checks that the four rows share. That alignment is checked before the range is log
58, and that a parity error is an operand of STC and TST is log 63. -/
theorem localMemoryInstructions : Obligations.LocalMemoryInstructions := by
  unfold Obligations.LocalMemoryInstructions
  intro s d g w t h p y t0 n ths os ats writers inside aligned out carve tile ldPlan stPlan
  refine ⟨fun par c size reg carved q hc hp => ?_, fun hp => ⟨fun hin => ?_, fun hin hne => ?_, fun hin => ?_,
    fun hin hne => ?_⟩, fun hp hsize hne => ⟨fun hin => ?_, fun hin => ?_⟩,
    fun par hp hpar => ⟨fun hin => ?_, fun hin => ?_⟩, fun m a bs => ⟨Mem.byte_setBytes bs m a, Mem.byte_setBytes_ne bs m a⟩⟩
  · have hrow : ∃ cls op act go, exec c s = onGroup d g cls op .mem w (fun _ => q) act s ∧
        act y t0 = localAccess w size reg carved y t0 go := by
      simp only [List.mem_cons, Prod.mk.injEq, List.not_mem_nil, or_false] at hc
      rcases hc with ⟨rfl, rfl, rfl, rfl, rfl⟩ | ⟨rfl, rfl, rfl, rfl, rfl⟩ | ⟨rfl, rfl, rfl, rfl, rfl⟩ |
        ⟨rfl, rfl, rfl, rfl, rfl⟩
      · exact ⟨8, 4, ldcAct w par p, _, rfl, rfl⟩
      · exact ⟨8, 5, stcAct w par p, _, rfl, rfl⟩
      · exact ⟨9, 0, tldAct w par p, _, rfl, by unfold tldAct; rfl⟩
      · exact ⟨9, 1, tstAct w par p, _, rfl, by unfold tstAct; rfl⟩
    obtain ⟨cls, op, act, go, hexec, hact⟩ := hrow
    rw [hexec]
    refine ⟨fun o ho => ?_, fun o hal ho => ?_, fun hsize hno => ?_⟩
    · exact onGroup_leaves h hp rfl (hact.trans (localAccess_of_misaligned ho))
    · exact onGroup_leaves h hp rfl (hact.trans (localAccess_of_outside hal ho))
    · obtain ⟨v, hv⟩ := localAccess_of_absent (w := w) (r := reg) (carved := carved) (x := y) (t := t0) (go := go)
        hsize hno
      exact ⟨v, onGroup_leaves h hp rfl (hact.trans hv)⟩
  · exact onGroup_acts h hp rfl ((ldcAct_of_inside (t := t0) hin).trans (simple_takeLocal t w _ _ y))
  · exact onGroup_leaves h hp rfl (ldcAct_of_parity (t := t0) hin hne)
  · exact onGroup_acts h hp rfl ((tldAct_of_inside (t := t0) hin).trans (simple_takeLocal t w _ _ y))
  · exact onGroup_leaves h hp rfl (tldAct_of_parity (t := t0) hin hne)
  · exact onGroup_leaves h hp rfl (stcAct_of_parity (t := t0) hsize hin hne)
  · exact onGroup_leaves h hp rfl (tstAct_of_parity (t := t0) hsize hin hne)
  · exact onGroup_acts h hp rfl (stcAct_of_inside (t := t0) hpar hin)
  · exact onGroup_acts h hp rfl (tstAct_of_inside (t := t0) hpar hin)

end Sys2Proof.Machine
end

section
/-! PROOFS. O43: stage outputs, interlocks and textures (R250, R269 to R272). -/
namespace Sys2Proof.Machine

/-! ### Outputs and DISCARD (R269) -/

theorem filterMap_range_getElem? {α β : Type} (g : Nat → α → β) (l : List α) :
    (List.range l.length).filterMap (fun i => (l[i]?).map (g i)) = l.mapIdx g := by
  induction l generalizing g with
  | nil => rfl
  | cons a l ih =>
    have htail := ih fun i => g (i + 1)
    simp [List.range_succ_eq_map, List.filterMap_map, List.mapIdx_cons, htail]

/-- A thread's samples after DISCARD. -/
theorem getElem?_frags_uncover (w : InstrBits) (t : Group) (i : Nat) : (uncover w t).frags[i]? =
    (t.frags[i]?).map fun f => if (t.selected w).getLsbD i then { f with cover := 0 } else f := by
  have hmap : (uncover w t).frags =
      t.frags.mapIdx fun i f => if (t.selected w).getLsbD i then { f with cover := 0 } else f :=
    filterMap_range_getElem? _ t.frags
  rw [hmap, List.getElem?_mapIdx]

/-! ### Interlocks (R270) -/

section
variable {s : State} {d : DieId} {g : GrpLoc} {w : InstrBits} {t : Group}

/-- An acquisition that is not granted marks its group as waiting, and no more. -/
theorem execIlkAcq_of_waits (h : groupReady s d g .mem t = true)
    (hp : planRuns t w (Plan.noRegs (ilkAcqBad (s.die d) w t)) = true) (hwait : ilkWaits (s.die d) t = true) :
    execIlkAcq d g w s = nextOn d (fun x => x.updGroup g fun t => { t with ilkWait := true }) s := by
  simp only [groupReady, Bool.and_eq_true, decide_eq_true_eq, Bool.not_eq_true', beq_self_eq_true, Bool.true_and] at h
  obtain ⟨⟨⟨hgroup, hissue⟩, hfence⟩, -⟩ := h
  simp only [planRuns, Plan.noRegs, Bool.and_eq_true, Bool.not_eq_true'] at hp
  obtain ⟨⟨⟨-, hbad⟩, hpred⟩, -⟩ := hp
  have hnone : t.fence.isNone = true := by simpa using hfence
  simp only [execIlkAcq, hgroup, hissue, hnone, hpred, hbad, hwait, Bool.not_false, Bool.and_self, if_true]

theorem execIlkAcq_of_granted (h : groupReady s d g .mem t = true) (hwait : ilkWaits (s.die d) t = false) :
    execIlkAcq d g w s = onGroup d g 9 0x30 .mem w (fun t => Plan.noRegs (ilkAcqBad (s.die d) w t))
      (simple fun t => { t with ilk := 1, ilkWait := false }) s := by
  simp only [groupReady, Bool.and_eq_true, decide_eq_true_eq] at h
  obtain ⟨⟨⟨hgroup, -⟩, -⟩, -⟩ := h
  simp only [execIlkAcq, hgroup, hwait, Bool.and_false, Bool.false_eq_true, if_false]

end

/-! ### Textures (R271, R272) -/

/-- The four components that the selected threads take from a texture, by thread. -/
def Group.putTexels (t : Group) (w : InstrBits) (res : List (Nat × List Word)) : Group :=
  (List.range 4).foldl
    (fun u k => u.putLanes (t.selected w) (wDst w + k) fun i => ((res.lookup i).getD []).getD k 0) t

/-- Where every result is 0, the selected threads take 0. -/
theorem Group.putTexels_of_zero (t : Group) (w : InstrBits) {res : List (Nat × List Word)}
    (h : ∀ r ∈ res, ∀ k, r.2.getD k 0 = 0) : t.putTexels w res =
      (List.range 4).foldl (fun u k => u.putLanes (t.selected w) (wDst w + k) fun _ => 0) t := by
  have hzero : ∀ i k, ((res.lookup i).getD []).getD k 0 = 0 := fun i k => by
    cases hr : res.lookup i with
    | none => rfl
    | some v =>
      obtain ⟨l, l', hl, -⟩ := List.lookup_eq_some_iff.mp hr
      exact h (i, v) (by simp [hl]) k
  simp only [Group.putTexels, hzero]

/-- The results of threads, one after another, until a line cannot be read. -/
def readAsks (p x : Die) (t : Group) (pm : PageMap) (b : List Byte) (asks : List (Nat × TexAsk)) :
    Die × Option (List (Nat × List Word)) :=
  asks.foldl (fun r a => match r.2 with
    | none => r
    | some l => match readTexels p r.1 t pm b a.2.texels with
      | (v, none) => (v, none)
      | (v, some vs) => (v, some (l ++ [(a.1, (List.range 4).map (texResult a.2 vs))]))) (x, some [])

/-- Threads that ask for no texel read nothing. -/
theorem readAsks_of_none (p x : Die) (t : Group) (pm : PageMap) (b : List Byte) {asks : List (Nat × TexAsk)}
    (h : ∀ a ∈ asks, a.2.texels = []) : ∃ res, readAsks p x t pm b asks = (x, some res) ∧
      ∀ r ∈ res, ∀ k, r.2.getD k 0 = 0 := by
  refine List.foldlRecOn asks _
    (motive := fun r : Die × Option (List (Nat × List Word)) =>
      ∃ res, r = (x, some res) ∧ ∀ q ∈ res, ∀ k, q.2.getD k 0 = 0)
    ⟨[], rfl, by simp⟩ ?_
  rintro _ ⟨res, rfl, hres⟩ a ha
  refine ⟨res ++ [(a.1, List.replicate 4 0)], ?_, fun q hq k => ?_⟩
  · simp only [h a ha]
    rfl
  · rcases List.mem_append.mp hq with hq | hq
    · exact hres q hq k
    · obtain rfl := List.mem_singleton.mp hq
      rw [List.getD_eq_getElem?_getD, List.getElem?_replicate]
      split <;> rfl

/-- What the selected threads ask of a texture. -/
def Group.texAsks (t : Group) (w : InstrBits) (ask : Nat → TexAsk) : List (Nat × TexAsk) :=
  (threadsOf (t.selected w)).map fun i => (i, ask i)

/-- The one access unit of the texels that threads ask for. -/
def texelUnit (b : List Byte) (asks : List (Nat × TexAsk)) : List URange :=
  (((asks.map fun a => a.2.texels).flatten.map (texelVa b)).eraseDups.map fun q =>
    { va := q.1, len := q.2, acc := accRead })

/-- A unit of no texel passes both guards and touches nothing. -/
theorem prewalk_texelUnit_of_none (p x : Die) (m : Master) (c : Nat) (b : List Byte) {asks : List (Nat × TexAsk)}
    (h : ∀ a ∈ asks, a.2.texels = []) : prewalk p x m c (texelUnit b asks) = (x, some []) := by
  have hnil : (asks.map fun a => a.2.texels).flatten = [] :=
    List.flatten_eq_nil_iff.mpr fun _ hl => let ⟨a, ha, hal⟩ := List.mem_map.mp hl; hal ▸ h a ha
  rw [texelUnit, hnil]
  rfl

section
variable {w : InstrBits} {ask : List Byte → Group → Nat → TexAsk} {p x z : Die} {t : Group} {b : List Byte}

theorem textureAct_of_bad
    (hread : readUnit p x (.texture t.loc) t.ctx (wResVa (drawWord x t) + 32 * (wOfsU w % 4096)) 32 accRead = (z, some b))
    (hbad : texOk b = false) : textureAct w ask p x t =
      trapGroup z t clsBadDescriptor 0 (wResVa (drawWord x t) + 32 * (wOfsU w % 4096)) := by
  simp only [textureAct, hread, hbad, Bool.not_false, if_true]

theorem textureAct_of_good {y v : Die} {pm : PageMap} {res : List (Nat × List Word)}
    (hread : readUnit p x (.texture t.loc) t.ctx (wResVa (drawWord x t) + 32 * (wOfsU w % 4096)) 32 accRead = (z, some b))
    (hgood : texOk b = true)
    (hwalk : prewalk p z (.texture t.loc) t.ctx (texelUnit b (t.texAsks w (ask b t))) = (y, some pm))
    (hgot : readAsks p y t pm b (t.texAsks w (ask b t)) = (v, some res)) :
    textureAct w ask p x t = settleGroup v (t.putTexels w res).next := by
  unfold texelUnit Group.texAsks at hwalk
  simp only [textureAct, hread, hgood, Bool.not_true, Bool.false_eq_true, if_false, hwalk]
  change (match readAsks p y t pm b (t.texAsks w (ask b t)) with
    | (v, none) => v
    | (v, some res) => settleGroup v (t.putTexels w res).next) = _
  rw [hgot]

end

/-- Settles O43, row by row. Which texels SAMPLE asks for is log 93, and that an acquisition begins to wait when its command
is first tried log 64: the model's choices. -/
theorem outputAndTextureInstructions : Obligations.OutputAndTextureInstructions := by
  unfold Obligations.OutputAndTextureInstructions
  intro s d g w t h x y m go kept puts four
  refine ⟨fun hp => ?_, fun hp => ?_, fun hp => ?_, fun hp => ?_, fun hp => ?_,
    fun hp => ⟨fun hwait => ?_, fun hwait => ?_⟩, fun hp => ?_, fun c plan ask hc hp z b => ?_⟩
  · exact onGroup_simple h hp rfl rfl
  · exact onGroup_simple h hp rfl rfl
  · exact onGroup_simple h hp rfl rfl
  · exact onGroup_simple h hp rfl rfl
  · exact ⟨uncover w t, onGroup_simple h hp rfl rfl, rfl, rfl, rfl, getElem?_frags_uncover w t⟩
  · exact execIlkAcq_of_waits h hp hwait
  · exact (execIlkAcq_of_granted h hwait).trans (onGroup_simple h hp rfl rfl)
  · exact onGroup_simple h hp rfl rfl
  · intro dva hread
    have hrow : ∃ op act enc, exec c s = onGroup d g 0xD op .mem w enc (textureAct w act (s.die d.other)) s ∧
        enc t = plan ∧ ∀ b, act b { t with wait := 0 } = ask b := by
      simp only [List.mem_cons, Prod.mk.injEq, List.not_mem_nil, or_false] at hc
      rcases hc with ⟨rfl, rfl, rfl⟩ | ⟨rfl, rfl, rfl⟩
      · exact ⟨0, fun b t i => sampleAsk b w t i, _, rfl, rfl, fun _ => rfl⟩
      · exact ⟨1, fun b t i => fetchAsk b w t i, _, rfl, rfl, fun _ => rfl⟩
    obtain ⟨op, act, enc, hexec, henc, hask⟩ := hrow
    rw [hexec]
    refine ⟨fun hbad => ?_, fun hgood hnone => ?_, fun zz pm zzz res hgood hwalk hgot => ?_⟩
    · exact onGroup_leaves h hp henc (textureAct_of_bad (t := { t with wait := 0 }) hread hbad)
    · have hnone : ∀ a ∈ t.texAsks w (ask b), a.2.texels = [] := fun a ha =>
        let ⟨i, hi, hia⟩ := List.mem_map.mp ha; hia ▸ hnone i hi
      obtain ⟨res, hgot, hzero⟩ := readAsks_of_none (s.die d.other) z { t with wait := 0 } [] b hnone
      refine ⟨z, ?_⟩
      rw [← t.putTexels_of_zero w hzero]
      refine onGroup_acts h hp henc (textureAct_of_good (t := { t with wait := 0 }) (y := z) (pm := []) hread hgood ?_ ?_)
      · rw [hask]
        exact prewalk_texelUnit_of_none _ z _ _ b hnone
      · rw [hask]
        exact hgot
    · rw [← hask] at hwalk hgot
      exact onGroup_acts h hp henc (textureAct_of_good (t := { t with wait := 0 }) hread hgood hwalk hgot)

end Sys2Proof.Machine
end

section
/-! PROOFS. O44: the front end: passes, draws, vertex groups and bins (R239, R242, R248, R249, R261 to R263). -/
namespace Sys2Proof.Machine

/-! ### What is read of a pass after an update -/

@[simp] theorem Die.passes_updPass (x : Die) (pp : Fin 4) (f : Pass → Pass) :
    (x.updPass pp f).passes[pp] = (x.passes[pp]).map f := getElem_vmod_same _ _ _

theorem Pass.enter_of_not_folding (q : Pass) (h : q.phase ≠ .folding) (ph : PassPhase) :
    q.enter ph = { q with phase := ph } := if_neg h

/-! ### PASS_START (R242, R261) -/

/-- A pass takes its descriptor. -/
def Pass.described (q : Pass) (b : List Byte) (cls : List (Fin 6)) : Pass :=
  { q with desc := b, drawVa := pDrawVa b, nextChunk := if pDirect b then 0 else headChunks b,
           peak := if pDirect b then 0 else headChunks b, segment := 1,
           tiles := if pDirect b then ((List.range cls.length).zip cls).map fun (t : Nat × Fin 6) => directFlight t.1 t.2
                    else [] }

/-- A pass as PASS_START begins it by its descriptor. -/
def Pass.begun (q : Pass) (b : List Byte) (cls : List (Fin 6)) : Pass :=
  let r := if pDirect b then (q.described b cls).enter .direct else (q.described b cls).enter .binning
  if pDrawVa b = 0 then r.endDraws else r

theorem Pass.endDraws_of_direct {q : Pass} (h : q.direct = true) :
    q.endDraws = { q with drawVa := 0, draw := [], checked := false } := if_pos h

theorem Pass.endDraws_of_binned {q : Pass} (h : q.direct = false) (hphase : q.phase ≠ .folding) :
    q.endDraws = { q with drawVa := 0, draw := [], checked := false, phase := .tile, nextTile := 0 } := by
  have hdirect : ({ q with drawVa := 0, draw := [], checked := false } : Pass).direct = false := h
  simp only [Pass.endDraws, hdirect, Bool.false_eq_true, if_false, Pass.enter, hphase]

theorem Pass.begun_binned {q : Pass} {b : List Byte} (cls : List (Fin 6)) (hphase : q.phase ≠ .folding)
    (hmode : pDirect b = false) : let r := q.begun b cls
    r.desc = b ∧ r.segment = 1 ∧ r.nextChunk = headChunks b ∧ r.tiles = [] ∧
      r.phase = (if pDrawVa b = 0 then .tile else .binning) ∧ r.drawVa = pDrawVa b := by
  have hchunk : (q.described b cls).nextChunk = headChunks b := by simp [Pass.described, hmode]
  have htiles : (q.described b cls).tiles = [] := by simp [Pass.described, hmode]
  have hdirect : ({ q.described b cls with phase := .binning } : Pass).direct = false := hmode
  rw [Pass.begun, hmode, if_neg Bool.false_ne_true, (q.described b cls).enter_of_not_folding hphase]
  split
  case isTrue hnone =>
    rw [Pass.endDraws_of_binned hdirect nofun, hnone]
    exact ⟨rfl, rfl, hchunk, htiles, rfl, rfl⟩
  case isFalse => exact ⟨rfl, rfl, hchunk, htiles, rfl, rfl⟩

theorem Pass.begun_direct {q : Pass} {b : List Byte} (cls : List (Fin 6)) (hphase : q.phase ≠ .folding)
    (hmode : pDirect b = true) : let r := q.begun b cls
    r.desc = b ∧ r.phase = .direct ∧ r.drawVa = pDrawVa b ∧ r.tiles.map (fun f => f.cl) = cls := by
  have hclusters : (q.described b cls).tiles.map (fun f => f.cl) = cls := by
    simp only [Pass.described, hmode, if_true, List.map_map]
    exact List.map_snd_zip (by simp)
  have hdirect : ({ q.described b cls with phase := .direct } : Pass).direct = true := hmode
  rw [Pass.begun, hmode, if_pos rfl, (q.described b cls).enter_of_not_folding hphase]
  split
  case isTrue hnone =>
    rw [Pass.endDraws_of_direct hdirect, hnone]
    exact ⟨rfl, rfl, rfl, hclusters⟩
  case isFalse => exact ⟨rfl, rfl, rfl, hclusters⟩

section
variable {pp : Fin 4} {p x y z : Die} {q : Pass} {j : Job} {b : List Byte}

theorem passStartDie_of_bad (hfront : frontPass x pp = some (q, j)) (hdesc : q.desc = []) (hphase : q.phase ≠ .folding)
    (hread : readUnit p x (.frontEnd pp) q.ctx (dWorkVa j.desc) 256 accRead = (y, some b))
    (hbad : passOk b (dSteps j.desc) = false) :
    passStartDie pp p x = badPassDesc y pp q.ctx (dWorkVa j.desc) := by
  simp only [passStartDie, hfront, hdesc, hphase, hread, hbad, List.isEmpty_nil, decide_false, Bool.not_true, Bool.or_self,
    Bool.false_eq_true, if_false, Bool.not_false, if_true]

theorem passStartDie_of_good (hfront : frontPass x pp = some (q, j)) (hdesc : q.desc = []) (hphase : q.phase ≠ .folding)
    (hread : readUnit p x (.frontEnd pp) q.ctx (dWorkVa j.desc) 256 accRead = (y, some b))
    (hgood : passOk b (dSteps j.desc) = true)
    (hclear : (if pDirect b then clearImages p y pp q.ctx ((shareClusters j).headD 0) b
      else writeList p y (.frontEnd pp) q.ctx (splitBytes (pHamperVa b) (List.replicate (16 * pTiles b) 0))) = (z, true)) :
    passStartDie pp p x = z.updPass pp fun q => q.begun b (shareClusters j) := by
  simp only [passStartDie, hfront, hdesc, hphase, hread, hgood, hclear, List.isEmpty_nil, decide_false, Bool.not_true,
    Bool.or_self, Bool.false_eq_true, if_false]
  rfl

end

/-! ### DRAW_CHECK (R248) -/

/-- A draw is bound with its viewport (R248). -/
def Pass.bindDraw (q : Pass) (bs : List Byte) : Pass :=
  { q with draw := bs, checked := true, draws := (q.drawNo, bs) :: q.draws }

/-- A pass whose next draw waits for its check. -/
structure Pass.AwaitsDraw (q : Pass) : Prop where
  started : q.desc ≠ []
  unchecked : q.checked = false
  chained : q.drawVa ≠ 0
  drawing : q.phase = .binning ∨ q.phase = .direct

/-- The front end does not pass over a draw that waits. -/
theorem Pass.AwaitsDraw.not_skipped {q : Pass} (h : q.AwaitsDraw) : (q.desc.isEmpty || q.checked || q.drawVa == 0 ||
    !(decide (q.phase = .binning) || decide (q.phase = .direct))) = false := by
  obtain ⟨hdesc, hchecked, hva, hphase⟩ := h
  rcases hphase with hphase | hphase <;> simp [hdesc, hchecked, hva, hphase]

section
variable {pp : Fin 4} {p x y z : Die} {q : Pass} {j : Job} {w : List Byte}

theorem drawCheckDie_of_bad (hfront : frontPass x pp = some (q, j)) (hawaits : q.AwaitsDraw)
    (hread : readUnit p x (.frontEnd pp) q.ctx q.drawVa 128 accRead = (y, some w)) (hbad : drawOk q.desc w = false) :
    drawCheckDie pp p x = badPassDesc y pp q.ctx q.drawVa := by
  simp only [drawCheckDie, hfront, hawaits.not_skipped, hread, hbad, Bool.false_eq_true, if_false, Bool.not_false,
    Bool.true_or, if_true]

theorem drawCheckDie_of_good {vp : List Byte} (hfront : frontPass x pp = some (q, j)) (hawaits : q.AwaitsDraw)
    (hread : readUnit p x (.frontEnd pp) q.ctx q.drawVa 128 accRead = (y, some w)) (hgood : drawOk q.desc w = true)
    (hno : q.drawNo ≤ 1048574)
    (hview : readUnit p y (.frontEnd pp) q.ctx (pViewportsVa q.desc + 24 * wViewport w) 24 accRead = (z, some vp)) :
    drawCheckDie pp p x = z.updPass pp fun q =>
      if wCount w = 0 then (q.bindDraw (w ++ vp)).nextDraw else q.bindDraw (w ++ vp) := by
  simp only [drawCheckDie, hfront, hawaits.not_skipped, hread, hgood, Nat.not_lt.mpr hno, hview, decide_false,
    Bool.not_true, Bool.or_self, Bool.false_eq_true, if_false]
  rfl

end

/-! ### VERTEX_GROUP_DISPATCH (R249) -/

theorem Group.lane_fillReg {t : Group} {r i : Nat} (v : Nat → Word) (hr : r < t.regs.length) (hi : i < 64) :
    (t.fillReg r v).lane r i = v i := by
  simp [Group.lane, Group.fillReg, hr, hi]

theorem Group.lane_fillReg_ne {t : Group} {r k : Nat} (v : Nat → Word) (i : Nat) (h : k ≠ r) :
    (t.fillReg r v).lane k i = t.lane k i := by
  simp [Group.lane, Group.fillReg, List.getElem?_set_ne h.symm]

@[simp] theorem Group.length_regs_fillReg (t : Group) (r : Nat) (v : Nat → Word) :
    (t.fillReg r v).regs.length = t.regs.length := by
  simp [Group.fillReg]

/-- A vertex group before its registers are filled. -/
def bareVertexGroup (q : Pass) (pp : Fin 4) (vals : List Nat) (k : Nat) (l : GrpLoc) (st : Nat) : Group :=
  newGroup k l q.job q.ctx st (wVsRegs q.draw) 0 (BitVec.ofNat 48 (wVsVa q.draw)) (BitVec.ofNat 64 (2 ^ vals.length - 1))
    (.vertex pp q.position q.inst vals.length)

theorem lane_vertexGroup (q : Pass) (pp : Fin 4) (vals : List Nat) (k : Nat) (l : GrpLoc) (st r i : Nat) :
    (vertexGroup q pp vals k l st).lane r i =
      (((((bareVertexGroup q pp vals k l st).fillReg 0 fun _ => BitVec.ofNat 32 (wConstVa q.draw)).fillReg 1 fun _ =>
        BitVec.ofNat 32 (wConstVa q.draw / 2 ^ 32 % 2 ^ 16)).fillReg 2 fun i =>
          BitVec.ofNat 32 (vals.getD i 0 + wBaseVertex q.draw)).fillReg 3 fun _ =>
            BitVec.ofNat 32 (wFirstInstance q.draw + q.inst)).lane r i := rfl

/-- What the first four registers of a vertex group hold (R249). -/
theorem lanes_vertexGroup (q : Pass) (pp : Fin 4) (vals : List Nat) (k : Nat) (l : GrpLoc) (st : Nat)
    (hregs : 4 ≤ wVsRegs q.draw) {i : Nat} (hi : i < 64) : let g := vertexGroup q pp vals k l st
    g.lane 0 i = BitVec.ofNat 32 (wConstVa q.draw) ∧ g.lane 1 i = BitVec.ofNat 32 (wConstVa q.draw / 2 ^ 32 % 2 ^ 16) ∧
      g.lane 2 i = BitVec.ofNat 32 (vals.getD i 0 + wBaseVertex q.draw) ∧
      g.lane 3 i = BitVec.ofNat 32 (wFirstInstance q.draw + q.inst) := by
  have hlen : (bareVertexGroup q pp vals k l st).regs.length = wVsRegs q.draw := by simp [bareVertexGroup, newGroup]
  refine ⟨?_, ?_, ?_, ?_⟩
  · rw [lane_vertexGroup, Group.lane_fillReg_ne _ _ (by decide), Group.lane_fillReg_ne _ _ (by decide),
      Group.lane_fillReg_ne _ _ (by decide), Group.lane_fillReg _ (by omega) hi]
  · rw [lane_vertexGroup, Group.lane_fillReg_ne _ _ (by decide), Group.lane_fillReg_ne _ _ (by decide),
      Group.lane_fillReg _ (by simp; omega) hi]
  · rw [lane_vertexGroup, Group.lane_fillReg_ne _ _ (by decide), Group.lane_fillReg _ (by simp; omega) hi]
  · rw [lane_vertexGroup, Group.lane_fillReg _ (by simp; omega) hi]

/-- A pass with positions that wait to be shaded. -/
structure Pass.AwaitsVertices (q : Pass) : Prop where
  checked : q.checked = true
  drawing : q.phase = .binning ∨ q.phase = .direct
  ahead : q.position < wCount q.draw

/-- The front end does not pass over positions that wait. -/
theorem Pass.AwaitsVertices.not_skipped {q : Pass} (h : q.AwaitsVertices) : (!q.checked ||
    !(decide (q.phase = .binning) || decide (q.phase = .direct)) || decide (wCount q.draw ≤ q.position)) = false := by
  obtain ⟨hchecked, hphase, hahead⟩ := h
  rcases hphase with hphase | hphase <;> simp [hchecked, hphase, hahead]

section
variable {pp : Fin 4} {p x : Die} {q : Pass} {j : Job}

theorem vertexDispatchDie_of_full (hfront : frontPass x pp = some (q, j))
    (hcore : x.bestCore (inOrder (liveClusters j)) q.job 0 (wVsRegs q.draw) 0 1 = none) :
    vertexDispatchDie pp p x = x := by
  simp only [vertexDispatchDie, hfront, hcore, ite_self]

theorem vertexDispatchDie_of_core {c : CoreLoc} {y : Die} {vals : List Nat} (hfront : frontPass x pp = some (q, j))
    (hawaits : q.AwaitsVertices) (hsched : x.schedules = true)
    (hcore : x.bestCore (inOrder (liveClusters j)) q.job 0 (wVsRegs q.draw) 0 1 = some c)
    (hvals : indexValues p x pp q (min 64 (wCount q.draw - q.position)) = (y, some vals)) :
    vertexDispatchDie pp p x =
      ((y.placeGroup c (wVsRegs q.draw) 0 fun f l st => (vertexGroup q pp vals f l st).numbered j.dispatched).updJob q.job
        Job.oneMore).updPass pp fun r => { r with
          position := r.position + min 64 (wCount q.draw - q.position),
          cuts := r.cuts ++ ((List.range (min 64 (wCount q.draw - q.position))).filter fun i =>
            isRestart q.draw (vals.getD i 0)).map fun i => q.position + i } := by
  simp only [vertexDispatchDie, hfront, hawaits.not_skipped, hsched, hcore, hvals, Bool.not_true, Bool.or_self,
    Bool.false_eq_true, if_false]

end

/-! ### TRIANGLE_BIN (R239, R251, R262, R263) -/

/-- A pass is served at its next primitive. -/
def Die.serve (x : Die) (pp : Fin 4) : Die := x.updPass pp fun r => { r with served := x.serviceCount + 1 }

section
variable {pp : Fin 4} {p x : Die} {q : Pass} {j : Job}

theorem triangleBinDie_of_idle (hfront : frontPass x pp = some (q, j))
    (hidle : q.hasWork = false ∨ x.frontServes pp q j = false) : triangleBinDie pp p x = x := by
  rcases hidle with hidle | hidle <;>
    simp only [triangleBinDie, hfront, hidle, Bool.not_false, Bool.true_or, Bool.or_true, if_true]

section
variable (hfront : frontPass x pp = some (q, j)) (hwork : q.hasWork = true) (hserves : x.frontServes pp q j = true)
include hfront hwork hserves

theorem triangleBinDie_of_fan (hfan : q.fan ≠ []) : triangleBinDie pp p x = binFan p pp q.fan (x.serve pp) := by
  simp only [triangleBinDie, hfront, hwork, hserves, hfan, Bool.not_true, Bool.or_self,
    Bool.false_eq_true, if_false, Bool.not_eq_true', List.isEmpty_eq_false_iff, if_true, ne_eq, not_false_eq_true]
  rfl

theorem triangleBinDie_of_over (hfan : q.fan = []) (hnext : q.nextTri = .over) :
    triangleBinDie pp p x = (x.serve pp).updPass pp Pass.nextInstance := by
  simp only [triangleBinDie, hfront, hwork, hserves, hfan, hnext, List.isEmpty_nil, Bool.not_true, Bool.or_self,
    Bool.false_eq_true, if_false]
  rfl

theorem triangleBinDie_of_tri {a k : Nat} {cs : List Nat} {vs : List Vert} (hfan : q.fan = [])
    (hnext : q.nextTri = .tri a k cs vs) : triangleBinDie pp p x =
      binFan p pp (shapeTriangle q.draw q.drawNo q.tri vs).1 (countCulled (((x.serve pp).updPass pp fun r =>
        { r with primsIn := r.primsIn + 1, tri := r.tri + 1, stripStart := a, stripTri := k + 1, cuts := cs }).count
          .gfxPrimInCnt) pp (shapeTriangle q.draw q.drawNo q.tri vs).2) := by
  simp only [triangleBinDie, hfront, hwork, hserves, hfan, hnext, List.isEmpty_nil, Bool.not_true, Bool.or_self,
    Bool.false_eq_true, if_false]
  rfl

end

end

/-- Settles O44, by what each command makes of the die. That a DRAW_VA of 0 is a pass without draws is log 86; that vertices
are shaded in sequence and that the pass served least recently comes next, log 87. -/
theorem theFrontEndServesPasses : Obligations.TheFrontEndServesPasses := by
  unfold Obligations.TheFrontEndServesPasses
  intro s d pp q j x p hfront
  refine ⟨fun y b hdesc hphase hread => ⟨fun hbad => ?_, fun z hgood hmode hclear hpass => ?_,
      fun z hgood hmode hclear hpass => ?_⟩,
    fun y w hdesc hchecked hva hphase hread =>
      ⟨fun hbad => ?_, fun z vp hgood hno hview => ⟨fun hn => ?_, fun hn => ?_⟩⟩,
    fun hchecked hphase hahead hsched => ⟨fun hcore => ?_, fun c y vals hcore hvals => ?_⟩,
    fun vals k l st hregs => ⟨rfl, rfl, rfl, fun i hi => lanes_vertexGroup q pp vals k l st hregs hi⟩,
    fun hwork hserves hfan => ?_, fun hwork hserves hfan => ⟨fun hnext => ?_, fun a k cs vs hnext => ?_⟩, fun hidle => ?_⟩
  · exact nextOn_of_eq (passStartDie_of_bad hfront hdesc hphase hread hbad)
  · have hstart := passStartDie_of_good hfront hdesc hphase hread hgood (z := z) (by rw [hmode]; exact hclear)
    obtain ⟨hbound, hsegment, hchunk, htiles, hbinning, hchain⟩ := Pass.begun_binned (shareClusters j) hphase hmode
    refine ⟨_, q.begun b (shareClusters j), nextOn_of_eq hstart, ?_, hbound, hsegment, hchunk,
      htiles, hbinning, hchain, ?_⟩
    · rw [State.die_setDie]
      exact (Die.passes_updPass z pp _).trans (by rw [hpass]; rfl)
    · rw [State.die_setDie]
      rfl
  · have hstart := passStartDie_of_good hfront hdesc hphase hread hgood (z := z) (by rw [hmode]; exact hclear)
    obtain ⟨hbound, hdirect, hchain, hclusters⟩ := Pass.begun_direct (shareClusters j) hphase hmode
    refine ⟨_, q.begun b (shareClusters j), nextOn_of_eq hstart, ?_, hbound, hdirect, hchain,
      hclusters, ?_⟩
    · rw [State.die_setDie]
      exact (Die.passes_updPass z pp _).trans (by rw [hpass]; rfl)
    · rw [State.die_setDie]
      rfl
  · exact nextOn_of_eq (drawCheckDie_of_bad hfront ⟨hdesc, hchecked, hva, hphase⟩ hread hbad)
  · have hcheck := drawCheckDie_of_good hfront ⟨hdesc, hchecked, hva, hphase⟩ hread hgood hno hview
    simp only [hn, if_false] at hcheck
    exact nextOn_of_eq hcheck
  · have hcheck := drawCheckDie_of_good hfront ⟨hdesc, hchecked, hva, hphase⟩ hread hgood hno hview
    simp only [hn, if_true] at hcheck
    exact nextOn_of_eq hcheck
  · exact nextOn_congr (vertexDispatchDie_of_full hfront hcore)
  · exact nextOn_of_eq (vertexDispatchDie_of_core hfront ⟨hchecked, hphase, hahead⟩ hsched hcore hvals)
  · exact nextOn_of_eq (triangleBinDie_of_fan hfront hwork hserves hfan)
  · exact nextOn_of_eq (triangleBinDie_of_over hfront hwork hserves hfan hnext)
  · exact nextOn_of_eq (triangleBinDie_of_tri hfront hwork hserves hfan hnext)
  · exact nextOn_congr (triangleBinDie_of_idle hfront hidle)

end Sys2Proof.Machine
end

section
/-! PROOFS. O45: the hamper's extension, rinses, tiles, fragment groups and the end of a pass (R250, R255 to R260, R277). -/
namespace Sys2Proof.Machine

/-! ### The reserve of a context (R257, R258) -/

/-- The lowest chunk of a reserve of `n` whose bit in its MAP is clear. -/
def freeChunk (n : Nat) (m : List Byte) : Option Nat :=
  (List.range n).find? fun c => !(m.getD (c / 8) 0).getLsbD (c % 8)

section
variable {pp : Fin 4} {p x y : Die} {q : Pass} {since : DWord}

theorem extTimeoutDie_of_waiting (hpass : x.passes[pp] = some q) (hwait : q.extWait = some since)
    (hrun : x.running = true) (hthaw : q.frozen = none) :
    extTimeoutDie pp p x = if x.passed since x.extWaitUs then extRefused p x pp q else x := by
  simp only [extTimeoutDie, hpass, hwait, hrun, hthaw, Option.isNone_none, Bool.true_and]

section
variable {base n : Nat} {m : List Byte} (hpass : x.passes[pp] = some q) (hwait : q.extWait = some since)
  (hrun : x.running = true) (hold : x.oldestExt since = true) (hthaw : q.frozen = none)
  (hread : readReserve p x pp q = (y, some (base, n, m)))
include hpass hwait hrun hold hthaw hread

theorem extAnswerDie_of_none (grant : Bool) (hfree : freeChunk n m = none) :
    extAnswerDie pp grant p x = extRefused p y pp q := by
  unfold freeChunk at hfree
  simp only [extAnswerDie, hpass, hwait, hrun, hold, hthaw, hread, hfree, Option.isSome_none, Bool.not_true, Bool.or_self,
    Bool.false_eq_true, if_false]

variable {c : Nat} (hfree : freeChunk n m = some c)
include hfree

theorem extAnswerDie_of_other_answer : extAnswerDie pp false p x = y := by
  unfold freeChunk at hfree
  simp only [extAnswerDie, hpass, hwait, hrun, hold, hthaw, hread, hfree, Option.isSome_none, Bool.not_true, Bool.or_self,
    Bool.false_eq_true, if_false, Bool.not_false, if_true]

theorem extAnswerDie_of_late (hlate : y.passed since y.extWaitUs = true) :
    extAnswerDie pp true p x = extRefused p y pp q := by
  unfold freeChunk at hfree
  simp only [extAnswerDie, hpass, hwait, hrun, hold, hthaw, hread, hfree, hlate, Option.isSome_none, Bool.not_true,
    Bool.or_self, Bool.false_eq_true, if_false, if_true]

theorem extAnswerDie_of_grant {z : Die} (hlate : y.passed since y.extWaitUs = false)
    (hwrite : writeMap p y pp q (mapBits m [c] true) = (z, true)) : extAnswerDie pp true p x =
      (z.updPass pp fun r => { r with
        extWait := none, exts := r.exts ++ [c], extBase := base, extGranted := r.extGranted + 1 }).count .gfxExtGrantCnt := by
  unfold freeChunk at hfree
  simp only [extAnswerDie, hpass, hwait, hrun, hold, hthaw, hread, hfree, hlate, hwrite, Option.isSome_none, Bool.not_true,
    Bool.or_self, Bool.false_eq_true, if_false]

end

/-- A request that is refused sends a pass that may rinse into its rinse (R258, R259). -/
theorem extRefused_of_rinse (p y : Die) (h : pAllowRinse q.desc = true) : extRefused p y pp q =
    ((y.updPass pp fun q => { q with extWait := none, extRefused := q.extRefused + 1 }).count .gfxExtRefusedCnt).updPass pp
      fun q => { q.enter .rinse with nextTile := 0 } := if_pos h

end

/-! ### RINSE (R259) -/

/-- A pass whose lists are empty again bins on in a new segment. -/
def Pass.resumed (q : Pass) : Pass :=
  { q.enter .binning with
    segment := q.segment + 1, rinses := q.rinses + 1, tails := [], nextChunk := headChunks q.desc,
    chunksUsed := headChunks q.desc, vChunk := 0, vOfs := 0, lChunk := 0, lSeg := 0, nextTile := 0 }

theorem Pass.resumed_of_not_folding (q : Pass) (h : q.phase ≠ .folding) : q.resumed = { q with
    phase := .binning, segment := q.segment + 1, rinses := q.rinses + 1, tails := [], nextChunk := headChunks q.desc,
    chunksUsed := headChunks q.desc, vChunk := 0, vOfs := 0, lChunk := 0, lSeg := 0, nextTile := 0 } := by
  rw [Pass.resumed, q.enter_of_not_folding h]

theorem rinseDie_of_written {pp : Fin 4} {p x y z : Die} {q : Pass} {j : Job} (hfront : frontPass x pp = some (q, j))
    (hphase : q.phase = .rinse) (htiles : pTiles q.desc ≤ q.nextTile) (hnone : q.tiles = [])
    (hwrite : writeList p x (.frontEnd pp) q.ctx (q.tails.map fun t => (headVa q.desc t.1, List.replicate 12 0)) = (y, true))
    (hreturn : returnChunks p y pp q = (z, true)) :
    rinseDie pp p x = (z.updPass pp Pass.resumed).count .gfxRinseCnt := by
  simp only [rinseDie, hfront, hphase, Nat.not_lt.mpr htiles, hnone, hwrite, hreturn, thenOk_true, List.isEmpty_nil,
    ne_eq, not_true_eq_false, decide_false, Bool.not_true, Bool.or_self, Bool.false_eq_true, if_false]
  rfl

/-! ### TILE_RENDER (R246, R259, R260) -/

/-- The tiles of a pass on a cluster. -/
def Pass.onCluster (q : Pass) (cl : Fin 6) : List TileFlight := q.tiles.filter fun f => decide (f.cl = cl)

/-- The die once the fragments of a pass's tiles on a cluster have been applied. -/
def serveCluster (p x : Die) (pp : Fin 4) (cl : Fin 6) (q : Pass) : Die :=
  (q.onCluster cl).foldl (fun y f => serveTile p y pp f.tile) x

section
variable {pp : Fin 4} {cl : Fin 6} {p x y : Die} {q q0 : Pass} {j j0 : Job} {r : Partition}
  (hfront0 : frontPass x pp = some (q0, j0)) (hunit : x.unitFrozen cl.val = false) (hhalt : q0.haltedOn cl = false)
  (hserved : serveCluster p x pp cl q0 = y) (hfront : frontPass y pp = some (q, j))
  (hphase : q.phase = .tile ∨ q.phase = .rinse) (hlive : (liveClusters j).contains cl = true)
  (hpart : y.part? q.job cl = some r)
include hfront0 hunit hhalt hserved hfront hphase hlive hpart

theorem tileRenderDie_eq : tileRenderDie pp cl p x =
    match (q.onCluster cl).find? (fun f => f.listDone && f.settled), (q.onCluster cl).find? (fun f => !f.listDone) with
    | some f, _ => storeTile p y pp q f r.mask
    | none, some f => drawEntry p y pp q f
    | none, none => takeTile p y pp q j cl r.mask := by
  have hdrawn : (decide (q.phase = .tile) || decide (q.phase = .rinse)) = true := by simpa using hphase
  unfold serveCluster Pass.onCluster at hserved
  simp only [tileRenderDie, hfront0, hunit, hhalt, hserved, hfront, hdrawn, hlive, hpart, Bool.not_true, Bool.or_self,
    Bool.false_eq_true, if_false]
  rfl

theorem tileRenderDie_of_finished {f : TileFlight}
    (hdone : (q.onCluster cl).find? (fun f => f.listDone && f.settled) = some f) :
    tileRenderDie pp cl p x = storeTile p y pp q f r.mask := by
  rw [tileRenderDie_eq hfront0 hunit hhalt hserved hfront hphase hlive hpart, hdone]

theorem tileRenderDie_of_listed {f : TileFlight} (hbusy : ∀ g ∈ q.onCluster cl, (g.listDone && g.settled) = false)
    (hlist : (q.onCluster cl).find? (fun f => !f.listDone) = some f) :
    tileRenderDie pp cl p x = drawEntry p y pp q f := by
  have hnone : (q.onCluster cl).find? (fun g => g.listDone && g.settled) = none :=
    List.find?_eq_none.mpr fun g hg => by simp only [hbusy g hg, Bool.false_eq_true, not_false_eq_true]
  rw [tileRenderDie_eq hfront0 hunit hhalt hserved hfront hphase hlive hpart, hnone, hlist]

theorem tileRenderDie_of_waiting (hwaits : ∀ g ∈ q.onCluster cl, g.listDone = true ∧ g.settled = false) :
    tileRenderDie pp cl p x = takeTile p y pp q j cl r.mask := by
  have hnone : (q.onCluster cl).find? (fun g => g.listDone && g.settled) = none :=
    List.find?_eq_none.mpr fun g hg => by simp [(hwaits g hg).2]
  have hlisted : (q.onCluster cl).find? (fun g => !g.listDone) = none :=
    List.find?_eq_none.mpr fun g hg => by simp [(hwaits g hg).1]
  rw [tileRenderDie_eq hfront0 hunit hhalt hserved hfront hphase hlive hpart, hnone, hlisted]

end

/-! ### FRAGMENT_GROUP_DISPATCH (R250) -/

theorem length_groupQuads_le (q : Pass) (f : TileFlight) (sub drawNo : Nat) : (groupQuads q f sub drawNo).length ≤ 16 := by
  unfold groupQuads
  dsimp only
  split
  · exact List.length_take_le _ _
  · split
    · omega
    · exact Nat.zero_le _

/-- The quads of a group are of one sub-tile and draw, and have been tested. -/
theorem mem_groupQuads {q : Pass} {f : TileFlight} {sub drawNo : Nat} {v : Quad} (h : v ∈ groupQuads q f sub drawNo) :
    v.sub = sub ∧ v.drawNo = drawNo ∧ v.tested = true := by
  have hready : v ∈ (f.quads.filter fun u => u.sub == sub && u.drawNo == drawNo).takeWhile fun u => u.tested := by
    unfold groupQuads at h
    dsimp only at h
    split at h
    · exact List.mem_of_mem_take h
    · split at h
      · exact h
      · exact absurd h List.not_mem_nil
  have htested := List.mem_takeWhile_imp hready
  have hmine := (List.mem_filter.mp ((List.takeWhile_sublist _).subset hready)).2
  simp only [Bool.and_eq_true, beq_iff_eq] at hmine
  exact ⟨hmine.1, hmine.2, htested⟩

/-- The quads in flight on a cluster, each with its tile. -/
def Pass.candidates (q : Pass) (cl : Fin 6) : List (TileFlight × Quad) :=
  ((q.onCluster cl).map fun f => f.quads.map fun u => (f, u)).flatten

theorem fragmentDispatchDie_of_candidate {pp : Fin 4} {cl : Fin 6} {p x y : Die} {q q0 : Pass} {j j0 : Job}
    {f : TileFlight} {u : Quad} (hfront0 : frontPass x pp = some (q0, j0)) (hhalt : q0.haltedOn cl = false)
    (hserved : serveCluster p x pp cl q0 = y) (hfront : frontPass y pp = some (q, j))
    (hfind : (q.candidates cl).find? (fun c =>
      (y.bestPipe { cl := cl, core := coreFin c.2.sub } (wFsRegs (q.drawOf c.2.drawNo)) 0).isSome &&
        !(groupQuads q c.1 c.2.sub c.2.drawNo).isEmpty) = some (f, u)) :
    fragmentDispatchDie pp cl p x =
      ((y.placeGroup { cl := cl, core := coreFin u.sub } (wFsRegs (q.drawOf u.drawNo)) 0 fun n l st =>
        (fragmentGroup q pp f (groupQuads q f u.sub u.drawNo) n l st).numbered j.dispatched).updJob q.job
          Job.oneMore).updFlight pp f.tile fun g =>
            { g with quads := dropQuads g.quads (groupQuads q f u.sub u.drawNo) } := by
  unfold serveCluster Pass.onCluster at hserved
  unfold Pass.candidates Pass.onCluster at hfind
  simp only [fragmentDispatchDie, hfront0, hhalt, hserved, hfront, hfind, Bool.false_eq_true, if_false]

/-! ### Storing a tile, and the end of a pass (R246, R277) -/

theorem storeTile_of_stored {pp : Fin 4} {p y z : Die} {q : Pass} {f : TileFlight} {mask : BitVec 16}
    (hphase : q.phase = .tile)
    (hstore : eachRegion q.desc f.cl y (fun v c i a => storeRegion p v q mask c f.slot f.tile i a) = (z, true)) :
    storeTile p y pp q f mask = ((z.updPass pp fun q => { q with
      tiles := q.tiles.filter (fun g => g.tile != f.tile), tilesRendered := q.tilesRendered + 1 }).updJob q.job fun j =>
        { j with done := j.done + 1 }).count .gfxTileCnt := by
  simp only [storeTile, hphase, hstore, reduceCtorEq, Bool.not_true, Bool.false_eq_true, if_false]

theorem passCompleteDie_of_drawn {pp : Fin 4} {p x y z : Die} {q : Pass} {j : Job} (hfront : frontPass x pp = some (q, j))
    (hdesc : q.desc ≠ []) (hdrawn : q.drawn = true) (hgroups : ∀ g ∈ x.sh.groups, g.job ≠ q.job)
    (hstores : x.storesDone q.job = true)
    (hstat : (if pStatVa q.desc = 0 then (x, true) else
      writeUnit p x (.frontEnd pp) q.ctx (pStatVa q.desc) (statBytes q) accWrite) = (y, true))
    (hreturn : returnChunks p y pp q = (z, true)) :
    passCompleteDie pp p x = finishJob p (if q.direct then z.count .gfxDirectPassCnt else z) q.job := by
  have hended : (x.sh.groups.any fun t => t.job == q.job) = false := by simpa using hgroups
  simp only [passCompleteDie, hfront, List.isEmpty_eq_false_iff.mpr hdesc, hdrawn, hended, hstores, hstat, hreturn,
    Bool.not_true, Bool.or_self, Bool.false_eq_true, if_false]

/-- Settles O45, by what each command makes of the die. That a cluster stores before it draws, and draws before it takes a
tile, is the model's choice, as R246 gives no order across tiles; that a grant after EXT_WAIT counts as refused is log 88. -/
theorem hamperTilesAndCompletion : Obligations.HamperTilesAndCompletion := by
  unfold Obligations.HamperTilesAndCompletion
  intro s d pp q x p
  refine ⟨fun since y base n m hpass hwait hrun hold hthaw hread => ⟨fun grant hfree => ?_, fun c hfree => ?_,
      fun c hfree hlate => ?_, fun c z hfree hlate hwrite => ?_⟩,
    fun since hpass hwait hrun hthaw => ?_, fun y hpass hrinse hphase => ?_,
    fun j y z hfront hphase htiles hnone hwrite hreturn hpass => ?_,
    fun cl j q0 j0 hfront0 hunit hhalt hfront => ⟨fun r hphase hlive hpart => ?_, fun f u hfind => ?_⟩,
    fun y f mask z hphase hstore => ?_, fun j y z hfront hdesc hdrawn hgroups hstores hstat hreturn => ?_⟩
  · exact nextOn_of_eq (extAnswerDie_of_none hpass hwait hrun hold hthaw hread grant hfree)
  · exact nextOn_of_eq (extAnswerDie_of_other_answer hpass hwait hrun hold hthaw hread hfree)
  · exact nextOn_of_eq (extAnswerDie_of_late hpass hwait hrun hold hthaw hread hfree hlate)
  · exact nextOn_of_eq (extAnswerDie_of_grant hpass hwait hrun hold hthaw hread hfree hlate hwrite)
  · exact nextOn_of_eq (extTimeoutDie_of_waiting hpass hwait hrun hthaw)
  · intro z
    have hz : z = _ := extRefused_of_rinse p y hrinse
    rw [hz]
    refine ⟨Die.reg_count _ .gfxExtRefusedCnt, rfl, ?_⟩
    rw [Die.passes_updPass, Die.passes_count, Die.passes_updPass, hpass]
    exact congrArg some (congrArg (fun r : Pass => { r with nextTile := 0 })
      (Pass.enter_of_not_folding { q with extWait := none, extRefused := q.extRefused + 1 } hphase .rinse))
  · have hdie := rinseDie_of_written hfront hphase htiles hnone hwrite hreturn
    refine ⟨_, q.resumed, nextOn_of_eq hdie, ?_⟩
    rw [State.die_setDie]
    refine ⟨(Die.passes_updPass z pp _).trans (congrArg _ hpass), ?_, ?_, ?_, ?_, ?_, ?_, ?_,
      Die.reg_count _ .gfxRinseCnt⟩
    all_goals rw [q.resumed_of_not_folding (by rw [hphase]; decide)]
  · exact ⟨fun f hdone =>
        nextOn_of_eq (tileRenderDie_of_finished hfront0 hunit hhalt rfl hfront hphase hlive hpart hdone),
      fun f hbusy hlist =>
        nextOn_of_eq (tileRenderDie_of_listed hfront0 hunit hhalt rfl hfront hphase hlive hpart hbusy hlist),
      fun hwaits => nextOn_of_eq (tileRenderDie_of_waiting hfront0 hunit hhalt rfl hfront hphase hlive hpart hwaits)⟩
  · exact ⟨length_groupQuads_le q f _ _, fun v hv => mem_groupQuads hv,
      nextOn_of_eq (fragmentDispatchDie_of_candidate hfront0 hhalt rfl hfront hfind)⟩
  · intro r
    have hr : r = _ := storeTile_of_stored hphase hstore
    rw [hr]
    exact ⟨Die.reg_count _ .gfxTileCnt, rfl, Die.passes_updPass _ _ _⟩
  · exact nextOn_of_eq (passCompleteDie_of_drawn hfront hdesc hdrawn hgroups hstores hstat hreturn)

end Sys2Proof.Machine
end

section
/-! PROOFS. Display pipes: what is read after an update of a pipe, of its registers or of its state, and what a pipe that
applies pressed words keeps (R282, R286 to R289, R310). -/
namespace Sys2Proof.Machine

/-! ### Registers of one pipe -/

@[simp] theorem Die.regI_countI (x : Die) (r : Reg) (is : List Nat) (n : Nat) :
    (x.countI r is n).regI r is = x.regI r is + BitVec.ofNat 32 n := Die.regI_setRegI x r is _

theorem Die.regI_countI_ne (x : Die) {r q : Reg} {is js : List Nat} (n : Nat) (h : q.addr js ≠ r.addr is) :
    (x.countI r is n).regI q js = x.regI q js := Die.regI_setRegI_ne x r q is js _ h

theorem Die.regI_flagI_ne (x : Die) {r q : Reg} {is js : List Nat} (b : Nat) (h : q.addr js ≠ r.addr is) :
    (x.flagI r is b).regI q js = x.regI q js := Die.regI_setRegI_ne x r q is js _ h

/-- A flag that has been set reads 1 (R14). -/
theorem Die.getLsbD_regI_flagI (x : Die) (r : Reg) (is : List Nat) {b : Nat} (h : b < 32) :
    ((x.flagI r is b).regI r is).getLsbD b = true := by
  have hbit : ((1 : Word) <<< b).getLsbD b = true := by simp [h]
  simp only [Die.flagI, Die.regI_setRegI, BitVec.getLsbD_or, hbit, Bool.or_true]

/-! ### A pipe -/

theorem Die.pipe_updPipe (x : Die) (q : Fin 4) (f : Pipe → Pipe) : (x.updPipe q f).pipes[q] = f x.pipes[q] :=
  getElem_vmod_same x.pipes q f

@[simp] theorem Die.regI_updPipe (x : Die) (q : Fin 4) (f : Pipe → Pipe) (r : Reg) (is : List Nat) :
    (x.updPipe q f).regI r is = x.regI r is := rfl
@[simp] theorem Die.pair_updPipe (x : Die) (q : Fin 4) (f : Pipe → Pipe) : (x.updPipe q f).pair = x.pair := rfl
@[simp] theorem Die.dram_updPipe (x : Die) (q : Fin 4) (f : Pipe → Pipe) : (x.updPipe q f).dram = x.dram := rfl

/-- A frame-start message leaves the pipes and the memory of either die (R310). -/
theorem tellStart_keeps (d e : DieId) (q : Fin 4) (s : State) :
    ((tellStart d q s).die e).pipes = (s.die e).pipes ∧ ((tellStart d q s).die e).dram = (s.die e).dram := by
  unfold tellStart
  dsimp only
  split
  · cases d <;> cases e <;> exact ⟨rfl, rfl⟩
  · exact ⟨rfl, rfl⟩

/-! ### Pressed words (R286 to R289) -/

/-- What the pressed words of the layers leave of a die: the pair's state, and the pipe but for its layers. -/
structure Die.LayersPressed (q : Fin 4) (x y : Die) : Prop where
  pair : y.pair = x.pair
  pipe : y.pipes[q] = { x.pipes[q] with layers := (y.pipes[q]).layers }

theorem Die.LayersPressed.trans {q : Fin 4} {x y z : Die} (h : x.LayersPressed q y) (k : y.LayersPressed q z) :
    x.LayersPressed q z :=
  ⟨k.pair.trans h.pair, by rw [k.pipe, h.pipe]⟩

theorem layersPressed_pressLayer (m : WordMap) (q : Fin 4) (x : Die) (l : Fin 8) :
    x.LayersPressed q (pressLayer m q x l) := by
  unfold pressLayer
  dsimp only
  split
  · exact ⟨rfl, rfl⟩
  · refine ⟨?_, ?_⟩
    · rw [Die.pair_updPipe]
      split <;> rfl
    · rw [Die.pipe_updPipe]
      split <;> rfl

theorem layersPressed_foldl (m : WordMap) (q : Fin 4) (ls : List (Fin 8)) (x : Die) :
    x.LayersPressed q (ls.foldl (pressLayer m q) x) := by
  induction ls generalizing x with
  | nil => exact ⟨rfl, rfl⟩
  | cons l ls ih => exact (layersPressed_pressLayer m q x l).trans (ih _)

/-- The registers and the layers of a pipe take a set of words. -/
def Die.tookWords (x : Die) (m : WordMap) (q : Fin 4) : Die :=
  layerIds.foldl (pressLayer m q) (x.activateFrom m (unitRegs (22 + q.val)))

theorem layersPressed_tookWords (x : Die) (m : WordMap) (q : Fin 4) : x.LayersPressed q (x.tookWords m q) := by
  have hregs : x.LayersPressed q (x.activateFrom m (unitRegs (22 + q.val))) := by
    obtain ⟨r, hr⟩ := activate_cases (unitRegs (22 + q.val)) { x with press.pressed := m }
    simp only [Die.activateFrom, hr]
    exact ⟨rfl, rfl⟩
  exact hregs.trans (layersPressed_foldl m q layerIds _)

/-- The words of a press, taken (R286, R287). -/
theorem applyPipeWords_of_ok {m : WordMap} {q : Fin 4} (x : Die) (h : pipePressOk m q = true) :
    applyPipeWords m q x = (x.tookWords m q).updPipe q fun _ =>
      pipeMode (timingWords x q) (timingWords (x.tookWords m q) q)
        (decide (portWords (x.tookWords m q) q ≠ portWords x q))
        (((x.tookWords m q).regI .dspPipeCtrl [q.val]).getLsbD 0) (x.tookWords m q).pipes[q] :=
  if_pos h

/-- The words of a press, refused (R286). -/
theorem applyPipeWords_of_bad {m : WordMap} {q : Fin 4} (x : Die) (h : pipePressOk m q = false) :
    applyPipeWords m q x = (x.flagI .dspPipeFlags [q.val] 6).countI .dspCfgRefusedCnt [q.val] 1 :=
  if_neg (by simp [h])

theorem pair_applyPipeWords (m : WordMap) (q : Fin 4) (x : Die) : (applyPipeWords m q x).pair = x.pair := by
  cases h : pipePressOk m q with
  | true =>
    rw [applyPipeWords_of_ok x h, Die.pair_updPipe]
    exact (layersPressed_tookWords x m q).pair
  | false =>
    rw [applyPipeWords_of_bad x h]
    rfl

/-- An enabled pipe goes on counting its frames, whatever its new configuration is (R283). -/
theorem frame_pipeMode {t : Pipe} (old new : List Word) (port en : Bool) (h : t.en = true) :
    (pipeMode old new port en t).frame = t.frame := by
  have hen : (!t.en && en) = false := by simp [h]
  simp only [pipeMode]
  generalize hu : (if (port || t.en != en) = true then { t with trained := false } else t) = u
  have huen : u.en = t.en := by rw [← hu]; split <;> rfl
  have hframe : u.frame = t.frame := by rw [← hu]; split <;> rfl
  rw [huen, hen]
  simp only [Bool.false_eq_true, if_false, apply_ite Pipe.frame, hframe, freshFrame, ite_self]

theorem frame_applyPipeWords (m : WordMap) (q : Fin 4) {x : Die} (hen : (x.pipes[q]).en = true) :
    ((applyPipeWords m q x).pipes[q]).frame = (x.pipes[q]).frame := by
  cases h : pipePressOk m q with
  | true =>
    rw [applyPipeWords_of_ok x h, Die.pipe_updPipe, (layersPressed_tookWords x m q).pipe]
    exact frame_pipeMode _ _ _ _ hen
  | false =>
    rw [applyPipeWords_of_bad x h]
    rfl

end Sys2Proof.Machine
end

section
/-! PROOFS. O47: frame boundaries, verdicts and writeback fences, frame-start messages, and the training of the ports (R282,
R303 to R311, R536, R537). -/
namespace Sys2Proof.Machine

/-! ### The end of a frame (R282, R303, R304) -/

/-- Another register than the tags of a pipe's regions. -/
def noTagOf (q : Fin 4) (r : Reg) (is : List Nat) : Prop := ∀ k, r.addr is ≠ Reg.dspTagLast.addr [q.val, k]

/-- What recording tags leaves of a die. -/
structure Die.TagsRecorded (q : Fin 4) (x y : Die) : Prop where
  pipes : y.pipes = x.pipes
  dram : y.dram = x.dram
  press : y.press = x.press
  regI : ∀ r is, noTagOf q r is → y.regI r is = x.regI r is

theorem Die.TagsRecorded.setRegI {q : Fin 4} {x y : Die} (h : x.TagsRecorded q y) (k : Nat) (w : Word) :
    x.TagsRecorded q (y.setRegI .dspTagLast [q.val, k] w) :=
  ⟨h.pipes, h.dram, h.press, fun r is hr => (Die.regI_setRegI_ne y _ r _ is w (hr k)).trans (h.regI r is hr)⟩

/-- A pipe whose frame ends with these tags. -/
def Pipe.tagged (t : Pipe) (tags : List (Option Word)) (miss : BitVec 16) : Pipe :=
  { t with verdictDue := some t.frame, dueMiss := miss, tagsOf := tags, pairResult := none,
           dueCauses := b2n t.underrun + 2 * b2n t.wasFrozen + 4 * b2n t.relockFrame }

/-- The tags of a frame are final, and recorded (R304); what they are does not depend on what is recorded. -/
theorem tagsStep_spec (x : Die) (q : Fin 4) :
    (tagsStep x q).pipes[q] = (x.pipes[q]).tagged (finalTags x q) (expectMiss x q (finalTags x q)) ∧
    (tagsStep x q).dram = x.dram ∧ (tagsStep x q).press = x.press ∧
    ∀ r is, noTagOf q r is → (tagsStep x q).regI r is = x.regI r is := by
  unfold tagsStep
  dsimp only
  generalize hy : List.foldl _ x (List.range 16) = y
  have hrecorded : x.TagsRecorded q y := by
    rw [← hy]
    refine List.foldlRecOn _ _ ⟨rfl, rfl, rfl, fun _ _ _ => rfl⟩ fun z hz k _ => ?_
    split
    · exact hz.setRegI k _
    · exact hz
  obtain ⟨hpipes, hdram, hpress, hregs⟩ := hrecorded
  rw [Die.pipe_updPipe]
  refine ⟨?_, ?_⟩
  · split <;> simp only [hpipes] <;> rfl
  · split <;> exact ⟨hdram, hpress, hregs⟩

/-- The writeback of the frame is whole (R303). -/
def Die.wroteFrame (x : Die) (q : Fin 4) : Prop :=
  2 ≤ x.fld .dspPipeCtrl [q.val] 2 1 ∧ (x.pipes[q]).wbLines = x.fld .dspPipeVtiming [q.val] 15 0 ∧ (x.pipes[q]).frozen = none

/-- The frame's fence: number, address and context (R303). -/
def Die.frameFence (x : Die) (q : Fin 4) : Word × Nat × Nat :=
  ((x.pipes[q]).frame, (x.regI .dspPipeWbfLo [q.val]).toNat + x.fld .dspPipeWbfHi [q.val] 15 0 * 2 ^ 32,
    x.fld .dspPipeWbHi [q.val] 25 16)

theorem writebackStep_of_whole {x : Die} {q : Fin 4} (h : x.wroteFrame q) :
    writebackStep x q = x.updPipe q fun t => { t with wbDue := some (x.frameFence q) } :=
  if_pos h

theorem writebackStep_of_partial {x : Die} {q : Fin 4} (h : ¬ x.wroteFrame q) : writebackStep x q = x := if_neg h

theorem writebackStep_keeps (x : Die) (q : Fin 4) : (writebackStep x q).dram = x.dram ∧
    (writebackStep x q).press = x.press ∧
    (writebackStep x q).pipes[q] = { x.pipes[q] with wbDue := ((writebackStep x q).pipes[q]).wbDue } := by
  by_cases h : x.wroteFrame q
  · rw [writebackStep_of_whole h]
    exact ⟨rfl, rfl, by rw [Die.pipe_updPipe]⟩
  · rw [writebackStep_of_partial h]
    exact ⟨rfl, rfl, rfl⟩

/-- Steps 1 to 3 of R282: the tags are final, the writeback's fence is due, and FRAME counts. -/
def Die.endFrame (x : Die) (q : Fin 4) : Die :=
  (writebackStep (tagsStep x q) q).updPipe q fun t => { t with frame := t.frame + 1 }

/-- The fence that the end of a frame leaves due. -/
def Die.endFence (x : Die) (q : Fin 4) : Option (Word × Nat × Nat) :=
  ((writebackStep (tagsStep x q) q).pipes[q]).wbDue

theorem endFrame_spec (x : Die) (q : Fin 4) : (x.endFrame q).dram = x.dram ∧ (x.endFrame q).press = x.press ∧
    (x.endFrame q).pipes[q] = { (x.pipes[q]).tagged (finalTags x q) (expectMiss x q (finalTags x q)) with
      frame := (x.pipes[q]).frame + 1, wbDue := x.endFence q } := by
  obtain ⟨hpipe, hdram, hpress, -⟩ := tagsStep_spec x q
  obtain ⟨hdram', hpress', hpipe'⟩ := writebackStep_keeps (tagsStep x q) q
  refine ⟨hdram'.trans hdram, hpress'.trans hpress, ?_⟩
  rw [Die.endFrame, Die.pipe_updPipe, hpipe', hpipe]
  rfl

theorem noTagOf_of_lt {q : Fin 4} {r : Reg} {is : List Nat} (h : r.addr is < Reg.dspTagLast.addr [q.val, 0]) :
    noTagOf q r is := by
  intro k hk
  have hle : Reg.dspTagLast.addr [q.val, 0] ≤ Reg.dspTagLast.addr [q.val, k] := by
    change 0x50040C + (q.val * 0x10000 + (0 * 0x10 + 0)) ≤ 0x50040C + (q.val * 0x10000 + (k * 0x10 + 0))
    omega
  omega

/-- The registers that say whether a frame is written back, and what its fence is, stand before the tags. -/
theorem addr_writeback_lt_tags : ∀ q : Fin 4,
    ∀ r ∈ [Reg.dspPipeCtrl, .dspPipeVtiming, .dspPipeWbfLo, .dspPipeWbfHi, .dspPipeWbHi],
      r.addr [q.val] < Reg.dspTagLast.addr [q.val, 0] := by
  decide

theorem endFence_of_whole {x : Die} {q : Fin 4} (h : x.wroteFrame q) : x.endFence q = some (x.frameFence q) := by
  obtain ⟨hpipe, -, -, hregs⟩ := tagsStep_spec x q
  have hreg : ∀ r ∈ [Reg.dspPipeCtrl, .dspPipeVtiming, .dspPipeWbfLo, .dspPipeWbfHi, .dspPipeWbHi],
      (tagsStep x q).regI r [q.val] = x.regI r [q.val] := fun r hr => hregs r _ (noTagOf_of_lt (addr_writeback_lt_tags q r hr))
  have hfence : (tagsStep x q).frameFence q = x.frameFence q := by
    simp [Die.frameFence, Die.fld, hreg, hpipe, Pipe.tagged]
  have hwhole : (tagsStep x q).wroteFrame q := by
    simpa [Die.wroteFrame, Die.fld, hreg, hpipe, Pipe.tagged] using h
  rw [Die.endFence, writebackStep_of_whole hwhole, Die.pipe_updPipe, hfence]

/-! ### FRAME_BOUNDARY (R282, R310) -/

theorem pipePress_of_not_due {s : State} {d : DieId} {q : Fin 4} (h : (s.die d).pipePressDue q = false) :
    pipePress s d q = s :=
  if_pos (by simp [h])

theorem takePairPress_of_none {q : Fin 4} {y : Die} (h : (y.pipes[q]).pairPress = none) : takePairPress q y = y := by
  simp only [takePairPress, h]

/-- Die B's pipe takes the words of die A's press, and acknowledges them (R310). -/
theorem takePairPress_of_some {q : Fin 4} {y : Die} {e : Word} {m : WordMap}
    (h : (y.pipes[q]).pairPress = some (e, m)) :
    (takePairPress q y).pipes[q] = { (applyPipeWords m q y).pipes[q] with pairPress := none } ∧
    (takePairPress q y).pair.ctlOut = if y.pair.bridgeUp then y.pair.ctlOut ++ [CtlMsg.pipeAck q e] else y.pair.ctlOut := by
  simp only [takePairPress, h, Die.pair_updPipe, pair_applyPipeWords]
  exact ⟨Die.pipe_updPipe _ q _, trivial⟩

/-- What the new frame keeps of the one that ended, and where it begins (R282). -/
structure Pipe.NextOf (t v : Pipe) : Prop where
  frame : v.frame = t.frame
  pairPress : v.pairPress = t.pairPress
  verdictDue : v.verdictDue = t.verdictDue
  tagsOf : v.tagsOf = t.tagsOf
  dueMiss : v.dueMiss = t.dueMiss
  wbDue : v.wbDue = t.wbDue
  line : v.line = 0
  vblank : v.vblank = true
  underrun : v.underrun = false
  crc : v.crc = List.replicate 16 0xFFFFFFFF

theorem nextOf_nextFrame (p x : Die) (q : Fin 4) : (x.pipes[q]).NextOf (nextFrame p x q).pipes[q] := by
  rw [nextFrame, Die.pipe_updPipe]
  dsimp only
  split <;> exact ⟨rfl, rfl, rfl, rfl, rfl, rfl, rfl, rfl, rfl, rfl⟩

/-- The package at a boundary of a pipe: the frame has ended, and presses are applied. -/
def State.boundary (s : State) (d : DieId) (q : Fin 4) : State :=
  (pipePress (s.onDie d fun x => x.endFrame q) d q).onDie d (takePairPress q)

theorem exec_frameBoundary {s : State} {d : DieId} {q : Fin 4} (hend : (s.die d).atBoundary q = true) :
    exec (.frameBoundary d q) s = .next (tellStart d q ((s.boundary d q).onDie d fun x =>
      nextFrame ((s.boundary d q).die d.other) x q)) :=
  if_neg (by simp [hend])

theorem exec_frameBoundary_early {s : State} {d : DieId} {q : Fin 4} (hearly : (s.die d).atBoundary q = false) :
    exec (.frameBoundary d q) s = .next s :=
  if_pos (by simp [hearly])

/-- The end of a frame leaves it open whether a press is due. -/
theorem pipePressDue_endFrame (x : Die) (d : DieId) (q : Fin 4) :
    ({ x.endFrame q with id := d } : Die).pipePressDue q = x.pipePressDue q := by
  obtain ⟨-, hpress, hpipe⟩ := endFrame_spec x q
  simp only [Die.pipePressDue, Die.unitWaits, Die.lateUnit, hpress, hpipe]
  rfl

/-- The die at a boundary at which no press of its own is due. -/
theorem boundary_of_noPress {s : State} {d : DieId} {q : Fin 4} (hdue : (s.die d).pipePressDue q = false) :
    (s.boundary d q).die d = { takePairPress q { (s.die d).endFrame q with id := d } with id := d } := by
  have hdue' : ((s.onDie d fun x => x.endFrame q).die d).pipePressDue q = false := by
    rw [State.die_onDie, pipePressDue_endFrame, hdue]
  rw [State.boundary, pipePress_of_not_due hdue', State.die_onDie, State.die_onDie]

theorem Die.en_of_atBoundary {x : Die} {q : Fin 4} (h : x.atBoundary q = true) : (x.pipes[q]).en = true := by
  simp only [Die.atBoundary, Bool.and_eq_true] at h
  obtain ⟨⟨⟨⟨⟨-, hen⟩, -⟩, -⟩, -⟩, -⟩ := h
  exact hen

/-- What a boundary makes of the pipe and of the memory. -/
theorem frameBoundary_spec {s : State} {d : DieId} {q : Fin 4} (hend : (s.die d).atBoundary q = true) :
    ∃ r, exec (.frameBoundary d q) s = .next r ∧ (((s.boundary d q).die d).pipes[q]).NextOf (r.die d).pipes[q] ∧
      (r.die d).dram = ((s.boundary d q).die d).dram := by
  refine ⟨_, exec_frameBoundary hend, ?_⟩
  obtain ⟨hpipes, hdram⟩ := tellStart_keeps d d q ((s.boundary d q).onDie d fun x =>
    nextFrame ((s.boundary d q).die d.other) x q)
  rw [hpipes, hdram, State.die_onDie]
  exact ⟨nextOf_nextFrame _ _ q, rfl⟩

/-- A boundary at which no press is due: the frame ends with its tags, and the next one begins (R282). -/
theorem frameBoundary_of_noPress {s : State} {d : DieId} {q : Fin 4} (hend : (s.die d).atBoundary q = true)
    (hdue : (s.die d).pipePressDue q = false) (hpair : ((s.die d).pipes[q]).pairPress = none) :
    ∃ r, exec (.frameBoundary d q) s = .next r ∧ (r.die d).dram = (s.die d).dram ∧
      Pipe.NextOf { ((s.die d).pipes[q]).tagged (finalTags (s.die d) q) (expectMiss (s.die d) q (finalTags (s.die d) q)) with
        frame := ((s.die d).pipes[q]).frame + 1, wbDue := (s.die d).endFence q } (r.die d).pipes[q] := by
  obtain ⟨hdram, -, hpipe⟩ := endFrame_spec (s.die d) q
  have hnone : ((({ (s.die d).endFrame q with id := d } : Die).pipes[q])).pairPress = none := by
    change (((s.die d).endFrame q).pipes[q]).pairPress = none
    rw [hpipe]
    exact hpair
  obtain ⟨r, hexec, hnext, hdram'⟩ := frameBoundary_spec hend
  rw [boundary_of_noPress hdue, takePairPress_of_none hnone] at hnext hdram'
  rw [← hpipe]
  exact ⟨r, hexec, hdram'.trans hdram, hnext⟩

/-- A boundary at which the press of the partner's pipe waits: it is applied, and the frame counts (R310). -/
theorem frameBoundary_of_pairPress {s : State} {d : DieId} {q : Fin 4} (hend : (s.die d).atBoundary q = true)
    (hdue : (s.die d).pipePressDue q = false) (hpair : ((s.die d).pipes[q]).pairPress.isSome = true) :
    ∃ r, exec (.frameBoundary d q) s = .next r ∧ ((r.die d).pipes[q]).pairPress = none ∧
      ((r.die d).pipes[q]).frame = ((s.die d).pipes[q]).frame + 1 := by
  obtain ⟨-, -, hpipe⟩ := endFrame_spec (s.die d) q
  obtain ⟨⟨e, m⟩, hpress⟩ := Option.isSome_iff_exists.mp hpair
  obtain ⟨r, hexec, hnext, -⟩ := frameBoundary_spec hend
  generalize hy : ({ (s.die d).endFrame q with id := d } : Die) = y
  have hypipe : y.pipes[q] = ((s.die d).endFrame q).pipes[q] := by rw [← hy]
  have hypress : (y.pipes[q]).pairPress = some (e, m) := by
    rw [hypipe, hpipe]
    exact hpress
  have hyen : (y.pipes[q]).en = true := by
    rw [hypipe, hpipe]
    exact Die.en_of_atBoundary hend
  obtain ⟨htaken, -⟩ := takePairPress_of_some hypress
  rw [boundary_of_noPress hdue, hy] at hnext
  refine ⟨r, hexec, hnext.pairPress.trans (by rw [htaken]), hnext.frame.trans ?_⟩
  change ((takePairPress q y).pipes[q]).frame = _
  rw [htaken]
  change ((applyPipeWords m q y).pipes[q]).frame = _
  rw [frame_applyPipeWords m q hyen, hypipe, hpipe]

/-! ### FRAME_VERDICT (R307 to R309, R311) -/

/-- A pair comparison that is still outstanding counts as timed out (R35, R311). -/
def Die.timedOut (x : Die) (q : Fin 4) (n : Word) : Die :=
  if x.pair.tags.any (isPipeTag q n) then pipeTimeout x q n else x

theorem pipe_pipeTimeout (x : Die) (q : Fin 4) (n : Word) :
    (pipeTimeout x q n).pipes[q] = { x.pipes[q] with pairResult := some false } :=
  Die.pipe_updPipe _ q _

theorem regI_pipeTimeout_ne (x : Die) {q : Fin 4} (n : Word) {r : Reg} {is : List Nat}
    (h : r.addr is ∉ [Reg.dspPipeFlags.addr [q.val], Reg.dspPairTimeoutCnt.addr [q.val], Reg.cmdPairFlags.addr [],
      Reg.cmdPairTimeoutCnt.addr []]) :
    (pipeTimeout x q n).regI r is = x.regI r is := by
  simp only [List.mem_cons, List.not_mem_nil, or_false, not_or] at h
  obtain ⟨hflags, hcnt, hpair, hpaircnt⟩ := h
  change (Die.count _ _).regI r is = _
  rw [Die.count, Die.regI_countI_ne _ _ hpaircnt, Die.flag, Die.regI_flagI_ne _ _ hpair, Die.regI_countI_ne _ _ hcnt,
    Die.regI_flagI_ne _ _ hflags]
  rfl

/-- The pair comparison of the frame failed, or the partner is lost (R308, R311). -/
def Die.pairFailed (x : Die) (q : Fin 4) : Bool :=
  (x.pipes[q]).pairResult == some false || (x.pipeOfPair q && x.pair.lost)

theorem addr_unverified_notMem_timeout : ∀ q : Fin 4, Reg.dspUnverifiedCnt.addr [q.val] ∉
    [Reg.dspPipeFlags.addr [q.val], Reg.dspPairTimeoutCnt.addr [q.val], Reg.cmdPairFlags.addr [],
      Reg.cmdPairTimeoutCnt.addr []] := by
  decide

theorem timedOut_keeps (x : Die) (q : Fin 4) (n : Word) : (x.timedOut q n).dram = x.dram ∧
    (x.timedOut q n).regI .dspUnverifiedCnt [q.val] = x.regI .dspUnverifiedCnt [q.val] := by
  unfold Die.timedOut
  split
  · exact ⟨rfl, regI_pipeTimeout_ne x n (addr_unverified_notMem_timeout q)⟩
  · exact ⟨rfl, rfl⟩

theorem pairFailed_timedOut (x : Die) (q : Fin 4) (n : Word) : (x.timedOut q n).pairFailed q = true ↔
    (x.pipes[q]).pairResult = some false ∨ x.pair.tags.any (isPipeTag q n) = true ∨
      (x.pair.mode = 1 ∧ bitOf (cfgPairedPipes (x.reg .cmdPairCfg)) q.val = true ∧ x.pair.lost = true) := by
  unfold Die.timedOut
  split
  · next htag =>
    rw [Die.pairFailed, pipe_pipeTimeout]
    simp [htag]
  · next htag => simp [Die.pairFailed, Die.pipeOfPair, htag, and_assoc]

/-- What lengthens the run of frames that are not verified (R309). -/
def Pipe.counts (t : Pipe) (pairBad : Bool) : Bool := t.dueMiss != 0 || pairBad || bitOf t.dueCauses 0

/-- The run of such frames after this one (R309). -/
def Pipe.runAfter (t : Pipe) (counted bad : Bool) : Nat :=
  if counted then min 15 (t.mmRun + 1) else if bad then t.mmRun else 0

/-- The verdict of a frame, before its run is held against TAG_LIMIT (R308). -/
def Die.judged (x : Die) (q : Fin 4) (n : Word) : Die :=
  let t := x.pipes[q]
  let counted := t.counts ((x.timedOut q n).pairFailed q)
  let bad := counted || t.dueCauses != 0
  let y := localMismatch (x.timedOut q n) q n t.dueMiss
  (if bad then y.countI .dspUnverifiedCnt [q.val] 1 else y).updPipe q fun u =>
    { u with verdictDue := none, mmRun := t.runAfter counted bad }

theorem verdictDie_cases {x : Die} {q : Fin 4} {n : Word} (hdue : (x.pipes[q]).verdictDue = some n)
    (hrun : x.running = true) : verdictDie q x = x.judged q n ∨
      ∃ i, verdictDie q x = (x.judged q n).faultMaster clsTagLimit (.layer q 0) i := by
  simp only [verdictDie, hdue, hrun, Bool.not_true, Bool.false_eq_true, if_false]
  exact (ite_eq_or_eq _ _ _).symm.imp_right fun hfault => ⟨_, hfault⟩

/-- A freeze leaves the verdicts of its pipe (R314). -/
theorem freezePipe_keeps (x : Die) (q : Fin 4) (cls : Byte) : let y := x.freezePipe q cls
    y.dram = x.dram ∧ (y.pipes[q]).verdictDue = (x.pipes[q]).verdictDue ∧ (y.pipes[q]).mmRun = (x.pipes[q]).mmRun ∧
      y.regI .dspUnverifiedCnt [q.val] = x.regI .dspUnverifiedCnt [q.val] := by
  have hne : ∀ q : Fin 4, Reg.dspUnverifiedCnt.addr [q.val] ≠ Reg.dspFreezeCnt.addr [q.val] := by decide
  simp only [Die.freezePipe]
  split
  · exact ⟨rfl, rfl, rfl, rfl⟩
  · have hpipe := Die.pipe_updPipe x q fun t => { t with frozen := some cls, wasFrozen := true, resumeDue := false }
    exact ⟨rfl, (congrArg Pipe.verdictDue hpipe :), (congrArg Pipe.mmRun hpipe :), Die.regI_countI_ne _ 1 (hne q)⟩

/-- A fault of a layer leaves the verdicts of its pipe. -/
theorem faultMaster_layer_keeps (x : Die) (q : Fin 4) (l : Fin 8) (cls : Byte) (i : FaultInfo) :
    let y := x.faultMaster cls (.layer q l) i
    y.dram = x.dram ∧ (y.pipes[q]).verdictDue = (x.pipes[q]).verdictDue ∧ (y.pipes[q]).mmRun = (x.pipes[q]).mmRun ∧
      y.regI .dspUnverifiedCnt [q.val] = x.regI .dspUnverifiedCnt [q.val] :=
  freezePipe_keeps x q cls

theorem addr_unverified_notMem_mismatch : ∀ q : Fin 4, Reg.dspUnverifiedCnt.addr [q.val] ∉
    [Reg.dspPipeFlags.addr [q.val], Reg.dspTagMismatch.addr [q.val], Reg.dspTagMmFrame.addr [q.val],
      Reg.dspTagMmCnt.addr [q.val]] := by
  decide

theorem localMismatch_keeps (x : Die) (q : Fin 4) (n : Word) (miss : BitVec 16) :
    (localMismatch x q n miss).dram = x.dram ∧ (localMismatch x q n miss).pipes = x.pipes ∧
    (localMismatch x q n miss).regI .dspUnverifiedCnt [q.val] = x.regI .dspUnverifiedCnt [q.val] := by
  have hne := addr_unverified_notMem_mismatch q
  simp only [List.mem_cons, List.not_mem_nil, or_false, not_or] at hne
  obtain ⟨hflags, hmiss, hframe, hcnt⟩ := hne
  unfold localMismatch
  split
  · exact ⟨rfl, rfl, rfl⟩
  · refine ⟨rfl, rfl, ?_⟩
    rw [Die.regI_countI_ne _ _ hcnt, Die.regI_setRegI_ne _ _ _ _ _ _ hframe, Die.regI_setRegI_ne _ _ _ _ _ _ hmiss,
      Die.regI_flagI_ne _ _ hflags]

/-- What a verdict leaves of the die, and of the count of frames that are not verified. -/
theorem judged_spec (x : Die) (q : Fin 4) (n : Word) :
    let counted := (x.pipes[q]).counts ((x.timedOut q n).pairFailed q)
    let bad := counted || (x.pipes[q]).dueCauses != 0
    (x.judged q n).dram = x.dram ∧ ((x.judged q n).pipes[q]).verdictDue = none ∧
      ((x.judged q n).pipes[q]).mmRun = (x.pipes[q]).runAfter counted bad ∧
      (x.judged q n).regI .dspUnverifiedCnt [q.val] =
        x.regI .dspUnverifiedCnt [q.val] + if bad then 1 else 0 := by
  intro counted bad
  obtain ⟨hdram, hcount⟩ := timedOut_keeps x q n
  obtain ⟨hdram', -, hcount'⟩ := localMismatch_keeps (x.timedOut q n) q n (x.pipes[q]).dueMiss
  have hjudged : x.judged q n = (if bad then (localMismatch (x.timedOut q n) q n (x.pipes[q]).dueMiss).countI
      .dspUnverifiedCnt [q.val] 1 else localMismatch (x.timedOut q n) q n (x.pipes[q]).dueMiss).updPipe q fun u =>
        { u with verdictDue := none, mmRun := (x.pipes[q]).runAfter counted bad } := rfl
  rw [hjudged, Die.pipe_updPipe, Die.regI_updPipe, Die.dram_updPipe]
  cases bad with
  | true =>
    refine ⟨hdram'.trans hdram, rfl, rfl, ?_⟩
    rw [if_pos rfl, Die.regI_countI, hcount', hcount]
    rfl
  | false =>
    refine ⟨hdram'.trans hdram, rfl, rfl, ?_⟩
    rw [if_neg Bool.false_ne_true, hcount', hcount]
    exact (BitVec.add_zero _).symm

/-- What a verdict leaves, whether or not its run reaches TAG_LIMIT (R308, R309). -/
theorem verdictDie_spec {x : Die} {q : Fin 4} {n : Word} (hdue : (x.pipes[q]).verdictDue = some n)
    (hrun : x.running = true) : let y := verdictDie q x
    let counted := (x.pipes[q]).counts ((x.timedOut q n).pairFailed q)
    let bad := counted || (x.pipes[q]).dueCauses != 0
    y.dram = x.dram ∧ (y.pipes[q]).verdictDue = none ∧ (y.pipes[q]).mmRun = (x.pipes[q]).runAfter counted bad ∧
      y.regI .dspUnverifiedCnt [q.val] = x.regI .dspUnverifiedCnt [q.val] + if bad then 1 else 0 := by
  obtain ⟨hdram, hverdict, hmm, hcount⟩ := judged_spec x q n
  rcases verdictDie_cases hdue hrun with hsame | ⟨i, hfault⟩
  · rw [hsame]
    exact ⟨hdram, hverdict, hmm, hcount⟩
  · rw [hfault]
    obtain ⟨hdram', hverdict', hmm', hcount'⟩ := faultMaster_layer_keeps (x.judged q n) q 0 clsTagLimit i
    exact ⟨hdram'.trans hdram, hverdict'.trans hverdict, hmm'.trans hmm, hcount'.trans hcount⟩

section
variable {x : Die} {q : Fin 4} {n : Word} (hdue : (x.pipes[q]).verdictDue = some n) (hrun : x.running = true)
include hdue hrun

/-- A clean frame ends the run (R309). -/
theorem verdictDie_of_clean (hmiss : (x.pipes[q]).dueMiss = 0) (hcauses : (x.pipes[q]).dueCauses = 0)
    (hpair : (x.timedOut q n).pairFailed q = false) : ((verdictDie q x).pipes[q]).mmRun = 0 ∧
      (verdictDie q x).regI .dspUnverifiedCnt [q.val] = x.regI .dspUnverifiedCnt [q.val] := by
  have hcounts : (x.pipes[q]).counts ((x.timedOut q n).pairFailed q) = false := by
    rw [hpair, Pipe.counts, hmiss, hcauses]
    decide
  obtain ⟨-, -, hmm, hcount⟩ := verdictDie_spec hdue hrun
  rw [hcounts, hcauses] at hmm hcount
  exact ⟨hmm, hcount.trans (BitVec.add_zero _)⟩

/-- A frame with a mismatch, an underrun or a failed pair comparison lengthens the run (R309). -/
theorem verdictDie_of_counted (hcounts : (x.pipes[q]).counts ((x.timedOut q n).pairFailed q) = true) :
    ((verdictDie q x).pipes[q]).mmRun = min 15 ((x.pipes[q]).mmRun + 1) ∧
      (verdictDie q x).regI .dspUnverifiedCnt [q.val] = x.regI .dspUnverifiedCnt [q.val] + 1 := by
  obtain ⟨-, -, hmm, hcount⟩ := verdictDie_spec hdue hrun
  rw [hcounts] at hmm hcount
  exact ⟨hmm, hcount⟩

end

/-! ### WRITEBACK_FRAME_DONE (R303) -/

/-- The fence of a frame has been signalled: it is no longer due, and is counted. -/
def Die.fenceSent (y : Die) (q : Fin 4) : Die :=
  (y.updPipe q fun t => { t with wbDue := none }).countI .dspWbCnt [q.val] 1

section
variable {q : Fin 4} {p x : Die} {n : Word} {va c : Nat} (hdue : (x.pipes[q]).wbDue = some (n, va, c))
  (hrun : x.running = true) (hthaw : (x.pipes[q]).frozen = none)
include hdue hrun hthaw

theorem writebackDoneDie_of_no_fence (hva : va = 0) : writebackDoneDie q p x = x.fenceSent q := by
  simp only [writebackDoneDie, hdue, hrun, hthaw, hva]
  rfl

theorem writebackDoneDie_of_signalled {z : Die} {v : DWord} (hva : va ≠ 0)
    (hsignal : signalUnit p x (.writeback q) c va (n.setWidth 64) = (z, some v)) :
    writebackDoneDie q p x = z.fenceSent q := by
  simp only [writebackDoneDie, hdue, hrun, hthaw, if_neg hva, hsignal]
  rfl

theorem writebackDoneDie_of_faulted {z : Die} (hva : va ≠ 0)
    (hsignal : signalUnit p x (.writeback q) c va (n.setWidth 64) = (z, none)) : writebackDoneDie q p x = z := by
  simp only [writebackDoneDie, hdue, hrun, hthaw, if_neg hva, hsignal]
  rfl

end

/-! ### FRAME_START_MESSAGE (R310) -/

theorem exec_frameStartMessage {s : State} {d : DieId} {q : Fin 4} {n : Word}
    (hmsg : (s.die d.other).pair.ctlOut.reverse.findSome? (frameStartOf q) = some n) (hrun : (s.die d).running = true)
    (hup : (s.die d).pair.bridgeUp = true) (hdue : ((s.die d).pipes[q]).startDue = true) :
    exec (.frameStartMessage d q) s = .next ((s.onDie d fun x => x.heardCtl.updPipe q fun t =>
      { t with frame := n, startDue := false, pairLocked := (s.die d).pair.mode == 1 }).onDie d.other fun y =>
        { y with pair.ctlOut := y.pair.ctlOut.filter fun m => (frameStartOf q m).isNone }) := by
  change execFrameStartMessage d q s = _
  simp only [execFrameStartMessage, hmsg]
  rw [if_neg (by rw [hrun, hup, hdue]; decide)]
  rfl

/-! ### HPD_CHANGE (R536) -/

section
variable {q : Fin 4} {x : Die} (hrun : x.running = true)
include hrun

theorem hpdDie_high : hpdDie q .high x = x.updPipe q fun t => { t with hpd := true } :=
  if_neg (by simp [hrun])

theorem hpdDie_short : hpdDie q .short x = x :=
  if_neg (by simp [hrun])

theorem hpdDie_pulse_good : hpdDie q (.pulse true) x = x.countI .dspHpdIrqCnt [q.val] 1 :=
  if_neg (by simp [hrun])

theorem hpdDie_pulse_bad : hpdDie q (.pulse false) x = portLost (x.countI .dspHpdIrqCnt [q.val] 1) q :=
  if_neg (by simp [hrun])

theorem hpdDie_low_of_high (hhigh : (x.pipes[q]).hpd = true) :
    hpdDie q .low x = portLost (x.updPipe q fun t => { t with hpd := false }) q :=
  (if_neg (by simp [hrun])).trans (if_pos hhigh)

theorem hpdDie_low_of_low (hlow : (x.pipes[q]).hpd = false) : hpdDie q .low x = x :=
  (if_neg (by simp [hrun])).trans (if_neg (by rw [hlow]; decide))

end

/-- A port whose link is lost (R536). -/
theorem portLost_spec (x : Die) (q : Fin 4) : ((portLost x q).pipes[q]).trained = false ∧
    (portLost x q).regI .dspLinkLossCnt [q.val] = x.regI .dspLinkLossCnt [q.val] + 1 :=
  ⟨congrArg Pipe.trained (Die.pipe_updPipe x q _), Die.regI_countI _ _ _ 1⟩

/-- Low for more than 2 ms, or a pulse after which the check of the link fails, loses the link (R536). -/
theorem hpdDie_loses {q : Fin 4} {x : Die} {ev : HpdEvent} (hrun : x.running = true)
    (h : ev = .pulse false ∨ (ev = .low ∧ (x.pipes[q]).hpd = true)) : ((hpdDie q ev x).pipes[q]).trained = false ∧
      (hpdDie q ev x).regI .dspLinkLossCnt [q.val] = x.regI .dspLinkLossCnt [q.val] + 1 := by
  rcases h with rfl | ⟨rfl, hhigh⟩
  · have hne : ∀ q : Fin 4, Reg.dspLinkLossCnt.addr [q.val] ≠ Reg.dspHpdIrqCnt.addr [q.val] := by decide
    obtain ⟨htrained, hcount⟩ := portLost_spec (x.countI .dspHpdIrqCnt [q.val] 1) q
    rw [hpdDie_pulse_bad hrun]
    exact ⟨htrained, hcount.trans (by rw [Die.regI_countI_ne _ _ (hne q)])⟩
  · rw [hpdDie_low_of_high hrun hhigh]
    exact portLost_spec _ q

/-! ### DP_LINK_TRAIN (R536, R537) -/

/-- Rates are tried from the highest down. -/
theorem pairwise_triedRates (ctrl : Word) : (triedRates ctrl).Pairwise (· > ·) :=
  List.Pairwise.filter _ (by decide)

/-- In a list that falls, the first element that passes is the greatest one that does. -/
theorem find?_of_greatest {l : List Nat} {p : Nat → Bool} {r : Nat} (hl : l.Pairwise (· > ·)) (hr : r ∈ l)
    (hp : p r = true) (hmax : ∀ k ∈ l, p k = true → k ≤ r) : l.find? p = some r := by
  induction l with
  | nil => exact absurd hr List.not_mem_nil
  | cons a l ih =>
    obtain ⟨ha, hl⟩ := List.pairwise_cons.mp hl
    rcases List.mem_cons.mp hr with rfl | hrl
    · exact List.find?_cons_of_pos hp
    · have hpa : ¬ p a = true := fun hpa => absurd (hmax a List.mem_cons_self hpa) (Nat.not_le.mpr (ha r hrl))
      rw [List.find?_cons_of_neg hpa]
      exact ih hl hrl fun k hk => hmax k (List.mem_cons_of_mem a hk)

/-- The rate trains at the sink, and carries the pipe's bandwidth (R536, R537). -/
def Die.rateServes (x : Die) (q : Fin 4) (trains : List Nat) (r : Nat) : Bool :=
  trains.contains r && bandwidthOk (x.regI .dspPortCtrl [q.val]) (x.regI .dspPortDsc [q.val])
    (x.regI .dspPipeCtrl [q.val]) (x.fld .dspPipePclk [q.val] 20 0) r

section
variable {q : Fin 4} {x : Die} {trains : List Nat} (hrun : x.running = true) (hen : (x.pipes[q]).en = true)
  (hport : wbits (x.regI .dspPipeCtrl [q.val]) 2 1 % 2 = 1) (hhpd : (x.pipes[q]).hpd = true)
  (hlost : (x.pipes[q]).trained = false)

theorem dpTrainDie_of_shadow (h : x.shadows q = true) : dpTrainDie q trains x = x :=
  if_pos (by simp [h])

include hrun hen hport hhpd hlost

theorem dpTrainDie_of_found {r : Nat} (h : x.shadows q = false)
    (hfind : (triedRates (x.regI .dspPortCtrl [q.val])).find? (x.rateServes q trains) = some r) :
    dpTrainDie q trains x =
      (x.updPipe q fun t => { t with trained := true, rate := r }).countI .dspLinkTrainCnt [q.val] 1 := by
  unfold Die.rateServes at hfind
  simp only [dpTrainDie, hrun, hen, hport, hhpd, hlost, h, hfind]
  rfl

theorem dpTrainDie_of_none (hfind : (triedRates (x.regI .dspPortCtrl [q.val])).find? (x.rateServes q trains) = none) :
    dpTrainDie q trains x = x := by
  unfold Die.rateServes at hfind
  simp only [dpTrainDie, hrun, hen, hport, hhpd, hlost, hfind]
  split <;> rfl

end

/-! ### The rows -/

/-- A row that leaves its die unchanged. -/
theorem nextOn_of_unchanged {s : State} {d : DieId} {f : Die → Die} (h : f (s.die d) = s.die d) :
    nextOn d f s = .next (s.onDie d id) :=
  nextOn_congr h

/-- Settles O47, row by row, from what each makes of the pipe. That a comparison still outstanding at the verdict counts as
timed out is log 42; that the fence of a frame is captured at its boundary is log 98. -/
theorem framesEndAndPortsTrain : Obligations.FramesEndAndPortsTrain := by
  unfold Obligations.FramesEndAndPortsTrain
  intro s d q x p t
  refine ⟨exec_frameBoundary_early, ?_, ?_, ?_, ?_, ?_, ?_, ?_⟩
  · rintro hend rfl hdue hpair
    exact frameBoundary_of_pairPress hend hdue hpair
  · intro hend hdue hpair
    obtain ⟨r, hexec, hdram, hnext⟩ := frameBoundary_of_noPress hend hdue hpair
    exact ⟨r, hexec, hnext.frame, hnext.verdictDue, hnext.tagsOf, hnext.dueMiss, hnext.line, hnext.vblank, hnext.underrun,
      hnext.crc, hdram, fun hout hlines hthaw => hnext.wbDue.trans (endFence_of_whole ⟨hout, hlines, hthaw⟩)⟩
  · intro n hdue hrun pairBad
    have hbad : (x.timedOut q n).pairFailed q = true ↔ pairBad := pairFailed_timedOut x q n
    obtain ⟨hdram, hverdict, -, -⟩ := verdictDie_spec hdue hrun
    refine ⟨s.onDie d (verdictDie q), rfl, ?_⟩
    rw [State.die_onDie]
    refine ⟨hverdict, hdram, fun hmiss hcauses hclean => ?_, fun hcounts => ?_⟩
    · exact verdictDie_of_clean hdue hrun hmiss hcauses (Bool.eq_false_iff.mpr (mt hbad.mp hclean))
    · refine verdictDie_of_counted hdue hrun ?_
      simp only [Pipe.counts, Bool.or_eq_true, bne_iff_ne]
      rw [hbad]
      exact or_assoc.mpr hcounts
  · intro n va c hdue hrun hthaw
    exact ⟨fun hva => nextOn_of_eq (writebackDoneDie_of_no_fence hdue hrun hthaw hva),
      fun z v hva hsignal => nextOn_of_eq (writebackDoneDie_of_signalled hdue hrun hthaw hva hsignal),
      fun z hva hsignal => nextOn_of_eq (writebackDoneDie_of_faulted hdue hrun hthaw hva hsignal)⟩
  · intro n hmsg hrun hup hdue
    refine ⟨_, exec_frameStartMessage hmsg hrun hup hdue, ?_⟩
    rw [State.die_onDie_onDie_other, State.die_other_onDie_onDie_other]
    have hpipe := Die.pipe_updPipe x.heardCtl q fun t =>
      { t with frame := n, startDue := false, pairLocked := x.pair.mode == 1 }
    exact ⟨(congrArg Pipe.frame hpipe :), (congrArg Pipe.startDue hpipe :), rfl⟩
  · intro hrun
    exact ⟨nextOn_congr (hpdDie_high hrun), nextOn_of_unchanged (hpdDie_short hrun), nextOn_congr (hpdDie_pulse_good hrun),
      fun ev hloses => ⟨s.onDie d (hpdDie q ev), rfl, by rw [State.die_onDie]; exact hpdDie_loses hrun hloses⟩,
      fun hlow => nextOn_of_unchanged (hpdDie_low_of_low hrun hlow)⟩
  · intro trains ctrl allowed hrun hen hport hhpd hlost
    refine ⟨fun hshadow => nextOn_of_unchanged (dpTrainDie_of_shadow hshadow), fun r hr hallowed hmax hown => ?_,
      fun hnone => nextOn_of_unchanged (dpTrainDie_of_none hrun hen hport hhpd hlost ?_)⟩
    · exact nextOn_congr (dpTrainDie_of_found hrun hen hport hhpd hlost hown
        (find?_of_greatest (pairwise_triedRates ctrl) hr hallowed hmax))
    · exact List.find?_eq_none.mpr fun r hr => by rw [show x.rateServes q trains r = false from hnone r hr]; decide

end Sys2Proof.Machine
end

section
/-! PROOFS. O46 fails in one clause, and every other clause holds: pressed configurations and lines of a pipe (R284, R286 to
R288, R291 to R293, R310, R314, R603). The clause of a paired pipe's press gives die B whole, as it was with the press kept
for its pipe. A change of a die also writes the die's place in the package (R85), so the clause fails of a state whose die B
is recorded under another place than its own; with die B in its place it holds. -/
namespace Sys2Proof.Machine

/-! ### A press of the die's own (R284, R286, R481) -/

section
variable {s : State} {d : DieId} {q : Fin 4}

theorem exec_pipePressApplyDisabled (hrun : (s.die d).running = true) (hoff : ((s.die d).pipes[q]).en = false) :
    exec (.pipePressApplyDisabled d q) s = .next (pipePress s d q) :=
  if_pos (by rw [hrun, hoff]; decide)

theorem pipePress_of_own (hdue : (s.die d).pipePressDue q = true)
    (hown : d = .b ∨ (s.die d).pipePaired q = false ∨ (s.die d).shadowFails (22 + q.val) = true) :
    pipePress s d q = s.onDie d fun y => pipePressOwn y q := by
  have halone : ¬ (d = .a ∧ (s.die d).pipePaired q = true ∧ (!(s.die d).shadowFails (22 + q.val)) = true) := by
    rintro ⟨rfl, hpaired, hclean⟩
    rcases hown with h | h | h
    · exact DieId.noConfusion h
    · exact Bool.noConfusion (h.symm.trans hpaired)
    · rw [h] at hclean
      exact Bool.noConfusion hclean
  exact (if_neg (by simp [hdue])).trans (if_neg halone)

end

section
variable {x : Die} {q : Fin 4}

theorem pipePressOwn_of_bad_shadow (h : x.shadowFails (22 + q.val) = true) :
    pipePressOwn x q = x.unitRefuses (22 + q.val) :=
  if_pos h

theorem pipePressOwn_of_ok (hshadow : x.shadowFails (22 + q.val) = false) (hok : pipePressOk x.press.pressed q = true)
    (hthaw : (x.pipes[q]).frozen ≠ some clsCfgParity) :
    pipePressOwn x q = (applyPipeWords x.press.pressed q x).unitApplies (22 + q.val) := by
  have hgood : ¬ ((x.pipes[q]).frozen == some clsCfgParity) = true := fun h => hthaw (beq_iff_eq.mp h)
  rw [pipePressOwn, if_neg (by simp [hshadow]), if_pos hok, if_neg hgood]

theorem pipePressOwn_of_refused (hshadow : x.shadowFails (22 + q.val) = false)
    (hbad : pipePressOk x.press.pressed q = false) :
    pipePressOwn x q = ((x.flagI .dspPipeFlags [q.val] 6).countI .dspCfgRefusedCnt [q.val] 1).unitRefuses (22 + q.val) := by
  rw [pipePressOwn, if_neg (by simp [hshadow]), if_neg (by simp [hbad]), applyPipeWords_of_bad x hbad]

end

/-- Registers of a pipe other than its flags and its count of refused presses. -/
theorem addr_timing_port_ne : ∀ q : Fin 4, ∀ r ∈ [Reg.dspPipeHtiming, .dspPipeVtiming, .dspPipeSync, .dspPipePclk] ++
    [Reg.dspPortCtrl, .dspPortDsc], r.addr [q.val] ≠ Reg.dspPipeFlags.addr [q.val] ∧
      r.addr [q.val] ≠ Reg.dspCfgRefusedCnt.addr [q.val] := by
  decide

/-- A press whose words break R286 is flagged and counted, acknowledged, and changes nothing else of the pipe. -/
theorem refusedPress_spec (x : Die) (q : Fin 4) :
    let y := ((x.flagI .dspPipeFlags [q.val] 6).countI .dspCfgRefusedCnt [q.val] 1).unitRefuses (22 + q.val)
    (y.regI .dspPipeFlags [q.val]).getLsbD 6 = true ∧
    y.regI .dspCfgRefusedCnt [q.val] = x.regI .dspCfgRefusedCnt [q.val] + 1 ∧
    timingWords y q = timingWords x q ∧ portWords y q = portWords x q ∧ y.pipes = x.pipes ∧
    y.unitWaits (22 + q.val) = false := by
  have hne : ∀ q : Fin 4, Reg.dspPipeFlags.addr [q.val] ≠ Reg.dspCfgRefusedCnt.addr [q.val] := by decide
  intro y
  have hkeep : ∀ r ∈ [Reg.dspPipeHtiming, .dspPipeVtiming, .dspPipeSync, .dspPipePclk] ++
      [Reg.dspPortCtrl, .dspPortDsc], y.regI r [q.val] = x.regI r [q.val] := by
    intro r hr
    obtain ⟨hflags, hcnt⟩ := addr_timing_port_ne q r hr
    exact (Die.regI_countI_ne _ 1 hcnt).trans (Die.regI_flagI_ne x 6 hflags)
  refine ⟨?_, ?_, List.map_congr_left fun r hr => hkeep r (List.mem_append_left _ hr),
    List.map_congr_left fun r hr => hkeep r (List.mem_append_right _ hr), rfl, ?_⟩
  · change (((x.flagI .dspPipeFlags [q.val] 6).countI .dspCfgRefusedCnt [q.val] 1).regI .dspPipeFlags [q.val]).getLsbD 6 = true
    rw [Die.regI_countI_ne _ 1 (hne q)]
    exact Die.getLsbD_regI_flagI x _ _ (by decide)
  · exact (Die.regI_countI _ _ _ 1).trans (by rw [Die.regI_flagI_ne x 6 (hne q).symm]; rfl)
  · rw [unitWaits_unitRefuses, getLsbD_bit44_self (by omega)]
    simp

/-! ### A paired pipe's press (R310) -/

/-- Die A's pipe waits for the acknowledgement of die B's. -/
def Die.awaitsPairAck (x : Die) (q : Fin 4) (e : Word) : Die :=
  { x with press.applied := x.press.applied &&& ~~~bit44 (22 + q.val) }.updPipe q fun t => { t with pairAckDue := some e }

/-- Die B's pipe is told of die A's press. -/
def Die.keepsPairPress (y : Die) (q : Fin 4) (e : Word) (m : WordMap) : Die :=
  y.updPipe q fun t => { t with pairPress := some (e, m) }

/-- It applies the press at once, unless the frame at which die A's pipe does is still ahead of it. -/
def Die.toldPress (y : Die) (q : Fin 4) (e : Word) (m : WordMap) (frame : Word) : Die :=
  if (y.keepsPairPress q e m).pipeBehind q frame then y.keepsPairPress q e m else takePairPress q (y.keepsPairPress q e m)

theorem pipePress_of_paired {s : State} {q : Fin 4} (hdue : s.a.pipePressDue q = true) (hpaired : s.a.pipePaired q = true)
    (hshadow : s.a.shadowFails (22 + q.val) = false) : pipePress s .a q =
      (s.onDie .a fun y => (pipePressOwn y q).awaitsPairAck q s.a.press.epoch).onDie .b fun y =>
        y.toldPress q s.a.press.epoch s.a.press.pressed (s.a.pipes[q]).frame :=
  (if_neg (by simp [hdue])).trans (if_pos ⟨rfl, hpaired, by simp [hshadow]⟩)

theorem pipeBehind_keepsPairPress (y : Die) (q : Fin 4) (e : Word) (m : WordMap) (frame : Word) :
    (y.keepsPairPress q e m).pipeBehind q frame = y.pipeBehind q frame := by
  rw [Die.pipeBehind, Die.keepsPairPress, Die.pipe_updPipe]
  rfl

theorem toldPress_of_behind {y : Die} {q : Fin 4} {frame : Word} (e : Word) (m : WordMap)
    (h : y.pipeBehind q frame = true) : y.toldPress q e m frame = y.keepsPairPress q e m :=
  if_pos ((pipeBehind_keepsPairPress y q e m frame).trans h)

/-- Die B's pipe applies the words at once, and acknowledges them over a bridge that is up. -/
theorem toldPress_of_level {y : Die} {q : Fin 4} {frame : Word} (e : Word) (m : WordMap)
    (h : y.pipeBehind q frame = false) : ((y.toldPress q e m frame).pipes[q]).pairPress = none ∧
      (y.pair.bridgeUp = true → (y.toldPress q e m frame).pair.ctlOut = y.pair.ctlOut ++ [.pipeAck q e]) := by
  have htold : y.toldPress q e m frame = takePairPress q (y.keepsPairPress q e m) :=
    if_neg (by rw [pipeBehind_keepsPairPress, h]; decide)
  obtain ⟨hpipe, hctl⟩ := takePairPress_of_some (y := y.keepsPairPress q e m) (congrArg Pipe.pairPress (Die.pipe_updPipe y q _))
  rw [htold, hpipe, hctl]
  exact ⟨rfl, fun hup => if_pos hup⟩

/-- Die B's acknowledgement arrives: die A's pipe has applied the press (R310). -/
theorem exec_pairedPipePressAck {s : State} {q : Fin 4} (hup : s.a.pair.bridgeUp = true)
    (hmsg : s.b.pair.ctlOut.any (pipeAckOf q) = true) (hwaits : (s.a.pipes[q]).pairAckDue.isSome = true) :
    exec (.pairedPipePressAck q) s = .next ((s.setDie .a ((s.a.heardCtl.updPipe q fun t =>
      { t with pairAckDue := none }).unitAcks (22 + q.val))).setDie .b
        { s.b with pair.ctlOut := dropFirst (pipeAckOf q) s.b.pair.ctlOut }) := by
  have hack : (s.a.heardCtl.pipes[q]).pairAckDue.isSome = true := hwaits
  change execPairedPipePressAck q s = _
  rw [execPairedPipePressAck, if_neg (by rw [hup, hmsg]; decide)]
  simp only [if_pos hack]

/-! ### Fences of layers (R288)

The proofs make the fence read a variable: else the kernel, as it reduces the match on the pending configuration, unfolds
the read itself. -/

theorem configFixDie_of_due {q : Fin 4} {p x : Die} (hrun : x.running = true) (hdue : (x.pipes[q]).fixDue = true)
    (hthaw : (x.pipes[q]).frozen = none) : configFixDie q p x =
      (layerIds.foldl (fun y l => fixLayer p y q l) x).updPipe q fun t => { t with fixDue := false } :=
  if_pos (by rw [hrun, hdue, hthaw]; decide)

section
variable {p y z : Die} {q : Fin 4} {l : Fin 8} {c : LayerCfg} {v : DWord} (hthaw : (y.pipes[q]).frozen = none)
  (hpending : ((y.pipes[q]).layers[l]).pending = some c)
  (hread : fenceUnit p y (.layer q l) (lCtx c) (lFence c) = (z, some v))
include hthaw hpending hread

/-- A layer whose fence has reached its value becomes active. -/
theorem fixLayer_of_reached (h : (lValue c).toNat ≤ v.toNat) : fixLayer p y q l = z.updPipe q fun t =>
    { t with layers := vmod t.layers l fun k => { k with active := c, pending := none } } := by
  rw [fixLayer, if_neg (by rw [hthaw]; decide)]
  obtain ⟨fence, hfence⟩ : ∃ f, f = fenceUnit := ⟨_, rfl⟩
  rw [← hfence] at hread ⊢
  simp only [hpending, hread, if_pos h]

/-- A late one is flagged and counted. -/
theorem fixLayer_of_late (h : v.toNat < (lValue c).toNat) : fixLayer p y q l =
    (z.flagI .dspPipeFlags [q.val] 0).countI .dspLayerLateCnt [q.val, l.val] 1 := by
  rw [fixLayer, if_neg (by rw [hthaw]; decide)]
  obtain ⟨fence, hfence⟩ : ∃ f, f = fenceUnit := ⟨_, rfl⟩
  rw [← hfence] at hread ⊢
  simp only [hpending, hread, if_neg (Nat.not_le.mpr h)]

end

theorem addr_late_ne : ∀ (q : Fin 4) (l : Fin 8), Reg.dspPipeFlags.addr [q.val] ≠ Reg.dspLayerLateCnt.addr [q.val, l.val] := by
  decide

/-! ### Lines (R291, R293, R314, R603) -/

section
variable {q : Fin 4} {n : Nat} {p x : Die}

theorem lineFetchDie_of_not_next (h : x.mayScan q n = false) : lineFetchDie q n p x = x :=
  if_pos (by simp [h])

theorem lineFetchDie_of_next (h : x.mayScan q n = true) : lineFetchDie q n p x =
    (composeStep p x q n).updPipe q fun t => { t with
      line := n + 1, vblank := false, layers := t.layers.map fun k => { k with underrun := none } } :=
  if_neg (by simp [h])

/-- The layers of a frozen pipe fetch nothing (R314). -/
theorem foldl_fetchLayer_of_frozen (ls : List (Fin 8)) (h : (x.pipes[q]).frozen.isSome = true) :
    ls.foldl (fetchLayer p q n) x = x := by
  induction ls with
  | nil => rfl
  | cons l ls ih => rwa [List.foldl_cons, fetchLayer, if_pos h]

/-- A frozen pipe shows the SAFE colour (R314). -/
theorem composeStep_of_frozen (hfrozen : (x.pipes[q]).frozen.isSome = true) (hlock : (x.pipes[q]).relockFrame = false) :
    composeStep p x q n = portLine x q n
      (List.replicate (x.fld .dspPipeHtiming [q.val] 15 0) (colour10 (x.regI .dspPipeSafe [q.val]))) := by
  rw [composeStep, if_neg (by rw [hlock]; decide)]
  simp only [foldl_fetchLayer_of_frozen (lineLayers x q n) hfrozen, if_pos hfrozen]

end

/-- A layer shows the SAFE colour from a column of the line; the underrun is flagged (R293). -/
def Die.underruns (x : Die) (q : Fin 4) (l : Fin 8) (col : Nat) : Die :=
  (x.tick.flagI .dspPipeFlags [q.val] 5).updPipe q fun t =>
    { t with underrun := true, layers := vmod t.layers l fun u => { u with underrun := some col } }

/-- The column is a free value, and the first underrun of a line is counted. -/
theorem underrunDie_of_fetching {q : Fin 4} {l : Fin 8} {x : Die} (hscan : x.mayScan q (x.pipes[q]).line = true)
    (hthaw : (x.pipes[q]).frozen = none) (hlock : (x.pipes[q]).relockFrame = false)
    (hl : l ∈ lineLayers x q (x.pipes[q]).line) (hfirst : ((x.pipes[q]).layers[l]).underrun = none) :
    ∃ first : Bool, underrunDie q l x = (if first then x.countI .dspUnderrunCnt [q.val] 1 else x).underruns q l
      (Config.choice x.free % max 1 (x.fld .dspPipeHtiming [q.val] 15 0)) := by
  refine ⟨(x.pipes[q]).layers.toList.all fun u => u.underrun.isNone, ?_⟩
  rw [underrunDie, if_neg (by rw [hscan, hthaw, hlock, List.contains_iff_mem.mpr hl, hfirst]; decide)]
  rfl

theorem underruns_spec (x : Die) (q : Fin 4) (l : Fin 8) (col : Nat) :
    (((x.underruns q l col).pipes[q]).layers[l]).underrun = some col ∧ ((x.underruns q l col).pipes[q]).underrun = true ∧
    ((x.underruns q l col).regI .dspPipeFlags [q.val]).getLsbD 5 = true ∧ (x.underruns q l col).dram = x.dram := by
  refine ⟨?_, ?_, Die.getLsbD_regI_flagI x.tick _ _ (by decide), rfl⟩
  · rw [Die.underruns, Die.pipe_updPipe]
    exact congrArg Layer.underrun (getElem_vmod_same _ l _)
  · rw [Die.underruns, Die.pipe_updPipe]

/-! ### PIXEL_PLL_RELOCK (R287) -/

theorem exec_pixelPllRelock {s : State} {d : DieId} {q : Fin 4} (hrun : (s.die d).running = true)
    (hen : ((s.die d).pipes[q]).en = true) (hlocks : ((s.die d).pipes[q]).relocking = true) :
    exec (.pixelPllRelock d q) s = .next (tellStart d q (s.onDie d (relockDie q (s.die d.other)))) :=
  if_neg (by rw [hrun, hen, hlocks]; decide)

/-! ### The rows -/

/-- Every clause of O46 holds of a package whose dies are in their places, as reset leaves them and every step keeps them
(O4, O5). That the relock period takes up to two frames, and that the column of an underrun is free, is log 96; the press of a
paired pipe over the bridge is log 99. -/
theorem pipesApplyPressesAndLines_of_inv {s : State} (hs : s.Inv) (d : DieId) (q : Fin 4) :
    let x := s.die d
    let p := s.die d.other
    let u := 22 + q.val
    let t := x.pipes[q]
    (x.running = true → t.en = false →
      (x.pipePressDue q = false → exec (.pipePressApplyDisabled d q) s = .next s) ∧
      (x.pipePressDue q = true → (d = .b ∨ x.pipePaired q = false ∨ x.shadowFails u = true) →
        (x.shadowFails u = true → exec (.pipePressApplyDisabled d q) s = .next (s.onDie d fun x => x.unitRefuses u)) ∧
        (x.shadowFails u = false → pipePressOk x.press.pressed q = true → t.frozen ≠ some clsCfgParity →
          exec (.pipePressApplyDisabled d q) s =
            .next (s.onDie d fun x => (applyPipeWords x.press.pressed q x).unitApplies u)) ∧
        (x.shadowFails u = false → pipePressOk x.press.pressed q = false → ∃ r,
          exec (.pipePressApplyDisabled d q) s = .next r ∧ ((r.die d).regI .dspPipeFlags [q.val]).getLsbD 6 = true ∧
          (r.die d).regI .dspCfgRefusedCnt [q.val] = x.regI .dspCfgRefusedCnt [q.val] + 1 ∧
          timingWords (r.die d) q = timingWords x q ∧ portWords (r.die d) q = portWords x q ∧
          (r.die d).pipes = x.pipes ∧ (r.die d).unitWaits u = false)) ∧
      (d = .a → x.pipePressDue q = true → x.pipePaired q = true → x.shadowFails u = false → ∃ r,
        exec (.pipePressApplyDisabled d q) s = .next r ∧ (r.a.pipes[q]).pairAckDue = some x.press.epoch ∧
        (s.b.pipeBehind q t.frame = true → r.b = s.b.updPipe q fun t =>
          { t with pairPress := some (x.press.epoch, x.press.pressed) }) ∧
        (s.b.pipeBehind q t.frame = false → (r.b.pipes[q]).pairPress = none ∧
          (s.b.pair.bridgeUp = true → r.b.pair.ctlOut = s.b.pair.ctlOut ++ [.pipeAck q x.press.epoch])))) ∧
    (s.a.pair.bridgeUp = true → s.b.pair.ctlOut.any (pipeAckOf q) = true → (s.a.pipes[q]).pairAckDue.isSome = true →
      ∃ r, exec (.pairedPipePressAck q) s = .next r ∧ r.b.pair.ctlOut = dropFirst (pipeAckOf q) s.b.pair.ctlOut ∧
        (r.a.pipes[q]).pairAckDue = none ∧ r.a.press.applied = s.a.press.applied ||| bit44 u) ∧
    (x.running = true → t.fixDue = true → t.frozen = none → exec (.layerConfigFix d q) s = .next (s.setDie d
      ((layerIds.foldl (fun y l => fixLayer p y q l) x).updPipe q fun t => { t with fixDue := false }))) ∧
    (∀ (y z : Die) (l : Fin 8) (c : LayerCfg) (v : DWord), (y.pipes[q]).frozen = none →
      ((y.pipes[q]).layers[l]).pending = some c → fenceUnit p y (.layer q l) (lCtx c) (lFence c) = (z, some v) →
      ((lValue c).toNat ≤ v.toNat → fixLayer p y q l = z.updPipe q fun t =>
        { t with layers := vmod t.layers l fun k => { k with active := c, pending := none } }) ∧
      (v.toNat < (lValue c).toNat → (fixLayer p y q l).pipes = z.pipes ∧
        ((fixLayer p y q l).regI .dspPipeFlags [q.val]).getLsbD 0 = true ∧
        (fixLayer p y q l).regI .dspLayerLateCnt [q.val, l.val] = z.regI .dspLayerLateCnt [q.val, l.val] + 1)) ∧
    (∀ n, (x.mayScan q n = false → exec (.layerLineFetch d q n) s = .next (s.onDie d id)) ∧
      (x.mayScan q n = true →
        exec (.layerLineFetch d q n) s = .next (s.setDie d ((composeStep p x q n).updPipe q fun t => { t with
          line := n + 1, vblank := false, layers := t.layers.map fun k => { k with underrun := none } })) ∧
        (t.frozen.isSome = true → t.relockFrame = false → composeStep p x q n = portLine x q n
          (List.replicate (x.fld .dspPipeHtiming [q.val] 15 0) (colour10 (x.regI .dspPipeSafe [q.val])))))) ∧
    (∀ l : Fin 8, x.mayScan q t.line = true → t.frozen = none → t.relockFrame = false → l ∈ lineLayers x q t.line →
      (t.layers[l]).underrun = none → ∃ r col, exec (.fetchUnderrun d q l) s = .next r ∧
        (((r.die d).pipes[q]).layers[l]).underrun = some col ∧ col < max 1 (x.fld .dspPipeHtiming [q.val] 15 0) ∧
        ((r.die d).pipes[q]).underrun = true ∧ ((r.die d).regI .dspPipeFlags [q.val]).getLsbD 5 = true ∧
        (r.die d).dram = x.dram) ∧
    (x.running = true → t.en = true → t.relocking = true → ∃ r n, exec (.pixelPllRelock d q) s = .next r ∧ n ≤ 2 ∧
      (r.die d).pipes[q] = { freshFrame t with relocking := false, relockLeft := n, relockFrame := decide (0 < n),
                                               wasFrozen := t.frozen.isSome, startDue := Die.follows p x q }) := by
  intro x p u t
  refine ⟨fun hrun hoff => ⟨fun hdue => ?_, fun hdue hown => ⟨fun hshadow => ?_, fun hshadow hok hthaw => ?_,
    fun hshadow hbad => ?_⟩, ?_⟩, fun hup hmsg hwaits => ?_, fun hrun hdue hthaw => ?_, fun y z l c v hthaw hpending hread =>
    ⟨fixLayer_of_reached hthaw hpending hread, fun hlate => ?_⟩, fun n => ⟨fun hnext => ?_, fun hnext => ⟨?_, ?_⟩⟩,
    fun l hscan hthaw hlock hl hfirst => ?_, fun hrun hen hlocks => ?_⟩
  · rw [exec_pipePressApplyDisabled hrun hoff, pipePress_of_not_due hdue]
  · rw [exec_pipePressApplyDisabled hrun hoff, pipePress_of_own hdue hown]
    exact congrArg _ (State.onDie_congr (pipePressOwn_of_bad_shadow hshadow))
  · rw [exec_pipePressApplyDisabled hrun hoff, pipePress_of_own hdue hown]
    exact congrArg _ (State.onDie_congr (pipePressOwn_of_ok hshadow hok hthaw))
  · refine ⟨_, (exec_pipePressApplyDisabled hrun hoff).trans (congrArg _ (pipePress_of_own hdue hown)), ?_⟩
    rw [State.die_onDie, pipePressOwn_of_refused hshadow hbad]
    exact refusedPress_spec x q
  · rintro rfl hdue hpaired hshadow
    refine ⟨_, exec_pipePressApplyDisabled (d := .a) hrun hoff, ?_⟩
    rw [pipePress_of_paired hdue hpaired hshadow]
    refine ⟨congrArg Pipe.pairAckDue (Die.pipe_updPipe _ q _), fun hbehind => ?_, toldPress_of_level _ _⟩
    change { s.b.toldPress q _ _ _ with id := .b } = _
    rw [toldPress_of_behind (frame := (s.a.pipes[q]).frame) _ _ hbehind]
    exact congrArg (fun i => ({ s.b.keepsPairPress q _ _ with id := i } : Die)) hs.dieB.symm
  · exact ⟨_, exec_pairedPipePressAck hup hmsg hwaits, rfl, congrArg Pipe.pairAckDue (Die.pipe_updPipe _ q _), rfl⟩
  · exact nextOn_of_eq (configFixDie_of_due hrun hdue hthaw)
  · rw [fixLayer_of_late hthaw hpending hread hlate]
    refine ⟨rfl, ?_, (Die.regI_countI _ _ _ 1).trans (by rw [Die.regI_flagI_ne _ _ (addr_late_ne q l).symm]; rfl)⟩
    rw [Die.regI_countI_ne _ 1 (addr_late_ne q l)]
    exact Die.getLsbD_regI_flagI z _ _ (by decide)
  · exact nextOn_of_unchanged (lineFetchDie_of_not_next hnext)
  · exact nextOn_of_eq (lineFetchDie_of_next hnext)
  · exact composeStep_of_frozen
  · obtain ⟨first, hdie⟩ := underrunDie_of_fetching hscan hthaw hlock hl hfirst
    refine ⟨s.onDie d (underrunDie q l), Config.choice x.free % max 1 (x.fld .dspPipeHtiming [q.val] 15 0), rfl, ?_⟩
    rw [State.die_onDie, hdie]
    obtain ⟨hlayer, hpipe, hflag, hdram⟩ := underruns_spec (if first then x.countI .dspUnderrunCnt [q.val] 1 else x) q l
      (Config.choice x.free % max 1 (x.fld .dspPipeHtiming [q.val] 15 0))
    exact ⟨hlayer, Nat.mod_lt _ (by omega), hpipe, hflag, hdram.trans (by cases first <;> rfl)⟩
  · refine ⟨_, Config.choice x.free % 3, exec_pixelPllRelock hrun hen hlocks, by omega, ?_⟩
    rw [(tellStart_keeps d d q _).1, State.die_onDie]
    exact Die.pipe_updPipe x.tick q _

/-! ### The counterexample -/

/-- A running die of a pair, recorded as die A, whose pipe 0 is paired, over a bridge that is up. -/
def pairedDie : Die :=
  let x := (Die.reset .a Fuses.blank [] 1).setReg .cmdPairCfg 0xF00
  { x with dev := .ready, power.pllLock := true, pair.mode := 1, pair.bridgeUp := true, pair.lost := false }

/-- Die A's pipe 0 is off, and the press of epoch 5 waits for it. -/
def pressedDie : Die := { pairedDie with press.behind := bit44 22, press.epoch := 5 }

/-- Die B's pipe 0 is on, three frames ahead of die A's; the die is recorded as die A. -/
def misplacedDie : Die := pairedDie.updPipe 0 fun t => { t with en := true, frame := 3 }

def misplacedPair : State := { State.reset with a := pressedDie, b := misplacedDie }

/-- Refutes O46: a change of a die writes its place, so that die B of `misplacedPair` is not what it was with the press kept for
its pipe. The package lacks the invariant of O4 and O5; of every package that has it, each clause holds:
`pipesApplyPressesAndLines_of_inv`. -/
theorem not_pipesApplyPressesAndLines : ¬ Obligations.PipesApplyPressesAndLines := by
  unfold Obligations.PipesApplyPressesAndLines
  intro h
  obtain ⟨hpress, -⟩ := h misplacedPair .a 0
  obtain ⟨-, -, hpaired⟩ := hpress (by decide) (by decide)
  have hdue : misplacedPair.a.pipePressDue 0 = true := by decide
  have hpair : misplacedPair.a.pipePaired 0 = true := by decide
  have hshadow : misplacedPair.a.shadowFails 22 = false := by decide
  obtain ⟨r, hexec, -, hkept, -⟩ := hpaired rfl hdue hpair hshadow
  have hr : exec (.pipePressApplyDisabled .a 0) misplacedPair = .next (pipePress misplacedPair .a 0) :=
    exec_pipePressApplyDisabled (by decide) (by decide)
  obtain rfl : pipePress misplacedPair .a 0 = r := Host.Outcome.next.inj (hr.symm.trans hexec)
  rw [pipePress_of_paired hdue hpair hshadow] at hkept
  exact absurd (congrArg Die.id (hkept (by decide))) (by decide)

end Sys2Proof.Machine
end

section
/-! PROOFS. What the memory accesses of a die's masters leave alone: its jobs, shader cores, passes and wringers (R226 to
R234, R360 to R366, R477). -/
namespace Sys2Proof.Machine

/-- `x.KeepsWork y`: `y` has the jobs, shader cores, passes and wringers of `x`. -/
structure Die.KeepsWork (x y : Die) : Prop where
  jobs : y.jobs = x.jobs
  sh : y.sh = x.sh
  passes : y.passes = x.passes
  wringers : y.wringers = x.wringers

namespace Die.KeepsWork

variable {x y z : Die}

theorem refl (x : Die) : x.KeepsWork x := ⟨rfl, rfl, rfl, rfl⟩

theorem trans (h : x.KeepsWork y) (h' : y.KeepsWork z) : x.KeepsWork z :=
  ⟨h'.jobs.trans h.jobs, h'.sh.trans h.sh, h'.passes.trans h.passes, h'.wringers.trans h.wringers⟩

/-- A fold that passes, as `ok` says of what it answers, and whose every step that passes keeps the work, keeps it. -/
theorem foldl_passed {α β : Type} {f : Die × β → α → Die × β} (ok : β → Prop)
    (hf : ∀ r a, ok (f r a).2 → ok r.2 ∧ r.1.KeepsWork (f r a).1) (l : List α) (r : Die × β) (h : ok (l.foldl f r).2) :
    ok r.2 ∧ r.1.KeepsWork (l.foldl f r).1 := by
  induction l generalizing r with
  | nil => exact ⟨h, refl r.1⟩
  | cons a l ih =>
    obtain ⟨hstep, hrest⟩ := ih (f r a) h
    obtain ⟨hr, hkeep⟩ := hf r a hstep
    exact ⟨hr, hkeep.trans hrest⟩

theorem foldlFst {α β : Type} {f : Die × β → α → Die × β} (hf : ∀ (r : Die × β) (a : α), r.1.KeepsWork (f r a).1)
    (l : List α) (r : Die × β) : r.1.KeepsWork (l.foldl f r).1 := (foldl_passed (fun _ => True) (fun r a _ => ⟨trivial, hf r a⟩) l r trivial).2

theorem foldl {α : Type} {f : Die → α → Die} (hf : ∀ (y : Die) a, y.KeepsWork (f y a)) (l : List α) (x : Die) :
    x.KeepsWork (l.foldl f x) := by
  induction l generalizing x with
  | nil => exact refl x
  | cons a l ih => exact (hf x a).trans (ih (f x a))

theorem setRegI (x : Die) (r : Reg) (is : List Nat) (v : Word) : x.KeepsWork (x.setRegI r is v) := ⟨rfl, rfl, rfl, rfl⟩

theorem count (x : Die) (r : Reg) : x.KeepsWork (x.count r) := setRegI x r _ _

theorem countN (x : Die) (r : Reg) (n : Nat) : x.KeepsWork (x.countN r n) := setRegI x r _ _

theorem flag (x : Die) (r : Reg) (b : Nat) : x.KeepsWork (x.flag r b) := setRegI x r _ _


theorem setL2 (x : Die) (t : L2) : x.KeepsWork (x.setL2 t) := ⟨rfl, rfl, rfl, rfl⟩

theorem note (x : Die) (cls : Byte) (m : Master) (i : FaultInfo) : x.KeepsWork (x.note cls m i) := ⟨rfl, rfl, rfl, rfl⟩

theorem forget (x : Die) (gone : Master → Bool) : x.KeepsWork (x.forget gone) := ⟨rfl, rfl, rfl, rfl⟩

end Die.KeepsWork

/-! ### Words of DRAM (R477, R479, R529) -/

theorem Die.keepsWork_poison (x : Die) (g : Nat) : x.KeepsWork (x.poison g) := by
  unfold Die.poison Die.enterSafe
  dsimp only
  split
  · split <;> exact ⟨rfl, rfl, rfl, rfl⟩
  · exact ⟨rfl, rfl, rfl, rfl⟩

theorem keepsWork_persistentError (p x : Die) (w : Nat) (stuck : Bool) : x.KeepsWork (persistentError p x w stuck).1 := by
  have hcount := Die.KeepsWork.count x .fltDramParityCnt
  unfold persistentError
  dsimp only
  split
  · have hread := hcount.trans (.count _ .fltSiblingReadCnt)
    split
    · exact hread.trans (Die.keepsWork_poison _ _)
    · have hrepair (m : Mem) : x.KeepsWork
          (({ (x.count .fltDramParityCnt).count .fltSiblingReadCnt with dram.cells := m } : Die).unspoil w) :=
        ⟨rfl, rfl, rfl, rfl⟩
      split
      · exact (hrepair _).trans (Die.keepsWork_poison _ _)
      · exact hrepair _
  · exact hcount.trans (Die.keepsWork_poison _ _)

theorem keepsWork_readWord (p x : Die) (w fails : Nat) : x.KeepsWork (readWord p x w fails).1 := by
  unfold readWord
  dsimp only
  split
  · exact .refl x
  · split
    · exact .countN x .fltDramRereadCnt fails
    · exact (Die.KeepsWork.countN x .fltDramRereadCnt 2).trans (keepsWork_persistentError p _ w _)

theorem keepsWork_readLine (p x : Die) (line : Nat) (fails : List (Nat × Nat)) : x.KeepsWork (readLine p x line fails).1 := by
  unfold readLine
  refine .foldlFst (fun r i => ?_) _ (x, true)
  dsimp only
  exact keepsWork_readWord p r.1 _ _

theorem Die.keepsWork_parityLine (x : Die) (pa : Nat) : x.KeepsWork (x.parityLine pa) := by
  obtain h | ⟨l, h⟩ := x.parityLine_cases pa <;> rw [h] <;> exact ⟨rfl, rfl, rfl, rfl⟩

theorem Die.keepsWork_spoilWord (x : Die) (w : Nat) : x.KeepsWork (x.spoilWord w) := by
  unfold Die.spoilWord
  split <;> exact ⟨rfl, rfl, rfl, rfl⟩

/-! ### Entries of a slice's merging buffer (R229) -/

theorem Die.keepsWork_markWord (x : Die) (e : MergeEnt) (w : Nat) (good : Bool) : x.KeepsWork (x.markWord e w good) := by
  have hmark (c : Bool) (v : Nat) : x.KeepsWork (if c then x.spoilWord v else x.unspoil v) := by
    split
    · exact x.keepsWork_spoilWord v
    · exact ⟨rfl, rfl, rfl, rfl⟩
  unfold Die.markWord
  dsimp only
  split
  · exact hmark _ _
  · exact (hmark _ _).trans (.note _ _ _ _)

theorem keepsWork_commitWord (p x : Die) (e : MergeEnt) (w : Nat) (whole : Bool) (fails : List (Nat × Nat)) :
    x.KeepsWork (commitWord p x e w whole fails) := by
  have hread : x.KeepsWork (readForCommit p x e w whole fails).1 := by
    unfold readForCommit
    split
    · exact .refl x
    · exact (Die.KeepsWork.count x .drcRmwCnt).trans (keepsWork_readWord p _ _ _)
  rw [commitWord_eq]
  generalize readForCommit p x e w whole fails = r at hread
  obtain ⟨l, hl⟩ := Die.mirrorWord_cases ((r.1.storeWord e w).markWord e w r.2) p e w r.2
  have hstore : r.1.KeepsWork (r.1.storeWord e w) := ⟨rfl, rfl, rfl, rfl⟩
  refine ((hread.trans hstore).trans (Die.keepsWork_markWord _ e w r.2)).trans ?_
  rw [hl]
  exact ⟨rfl, rfl, rfl, rfl⟩

theorem keepsWork_commitEntry (p x : Die) (e : MergeEnt) (fails : List (Nat × Nat)) :
    x.KeepsWork (commitEntry p x e fails) := by
  have hwords := Die.KeepsWork.foldl (f := fun y wp => commitWord p y e wp.1 wp.2 fails)
    (fun y wp => keepsWork_commitWord p y e wp.1 wp.2 fails) (entryWords e) (x.parityLine e.pa)
  exact (((x.keepsWork_parityLine e.pa).trans hwords).trans (.setL2 _ _)).trans (.count _ .l2cDrainCnt)

theorem keepsWork_commitOldest (p x : Die) (sl : Fin 16) : x.KeepsWork (commitOldest p x sl) := by
  unfold commitOldest
  split
  · exact .refl x
  · exact keepsWork_commitEntry p x _ []

theorem keepsWork_drainLine (p x : Die) (line : Nat) : x.KeepsWork (drainLine p x line) :=
  .foldl (fun y e => keepsWork_commitEntry p y e []) _ x

/-! ### Reads and writes at a slice (R227 to R230) -/

theorem Die.keepsWork_l2Install (x : Die) (pa : Nat) : x.KeepsWork (x.l2Install pa) := by
  obtain h | ⟨ls, h | h⟩ := l2Install_cases x pa <;> rw [h] <;> exact ⟨rfl, rfl, rfl, rfl⟩

theorem keepsWork_l2ReadLine (p x : Die) (pa : Nat) : x.KeepsWork (l2ReadLine p x pa).1 := by
  unfold l2ReadLine
  extract_lets ln sl
  split
  · exact .count x .l2cHitCnt
  · split
    · exact (((Die.KeepsWork.setL2 x _).trans (Die.keepsWork_l2Install _ _)).trans (.count _ .l2cPfUseCnt)).trans
        (.count _ .l2cHitCnt)
    · next merged drained _ _ =>
      have hmerged : x.KeepsWork merged := by
        unfold merged
        split
        · exact .count x .l2cMergeCnt
        · exact .refl x
      have hdrained : x.KeepsWork drained := (hmerged.trans (.count _ .l2cMissCnt)).trans (keepsWork_drainLine p _ ln)
      clear_value drained
      have hread := (hdrained.trans (Die.keepsWork_parityLine _ ln)).trans (keepsWork_readLine p _ ln [])
      split
      next z ok hz =>
      rw [hz] at hread
      split
      · exact hread.trans (Die.keepsWork_l2Install _ _)
      · exact hread

theorem keepsWork_l2ReadRange (p x : Die) (pa n : Nat) : x.KeepsWork (l2ReadRange p x pa n).1 := by
  unfold l2ReadRange
  refine .foldlFst (fun r ln => ?_) _ (x, none)
  split
  · exact .refl r.1
  · dsimp only
    exact keepsWork_l2ReadLine p r.1 ln

theorem keepsWork_l2MergeMask (p x : Die) (ctx ln : Nat) (new : List (Nat × Byte)) (spoil : BitVec 16) :
    x.KeepsWork (l2MergeMask p x ctx ln new spoil) := by
  unfold l2MergeMask
  dsimp only
  split
  · exact .setL2 _ _
  · split
    · exact .setL2 _ _
    · exact (keepsWork_commitOldest p x _).trans (.setL2 _ _)

theorem keepsWork_l2WriteLine (p x : Die) (ctx pa : Nat) (bs : List Byte) : x.KeepsWork (l2WriteLine p x ctx pa bs) := by
  have hcount : x.KeepsWork (l2CountWrite x pa) := by
    obtain h | h := l2CountWrite_cases x pa <;> rw [h] <;> exact .count _ _
  have hmerge := hcount.trans (keepsWork_l2MergeMask p _ ctx (lineOf pa)
    ((List.range bs.length).map fun i => (pa % 128 + i, bs.getD i 0)) 0)
  unfold l2WriteLine
  dsimp only
  split
  · exact hcount.trans ⟨rfl, rfl, rfl, rfl⟩
  · split
    · exact hmerge.trans (Die.keepsWork_l2Install _ _)
    · exact hmerge

theorem keepsWork_l2Write (p x : Die) (ctx pa : Nat) (bs : List Byte) : x.KeepsWork (l2Write p x ctx pa bs) := by
  unfold l2Write
  generalize bs.length / 128 + 2 = fuel
  induction fuel generalizing x pa bs with
  | zero => exact .refl x
  | succ k ih =>
    cases bs with
    | nil => exact .refl x
    | cons b bs => exact (keepsWork_l2WriteLine p x ctx pa _).trans (ih _ _ _)

theorem keepsWork_storeBytes (p x : Die) (c : Nat) (pm : PageMap) (va : Nat) (bs : List Byte) :
    x.KeepsWork (storeBytes p x c pm va bs) := .foldl (fun y _ => keepsWork_l2Write p y c _ _) _ x

/-! ### Translation and the pre-walk (R360, R365) -/

theorem Die.keepsWork_keepNear (x : Die) (m : Master) (e : TlbEnt) : x.KeepsWork (x.keepNear m e) := by
  unfold Die.keepNear
  split
  · exact .refl x
  · split <;> exact ⟨rfl, rfl, rfl, rfl⟩

/-- The table words that a walk reads. -/
theorem keepsWork_walkReads (p x : Die) (reads : List Nat) :
    x.KeepsWork (reads.foldl (fun (r : Die × Option Nat) ta => match r.2 with
      | some _ => r
      | none => let (y, ok) := l2ReadLine p r.1 ta; (y, if ok then none else some (failedWord p y (lineOf ta) [])))
      (x, none)).1 := by
  refine .foldlFst (fun r ta => ?_) _ (x, none)
  split
  · exact .refl r.1
  · dsimp only
    exact keepsWork_l2ReadLine p r.1 ta

theorem keepsWork_translate (p x : Die) (m : Master) (c va : Nat) (a : Access) :
    x.KeepsWork (translate p x m c va a).1 := by
  unfold translate
  extract_lets v
  split
  · extract_lets y
    split <;> exact Die.keepsWork_keepNear x m _
  · split
    next rs log _ =>
    split
    next y bad hy =>
    have hread : x.KeepsWork y := (congrArg (fun r => x.KeepsWork r.1) hy).mp (keepsWork_walkReads p x log.reads.reverse)
    extract_lets z
    have hz : x.KeepsWork z := by
      unfold z
      split
      · exact hread
      · exact hread.trans (.count y .xltWalkCnt)
    clear_value z
    split
    · exact hz
    · next kept _ _ =>
      have hkept : x.KeepsWork kept := hz.trans ⟨rfl, rfl, rfl, rfl⟩
      clear_value kept
      split
      · split
        split
        · exact hkept
        · split
          · exact hz
          · extract_lets sp o e
            dsimp only
            refine (hkept.trans ?_).trans (Die.keepsWork_keepNear _ m e)
            exact ⟨rfl, rfl, rfl, rfl⟩
      · exact hz
      · exact hz
      · exact hkept
      · exact hkept

theorem Die.keepsWork_countFault (x : Die) (cls : Byte) : x.KeepsWork (x.countFault cls) := by
  unfold Die.countFault
  split_ifs
  exacts [.count x _, .count x _, .count x _, .count x _, .count x _, .count x _, .refl x]

theorem keepsWork_walkPage (p x : Die) (m : Master) (c va : Nat) (a : Access) : x.KeepsWork (walkPage p x m c va a).1 := by
  have hxlate := keepsWork_translate p x m c va a
  unfold walkPage
  extract_lets v check
  have hcheck (y : Die) (pa : Nat) (who : Asker) : y.KeepsWork (check y pa who).1 := by
    unfold check
    split
    · exact y.keepsWork_countFault _
    · exact .refl y
  clear_value check
  split
  next y pa hy =>
    rw [hy] at hxlate
    exact hxlate.trans (hcheck _ _ _)
  next y cls s dt hy =>
    rw [hy] at hxlate
    exact hxlate.trans (y.keepsWork_countFault cls)
  next y ta e l k hy =>
    rw [hy] at hxlate
    have hunmapped := hxlate.trans (.count y .xltFaultCnt)
    extract_lets unmapped
    split
    · exact hunmapped
    · split
      · exact hxlate
      · split
        · exact hunmapped
        · split
          · split
            · exact hunmapped
            · exact hxlate.trans (hcheck _ _ _)
          · exact hxlate.trans (y.keepsWork_countFault _)
          · exact hunmapped
    · exact hxlate

theorem keepsWork_walkPages (p : Die) (m : Master) (c : Nat) (qs : List (Nat × Access)) (x : Die) :
    x.KeepsWork (walkPages p m c qs x).1 := by
  induction qs generalizing x with
  | nil => exact .refl x
  | cons q qs ih =>
    have hpage := keepsWork_walkPage p x m c q.1 q.2
    unfold walkPages
    split
    next y e hy => exact (congrArg (fun r => x.KeepsWork r.1) hy).mp hpage
    next y pa hy =>
      have hrest := ((congrArg (fun r => x.KeepsWork r.1) hy).mp hpage).trans (ih y)
      split
      next z e hz => exact (congrArg (fun r => x.KeepsWork r.1) hz).mp hrest
      next z pm hz => exact (congrArg (fun r => x.KeepsWork r.1) hz).mp hrest

theorem keepsWork_tryUnit (p x : Die) (m : Master) (c : Nat) (us : List URange) : x.KeepsWork (tryUnit p x m c us).1 :=
  keepsWork_walkPages p m c (unitPages us) x

/-! ### Units that pass (R365) -/

theorem keepsWork_of_prewalk {p x y : Die} {m : Master} {c : Nat} {us : List URange} {pm : PageMap}
    (h : prewalk p x m c us = (y, some pm)) : x.KeepsWork y := by
  have htry := keepsWork_tryUnit p x m c us
  unfold prewalk at h
  split at h
  · next z pm' hz =>
    obtain ⟨rfl, -⟩ := Prod.mk.inj h
    rwa [hz] at htry
  · simp at h

theorem keepsWork_of_fetchRange {p x y : Die} {m : Master} {c : Nat} {pm : PageMap} {u : URange}
    (h : fetchRange p x m c pm u = (y, true)) : x.KeepsWork y := by
  unfold fetchRange at h
  have hpass := Die.KeepsWork.foldl_passed (· = true) (fun r q hok => ?_) _ (x, true) (congrArg Prod.snd h)
  · rw [h] at hpass
    exact hpass.2
  · cases hr : r.2 with
    | false => simp [hr] at hok
    | true =>
      have hread := keepsWork_l2ReadRange p r.1 (paOf pm q.1) q.2
      simp only [hr, if_true] at hok ⊢
      split at hok
      next z hz =>
        rw [hz] at hread
        exact ⟨trivial, hread⟩
      next => simp at hok

theorem keepsWork_of_readUnit {p x y : Die} {m : Master} {c va n : Nat} {a : Access} {bs : List Byte}
    (h : readUnit p x m c va n a = (y, some bs)) : x.KeepsWork y := by
  unfold readUnit at h
  extract_lets u at h
  split at h
  · simp at h
  next z pm hz =>
    split at h
    · simp at h
    next w hw =>
      obtain ⟨rfl, -⟩ := Prod.mk.inj h
      exact (keepsWork_of_prewalk hz).trans (keepsWork_of_fetchRange hw)

end Sys2Proof.Machine
end

section
/-! PROOFS. What a job gives back when it stops: shares, engines, passes and fold images (R258, R319, R322, R335, R377). -/
namespace Sys2Proof.Machine

/-! ### Shares -/

theorem Die.takePart_cases (x : Die) (slot : Nat) (cl : Fin 6) :
    (x.takePart slot cl = x ∧ x.part? slot cl = none) ∨ ∃ z, x.takePart slot cl = { x with
      sh.parts := x.sh.parts.filter fun r => !(r.job == slot && decide (r.cl = cl)), sh.zeroing := z } := by
  unfold Die.takePart
  split
  next h => exact .inl ⟨rfl, h⟩
  next => exact .inr ⟨_, rfl⟩

@[simp] theorem Die.jobs_takePart (x : Die) (slot : Nat) (cl : Fin 6) : (x.takePart slot cl).jobs = x.jobs := by
  obtain ⟨h, -⟩ | ⟨z, h⟩ := x.takePart_cases slot cl <;> rw [h]

@[simp] theorem Die.regs_takePart (x : Die) (slot : Nat) (cl : Fin 6) : (x.takePart slot cl).regs = x.regs := by
  obtain ⟨h, -⟩ | ⟨z, h⟩ := x.takePart_cases slot cl <;> rw [h]

@[simp] theorem Die.groups_takePart (x : Die) (slot : Nat) (cl : Fin 6) :
    (x.takePart slot cl).sh.groups = x.sh.groups := by
  obtain ⟨h, -⟩ | ⟨z, h⟩ := x.takePart_cases slot cl <;> rw [h]

@[simp] theorem Die.parts_takePart (x : Die) (slot : Nat) (cl : Fin 6) :
    (x.takePart slot cl).sh.parts = x.sh.parts.filter fun r => !(r.job == slot && decide (r.cl = cl)) := by
  obtain ⟨h, hnone⟩ | ⟨z, h⟩ := x.takePart_cases slot cl <;> rw [h]
  have hkept : ∀ r ∈ x.sh.parts, (!(r.job == slot && decide (r.cl = cl))) = true := fun r hr => by
    simpa [imp_iff_not_or] using List.find?_eq_none.mp hnone r hr
  exact (List.filter_eq_self.mpr hkept).symm

@[simp] theorem Die.jobs_takeShare (x : Die) (slot : Nat) (cl : Fin 6) : (x.takeShare slot cl).jobs = x.jobs :=
  Die.jobs_takePart _ slot cl

@[simp] theorem Die.regs_takeShare (x : Die) (slot : Nat) (cl : Fin 6) : (x.takeShare slot cl).regs = x.regs :=
  Die.regs_takePart _ slot cl

theorem Die.groups_takeShare (x : Die) (slot : Nat) (cl : Fin 6) : (x.takeShare slot cl).sh.groups =
    x.sh.groups.filter fun t => !(t.job == slot && decide (t.loc.cl = cl)) := Die.groups_takePart _ slot cl

theorem Die.parts_takeShare (x : Die) (slot : Nat) (cl : Fin 6) : (x.takeShare slot cl).sh.parts =
    x.sh.parts.filter fun r => !(r.job == slot && decide (r.cl = cl)) := Die.parts_takePart _ slot cl

theorem groups_foldl_takeShare (slot : Nat) (cls : List (Fin 6)) (x : Die) :
    (cls.foldl (fun y cl => y.takeShare slot cl) x).sh.groups =
      x.sh.groups.filter fun t => !(t.job == slot && cls.contains t.loc.cl) := by
  induction cls generalizing x with
  | nil => simp
  | cons cl cls ih =>
    rw [List.foldl_cons, ih, Die.groups_takeShare, List.filter_filter]
    refine List.filter_congr fun t _ => ?_
    by_cases h : t.loc.cl = cl <;> cases t.job == slot <;> simp [h]

theorem parts_foldl_takeShare (slot : Nat) (cls : List (Fin 6)) (x : Die) :
    (cls.foldl (fun y cl => y.takeShare slot cl) x).sh.parts =
      x.sh.parts.filter fun r => !(r.job == slot && cls.contains r.cl) := by
  induction cls generalizing x with
  | nil => simp
  | cons cl cls ih =>
    rw [List.foldl_cons, ih, Die.parts_takeShare, List.filter_filter]
    refine List.filter_congr fun r _ => ?_
    by_cases h : r.cl = cl <;> cases r.job == slot <;> simp [h]

/-- Every cluster is among those whose shares are taken back. -/
theorem contains_clusterIds (cl : Fin 6) : clusterIds.contains cl = true := by revert cl; decide

theorem Die.job_ne_of_mem_groups_takeAllShares {x : Die} {slot : Nat} {t : Group}
    (h : t ∈ (x.takeAllShares slot).sh.groups) : t.job ≠ slot := by
  rw [Die.takeAllShares, groups_foldl_takeShare] at h
  simpa only [contains_clusterIds, Bool.and_true, Bool.not_eq_true', beq_eq_false_iff_ne] using (List.mem_filter.mp h).2

theorem Die.job_ne_of_mem_parts_takeAllShares {x : Die} {slot : Nat} {r : Partition}
    (h : r ∈ (x.takeAllShares slot).sh.parts) : r.job ≠ slot := by
  rw [Die.takeAllShares, parts_foldl_takeShare] at h
  simpa only [contains_clusterIds, Bool.and_true, Bool.not_eq_true', beq_eq_false_iff_ne] using (List.mem_filter.mp h).2

/-! ### Engines -/

theorem keepsWork_writeWrgCounts (p x : Die) (e : Fin 8) (slot : Nat) : x.KeepsWork (writeWrgCounts p x e slot) := by
  unfold writeWrgCounts
  split
  · exact .refl x
  next j _ =>
    split
    · exact .refl x
    · extract_lets va
      have htry := keepsWork_tryUnit p x (.wringer e) j.ctx [{ va := va, len := 64, acc := accWrite }]
      split
      next y pm hy =>
        rw [hy] at htry
        exact htry.trans (keepsWork_storeBytes p y j.ctx pm va _)
      next y err hy => rwa [hy] at htry

/-- A wringer engine of a job is released once the job's counts are written. -/
def releaseWringer (p : Die) (slot : Nat) (y : Die) (e : Fin 8) : Die :=
  if (y.wringers[e]).job == some slot then
    let z := (writeWrgCounts p y e slot).forget (fun m => decide (m = .wringer e))
    { z with wringers := vmod z.wringers e (fun _ => Wringer.reset) }
  else y

theorem releaseWringer_keeps (p : Die) (slot : Nat) (y : Die) (e : Fin 8) :
    (releaseWringer p slot y e).sh = y.sh ∧ ((releaseWringer p slot y e).wringers[e]).job ≠ some slot ∧
      ∀ f : Fin 8, f ≠ e → (releaseWringer p slot y e).wringers[f] = y.wringers[f] := by
  unfold releaseWringer
  split
  · have hcounts := keepsWork_writeWrgCounts p y e slot
    refine ⟨hcounts.sh, ?_, fun f hf => ?_⟩
    · dsimp only
      rw [getElem_vmod_same]
      exact nofun
    · dsimp only
      rw [getElem_vmod_ne _ _ hf]
      exact congrArg (fun v => v[f]) hcounts.wringers
  next h => exact ⟨rfl, by simpa using h, fun _ _ => rfl⟩

theorem foldl_releaseWringer (p : Die) (slot : Nat) (es : List (Fin 8)) (x : Die) :
    (es.foldl (releaseWringer p slot) x).sh = x.sh ∧
      ∀ f : Fin 8, f ∈ es ∨ (x.wringers[f]).job ≠ some slot →
        ((es.foldl (releaseWringer p slot) x).wringers[f]).job ≠ some slot := by
  induction es generalizing x with
  | nil => simp
  | cons e es ih =>
    obtain ⟨hsh, hfree, hothers⟩ := releaseWringer_keeps p slot x e
    obtain ⟨hsh', hfree'⟩ := ih (releaseWringer p slot x e)
    refine ⟨hsh'.trans hsh, fun f hf => hfree' f ?_⟩
    by_cases hfe : f = e
    · exact .inr (hfe ▸ hfree)
    · rw [hothers f hfe]
      exact hf.imp_left fun hmem => (List.mem_cons.mp hmem).resolve_left hfe

theorem releaseEngines_keeps (p x : Die) (slot : Nat) : (releaseEngines p x slot).sh = x.sh ∧
    ∀ e : Fin 8, ((releaseEngines p x slot).wringers[e]).job ≠ some slot := by
  obtain ⟨hsh, hfree⟩ := foldl_releaseWringer p slot wringerIds x
  unfold releaseEngines
  extract_lets y z
  have hy : y = wringerIds.foldl (releaseWringer p slot) x := rfl
  rw [← hy] at hsh hfree
  clear_value y
  exact ⟨hsh, fun e => hfree e (.inl (by revert e; decide))⟩

theorem job_copies_releaseEngines (p x : Die) (slot : Nat) (e : Fin 4) :
    ((releaseEngines p x slot).jobs.copies[e]).job ≠ some slot := by
  simp only [releaseEngines, Fin.getElem_fin, Vector.getElem_map]
  split
  · exact nofun
  next h => simpa using h

/-! ### Passes -/

theorem keepsWork_handBack (p x : Die) (q : Pass) (cs : List Nat) : x.KeepsWork (handBack p x q cs) := by
  refine .foldl (fun y c => ?_) cs x
  extract_lets va
  split
  next z pm hz =>
    have htry := keepsWork_tryUnit p y (.frontEnd 0) q.ctx
      [{ va := va, len := 1, acc := accRead }, { va := va, len := 1, acc := accWrite }]
    rw [hz] at htry
    exact htry.trans (keepsWork_storeBytes p z q.ctx pm va _)
  · exact .refl y

/-- A pass that leaves the front end changes the passes alone of a die's work, and none of the job's stays. -/
theorem Die.dropPass_keeps (x p : Die) (slot : Nat) (kept : List Nat) :
    (x.dropPass p slot kept).jobs = x.jobs ∧ (x.dropPass p slot kept).sh = x.sh ∧
      (x.dropPass p slot kept).wringers = x.wringers ∧
      ∀ q, some q ∈ (x.dropPass p slot kept).passes.toList → q.job ≠ slot := by
  unfold Die.dropPass
  extract_lets mine y
  have hy : x.KeepsWork y := .foldl (fun z q => keepsWork_handBack p z q _) mine x
  clear_value y
  refine ⟨hy.jobs, hy.sh, hy.wringers, fun q hq => ?_⟩
  simp only [Vector.toList_map, List.mem_map] at hq
  obtain ⟨o, -, ho⟩ := hq
  split at ho
  · split at ho
    · simp at ho
    next h => exact Option.some.inj ho ▸ h
  · simp at ho

/-! ### All that a job holds -/

/-- `x.FreeOf slot`: no group, partition, pass or engine of the die is with the job of a slot. -/
structure Die.FreeOf (x : Die) (slot : Nat) : Prop where
  groups : ∀ t ∈ x.sh.groups, t.job ≠ slot
  parts : ∀ r ∈ x.sh.parts, r.job ≠ slot
  passes : ∀ q, some q ∈ x.passes.toList → q.job ≠ slot
  copies : ∀ e : Fin 4, (x.jobs.copies[e]).job ≠ some slot
  wringers : ∀ e : Fin 8, (x.wringers[e]).job ≠ some slot

/-- A die with the same cores, passes and engines is as free of a job. -/
theorem Die.FreeOf.congr {x y : Die} {slot : Nat} (h : x.FreeOf slot) (hsh : y.sh = x.sh) (hpasses : y.passes = x.passes)
    (hcopies : y.jobs.copies = x.jobs.copies) (hwringers : y.wringers = x.wringers) : y.FreeOf slot :=
  ⟨hsh ▸ h.groups, hsh ▸ h.parts, hpasses ▸ h.passes, hcopies ▸ h.copies, hwringers ▸ h.wringers⟩

theorem freeOf_dropJobWork (p x : Die) (slot : Nat) : (dropJobWork p x slot).FreeOf slot := by
  obtain ⟨hengines, hwringers⟩ := releaseEngines_keeps p (x.takeAllShares slot) slot
  have hcopies := job_copies_releaseEngines p (x.takeAllShares slot) slot
  have hgroups (t : Group) (ht : t ∈ (x.takeAllShares slot).sh.groups) := Die.job_ne_of_mem_groups_takeAllShares ht
  have hparts (r : Partition) (hr : r ∈ (x.takeAllShares slot).sh.parts) := Die.job_ne_of_mem_parts_takeAllShares hr
  unfold dropJobWork
  generalize x.takeAllShares slot = y0 at *
  generalize releaseEngines p y0 slot = y1 at *
  obtain ⟨hjobs, hsh, hwringers', hpasses⟩ := y1.dropPass_keeps p slot []
  extract_lets y z
  have hy : y.FreeOf slot :=
    { groups := fun t ht => hgroups t (by rwa [hsh, hengines] at ht)
      parts := fun r hr => hparts r (by rwa [hsh, hengines] at hr)
      passes := hpasses
      copies := hjobs ▸ hcopies
      wringers := hwringers' ▸ hwringers }
  have hz : y.KeepsWork z := by
    unfold z
    split
    · exact keepsWork_handBack p y _ _
    · exact .refl y
  have hcopied : z.jobs.copies = y.jobs.copies := congrArg Jobs.copies hz.jobs
  clear_value y z
  exact hy.congr hz.sh hz.passes hcopied hz.wringers

/-! ### Ending -/

theorem Die.slot_of_job? {x : Die} {slot : Nat} {j : Job} (hjob : x.job? slot = some j) : j.slot = slot :=
  beq_iff_eq.mp (List.find?_some (p := fun t : Job => t.slot == slot) hjob)

/-- What an update makes of the elements that pass its test holds of every element that passes it afterwards. -/
theorem forall_updWhere {α : Type} {p : α → Bool} {f : α → α} {l : List α} {P : α → Prop} (hf : ∀ a, P (f a)) :
    ∀ a ∈ updWhere p f l, p a = true → P a := by
  intro a ha hpa
  obtain ⟨b, -, rfl⟩ := List.mem_map.mp ha
  by_cases hb : p b = true
  · simpa [hb] using hf b
  · simp [hb] at hpa

/-- What an update of a slot's job makes of it holds of every job that has the slot. -/
theorem Die.forall_updJob {x : Die} {slot : Nat} {f : Job → Job} {P : Job → Prop} (hf : ∀ t, P (f t)) :
    ∀ q ∈ (x.updJob slot f).jobs.list, q.slot = slot → P q := fun q hq hslot =>
  forall_updWhere hf q hq (beq_iff_eq.mpr hslot)

theorem freeOf_stopJob (p x : Die) (slot ctx : Nat) (st : Option Byte) : (stopJob p x slot ctx st).FreeOf slot := by
  have hdropped := freeOf_dropJobWork p x slot
  unfold stopJob
  generalize dropJobWork p x slot = y at *
  exact hdropped.congr rfl rfl rfl rfl

theorem job_stopJob (p x : Die) (slot ctx : Nat) (st : Option Byte) : ∀ q ∈ (stopJob p x slot ctx st).jobs.list,
    q.slot = slot → q.state = .ended ∧ q.status = st ∧ q.shares = [] := by
  unfold stopJob
  generalize dropJobWork p x slot = y
  exact Die.forall_updJob fun _ => ⟨rfl, rfl, rfl⟩

theorem endJob_keeps {p x : Die} {slot : Nat} {j : Job} (st : Byte) (hjob : x.job? slot = some j)
    (hlive : j.state ≠ .ended) : (stopJob p x slot j.ctx (some st)).KeepsWork (endJob p x slot st) := by
  have hcounted : (stopJob p x slot j.ctx (some st)).KeepsWork
      (forgetJob slot ((stopJob p x slot j.ctx (some st)).count .jobEndCnt)) :=
    (Die.KeepsWork.count _ .jobEndCnt).trans (.forget _ _)
  simp only [endJob, hjob, if_neg hlive]
  generalize forgetJob slot ((stopJob p x slot j.ctx (some st)).count .jobEndCnt) = y at *
  split
  · exact (hcounted.trans (.flag y .jobFlags 2)).trans (.count _ .jobBadDescCnt)
  · split
    · exact (hcounted.trans (.flag y .jobFlags 3)).trans (.count _ .jobFoldLateCnt)
    · split
      · exact (hcounted.trans (.flag y .jobFlags 1)).trans (.count _ .jobMissedCnt)
      · exact hcounted

/-- A job that ends holds nothing any more (R319). -/
theorem freeOf_endJob {p x : Die} {slot : Nat} {j : Job} (st : Byte) (hjob : x.job? slot = some j)
    (hlive : j.state ≠ .ended) : (endJob p x slot st).FreeOf slot := by
  have hend := endJob_keeps (p := p) st hjob hlive
  exact (freeOf_stopJob p x slot j.ctx (some st)).congr hend.sh hend.passes (congrArg Jobs.copies hend.jobs) hend.wringers

/-- A job that ends has its status, and no share (R319). -/
theorem job_endJob {p x : Die} {slot : Nat} {j : Job} (st : Byte) (hjob : x.job? slot = some j)
    (hlive : j.state ≠ .ended) : ∀ q ∈ (endJob p x slot st).jobs.list, q.slot = slot →
      q.state = .ended ∧ q.status = some st ∧ q.shares = [] := by
  rw [(endJob_keeps st hjob hlive).jobs]
  exact job_stopJob p x slot j.ctx (some st)

end Sys2Proof.Machine
end

section
/-! PROOFS. O21: copy engines, the end of a job whose work is done, and the end sequence (R319 to R323, R331, R351, R365). -/
namespace Sys2Proof.Machine

/-! ### COPY_UNIT (R331, R365) -/

/-- A unit of a copy job that passes moves, and the engine goes idle after the last one. -/
theorem copyUnitDie_of_passed {p x y z : Die} {e : Fin 4} {slot : Nat} {j : Job} {pm : PageMap} {n : Nat}
    (hjob : x.job? slot = some j) (hn : n = min 4096 (dCount j.desc - j.done))
    (hmine : (x.jobs.copies[e]).job = some slot) (hfrozen : (x.jobs.copies[e]).frozen = none)
    (hsched : x.schedules = true) (hctx : x.ctxStarts j.ctx = true) (htherm : x.power.therm ≠ 2)
    (hwalk : prewalk p x (.copy e) j.ctx [{ va := dWorkVa j.desc + j.done, len := n, acc := accRead },
      { va := dArgVa j.desc + j.done, len := n, acc := accWrite }] = (y, some pm))
    (hread : fetchRange p y (.copy e) j.ctx pm { va := dWorkVa j.desc + j.done, len := n, acc := accRead } = (z, true)) :
    copyUnitDie e p x =
      let w := (storeBytes p z j.ctx pm (dArgVa j.desc + j.done) (viewBytes z pm (dWorkVa j.desc + j.done) n)).updJob slot
        fun q => { q with done := q.done + n }
      if j.done + n = dCount j.desc then { w with jobs.copies := vmod w.jobs.copies e fun _ => CopyEng.reset } else w := by
  subst hn
  have hcool : (x.power.therm == 2) = false := by simpa using htherm
  simp only [copyUnitDie, hmine, hjob, hfrozen, hsched, hctx, hcool, hwalk, hread, Option.isSome_none, Bool.not_true,
    Bool.or_self, Bool.false_eq_true, if_false]

/-! ### The end sequence (R321) -/

/-- The slot of a job frees. -/
def Die.freeSlot (x : Die) (slot : Nat) : Die := { x with jobs.list := x.jobs.list.filter fun t => t.slot != slot }

theorem Die.freeSlot_updJob (x : Die) {slot : Nat} {f : Job → Job} (hf : ∀ t, (f t).slot = t.slot) :
    (x.updJob slot f).freeSlot slot = x.freeSlot slot := by
  have hlist : (updWhere (fun t : Job => t.slot == slot) f x.jobs.list).filter (fun t => t.slot != slot) =
      x.jobs.list.filter fun t => t.slot != slot := by
    induction x.jobs.list with
    | nil => rfl
    | cons t l ih => by_cases h : t.slot = slot <;> simpa [updWhere, h, hf t] using ih
  simp only [Die.freeSlot, Die.updJob, hlist]

theorem Die.job?_freeSlot (x : Die) (slot : Nat) : (x.freeSlot slot).job? slot = none :=
  List.find?_eq_none.mpr fun t ht => by simpa using (List.mem_filter.mp ht).2

theorem Die.job?_freeSlot_ne (x : Die) {slot k : Nat} (h : k ≠ slot) : (x.freeSlot slot).job? k = x.job? k := by
  simp only [Die.job?, Die.freeSlot, List.find?_filter]
  congr 1
  funext t
  by_cases hk : t.slot = k <;> simp [hk, h]

section
variable {p x y z : Die} {slot : Nat} {j : Job}

theorem endStep1_of_no_record (hjob : x.job? slot = some j) (hstep : j.endStep = 0) (hheld : j.held = none)
    (hva : dStatusVa j.desc = 0) : endStep1 p x slot = x.updJob slot fun t => { t with endStep := 1 } := by
  simp [endStep1, hjob, hstep, hheld, hva]

theorem endStep1_of_written {w : Nat} (hjob : x.job? slot = some j) (hstep : j.endStep = 0) (hheld : j.held = none)
    (hva : dStatusVa j.desc ≠ 0) (hal : dStatusVa j.desc % 64 = 0) (hread : readProgress p x j = (y, some w))
    (hwrite : writeUnit p y (.cmdProc j.ctx (some slot)) j.ctx (dStatusVa j.desc) (endRecord j w) accWrite = (z, true)) :
    endStep1 p x slot = z.updJob slot fun t => { t with endStep := 1 } := by
  simp [endStep1, hjob, hstep, hheld, hva, hal, hread, hwrite]

theorem endStep2_of_no_fence (hjob : x.job? slot = some j) (hstep : j.endStep = 1) (hheld : j.held = none)
    (hva : dSigVa j.desc = 0) : endStep2 p x slot = x.updJob slot fun t => { t with endStep := 2 } := by
  simp [endStep2, hjob, hstep, hheld, hva]

theorem endStep2_of_signalled {v : DWord} (hjob : x.job? slot = some j) (hstep : j.endStep = 1) (hheld : j.held = none)
    (hpass : j.passes = true) (hva : dSigVa j.desc ≠ 0) (hal : dSigVa j.desc % 8 = 0)
    (hsignal : signalUnit p x (.cmdProc j.ctx (some slot)) j.ctx (dSigVa j.desc) (BitVec.ofNat 64 (dSigValue j.desc)) =
      (z, some v)) : endStep2 p x slot = z.updJob slot fun t => { t with endStep := 2 } := by
  simp [endStep2, hjob, hstep, hheld, hpass, hva, hal, hsignal]

theorem endStep3_of_last (hjob : x.job? slot = some j) (hstep : j.endStep = 2) (hheld : j.held = none)
    (hva : dNextVa j.desc = 0) : endStep3 p x slot = (x.freeSlot slot).settleCtx j.ctx := by
  simp [endStep3, hjob, hstep, hheld, hva, Die.freeSlot]

/-- After its fence a job without a follow-on frees its slot. -/
theorem endStep3_after_fence (hjob : x.job? slot = some j) (hheld : j.held = none) (hva : dNextVa j.desc = 0) :
    endStep3 p (x.updJob slot fun t => { t with endStep := 2 }) slot = (x.freeSlot slot).settleCtx j.ctx := by
  have hstep := Die.job?_updJob (f := fun t => { t with endStep := 2 }) (fun _ => rfl) hjob
  rw [endStep3_of_last hstep rfl hheld hva, Die.freeSlot_updJob]
  exact fun _ => rfl

/-- After its end record a job without a fence and a follow-on frees its slot. -/
theorem endSteps_after_record (hjob : x.job? slot = some j) (hheld : j.held = none) (hsig : dSigVa j.desc = 0)
    (hva : dNextVa j.desc = 0) :
    endStep3 p (endStep2 p (x.updJob slot fun t => { t with endStep := 1 }) slot) slot =
      (x.freeSlot slot).settleCtx j.ctx := by
  have hstep := Die.job?_updJob (f := fun t => { t with endStep := 1 }) (fun _ => rfl) hjob
  rw [endStep2_of_no_fence hstep rfl hheld hsig, endStep3_after_fence hstep hheld hva, Die.freeSlot_updJob]
  exact fun _ => rfl

theorem endSequence_of_unpaired (hjob : x.job? slot = some j) (hended : j.state = .ended) (hpaired : j.paired = false) :
    endSequence p x slot = endStep3 p (endStep2 p (endStep1 p x slot) slot) slot := by
  simp [endSequence, hjob, hended, hpaired]

end

/-- What the end of a job leaves of the die: its slot is free, and every other job, the memory and the registers stay. -/
theorem Die.freeSlot_keeps (z : Die) (slot c : Nat) (d : DieId) : let y : Die := { (z.freeSlot slot).settleCtx c with id := d }
    y.job? slot = none ∧ (∀ k, k ≠ slot → y.job? k = z.job? k) ∧ y.dram = z.dram ∧ y.regs = z.regs :=
  ⟨z.job?_freeSlot slot, fun _ => z.job?_freeSlot_ne, rfl, rfl⟩

/-! ### JOB_WORK_DONE (R320, R351) -/

theorem jobWorkDoneDie_of_done {p x : Die} {slot : Nat} {j : Job} (hjob : x.job? slot = some j) (hrun : j.state = .running)
    (hdone : x.workDone j = true) (hstores : x.storesDone slot = true) :
    jobWorkDoneDie p x slot = finishJob p x slot := by
  simp [jobWorkDoneDie, hjob, hrun, hdone, hstores]

/-- Settles O21, clause by clause from what each command makes of its die. -/
theorem jobsMoveEndAndLeave : Obligations.JobsMoveEndAndLeave := by
  unfold Obligations.JobsMoveEndAndLeave
  constructor
  · intro s d slot j x p m hjob hheld
    refine ⟨?_, ?_, ?_⟩
    · intro e y z pm n hmine hfrozen hsched hctx htherm hwalk hread w
      refine ⟨s.onDie d (copyUnitDie e p), rfl, ?_⟩
      rw [State.die_onDie, copyUnitDie_of_passed hjob rfl hmine hfrozen hsched hctx htherm hwalk hread]
      dsimp only
      split
      next hlast => exact ⟨rfl, rfl, rfl, fun _ => getElem_vmod_same _ e _⟩
      next hmore => exact ⟨rfl, rfl, rfl, fun hlast => absurd hlast hmore⟩
    · intro late hrun hdone hstores
      refine congrArg Host.Outcome.next (State.onDie_congr ((jobWorkDoneDie_of_done hjob hrun hdone hstores).trans ?_))
      simp only [finishJob, hjob]
      rfl
    · intro freed hended hpaired hstep hnext
      have hfreed {z : Die} (h : endStep3 p (endStep2 p (endStep1 p x slot) slot) slot =
          (z.freeSlot slot).settleCtx j.ctx) : ∃ t, exec (.jobEndSequence d slot) s = .next t ∧ freed z t := by
        refine ⟨s.setDie d ((z.freeSlot slot).settleCtx j.ctx), ?_, ?_⟩
        · exact congrArg (fun y => Host.Outcome.next (s.setDie d y))
            ((endSequence_of_unpaired hjob hended hpaired).trans h)
        · unfold freed
          rw [State.die_setDie]
          exact z.freeSlot_keeps slot j.ctx d
      refine ⟨fun hst hsig => hfreed ?_, fun y w z hst hal hsig hread hwrite hz => hfreed ?_,
        fun z v hst hsig hal hok hsignal hz => hfreed ?_⟩
      · rw [endStep1_of_no_record hjob hstep hheld hst]
        exact endSteps_after_record hjob hheld hsig hnext
      · rw [endStep1_of_written hjob hstep hheld hst hal hread hwrite]
        exact endSteps_after_record hz hheld hsig hnext
      · have hone := Die.job?_updJob (f := fun t => { t with endStep := 1 }) (fun _ => rfl) hjob
        have hpass : j.passes = true := by simp [Job.passes, hok, hpaired, jsOk]
        rw [endStep1_of_no_record hjob hstep hheld hst, endStep2_of_signalled hone rfl hheld hpass hsig hal hsignal]
        exact endStep3_after_fence (j := { j with endStep := 1 }) hz hheld hnext
  · intro p x slot st j hjob hlive
    obtain ⟨hgroups, hparts, hpasses, hcopies, hwringers⟩ := freeOf_endJob (p := p) st hjob hlive
    exact ⟨job_endJob st hjob hlive, hgroups, hparts, hpasses, hcopies, hwringers⟩

end Sys2Proof.Machine
end

section
/-! PROOFS. O22: the deadline monitor of unpaired jobs, and restarts after parity errors (R234, R341, R345 to R349, R476). -/
namespace Sys2Proof.Machine

/-! ### The deadline monitor (R345 to R349) -/

section
variable {p x y : Die} {slot : Nat} {j : Job} {w : Nat} (hjob : x.job? slot = some j) (hheld : j.held = none)
  (hpaired : j.paired = false) (hrun : x.running = true) (hdev : x.dev ≠ .safe) (hmode : dDlMode j.desc ≠ 0)
  (hstate : j.state = .running)

section
variable (hkid : j.kidDue = false) (hleft : j.nextChk < dChkCount j.desc) (hdue : j.checkpointAt j.nextChk ≤ x.time.toNat)
include hjob hheld hpaired hrun hdev hmode hstate hkid hleft hdue

/-- A checkpoint of a job whose work is done passes (R347). -/
theorem checkpointDie_of_over (hover : x.workOver j = true) :
    checkpointDie slot p x = x.updJob slot fun q => { q with nextChk := j.nextChk + 1 } := by
  simp [checkpointDie, Job.switching, hjob, hheld, hpaired, hrun, hdev, hmode, hstate, hkid, Nat.not_le.mpr hleft,
    Nat.not_lt.mpr hdue, hover]

/-- A checkpoint that is due records itself and its deadline, and acts on a projected miss (R347, R348). -/
theorem checkpointDie_of_due (hover : x.workOver j = false) (hread : readProgress p x j = (y, some w)) :
    checkpointDie slot p x =
      let z := y.updJob slot fun q => { q with nextChk := j.nextChk + 1, lastChk := BitVec.ofNat 8 j.nextChk,
                                               deadline := dwordOfInt ((y.deadlineOf j).getD (y.time.toNat : Int)) }
      if missed z j (projection y j j.nextChk w) then onMiss p z slot (projection y j j.nextChk w) true else z := by
  simp [checkpointDie, Job.switching, hjob, hheld, hpaired, hrun, hdev, hmode, hstate, hkid, Nat.not_le.mpr hleft,
    Nat.not_lt.mpr hdue, hover, hread]

end

include hjob hheld hpaired hrun hdev hmode hstate in
/-- The evaluation at D + MARGIN is taken, and acts (R347, R348). -/
theorem expiryDie_of_passed (hfirst : j.expired = false) (hlate : x.deadlinePassed j (marginCycles j) = true)
    (hover : x.workOver j = false) (hread : readProgress p x j = (y, some w)) :
    expiryDie slot p x =
      onMiss p (y.updJob slot fun q => { q with expired := true }) slot (projectedEnd y j w) true := by
  simp [expiryDie, hjob, hheld, hpaired, hrun, hdev, hmode, hstate, hfirst, hlate, hover, hread, switchesNow]

end

/-! ### Parity errors (R234, R341, R476) -/

theorem exec_parityRestart_of_group {what : ParityAt} (h : ∀ n o, what ≠ .streamRead n o) (s : State) (d : DieId)
    (g : GrpLoc) : exec (.parityRestart d g what) s = nextOn d (parityRestartDie g what (s.die d.other)) s := by
  cases what with
  | streamRead n o => exact absurd rfl (h n o)
  | groupReg r => rfl
  | scaleReg r => rfl
  | accumulator r => rfl
  | tileMemory o => rfl
  | carvedL1 o => rfl
  | control => rfl

/-- A die that counts and flags a restart of a job (R341). -/
def Die.restarted (x : Die) (slot : Nat) : Die :=
  ((x.updJob slot fun j => { j with restarts := j.restarts + 1, flags := j.flags ||| jfRestarted }).flag .jobFlags 4).count
    .jobRestartCnt

section
variable {p x : Die} {slot : Nat} {cl : Fin 6} {j : Job} {h : Share}

theorem reg_restarted (x : Die) (slot : Nat) : (x.restarted slot).reg .jobRestartCnt = x.reg .jobRestartCnt + 1 := by
  rw [Die.restarted, Die.reg_count, Die.reg_flag_ne _ 4 (by decide)]
  rfl

theorem job?_restarted (hjob : x.job? slot = some j) : (x.restarted slot).job? slot =
    some { j with restarts := j.restarts + 1, flags := j.flags ||| jfRestarted } :=
  Die.job?_updJob (f := fun t => { t with restarts := t.restarts + 1, flags := t.flags ||| jfRestarted }) (fun _ => rfl) hjob

theorem restartJob_of_many (hjob : x.job? slot = some j) (hmany : 3 ≤ j.restarts) :
    restartJob p x slot cl = endJob p x slot jsParity := by
  simp only [restartJob, restarting, hjob, if_pos hmany]

section
variable (hjob : x.job? slot = some j) (hfew : j.restarts < 3)
  (hshare : j.shares.find? (fun h => decide (h.cl = cl) && decide (h.state ≠ .folded)) = some h)
include hjob hfew hshare

theorem restartJob_of_image (hkind : dKind j.desc = 0) (himage : h.image ≠ 0) :
    restartJob p x slot cl = restartShare (x.restarted slot) slot h := by
  simp only [restartJob, restarting, hjob, if_neg (Nat.not_le.mpr hfew), hshare, if_neg himage, hkind, Nat.zero_ne_one,
    if_false]
  rfl

theorem restartJob_of_no_image (himage : h.image = 0) :
    restartJob p x slot cl = restartWhole p (x.restarted slot) slot := by
  simp only [restartJob, restarting, hjob, if_neg (Nat.not_le.mpr hfew), hshare, if_pos himage]
  rfl

end

@[simp] theorem regs_restartShare (x : Die) (slot : Nat) (h : Share) : (restartShare x slot h).regs = x.regs :=
  x.regs_takeShare slot h.cl

/-- A share that goes back to its image is folded; its groups ended since are not done, and the workgroups dispatched since
are dispatched again (R341). -/
theorem job?_restartShare (h : Share) (hjob : x.job? slot = some j) : ∃ q, (restartShare x slot h).job? slot = some q ∧
    q.restarts = j.restarts ∧ q.flags = j.flags ∧ q.state = j.state ∧ q.done = j.done - h.ended ∧
    q.again = (h.fresh.filter fun i => i % dWg j.desc == 0) ++ j.again ∧
    ∀ u ∈ q.shares, u.index = h.index → u.state = .folded := by
  have htaken : (x.takeShare slot h.cl).job? slot = some j := by rwa [Die.job?, x.jobs_takeShare slot h.cl]
  refine ⟨_, Die.job?_updJob (fun _ => rfl) htaken, rfl, rfl, rfl, rfl, rfl, fun u hu hindex => ?_⟩
  obtain ⟨t, -, rfl⟩ := List.mem_map.mp hu
  split at hindex
  next hback => simp [hback]
  next hother => exact absurd hindex hother

/-- A job that begins again is released, and nothing of it is done (R341). -/
theorem job_restartWhole (p x : Die) (slot : Nat) : ∀ q ∈ (restartWhole p x slot).jobs.list, q.slot = slot →
    q.state = .released ∧ q.shares = [] ∧ q.dispatched = 0 ∧ q.done = 0 ∧ q.again = [] ∧ q.held = none := by
  unfold restartWhole
  generalize dropJobWork p x slot = y
  exact Die.forall_updJob fun _ => ⟨rfl, rfl, rfl, rfl, rfl, rfl⟩

end

/-- Settles O22, clause by clause from what the monitor and a restart make of a die. -/
theorem deadlinesAndRestarts : Obligations.DeadlinesAndRestarts := by
  unfold Obligations.DeadlinesAndRestarts
  intro s d slot j x p
  refine ⟨?_, ?_, ?_, ?_⟩
  · intro hjob hheld hpaired hrun hdev hmode hstate
    refine ⟨fun hkid hleft hdue => ⟨fun hover => ?_, fun y w hover hread => ?_⟩, fun y w hfirst hlate hover hread => ?_⟩
    · exact nextOn_congr (checkpointDie_of_over hjob hheld hpaired hrun hdev hmode hstate hkid hleft hdue hover)
    · exact congrArg (fun y => Host.Outcome.next (s.setDie d y))
        (checkpointDie_of_due hjob hheld hpaired hrun hdev hmode hstate hkid hleft hdue hover hread)
    · exact congrArg (fun y => Host.Outcome.next (s.setDie d y))
        (expiryDie_of_passed hjob hheld hpaired hrun hdev hmode hstate hfirst hlate hover hread)
  · intro g t what hwhat hgroup q
    rw [exec_parityRestart_of_group hwhat]
    refine nextOn_congr ?_
    simp only [parityRestartDie, show (s.die d).group? g = some t from hgroup]
    rfl
  · intro g n o q hjob hpart
    refine nextOn_congr ?_
    simp only [streamRestartDie, show (s.die d).job? n.toNat = some j from hjob,
      show (s.die d).part? n.toNat (coreOf g).cl = some q from hpart]
    rfl
  · intro p x cl hjob
    refine ⟨restartJob_of_many hjob, fun h hfew hshare hkind => ⟨fun himage => ?_, fun himage => ?_⟩⟩
    · rw [restartJob_of_image hjob hfew hshare hkind himage]
      refine ⟨?_, job?_restartShare h (job?_restarted hjob)⟩
      rw [Die.reg_of_regs (regs_restartShare _ slot h), reg_restarted]
    · rw [restartJob_of_no_image hjob hfew hshare himage]
      exact job_restartWhole p _ slot

end Sys2Proof.Machine
end

section
/-! PROOFS. What groups that are placed on the cores leave alone (R132, R223, R330). -/
namespace Sys2Proof.Machine

/-- `x.Places y`: `y` is `x` with cores that were carved, filled or refreshed: its jobs, registers and DRAM are those of
`x`. -/
structure Die.Places (x y : Die) : Prop where
  jobs : y.jobs = x.jobs
  regs : y.regs = x.regs
  dram : y.dram = x.dram

namespace Die.Places

variable {x y z : Die}

theorem refl (x : Die) : x.Places x := ⟨rfl, rfl, rfl⟩

theorem trans (h : x.Places y) (h' : y.Places z) : x.Places z :=
  ⟨h'.jobs.trans h.jobs, h'.regs.trans h.regs, h'.dram.trans h.dram⟩

theorem foldl {α : Type} {f : Die → α → Die} (hf : ∀ (y : Die) a, y.Places (f y a)) (l : List α) (x : Die) :
    x.Places (l.foldl f x) := by
  induction l generalizing x with
  | nil => exact refl x
  | cons a l ih => exact (hf x a).trans (ih (f x a))

theorem placeGroup (x : Die) (c : CoreLoc) (g a : Nat) (mk : Nat → GrpLoc → Nat → Group) :
    x.Places (x.placeGroup c g a mk) := by
  unfold Die.placeGroup
  split <;> exact ⟨rfl, rfl, rfl⟩

theorem carveCore (x : Die) (c : CoreLoc) (slot carve : Nat) : x.Places (x.carveCore c slot carve) := by
  unfold Die.carveCore
  split
  · exact .refl x
  · extract_lets t
    split <;> exact ⟨rfl, rfl, rfl⟩

theorem placeWorkgroup (x : Die) (j : Job) (c : CoreLoc) (i n : Nat) : x.Places (placeWorkgroup x j c i n) := by
  induction n with
  | zero => exact .refl x
  | succ n ih =>
    rw [Machine.placeWorkgroup]
    exact ih.trans (.placeGroup _ c _ _ _)

end Die.Places

end Sys2Proof.Machine
end

section
/-! PROOFS. O20: requests to fold, folds that end, and unfolds (R329, R330, R333 to R336, R340 to R343). -/
namespace Sys2Proof.Machine

/-! ### Requests (R329, R335, R340) -/

/-- The first victim whose folding makes room is asked to fold, and its cluster is claimed (R329). -/
theorem preemptWaitDie_of_victim {x : Die} {slot : Nat} {j : Job} {since : DWord} {cl : Fin 6} {v : Job × Share}
    (hjob : x.job? slot = some j) (hsince : j.preemptSince = some since) (hsched : x.schedules = true)
    (hpassed : x.passed since (x.fld .jobCfg [] 15 8) = true) (hlive : inOrder (liveClusters j) = [cl])
    (hvictim : (x.victims j cl).find? (fun v => (x.without cl [v.1.slot]).wgFits j cl) = some v) :
    preemptWaitDie slot x = ((requestFold x v.1.slot cl).count .jobPreemptCnt).updJob slot fun q =>
      { q with preemptSince := some x.time, claims := [cl] } := by
  simp [preemptWaitDie, hjob, hsince, hsched, hpassed, hlive, hvictim]

/-- A share of a compute job can be folded while it is live. -/
theorem Job.foldable_of_compute {j : Job} (hkind : dKind j.desc = 0) (h : Share) :
    j.foldable h = decide (h.state = .live) := by
  simp [Job.foldable, hkind]

/-- A request marks the live share of a compute job; the partner may be told over CTL (R335, R340). -/
theorem requestFold_of_compute {x : Die} {slot : Nat} {cl : Fin 6} {j : Job} {h : Share} (hjob : x.job? slot = some j)
    (hkind : dKind j.desc = 0)
    (hshare : j.shares.find? (fun h => decide (h.cl = cl) && decide (h.state = .live)) = some h) :
    ∃ l, requestFold x slot cl = { foldShareNow x slot cl with pair.ctlOut := l } := by
  simp only [requestFold, hjob, Job.foldable_of_compute hkind, hshare, hkind, Nat.zero_ne_one, if_false]
  split
  · exact ⟨_, rfl⟩
  · exact ⟨_, rfl⟩

/-- No share of the job on the cluster stays live. -/
theorem share_foldShareNow (x : Die) (slot : Nat) (cl : Fin 6) : ∀ q ∈ (foldShareNow x slot cl).jobs.list, q.slot = slot →
    ∀ u ∈ q.shares, u.cl = cl → u.state ≠ .live := by
  refine Die.forall_updJob fun t u hu hcl => ?_
  obtain ⟨v, -, rfl⟩ := List.mem_map.mp hu
  split at hcl
  next hmark => simp [hmark]
  next hkept => exact fun hlive => hkept ⟨hcl, by simpa [hkept] using hlive⟩

theorem part_foldShareNow (x : Die) (slot : Nat) (cl : Fin 6) : ∀ r ∈ (foldShareNow x slot cl).sh.parts, r.job = slot →
    r.cl = cl → r.kind = 2 := fun r hr hjob hcl =>
  forall_updWhere (P := fun r : Partition => r.kind = 2) (fun _ => rfl) r hr (by simp [hjob, hcl])

theorem group_foldShareNow (x : Die) (slot : Nat) (cl : Fin 6) : ∀ g ∈ (foldShareNow x slot cl).sh.groups, g.job = slot →
    g.loc.cl = cl → g.foldTime = 0 := fun g hg hjob hcl =>
  forall_updWhere (p := fun t : Group => t.job == slot && decide (t.loc.cl = cl)) (P := fun g : Group => g.foldTime = 0)
    (fun _ => rfl) g hg (by simp [hjob, hcl])

theorem exec_shareFold_of_quiet {s : State} {d : DieId} (hctl : (s.die d.other).pair.ctlOut = []) (slot : Nat) (cl : Fin 6) :
    exec (.shareFold d slot cl) s = nextOn d (fun x => requestFold x slot cl) s := by
  change execShareFold d slot cl s = _
  simp only [execShareFold, hctl]
  cases (s.die d).job? slot <;> rfl

/-- The partner's request for a share of the job is taken from its message (R340). -/
theorem exec_shareFold_of_request {s : State} {d : DieId} {slot : Nat} {j : Job} {h : Share} {rest : List CtlMsg}
    (hjob : (s.die d).job? slot = some j)
    (hctl : (s.die d.other).pair.ctlOut = .foldRequest j.ctx j.key h.index :: rest)
    (hshare : j.shares.find? (fun u => u.index == h.index) = some h) (cl : Fin 6) :
    ∃ l, exec (.shareFold d slot cl) s =
      .next ((s.setDie d ({ requestFold (s.die d) slot h.cl with pair.ctlOut := l } : Die).heardCtl).onDie d.other
        fun q => { q with pair.ctlOut := rest }) := by
  change ∃ l, execShareFold d slot cl s = _
  simp only [execShareFold, hjob, hctl, hshare, and_self, if_true]
  split
  · exact ⟨_, rfl⟩
  · exact ⟨_, rfl⟩

/-- A group that is late for its fold point ends its job (R336). -/
theorem foldLateDie_of_late {p x : Die} {g : GrpLoc} {t : Group} {j : Job} (hgroup : x.group? g = some t)
    (hfold : x.folding t.job g.cl = true) (hstop : t.stopped = false) (hfrozen : t.frozen = none)
    (hlate : 64 * x.fld .jobCfg [] 4 0 ≤ t.foldTime) (hjob : x.job? t.job = some j) :
    foldLateDie g p x = (endJob p x t.job jsFoldLate).note clsFoldLate (.cmdProc j.ctx (some j.slot))
      (FaultInfo.plain j.ctx j.id.toNat) := by
  simp [foldLateDie, hgroup, hfold, hstop, hfrozen, Nat.not_lt.mpr hlate, hjob]

/-! ### FOLD_DONE (R335, R341 to R343) -/

section
variable {p x y z : Die} {slot : Nat} {cl : Fin 6} {j : Job} {h : Share} {q : Partition} (hjob : x.job? slot = some j)
  (hheld : j.held = none) (hkind : dKind j.desc = 0)
  (hshare : j.shares.find? (fun h => decide (h.cl = cl) && decide (h.state = .folding)) = some h)
  (hpart : x.part? slot cl = some q) (hrun : x.running = true) (hdev : x.dev ≠ .safe) (hready : foldReady x j h = true)
include hjob hheld hshare hpart hrun hdev hready

/-- A share without groups saves nothing (R341). -/
theorem foldDoneDie_of_empty (hempty : shareEmpty x j h = true) : foldDoneDie slot cl p x = shareEnds x j h := by
  simp [foldDoneDie, hjob, hheld, hshare, hpart, hrun, hdev, hready, hempty]

include hkind in
/-- A share whose regions and directory entry have been written is folded (R335). -/
theorem foldDoneDie_of_written (hempty : shareEmpty x j h = false) (hplain : h.wring = false)
    {counts : List Nat} (hcounts : counts = coreIds.map fun k => (x.coreGroups slot { cl := cl, core := k }).length)
    (hregions : writeRegions p x j cl false (plainWrites x j h q.mask) = (y, true))
    (hdirectory : writeDirectory p y j h 1 (writtenBytes (plainWrites x j h q.mask)) counts = (z, true)) :
    foldDoneDie slot cl p x = shareFolded z j h 1 counts := by
  subst hcounts
  have hguard : (j.held.isSome || !x.running || decide (x.dev = .safe) || !foldReady x j h) = false := by
    simp [hheld, hrun, hdev, hready]
  simp only [foldDoneDie, hjob, hshare, hpart, hguard, hempty, hplain, hkind, hregions, Bool.false_and,
    Bool.false_eq_true, if_false, if_true]
  rw [show countWritten y [] = y from rfl, hdirectory]

end

/-- A share found on a cluster lies there. -/
theorem Job.cl_of_find {j : Job} {h : Share} {cl : Fin 6} {st : ShareState}
    (hshare : j.shares.find? (fun h => decide (h.cl = cl) && decide (h.state = st)) = some h) : h.cl = cl := by
  have hfound := List.find?_some hshare
  simp only [Bool.and_eq_true, decide_eq_true_eq] at hfound
  exact hfound.1

/-- A share without groups ends, or waits for the groups that its job has to dispatch (R341). -/
theorem shareEnds_eq (x : Die) (j : Job) (h : Share) : shareEnds x j h = (x.takeShare j.slot h.cl).updJob j.slot fun t =>
    { t with shares := updWhere (fun u => u.index == h.index) (fun u =>
      { u with state := if j.dispatched < dCount j.desc ∨ j.again ≠ [] then .folded else .finished, image := 0,
               cores := [], fresh := [], ended := 0, wring := false }) t.shares } := by
  simp [shareEnds]

/-! ### UNFOLD_DONE (R330, R333) -/

theorem keepsWork_of_readUnits {p x y : Die} {m : Master} {c va n : Nat} {bs : List Byte}
    (h : readUnits p x m c va n = (y, some bs)) : x.KeepsWork y := by
  unfold readUnits at h
  have hpass := Die.KeepsWork.foldl_passed (fun o : Option (List Byte) => o.isSome = true) (fun r u hok => ?_) _
    (x, some []) (by rw [h]; rfl)
  · rw [h] at hpass
    exact hpass.2
  · split at hok
    next hnone => simp [hnone] at hok
    next bs hbs =>
      refine ⟨by simp [hbs], ?_⟩
      split at hok
      next z b hz =>
        exact keepsWork_of_readUnit hz
      next => simp at hok

theorem keepsWork_countDecoded (x : Die) (bsize : Option Nat) (bs : List Byte) : x.KeepsWork (countDecoded x bsize bs) :=
  .foldl (fun y _ => (Die.KeepsWork.count y .wrgDecodeCnt).trans (.countN _ .wrgUnitCnt _)) _ x

theorem keepsWork_of_readRegion {p x y : Die} {j : Job} {index : Nat} {c : CoreLoc} {image n : Nat} {b : Option (List Byte)}
    (h : readRegion p x j index c image n = (y, some b)) : x.KeepsWork y := by
  unfold readRegion at h
  extract_lets m va at h
  split at h
  · split at h
    · simp at h
    next z bs hz =>
      obtain ⟨rfl, -⟩ := Prod.mk.inj h
      exact (keepsWork_of_readUnits hz).trans (keepsWork_countDecoded z _ bs)
  · split at h
    · simp at h
    next z bs hz =>
      obtain ⟨rfl, -⟩ := Prod.mk.inj h
      exact keepsWork_of_readUnits hz

theorem keepsWork_of_readRegions {p x y : Die} {j : Job} {cl : Fin 6} {index : Nat} {dir : List Byte}
    {regs : List (Fin 16 × Option (List Byte))} (h : readRegions p x j cl index dir = (y, some regs)) : x.KeepsWork y := by
  unfold readRegions at h
  have hpass := Die.KeepsWork.foldl_passed (fun o : Option (List (Fin 16 × Option (List Byte))) => o.isSome = true)
    (fun r k hok => ?_) _ (x, some []) (by rw [h]; rfl)
  · rw [h] at hpass
    exact hpass.2
  · split at hok
    next hnone => simp [hnone] at hok
    next l hl =>
      refine ⟨by simp [hl], ?_⟩
      split at hok
      next => simp at hok
      next z b hz =>
        exact keepsWork_of_readRegion hz

theorem places_restoreCore (x : Die) (j : Job) (mask : BitVec 16) (c : CoreLoc) (n : Nat) (bs : List Byte) :
    x.Places (restoreCore x j mask c n bs) := by
  unfold restoreCore
  extract_lets part y z g a w
  have hy : x.Places y := ⟨rfl, rfl, rfl⟩
  have hz : y.Places z := by
    unfold z
    split
    · exact .refl y
    · exact .carveCore y c _ _
  have hw : z.Places w := .foldl (fun v i => .placeGroup v c g a _) _ z
  clear_value w z y
  exact ((hy.trans hz).trans hw).trans ⟨rfl, rfl, rfl⟩

/-- Only a pass resumes. -/
theorem resumePass_of_compute {x : Die} {slot : Nat} {j : Job} (hjob : x.job? slot = some j) (hkind : dKind j.desc = 0)
    (fe : List Byte) : resumePass x slot fe = x := by
  unfold resumePass
  split
  next j' _ _ _ hj' _ _ =>
    obtain rfl : j = j' := Option.some.inj (hjob.symm.trans hj')
    exact if_neg (by simp [hkind])
  · rfl

/-- A share that was unfolding is live on its cluster, and counted (R330). -/
def Die.unfolded (x : Die) (slot : Nat) (cl : Fin 6) (index : Nat) : Die :=
  let y := (x.updJob slot fun q => { q with shares := q.shares.map fun u =>
    if u.index = index then { u with state := .live, fresh := [], ended := 0 } else u }).count .jobUnfoldCnt
  { y with sh.parts := updWhere (fun r => r.job == slot && decide (r.cl = cl)) (fun r => { r with kind := 0 }) y.sh.parts }

theorem job?_unfolded {x : Die} {slot : Nat} {j : Job} (hjob : x.job? slot = some j) (cl : Fin 6) (index : Nat) :
    (x.unfolded slot cl index).job? slot = some { j with shares := j.shares.map fun u =>
      if u.index = index then { u with state := .live, fresh := [], ended := 0 } else u } :=
  Die.job?_updJob (f := fun q => { q with shares := q.shares.map fun u =>
    if u.index = index then { u with state := .live, fresh := [], ended := 0 } else u }) (fun _ => rfl) hjob

/-- A share whose regions have been read is restored and live (R330, R333). -/
theorem unfoldDoneDie_of_read {p x y z w : Die} {slot : Nat} {cl : Fin 6} {j : Job} {h : Share} {q : Partition}
    {dir : List Byte} {regs : List (Fin 16 × Option (List Byte))} (hjob : x.job? slot = some j) (hheld : j.held = none)
    (hkind : dKind j.desc = 0)
    (hshare : j.shares.find? (fun h => decide (h.cl = cl) && decide (h.state = .unfolding)) = some h)
    (hpart : x.part? slot cl = some q) (hrun : x.running = true) (hdev : x.dev ≠ .safe)
    (hdir : readUnit p x (.stream { cl := cl, core := 0 } slot) j.ctx (dSaveVa j.desc + 0x20 + 128 * h.index) 128 accRead =
      (y, some dir)) (hregs : readRegions p y j cl h.index dir = (z, some regs)) (hgood : (regs.any fun r => r.2.isNone) = false)
    (hw : regs.foldl (fun v r => restoreCore v j q.mask { cl := cl, core := r.1 } (fieldNat dir (0x10 + r.1.val) 1)
      (r.2.getD [])) z = w) :
    z.Places w ∧ unfoldDoneDie slot cl p x = w.unfolded slot cl h.index := by
  have hguard : (j.held.isSome || !x.running || decide (x.dev = .safe)) = false := by simp [hheld, hrun, hdev]
  have hplaces : z.Places w := hw ▸ .foldl (fun v r => places_restoreCore v j q.mask _ _ _) regs z
  have hjobs : w.jobs = x.jobs :=
    hplaces.jobs.trans ((keepsWork_of_readUnit hdir).trans (keepsWork_of_readRegions hregs)).jobs
  have hjobw : w.job? slot = some j := by rwa [Die.job?, hjobs]
  simp only [unfoldDoneDie, hjob, hshare, hpart, hguard, hdir, hregs, hgood, hkind, Bool.false_eq_true, if_false,
    Nat.zero_ne_one, hw]
  exact ⟨hplaces, resumePass_of_compute (job?_unfolded hjobw cl h.index) hkind []⟩

/-! ### SHARE_UNFOLD (R327, R330) -/

/-- The first folded share is the first of its number. -/
theorem Job.find?_index_of_foldedShare {j : Job} {h : Share} (hfolded : j.foldedShare = some h) :
    j.shares.find? (fun u => u.index == h.index && decide (u.state = .folded)) = some h := by
  obtain ⟨hstate, before, after, hlist, hbefore⟩ := List.find?_eq_some_iff_append.mp hfolded
  refine List.find?_eq_some_iff_append.mpr ⟨by simpa using hstate, before, after, hlist, fun u hu => ?_⟩
  have hother := hbefore u hu
  simp_all

section
variable {x : Die} {s : State} {d : DieId} {slot : Nat} {j : Job} {h : Share} {cl : Fin 6}

/-- A folded share of a compute job is planned to unfold on the cluster that is wanted, where it can. -/
theorem planOf_of_compute (hfolded : j.foldedShare = some h) (hmay : x.mayUnfold j = true) (hkind : dKind j.desc = 0)
    (hroom : (x.unfoldClusters j h).contains cl = true)
    (hepochs : x.epochsAgree j (cl :: (j.shares.filter fun t => decide (t.state ≠ .folded) && decide (t.state ≠ .finished)).map
      fun t => t.cl) = true) : x.planOf j h.index (fun c => decide (c = cl)) = some [(h, cl)] := by
  have hfind : (x.unfoldClusters j h).find? (fun c => decide (c = cl)) = some cl := by
    have hany : ∃ c ∈ x.unfoldClusters j h, decide (c = cl) = true := ⟨cl, List.contains_iff_mem.mp hroom, decide_eq_true rfl⟩
    obtain ⟨c, hc⟩ := Option.isSome_iff_exists.mp (List.find?_isSome.mpr hany)
    obtain rfl : c = cl := of_decide_eq_true (List.find?_some (p := fun c => decide (c = cl)) hc)
    exact hc
  simp only [Die.planOf, hmay, Job.find?_index_of_foldedShare hfolded, unfoldPlan, hkind, hfind, hepochs, Bool.not_true,
    Bool.false_eq_true, Nat.zero_ne_one, if_false, if_true]

/-- A folded share of an unpaired compute job begins to unfold (R330). -/
theorem exec_shareUnfold_of_compute (hjob : (s.die d).job? slot = some j) (hfolded : j.foldedShare = some h)
    (hmay : (s.die d).mayUnfold j = true) (hpaired : j.paired = false) (hkind : dKind j.desc = 0)
    (hplan : (s.die d).planOf j h.index (fun c => decide (c = cl)) = some [(h, cl)]) :
    exec (.shareUnfold d slot cl) s = .next (s.onDie d fun x => beginUnfold x j h cl) := by
  have htimely : ¬(j.timedOut ∧ (s.die d).schedules) := by
    simp only [Die.mayUnfold, Bool.and_eq_true, Bool.not_eq_true'] at hmay
    simp [hmay]
  change Host.Outcome.next (unfoldJob d slot (fun c => decide (c = cl)) s) = _
  simp only [unfoldJob, hjob, hfolded, if_neg htimely, hplan, hpaired, Bool.false_and, Bool.not_false, if_true, beginUnfolds,
    List.foldl_cons, List.foldl_nil, reservePass, hkind, ne_eq, Nat.zero_ne_one, not_false_eq_true]
  rfl

end

/-- A share with a fold image waits for UNFOLD_DONE (R330). -/
theorem beginUnfold_of_image (x : Die) (j : Job) {h : Share} (himage : h.image ≠ 0) (cl : Fin 6) :
    beginUnfold x j h cl = (x.givePart cl j.slot j.ctx 2 (dSteps j.desc)).updJob j.slot fun t =>
      { t with shares := t.shares.map fun u =>
        if u.index = h.index then { u with cl := cl, state := .unfolding, started := x.time } else u } := by
  simp [beginUnfold, himage, Die.givePart]

/-- A share without one is live at once (R341). -/
theorem beginUnfold_of_no_image (x : Die) {j : Job} {h : Share} (himage : h.image = 0) (hkind : dKind j.desc = 0)
    (cl : Fin 6) :
    beginUnfold x j h cl = (x.givePart cl j.slot j.ctx 0 (dSteps j.desc)).updJob j.slot fun t =>
      { t with shares := t.shares.map fun u =>
        if u.index = h.index then { u with cl := cl, state := .live, started := x.time } else u } := by
  simp [beginUnfold, himage, hkind, Die.givePart]

/-- Settles O20, clause by clause from what each command makes of its die. -/
theorem sharesFoldAndUnfold : Obligations.SharesFoldAndUnfold := by
  unfold Obligations.SharesFoldAndUnfold
  constructor
  · intro s d slot j x
    refine ⟨?_, ?_, ?_, ?_⟩
    · intro since cl v hjob hsince hsched hpassed hlive hvictim
      exact nextOn_congr (preemptWaitDie_of_victim hjob hsince hsched (decide_eq_true hpassed) hlive hvictim)
    · intro cl h hjob hctl hshare hkind hpaired
      obtain ⟨l, hfold⟩ := requestFold_of_compute hjob hkind hshare
      refine ⟨_, exec_shareFold_of_quiet hctl slot cl, ?_⟩
      rw [State.die_onDie, hfold]
      exact ⟨share_foldShareNow x slot cl, part_foldShareNow x slot cl, group_foldShareNow x slot cl, rfl, rfl⟩
    · intro cl h rest hjob hctl hshare hlive hkind
      have hany : ∃ u ∈ j.shares, (decide (u.cl = h.cl) && decide (u.state = .live)) = true :=
        ⟨h, List.mem_of_find?_eq_some hshare, by simp [hlive]⟩
      obtain ⟨u, hu⟩ := Option.isSome_iff_exists.mp (List.find?_isSome.mpr hany)
      obtain ⟨l, hfold⟩ := requestFold_of_compute hjob hkind hu
      obtain ⟨l', hexec⟩ := exec_shareFold_of_request hjob hctl hshare cl
      refine ⟨_, hexec, fun _ => ?_, ?_⟩
      · rw [State.die_onDie]
      · rw [State.die_onDie_other, State.die_setDie, hfold]
        exact share_foldShareNow x slot h.cl
    · intro g t hgroup hfold hstop hfrozen hlate hjob
      exact nextOn_congr (foldLateDie_of_late hgroup hfold hstop hfrozen hlate hjob)
  · intro s d slot cl j h x hjob hheld hkind
    have hslot := Die.slot_of_job? hjob
    refine ⟨?_, ?_, ?_⟩
    · intro q hshare hpart hrun hdev hready
      obtain rfl := Job.cl_of_find hshare
      refine ⟨fun hempty => ?_, ?_⟩
      · refine nextOn_congr ((foldDoneDie_of_empty hjob hheld hshare hpart hrun hdev hready hempty).trans ?_)
        rw [shareEnds_eq, hslot]
      · intro hempty hplain y z counts ws hregions hdirectory
        exact congrArg (fun y => Host.Outcome.next (s.setDie d y))
          (foldDoneDie_of_written hjob hheld hkind hshare hpart hrun hdev hready hempty hplain rfl hregions hdirectory)
    · intro q y z dir regs hshare hpart hrun hdev hdir hregs hgood w
      obtain ⟨hplaces, hdone⟩ := unfoldDoneDie_of_read hjob hheld hkind hshare hpart hrun hdev hdir hregs hgood rfl
      refine ⟨s.setDie d (w.unfolded slot cl h.index), congrArg (fun y => Host.Outcome.next (s.setDie d y)) hdone, ?_⟩
      have hkind0 : ∀ r ∈ (w.unfolded slot cl h.index).sh.parts, r.job = slot → r.cl = cl → r.kind = 0 :=
        fun r hr hjob hcl => forall_updWhere (P := fun r : Partition => r.kind = 0) (fun _ => rfl) r hr (by simp [hjob, hcl])
      have hcount : (w.unfolded slot cl h.index).reg .jobUnfoldCnt = z.reg .jobUnfoldCnt + 1 :=
        (Die.reg_count _ .jobUnfoldCnt).trans (congrArg (· + 1) (Die.reg_of_regs hplaces.regs .jobUnfoldCnt))
      rw [State.die_setDie, ← hplaces.jobs]
      exact ⟨rfl, rfl, rfl, hcount, hkind0, hplaces.dram⟩
    · intro hfolded hmay hpaired hroom hepochs
      have hexec := exec_shareUnfold_of_compute hjob hfolded hmay hpaired hkind
        (planOf_of_compute hfolded hmay hkind hroom hepochs)
      refine ⟨fun himage => hexec.trans ?_, fun himage => hexec.trans ?_⟩
      · exact congrArg Host.Outcome.next (State.onDie_congr (beginUnfold_of_image x j himage cl))
      · exact congrArg Host.Outcome.next (State.onDie_congr (beginUnfold_of_no_image x himage hkind cl))

end Sys2Proof.Machine
end

section
/-! PROOFS. O19: waiting jobs are released, jobs start, and their groups are dispatched (R132, R135, R319, R326 to R331,
R441). -/
namespace Sys2Proof.Machine

/-! ### JOB_WAIT_POLL (R319) -/

section
variable {p x y : Die} {slot : Nat} {j : Job}

theorem releaseJob_of_waiting (hjob : x.job? slot = some j) (hwait : j.state = .waiting)
    (hctx : x.ctxState j.ctx ≠ .suspended) :
    x.releaseJob slot = x.updJob slot fun q => { q with state := .released, released := x.time } := by
  simp [Die.releaseJob, hjob, hwait, hctx]

theorem jobWaitPollDie_of_suspended (hjob : x.job? slot = some j) (hctx : x.ctxState j.ctx = .suspended) :
    jobWaitPollDie p x slot = x := by
  simp [jobWaitPollDie, hjob, hctx]

section
variable (hjob : x.job? slot = some j) (hwait : j.state = .waiting) (hheld : j.held = none)
  (hctx : x.ctxState j.ctx ≠ .suspended) (hrole : x.pair.role ≠ .standby)
include hjob hwait hheld hctx hrole

theorem jobWaitPollDie_of_no_fence (hva : dWaitVa j.desc = 0) : jobWaitPollDie p x slot = x.releaseJob slot := by
  simp [jobWaitPollDie, hjob, hwait, hheld, hctx, hrole, hva]

theorem jobWaitPollDie_of_fence {v : DWord} (hva : dWaitVa j.desc ≠ 0)
    (hread : fenceUnit p x (.cmdProc j.ctx (some slot)) j.ctx (dWaitVa j.desc) = (y, some v)) :
    jobWaitPollDie p x slot = if dWaitValue j.desc ≤ v.toNat then y.releaseJob slot else y := by
  simp [jobWaitPollDie, hjob, hwait, hheld, hctx, hrole, hva, hread]

end

end

/-! ### JOB_START (R326 to R328, R331, R441) -/

theorem unfoldJob_of_unfolded {s : State} {d : DieId} {slot : Nat} {j : Job} (hjob : (s.die d).job? slot = some j)
    (hshares : j.foldedShare = none) (want : Fin 6 → Bool) : unfoldJob d slot want s = s := by
  simp only [unfoldJob, hjob, hshares]

/-- A job that starts without a folded share unfolds nothing. -/
theorem exec_jobStart_of_unfolded {s : State} {d : DieId} {slot : Nat} {y : Die} {j : Job}
    (hstart : jobStartDie (s.die d.other) (s.die d) slot = y) (hjob : y.job? slot = some j) (hshares : j.foldedShare = none) :
    exec (.jobStart d slot) s = .next (s.setDie d y) := by
  subst hstart
  refine congrArg Host.Outcome.next (unfoldJob_of_unfolded (j := j) ?_ hshares _)
  rw [State.die_onDie]
  exact hjob

section
variable {p x y : Die} {slot : Nat} {j : Job} (hjob : x.job? slot = some j) (hsched : x.schedules = true)
  (hctx : x.ctxStarts j.ctx = true) (hheld : j.held = none) (hstate : j.state = .released)
include hjob hsched hctx hheld hstate

theorem jobStartDie_of_cluster_job (hkind : dKind j.desc ≤ 1) (hnext : x.isNext j = true) :
    jobStartDie p x slot = startClusterJob x j := by
  obtain hk | hk : dKind j.desc = 0 ∨ dKind j.desc = 1 := by omega
  · simp [jobStartDie, hjob, hsched, hctx, hheld, hstate, hk, hnext]
  · simp [jobStartDie, hjob, hsched, hctx, hheld, hstate, hk, hnext]

theorem jobStartDie_of_copy_job (hkind : dKind j.desc = 2) (hnext : x.engineNext j = true) :
    jobStartDie p x slot = startCopy x j := by
  simp [jobStartDie, hjob, hsched, hctx, hheld, hstate, hkind, hnext]

theorem jobStartDie_of_wringer_job {e : Fin 8} (hkind : dKind j.desc = 3) (hnext : x.engineNext j = true)
    (hfree : x.freeWringer = some e) : jobStartDie p x slot = startWringer p x j e := by
  simp [jobStartDie, hjob, hsched, hctx, hheld, hstate, hkind, hnext, hfree]

end

/-- A job without claims starts on the first clusters that have room (R328). -/
theorem startClusterJob_of_room {x : Die} {j : Job} (hpass : dKind j.desc = 1 → x.freePass ≠ none) (hclaims : j.claims = [])
    (hroom : dClCount j.desc ≤ (x.clustersFor j).length)
    (hepochs : x.epochsAgree j ((x.clustersFor j).take (dClCount j.desc)) = true) :
    startClusterJob x j = startShares x j ((x.clustersFor j).take (dClCount j.desc)) := by
  have hslot : ¬(dKind j.desc = 1 ∧ x.freePass = none) := fun h => hpass h.1 h.2
  simp only [startClusterJob, if_neg hslot, if_pos hroom, hclaims, List.isEmpty_nil, if_true, hepochs]

/-- The shares of a job that start together on some clusters (R326). -/
def sharesOn (now : DWord) (cls : List (Fin 6)) : List Share :=
  ((List.range cls.length).zip cls).map fun q => { index := q.1, cl := q.2, state := .live, started := now, image := 0,
                                                   wring := false, cores := [], fresh := [], ended := 0 }

theorem cl_sharesOn (now : DWord) (cls : List (Fin 6)) : (sharesOn now cls).map (fun h => h.cl) = cls := by
  rw [sharesOn, List.map_map]
  exact List.map_snd_zip (by simp)

theorem live_of_mem_sharesOn {now : DWord} {cls : List (Fin 6)} {h : Share} (hmem : h ∈ sharesOn now cls) :
    h.state = .live ∧ h.started = now := by
  obtain ⟨q, -, rfl⟩ := List.mem_map.mp hmem
  exact ⟨rfl, rfl⟩

/-- A job whose shares start. -/
def Job.startedOn (now : DWord) (cls : List (Fin 6)) (t : Job) : Job :=
  { t with state := .running, start := if t.start = 0 then now else t.start, shares := sharesOn now cls, claims := [] }

theorem foldedShare_startedOn (now : DWord) (cls : List (Fin 6)) (t : Job) : (t.startedOn now cls).foldedShare = none :=
  List.find?_eq_none.mpr fun h hmem => by simp [(live_of_mem_sharesOn hmem).1]

theorem foldl_givePart (slot ctx kind n : Nat) (cls : List (Fin 6)) (x : Die) :
    let y := cls.foldl (fun y cl => y.givePart cl slot ctx kind n) x
    y.jobs = x.jobs ∧ y.passes = x.passes ∧ y.sh.parts.length = x.sh.parts.length + cls.length := by
  induction cls generalizing x with
  | nil => exact ⟨rfl, rfl, rfl⟩
  | cons cl cls ih =>
    obtain ⟨hjobs, hpasses, hparts⟩ := ih (x.givePart cl slot ctx kind n)
    refine ⟨hjobs, hpasses, hparts.trans ?_⟩
    simp only [Die.givePart, List.length_append, List.length_cons, List.length_nil]
    omega

/-- Shares that start give their job a partition on each cluster, and a pass the free slot of the front end (R326). -/
theorem startShares_starts (x : Die) (j : Job) (cls : List (Fin 6)) :
    (startShares x j cls).sh.parts.length = x.sh.parts.length + cls.length ∧
      (startShares x j cls).jobs = (x.updJob j.slot (Job.startedOn x.time cls)).jobs ∧
      ∀ p, dKind j.desc = 1 → x.freePass = some p → (startShares x j cls).passes[p] = some (Pass.fresh j.slot j.ctx) := by
  obtain ⟨hjobs, hpasses, hparts⟩ := foldl_givePart j.slot j.ctx (dKind j.desc) (dSteps j.desc) cls x
  unfold startShares
  extract_lets n now y mk hs z
  have hfree : z.freePass = x.freePass := by simp only [Die.freePass]; rw [show z.passes = x.passes from hpasses]
  have hz : z.jobs = (x.updJob j.slot (Job.startedOn x.time cls)).jobs :=
    congrArg (fun l : Jobs => { l with list := updWhere (fun t => t.slot == j.slot) (Job.startedOn x.time cls) l.list }) hjobs
  have hlen : z.sh.parts.length = x.sh.parts.length + cls.length := hparts
  clear_value z
  split
  · split
    next p hp =>
      refine ⟨hlen, hz, fun q _ hq => ?_⟩
      obtain rfl : p = q := Option.some.inj (hp.symm.trans (hfree.trans hq))
      exact getElem_vmod_same _ p _
    next hnone => exact ⟨hlen, hz, fun q _ hq => absurd (hnone.symm.trans (hfree.trans hq)) nofun⟩
  next hkind => exact ⟨hlen, hz, fun q h => absurd h hkind⟩

/-- A job that runs on an engine from now. -/
def Job.onEngine (now : DWord) (t : Job) : Job :=
  { t with state := .running, start := if t.start = 0 then now else t.start }

/-- A copy job takes the lowest idle copy engine (R331). -/
theorem startCopy_of_idle {x : Die} {j : Job} {e : Fin 4} (hmore : j.done ≠ dCount j.desc)
    (hnone : ∀ c : Fin 4, (x.jobs.copies[c]).job ≠ some j.slot)
    (hidle : pipeIds.find? (fun c => (x.jobs.copies[c]).job == none) = some e) : startCopy x j = takeCopy x j.slot e := by
  have hbusy : (pipeIds.any (fun c => (x.jobs.copies[c]).job == some j.slot) || j.done == dCount j.desc) = false := by
    simpa [hmore] using fun c _ => hnone c
  simp only [startCopy, hbusy, hidle, Bool.false_eq_true, if_false]

/-- A wringer job takes an engine once its parameter block has been read and found good (R441). -/
theorem startWringer_of_good {p x y : Die} {j : Job} {e : Fin 8} {b : List Byte} (hfirst : j.wrg.par = [])
    (hread : readUnit p x (.cmdProc j.ctx (some j.slot)) j.ctx (dWorkVa j.desc) 64 accRead = (y, some b))
    (hgood : wrgParOk b = true) (hjob : y.job? j.slot = some j) :
    (startWringer p x j e).wringers[e] =
        { Wringer.reset with job := some j.slot, use := 1 + fieldNat b 0 1, ctx := j.ctx, taken := x.time } ∧
      (startWringer p x j e).dram = y.dram ∧
      ∃ q, (startWringer p x j e).job? j.slot = some q ∧ q.shares = j.shares := by
  simp only [startWringer, hfirst, List.isEmpty_nil, Bool.not_true, Bool.false_eq_true, if_false, hread, hgood]
  refine ⟨getElem_vmod_same _ e _, rfl, ?_⟩
  have hparams (r : WrgRun) := Die.job?_updJob (f := fun t => { t with wrg := r }) (fun _ => rfl) hjob
  exact ⟨_, Die.job?_updJob (f := Job.onEngine x.time) (fun _ => rfl) (hparams _), rfl⟩

/-! ### GROUP_DISPATCH (R132, R135, R326, R329) -/

theorem Die.sh_carveCore (x : Die) (c : CoreLoc) (slot carve : Nat) : (x.carveCore c slot carve).sh = x.sh := by
  unfold Die.carveCore
  split
  · rfl
  · extract_lets t
    split <;> rfl

theorem Die.groups_placeGroup {x : Die} {c : CoreLoc} {g a n : Nat} {p : Fin 4} (hpipe : x.bestPipe c g a = some (p, n))
    (mk : Nat → GrpLoc → Nat → Group) : (x.placeGroup c g a mk).sh.groups = x.sh.groups ++
      [mk x.free { cl := c.cl, core := c.core, pipe := p, slot := x.freeGroupSlot c p } (x.sh.stamp + 1)] := by
  simp only [Die.placeGroup, hpipe]
  rfl

/-- A group of a compute job before its registers are filled. -/
def Job.bareGroup (j : Job) (f : Nat) (l : GrpLoc) (stamp : Nat) : Group :=
  newGroup f l j.slot j.ctx stamp (dRegs j.desc) (dAccs j.desc) (BitVec.ofNat 48 (dWorkVa j.desc)) (BitVec.allOnes 64)
    .compute

/-- The first group of a workgroup that starts at an index of a compute job (R135). -/
def Job.firstGroup (j : Job) (i f : Nat) (l : GrpLoc) (stamp : Nat) : Group :=
  { ((j.bareGroup f l stamp).fillReg 0 fun _ => BitVec.ofNat 32 (dArgVa j.desc)).fillReg 1 fun _ =>
      BitVec.ofNat 16 (dArgVa j.desc / 2 ^ 32) |>.setWidth 32 with idx := i, wg := i / dWg j.desc, rank := 0 }

theorem placeWorkgroup_one (x : Die) (j : Job) (c : CoreLoc) (i : Nat) :
    placeWorkgroup x j c i 1 = x.placeGroup c (dRegs j.desc) (dAccs j.desc) (j.firstGroup i) := rfl

theorem Group.getElem_regs_eq_lane (t : Group) (r : Nat) (l : Fin 64) :
    (t.regs.getD r (Vector.replicate 64 0))[l] = t.lane r l.val := (Lanes.getD_toList _ l.isLt).symm

theorem Job.lane_firstGroup (j : Job) (i f : Nat) (l : GrpLoc) (stamp r k : Nat) : (j.firstGroup i f l stamp).lane r k =
    (((j.bareGroup f l stamp).fillReg 0 fun _ => BitVec.ofNat 32 (dArgVa j.desc)).fillReg 1 fun _ =>
      BitVec.ofNat 16 (dArgVa j.desc / 2 ^ 32) |>.setWidth 32).lane r k := rfl

theorem Job.length_bareGroup (j : Job) (f : Nat) (l : GrpLoc) (stamp : Nat) :
    (j.bareGroup f l stamp).regs.length = dRegs j.desc := by
  simp [Job.bareGroup, newGroup]

/-- Both halves of the argument's address stand in the first two registers (R135). -/
theorem Job.lanes_firstGroup (j : Job) (i f : Nat) (l : GrpLoc) (stamp : Nat) (hregs : 2 ≤ dRegs j.desc) (k : Fin 64) :
    (j.firstGroup i f l stamp).lane 0 k.val = BitVec.ofNat 32 (dArgVa j.desc) ∧
      (j.firstGroup i f l stamp).lane 1 k.val = BitVec.ofNat 32 (dArgVa j.desc / 2 ^ 32 % 2 ^ 16) := by
  have hlen := j.length_bareGroup f l stamp
  constructor
  · rw [Job.lane_firstGroup, Group.lane_fillReg_ne _ _ (by decide), Group.lane_fillReg _ (by omega) k.isLt]
  · rw [Job.lane_firstGroup, Group.lane_fillReg _ (by rw [Group.length_regs_fillReg]; omega) k.isLt]
    exact BitVec.eq_of_toNat_eq (by simp only [BitVec.toNat_setWidth, BitVec.toNat_ofNat])

theorem Job.length_firstGroup (j : Job) (i f : Nat) (l : GrpLoc) (stamp : Nat) :
    (j.firstGroup i f l stamp).regs.length = dRegs j.desc ∧ (j.firstGroup i f l stamp).accs.length = dAccs j.desc := by
  simp [Job.firstGroup, Job.bareGroup, Group.fillReg, newGroup]

/-- Every thread of a new group is there (R135). -/
theorem Job.exited_firstGroup (j : Job) (i f : Nat) (l : GrpLoc) (stamp : Nat) : (j.firstGroup i f l stamp).exited = 0 :=
  BitVec.not_allOnes

section
variable {x : Die} {slot : Nat} {j : Job} (hjob : x.job? slot = some j) (hsched : x.schedules = true)
  (hctx : x.ctxStarts j.ctx = true) (hheld : j.held = none) (hstate : j.state = .running) (hkind : dKind j.desc = 0)
  (hmore : j.dispatched < dCount j.desc ∨ j.again ≠ [])
include hsched hctx hheld hstate hkind hmore

/-- A running compute job with groups left dispatches. -/
theorem dispatches : (!x.schedules || decide (j.state ≠ .running) || dKind j.desc != 0 ||
    (decide (dCount j.desc ≤ j.dispatched) && j.again.isEmpty) || j.held.isSome || !x.ctxStarts j.ctx) = false := by
  have hleft : (decide (dCount j.desc ≤ j.dispatched) && j.again.isEmpty) = false := by
    rcases hmore with hcount | hagain
    · simp [Nat.not_le.mpr hcount]
    · simp [hagain]
  simp [hsched, hstate, hkind, hleft, hheld, hctx]

include hjob

theorem groupDispatchDie_of_core {c : CoreLoc}
    (hcore : x.bestCore ((inOrder (liveClusters j)).filter fun cl => !x.heldFor j cl) slot (dCarve j.desc) (dRegs j.desc)
      (dAccs j.desc) (dWg j.desc) = some c) :
    groupDispatchDie slot x =
      (placeWorkgroup (x.carveCore c slot (dCarve j.desc)) j c (j.again.getD 0 j.dispatched) (dWg j.desc)).updJob slot fun q =>
        { q with dispatched := if j.again = [] then j.dispatched + dWg j.desc else j.dispatched, again := q.again.drop 1,
                 preemptSince := none, claims := [], shares := q.shares.map fun h => if h.cl = c.cl then
                   { h with fresh := h.fresh ++ (List.range (dWg j.desc)).map fun k => j.again.getD 0 j.dispatched + k }
                   else h } := by
  simp only [groupDispatchDie, hjob, dispatches hsched hctx hheld hstate hkind hmore, Bool.false_eq_true, if_false,
    hcore, List.isEmpty_iff]

theorem groupDispatchDie_of_full
    (hcore : x.bestCore ((inOrder (liveClusters j)).filter fun cl => !x.heldFor j cl) slot (dCarve j.desc) (dRegs j.desc)
      (dAccs j.desc) (dWg j.desc) = none) :
    groupDispatchDie slot x = x.updJob slot fun q => { q with preemptSince := some (q.preemptSince.getD x.time) } := by
  simp only [groupDispatchDie, hjob, dispatches hsched hctx hheld hstate hkind hmore, Bool.false_eq_true, if_false,
    hcore]

end

/-- Settles O19, clause by clause from what the poll, the scheduler and the dispatch make of a die. -/
theorem jobsAreReleasedStartedAndDispatched : Obligations.JobsAreReleasedStartedAndDispatched := by
  unfold Obligations.JobsAreReleasedStartedAndDispatched
  refine ⟨?_, ?_, ?_⟩
  · intro s d slot j x hjob hwait hheld
    refine ⟨fun hctx => nextOn_congr (jobWaitPollDie_of_suspended hjob hctx), fun hctx hrole => ⟨fun hva => ?_, ?_⟩⟩
    · exact nextOn_congr ((jobWaitPollDie_of_no_fence hjob hwait hheld hctx hrole hva).trans
        (releaseJob_of_waiting hjob hwait hctx))
    · intro y v q hva hread hq hqwait hqctx
      rw [← releaseJob_of_waiting hq hqwait hqctx]
      exact congrArg (fun y => Host.Outcome.next (s.setDie d y))
        (jobWaitPollDie_of_fence hjob hwait hheld hctx hrole hva hread)
  · intro s d slot j x hjob hsched hctx hheld hstate
    have hslot := Die.slot_of_job? hjob
    subst hslot
    refine ⟨?_, ?_, ?_⟩
    · intro cls hkind hnext hclaims hroom hepochs
      obtain ⟨hparts, hjobs, hpasses⟩ := startShares_starts x j cls
      have hpass : dKind j.desc = 1 → x.freePass ≠ none := fun h1 => hkind.elim (fun h0 => by omega) fun h => h.2
      have hstart : jobStartDie (s.die d.other) x j.slot = startShares x j cls :=
        (jobStartDie_of_cluster_job hjob hsched hctx hheld hstate (by omega) hnext).trans
          (startClusterJob_of_room hpass hclaims hroom hepochs)
      have hstarted : (startShares x j cls).job? j.slot = some (j.startedOn x.time cls) := by
        rw [Die.job?, hjobs]
        exact Die.job?_updJob (fun _ => rfl) hjob
      refine ⟨exec_jobStart_of_unfolded hstart hstarted (foldedShare_startedOn _ _ _), hparts, ?_, hpasses⟩
      rw [hjobs]
      exact Die.forall_updJob fun t => ⟨rfl, cl_sharesOn _ _, fun h hmem => live_of_mem_sharesOn hmem⟩
    · intro e hkind hnext hmore hshares hnone hidle
      have hstart := (jobStartDie_of_copy_job (p := s.die d.other) hjob hsched hctx hheld hstate hkind hnext).trans
        (startCopy_of_idle hmore hnone hidle)
      have hstarted : (takeCopy x j.slot e).job? j.slot = some (j.onEngine x.time) :=
        Die.job?_updJob (f := Job.onEngine x.time) (fun _ => rfl) hjob
      refine ⟨_, exec_jobStart_of_unfolded hstart hstarted (by simp [Job.foldedShare, Job.onEngine, hshares]), ?_⟩
      rw [State.die_setDie]
      exact ⟨getElem_vmod_same _ e _, rfl⟩
    · intro e y b hkind hnext hfirst hshares hfree hread hy hgood
      obtain ⟨hengine, hdram, q, hq, hqshares⟩ := startWringer_of_good (e := e) hfirst hread hgood hy
      have hstart := jobStartDie_of_wringer_job (p := s.die d.other) hjob hsched hctx hheld hstate hkind hnext hfree
      refine ⟨_, exec_jobStart_of_unfolded hstart hq (by simp [Job.foldedShare, hqshares, hshares]), ?_⟩
      rw [State.die_setDie]
      exact ⟨hengine, hdram⟩
  · intro s d slot j x cls hjob hsched hctx hheld hstate hkind hmore
    refine ⟨fun c hcore => ?_, fun c p n hagain hwg hregs hcore hpipe => ?_, fun hcore => ?_⟩
    · have hdispatch := groupDispatchDie_of_core hjob hsched hctx hheld hstate hkind hmore hcore
      have hplaces := (Die.Places.carveCore x c slot (dCarve j.desc)).trans
        (.placeWorkgroup _ j c (j.again.getD 0 j.dispatched) (dWg j.desc))
      refine ⟨s.setDie d (groupDispatchDie slot x), rfl, ?_⟩
      rw [State.die_setDie, hdispatch, ← hplaces.jobs]
      exact ⟨rfl, rfl⟩
    · have hdispatch := groupDispatchDie_of_core hjob hsched hctx hheld hstate hkind hmore (hwg.symm ▸ hcore)
      refine ⟨s.setDie d (groupDispatchDie slot x), j.firstGroup j.dispatched (x.carveCore c slot (dCarve j.desc)).free
        { cl := c.cl, core := c.core, pipe := p, slot := (x.carveCore c slot (dCarve j.desc)).freeGroupSlot c p }
        (x.sh.stamp + 1), rfl, ?_, ?_⟩
      · rw [State.die_setDie, hdispatch, hagain, hwg]
        refine (congrArg (fun y : Die => y.sh.groups) (placeWorkgroup_one _ j c j.dispatched)).trans ?_
        rw [Die.groups_placeGroup hpipe, x.sh_carveCore]
      · obtain ⟨hreglen, hacclen⟩ := j.length_firstGroup j.dispatched (x.carveCore c slot (dCarve j.desc)).free
          { cl := c.cl, core := c.core, pipe := p, slot := (x.carveCore c slot (dCarve j.desc)).freeGroupSlot c p }
          (x.sh.stamp + 1)
        refine ⟨rfl, rfl, rfl, rfl, rfl, rfl, rfl, rfl, j.exited_firstGroup _ _ _ _, hreglen, hacclen, rfl, rfl, fun l => ?_⟩
        rw [Group.getElem_regs_eq_lane, Group.getElem_regs_eq_lane]
        exact j.lanes_firstGroup _ _ _ _ hregs l
    · exact nextOn_congr (groupDispatchDie_of_full hjob hsched hctx hheld hstate hkind hmore hcore)

end Sys2Proof.Machine
end

section
/-! PROOFS. O25: invalidations drop their scope, and a share word is written (R364, R371, R375). -/
namespace Sys2Proof.Machine

/-! ### Invalidations (R364) -/

@[simp] theorem tlb_invalidate (x : Die) (gone : TlbEnt → Bool) (walks : WalkEnt → Bool) :
    (invalidate x gone walks).xlt.tlb = x.xlt.tlb.filter fun e => !gone e := rfl

@[simp] theorem walk_invalidate (x : Die) (gone : TlbEnt → Bool) (walks : WalkEnt → Bool) :
    (invalidate x gone walks).xlt.walk = x.xlt.walk.filter fun e => !walks e := rfl

/-- No cache near a master keeps a translation of the scope. -/
theorem gone_eq_false_of_mem_near_invalidate {x : Die} {gone : TlbEnt → Bool} {walks : WalkEnt → Bool}
    {n : NearTlb} (hn : n ∈ (invalidate x gone walks).xlt.near) {e : TlbEnt} (he : e ∈ n.ents) : gone e = false := by
  obtain ⟨hmap, -⟩ := List.mem_filter.mp hn
  obtain ⟨m, -, rfl⟩ := List.mem_map.mp hmap
  simpa using (List.mem_filter.mp he).2

@[simp] theorem reg_invalidate_invCnt (x : Die) (gone : TlbEnt → Bool) (walks : WalkEnt → Bool) :
    (invalidate x gone walks).reg .xltInvCnt = x.reg .xltInvCnt + 1 := Die.reg_count _ .xltInvCnt

/-- A row that makes of a die what an invalidation makes of `z` drops its scope, counts itself, and leaves the tables,
the ownership table, memory and the other die as they are. -/
theorem nextOn_invalidate {s : State} {d : DieId} {f : Die → Die} {z : Die} {gone : TlbEnt → Bool}
    {walks : WalkEnt → Bool} (hf : f (s.die d) = invalidate z gone walks) :
    ∃ t, nextOn d f s = .next t ∧ (t.die d).xlt.tlb = z.xlt.tlb.filter (fun e => !gone e) ∧
      (∀ n ∈ (t.die d).xlt.near, ∀ e ∈ n.ents, gone e = false) ∧
      (t.die d).xlt.walk = z.xlt.walk.filter (fun e => !walks e) ∧ (t.die d).reg .xltInvCnt = z.reg .xltInvCnt + 1 ∧
      (t.die d).xlt.own = z.xlt.own ∧ (t.die d).xlt.vms = z.xlt.vms ∧ (t.die d).dram = z.dram ∧
      (t.die d).cmd = z.cmd ∧ t.die d.other = s.die d.other := by
  refine ⟨s.onDie d f, rfl, ?_⟩
  rw [State.die_onDie, State.die_other_onDie, hf]
  exact ⟨tlb_invalidate z gone walks, fun n hn e he => gone_eq_false_of_mem_near_invalidate (x := z) hn he,
    walk_invalidate z gone walks, reg_invalidate_invCnt z gone walks, rfl, rfl, rfl, rfl, rfl⟩

theorem invContextAfter_of_ne_zero {ctx : BitVec 10} (h : ctx ≠ 0) (p x : Die) :
    invContextAfter ctx p x = invalidate (performUnits (fun c => c == ctx.toNat) p x) (fun e => e.ctx == ctx.toNat)
      (fun e => e.stage == 1 && e.ctx == ctx.toNat) := by
  rw [invContextAfter, if_neg h, invContextDie, if_neg h]

theorem invRangeAfter_of_ne_zero {ctx : BitVec 10} (h : ctx ≠ 0) (pages : BitVec 12) (p x : Die) :
    let z := performUnits (fun c => c == ctx.toNat) p x
    invRangeAfter ctx pages p x = invalidate z (fun e => e.ctx == ctx.toNat &&
        decide (e.va < z.invVa + 4096 * (pages.toNat + 1)) && decide (z.invVa < e.va + e.len))
      (fun e => e.stage == 1 && e.ctx == ctx.toNat) := by
  intro z
  rw [invRangeAfter, if_neg h, invRangeDie, if_neg h]

/-! ### Share groups (R371, R375) -/

@[simp] theorem Die.xlt_dropL1Ctx (x : Die) (gone : Nat → Bool) : (x.dropL1Ctx gone).xlt = x.xlt := rfl

@[simp] theorem Die.dram_dropL1Ctx (x : Die) (gone : Nat → Bool) : (x.dropL1Ctx gone).dram = x.dram := rfl

/-- No L1 keeps a line of a context that is gone. -/
theorem Die.gone_eq_false_of_mem_lines_dropL1Ctx {x : Die} {gone : Nat → Bool} {l : L1}
    (hl : l ∈ (x.dropL1Ctx gone).cache.l1s) {q : L1Line} (hq : q ∈ l.lines) : gone q.ctx = false := by
  obtain ⟨m, -, rfl⟩ := List.mem_map.mp (show l ∈ x.cache.l1s.map _ from hl)
  simpa using (List.mem_filter.mp hq).2

section
variable (i : Fin 32) (v : Word) (x : Die)

/-- The word of the share maps that a write of word `i` names (R375). -/
def Die.shareKey : Nat := x.fld .ownShareSel [] 10 0 * 32 + i.val

/-- What a share word takes of a written value: bit 0 of word 0 is reserved (R375). -/
def newShareWord : Word := if i = 0 then v &&& 0xFFFFFFFE else v

/-- The members of word `i` that a write of it removes. -/
def Die.shareRemoved : Word := spGet (fun _ => (0 : Word)) x.xlt.share (x.shareKey i) &&& ~~~newShareWord i v

/-- The die with its share word written, before its L1s drop what the members removed held. -/
def Die.setShare : Die :=
  { x with xlt.share := spSet (fun _ => (0 : Word)) x.xlt.share (x.shareKey i) (newShareWord i v) }

theorem shareWordDie_eq : shareWordDie i v x =
    if x.shareRemoved i v = 0 then x.setShare i v
    else (x.setShare i v).dropL1Ctx fun c => c / 32 == i.val && bitOf (x.shareRemoved i v).toNat (c % 32) := rfl

/-- Of the translations and of memory a write of a share word changes that word alone. -/
theorem shareWordDie_keeps : (shareWordDie i v x).xlt = (x.setShare i v).xlt ∧ (shareWordDie i v x).dram = x.dram := by
  rw [shareWordDie_eq]
  split <;> exact ⟨rfl, rfl⟩

/-- The L1s keep no line of a context that has been removed (R371). -/
theorem ctx_ne_of_shareRemoved {c : Nat} (hword : c / 32 = i.val)
    (hbit : bitOf (x.shareRemoved i v).toNat (c % 32) = true) :
    ∀ l ∈ (shareWordDie i v x).cache.l1s, ∀ q ∈ l.lines, q.ctx ≠ c := by
  have hremoved : x.shareRemoved i v ≠ 0 := fun h => by simp [h, bitOf] at hbit
  rw [shareWordDie_eq, if_neg hremoved]
  rintro l hl q hq rfl
  simpa [hword, hbit] using Die.gone_eq_false_of_mem_lines_dropL1Ctx hl hq

end

/-- Settles O25, from what an invalidation drops of the die whose pending units have been performed, and from what a
write of a share word removes. -/
theorem invalidationsAndShareWords : Obligations.InvalidationsAndShareWords := by
  unfold Obligations.InvalidationsAndShareWords
  refine ⟨fun s d ctx vm pages => ⟨nextOn_invalidate rfl, nextOn_invalidate rfl, fun hctx => ⟨?_, ?_⟩, rfl, rfl⟩,
    fun s d i v => ⟨_, rfl, ?_⟩⟩
  · exact nextOn_invalidate (invContextAfter_of_ne_zero hctx _ _)
  · exact nextOn_invalidate (invRangeAfter_of_ne_zero hctx pages _ _)
  · rw [State.die_onDie]
    obtain ⟨hxlt, hdram⟩ := shareWordDie_keeps i v (performUnits (fun _ => true) (s.die d.other) (s.die d))
    have hlines := fun c => ctx_ne_of_shareRemoved i v (performUnits (fun _ => true) (s.die d.other) (s.die d)) (c := c)
    simp only [shareWordAfter]
    generalize performUnits (fun _ => true) (s.die d.other) (s.die d) = z at *
    rw [hxlt]
    exact ⟨spGet_spSet_same _ _ _ _, fun j hj => spGet_spSet_ne _ _ _ _ hj, hlines, hdram, rfl⟩

end Sys2Proof.Machine
end

section
/-! PROOFS. O26: the filling of a migrating frame ends, and so does an error of the ownership table (R383, R385, R479). -/
namespace Sys2Proof.Machine

/-! ### MIGRATION_FILL_DONE (R383, R385) -/

theorem exec_migrationFillDone {s : State} {d : DieId} {ctx page : Nat} {reply : MigReply} {f : Die → Die}
    (h : fillDoneDie ctx page reply (s.die d.other) (s.die d) = f (s.die d)) :
    exec (.migrationFillDone d ctx page reply) s = .next (s.onDie d f) := nextOn_congr h

section
variable {p x : Die} {ctx page : Nat} {g : Migration} {pas : List Nat} {bs : List Byte}
variable (hmig : x.xlt.migs.find? (fun g => g.ctx == ctx && g.page == page) = some g)
include hmig

theorem fillDoneDie_zeroDone_mapped (hkind : g.kind = 1) (hframe : framePas x g.ctx g.frameIpa g.size = some pas) :
    fillDoneDie ctx page .zeroDone p x = finishMigration p (zeroFrame p x (min g.size 262144) pas) g := by
  simp only [fillDoneDie, hmig, hkind, hframe]

theorem fillDoneDie_zeroDone_unmapped (hkind : g.kind = 1) (hframe : framePas x g.ctx g.frameIpa g.size = none) :
    fillDoneDie ctx page .zeroDone p x = failMigration p x g 1 := by
  simp only [fillDoneDie, hmig, hkind, hframe]

theorem fillDoneDie_peerData_mapped (hkind : g.kind = 3) (hlen : bs.length = g.size)
    (hframe : framePas x g.ctx g.frameIpa g.size = some pas) :
    fillDoneDie ctx page (.peerData bs) p x =
      finishMigration p (fillFrame p x g.ctx (min g.size 262144) pas bs) g := by
  simp only [fillDoneDie, hmig, hkind, hlen, hframe, ne_eq, not_true_eq_false, if_false]

theorem fillDoneDie_peerData_unmapped (hkind : g.kind = 3) (hlen : bs.length = g.size)
    (hframe : framePas x g.ctx g.frameIpa g.size = none) :
    fillDoneDie ctx page (.peerData bs) p x = failMigration p x g 1 := by
  simp only [fillDoneDie, hmig, hkind, hlen, hframe, ne_eq, not_true_eq_false, if_false]

theorem fillDoneDie_peerTimeout (hkind : g.kind = 3) :
    fillDoneDie ctx page .peerTimeout p x = failMigration p x g 2 := by
  simp only [fillDoneDie, hmig, hkind]

theorem fillDoneDie_peerFault (hkind : g.kind = 3) :
    fillDoneDie ctx page .peerFault p x = failMigration p x g 3 := by
  simp only [fillDoneDie, hmig, hkind]

end

theorem finishMigration_of_refused {p y : Die} {g : Migration} {cls : Byte}
    (h : y.ownCheck g.entryPa g.ctx (y.vmidOf g.ctx) accWrite .migration = some cls) :
    finishMigration p y g = failMigration p (y.countFault cls) g 1 := by
  simp only [finishMigration, h]

/-! ### The entry that step 6 of R383 writes -/

theorem toNat_validEntry (e : DWord) : (BitVec.ofNat 64 (validEntry e)).toNat =
    7 + e.toNat / 8 % 8 * 8 + e.toNat / 256 % 4294967296 * 256 := by
  simp only [validEntry, bitsOf, BitVec.toNat_ofNat]
  omega

/-- The entry is valid, of TYPE 3 and without CONT; its rights and its address are those it had. -/
theorem validEntry_fields (e : DWord) : let n := BitVec.ofNat 64 (validEntry e)
    entV n = true ∧ entType n = 3 ∧ entR n = entR e ∧ entW n = entW e ∧ entX n = entX e ∧ entAddr n = entAddr e ∧
      entCont n = 0 := by
  simp only [entV, entType, entR, entW, entX, entAddr, entCont, bitsOf, ← BitVec.testBit_toNat,
    Nat.testBit_eq_decide_div_mod_eq, toNat_validEntry, decide_eq_decide, decide_eq_true_eq]
  omega

/-! ### OWN_ENTRY_PARITY_REPAIR (R479) -/

@[simp] theorem Die.flt_enterSafe (x : Die) : x.enterSafe.flt = x.flt := by
  unfold Die.enterSafe
  split <;> rfl

theorem Die.dev_enterSafe {x : Die} (h : x.dev = .ready ∨ x.dev = .active) : x.enterSafe.dev = .safe := by
  rw [Die.enterSafe, if_pos (h.imp_right .inl)]

/-- The record of an ownership entry that its copy cannot repair comes last among the reports. -/
theorem reports_ownRepairDie_unrepaired (granule : Nat) (x : Die) : ∃ r : Report,
    (ownRepairDie granule false x).flt.reports = x.flt.reports ++ [r] ∧ r.cls = clsOwnTableParity ∧
      r.detail = BitVec.ofNat 64 (granule % 524288) := by
  rw [ownRepairDie, if_neg Bool.false_ne_true, Die.flt_enterSafe]
  exact ⟨_, rfl, rfl, rfl⟩

theorem dev_ownRepairDie_unrepaired (granule : Nat) {x : Die} (h : x.dev = .ready ∨ x.dev = .active) :
    (ownRepairDie granule false x).dev = .safe := by
  rw [ownRepairDie, if_neg Bool.false_ne_true]
  exact Die.dev_enterSafe h

/-- Settles O26, from how each reply ends a migration, from the fields of the entry that the migration writes, and from
what the repair of an ownership entry reports. -/
theorem migrationsAndTableErrorsEnd : Obligations.MigrationsAndTableErrorsEnd := by
  unfold Obligations.MigrationsAndTableErrorsEnd
  refine ⟨fun s d ctx page g pas bs hmig => ⟨fun hkind hframe => ?_, fun hkind hlen hframe => ?_, fun hframe =>
    ⟨fun hkind => ?_, fun hkind hlen => ?_⟩, fun y cls => finishMigration_of_refused, fun hkind => ⟨?_, ?_⟩,
    fun granule => ⟨⟨_, rfl, ?_⟩, ?_⟩⟩, fun _ _ => rfl, validEntry_fields⟩
  · exact exec_migrationFillDone (fillDoneDie_zeroDone_mapped hmig hkind hframe)
  · exact exec_migrationFillDone (fillDoneDie_peerData_mapped hmig hkind hlen hframe)
  · exact exec_migrationFillDone (fillDoneDie_zeroDone_unmapped hmig hkind hframe)
  · exact exec_migrationFillDone (fillDoneDie_peerData_unmapped hmig hkind hlen hframe)
  · exact exec_migrationFillDone (fillDoneDie_peerTimeout hmig hkind)
  · exact exec_migrationFillDone (fillDoneDie_peerFault hmig hkind)
  · rw [State.die_onDie]
    exact ⟨Die.reg_count (s.die d) .fltOwnParityCnt, rfl⟩
  · obtain ⟨r, hreports, hcls, hdetail⟩ := reports_ownRepairDie_unrepaired granule (s.die d)
    refine ⟨_, r, rfl, ?_⟩
    rw [State.die_onDie]
    exact ⟨hreports, hcls, hdetail, dev_ownRepairDie_unrepaired granule⟩

end Sys2Proof.Machine
end

section
/-! PROOFS. O56: start-up, from the initialised SRAM to READY (R374, R505, R527 to R531, R567, R568). -/
namespace Sys2Proof.Machine

/-! ### SRAM, training and refresh (R527, R530, R567) -/

theorem exec_sramInitDone {s : State} {d : DieId} (hrun : (s.die d).running = true) (hrom : (s.die d).dev = .rom) :
    exec (.sramInitDone d) s = .next (s.onDie d fun x => { x with power.sramDone := true }) :=
  nextOn_congr (if_pos (by simp [hrun, hrom]))

section
variable {res : Training} {x : Die} (hrun : x.running = true) (hrom : x.dev = .rom) (htrained : x.dram.trained = false)
include hrun hrom htrained

theorem trainingDie_of_ok (hok : trainingOk res = true) :
    trainingDie res x = { x with dram.trained := true, dram.ranks := res.ranks.headD 0,
                                 dram.fittedGib := 24 * res.gibs.headD 0, dram.fill := x.dram.fill ++ [.full] } := by
  rw [trainingDie, if_neg (by simp [hrun, hrom, htrained]), if_pos hok]

theorem trainingDie_of_failed (hok : trainingOk res = false) : trainingDie res x = { x with dev := .safe } := by
  rw [trainingDie, if_neg (by simp [hrun, hrom, htrained]), if_neg (by simp [hok])]

end

/-- Training that succeeds found 24 channels of one capacity and of one rank count (R527). -/
theorem uniform_of_trainingOk {res : Training} (h : trainingOk res = true) : ∃ g r, (g = 1 ∨ g = 2 ∨ g = 4) ∧
    (r = 1 ∨ r = 2) ∧ res.gibs = List.replicate 24 g ∧ res.ranks = List.replicate 24 r := by
  simp only [trainingOk, Bool.and_eq_true, Bool.or_eq_true, beq_iff_eq, List.all_eq_true] at h
  obtain ⟨⟨⟨⟨⟨⟨-, hgibs⟩, hranks⟩, hallgibs⟩, hallranks⟩, hg⟩, hr⟩ := h
  exact ⟨res.gibs.headD 0, res.ranks.headD 0, by omega, hr, List.eq_replicate_iff.mpr ⟨hgibs, hallgibs⟩,
    List.eq_replicate_iff.mpr ⟨hranks, hallranks⟩⟩

theorem refreshDie_of_awake {x : Die} (hrun : x.running = true) (htrained : x.dram.trained = true)
    (hawake : x.dram.selfRefresh = false) : refreshDie x = x.count .drcRefreshCnt :=
  if_pos (by simp [hrun, htrained, hawake])

theorem refreshDie_of_asleep {x : Die} (hasleep : x.dram.selfRefresh = true) : refreshDie x = x :=
  if_neg (by simp [hasleep])

/-! ### FILL_WIPE_DONE (R373, R531, R567) -/

/-- The die whose memory has been wiped; `out` is what CTL then carries to the partner. -/
def Die.allWiped (x : Die) (out : List CtlMsg) : Die :=
  let y := x.countN .drcFillCnt (x.dram.fittedGib * 262144)
  { y with dram.cells := [], dram.spoiled := [], dram.wiped := true, dram.fill := dropFirst isWipe x.dram.fill,
           pair.ctlOut := out }

theorem exec_fillWipeDone_full {s : State} {d : DieId} (hfill : (s.die d).dram.fill.find? isWipe = some .full)
    (htrained : (s.die d).dram.trained = true) :
    ∃ out, exec (.fillWipeDone d) s = .next (s.onDie d fun x => x.allWiped out) := by
  change ∃ out, execFillWipeDone d s = _
  simp only [execFillWipeDone, hfill, htrained, Bool.not_true, Bool.false_eq_true, if_false]
  exact ⟨_, congrArg Host.Outcome.next (State.onDie_congr rfl)⟩

/-- The fill engine has this work left. -/
def Die.withFill (x : Die) (l : List FillJob) : Die := { x with dram.fill := l }

theorem exec_fillWipeDone_granule {s : State} {d : DieId} {g : Nat}
    (hfill : (s.die d).dram.fill.find? isWipe = some (.granule g)) :
    exec (.fillWipeDone d) s = .next (s.onDie d fun x =>
      granuleWiped (s.die d.other) (x.withFill (dropFirst isWipe x.dram.fill)) g) := by
  change execFillWipeDone d s = _
  simp only [execFillWipeDone, hfill]
  rfl

/-- The die with a granule zeroed and counted, and with `out` on the mirror stream. -/
def Die.granuleZeroed (x : Die) (g : Nat) (out : List MirItem) : Die :=
  let y := (zeroRange x (262144 * g) 262144).countN .drcFillCnt 64
  { y with pair.mirOut := out }

/-- A granule's wipe zeroes it, and makes a live granule without an owner wiped (R373). -/
theorem granuleWiped_eq (p x : Die) (g : Nat) : ∃ out, granuleWiped p x g =
    if ownState (x.ownEntry g) = 1 ∧ ownOwner (x.ownEntry g) = 4095 then
      ((x.granuleZeroed g out).setOwn g (ownMake 4095 0 false false 0)).count .ownWipeCnt
    else x.granuleZeroed g out := by
  unfold granuleWiped
  dsimp only
  split
  · exact ⟨_, rfl⟩
  · exact ⟨x.pair.mirOut, rfl⟩

@[simp] theorem Die.ownEntry_setOwn_same (x : Die) (g : Nat) (e : BitVec 24) : (x.setOwn g e).ownEntry g = e :=
  spGet_spSet_same _ _ _ _

theorem Die.reg_granuleZeroed_ownWipeCnt (x : Die) (g : Nat) (out : List MirItem) :
    (x.granuleZeroed g out).reg .ownWipeCnt = x.reg .ownWipeCnt :=
  Die.regI_setRegI_ne (zeroRange x (262144 * g) 262144) .drcFillCnt .ownWipeCnt [] [] _ (by decide)

theorem cells_granuleWiped (p x : Die) (g : Nat) :
    (granuleWiped p x g).dram.cells = spClear (262144 * g) (262144 * g + 262144) x.dram.cells := by
  obtain ⟨out, h⟩ := granuleWiped_eq p x g
  rw [h]
  split <;> rfl

theorem byte_granuleWiped_inside {g a : Nat} (p x : Die) (hlo : 262144 * g ≤ a) (hhi : a < 262144 * (g + 1)) :
    Mem.byte (granuleWiped p x g).dram.cells a = 0 := by
  rw [cells_granuleWiped, Mem.byte_spClear, if_pos (by omega)]

theorem byte_granuleWiped_outside {g a : Nat} (p x : Die) (h : a < 262144 * g ∨ 262144 * (g + 1) ≤ a) :
    Mem.byte (granuleWiped p x g).dram.cells a = Mem.byte x.dram.cells a := by
  rw [cells_granuleWiped, Mem.byte_spClear, if_neg (by omega)]

theorem granuleWiped_of_unowned {p x : Die} {g : Nat} (hlive : ownState (x.ownEntry g) = 1)
    (hfree : ownOwner (x.ownEntry g) = 4095) : (granuleWiped p x g).ownEntry g = ownMake 4095 0 false false 0 ∧
      (granuleWiped p x g).reg .ownWipeCnt = x.reg .ownWipeCnt + 1 := by
  obtain ⟨out, h⟩ := granuleWiped_eq p x g
  rw [h, if_pos ⟨hlive, hfree⟩, Die.reg_count]
  exact ⟨Die.ownEntry_setOwn_same _ _ _, congrArg (· + 1) (x.reg_granuleZeroed_ownWipeCnt g out)⟩

theorem xlt_granuleWiped_of_kept {p x : Die} {g : Nat}
    (hkept : ownState (x.ownEntry g) ≠ 1 ∨ ownOwner (x.ownEntry g) ≠ 4095) : (granuleWiped p x g).xlt = x.xlt := by
  obtain ⟨out, h⟩ := granuleWiped_eq p x g
  rw [h, if_neg (not_and_or.mpr hkept)]
  rfl

/-- The wipe of a granule zeroes its bytes alone; a live granule without an owner becomes wiped and is counted, and any other
one keeps its entry. -/
theorem granuleWiped_wipes (p x : Die) (g : Nat) : let y := granuleWiped p x g
    (∀ a, 262144 * g ≤ a → a < 262144 * (g + 1) → Mem.byte y.dram.cells a = 0) ∧
      (∀ a, (a < 262144 * g ∨ 262144 * (g + 1) ≤ a) → Mem.byte y.dram.cells a = Mem.byte x.dram.cells a) ∧
      (ownState (x.ownEntry g) = 1 → ownOwner (x.ownEntry g) = 4095 →
        y.ownEntry g = ownMake 4095 0 false false 0 ∧ y.reg .ownWipeCnt = x.reg .ownWipeCnt + 1) ∧
      ((ownState (x.ownEntry g) ≠ 1 ∨ ownOwner (x.ownEntry g) ≠ 4095) → y.xlt = x.xlt) :=
  ⟨fun _ => byte_granuleWiped_inside p x, fun _ => byte_granuleWiped_outside p x, granuleWiped_of_unowned,
    xlt_granuleWiped_of_kept⟩

/-! ### STARTUP_READY: firmware's granules (R374) -/

theorem firmwareOwn_bounds (x : Die) : 8 ≤ firmwareOwn x ∧ firmwareOwn x ≤ 1024 := by
  unfold firmwareOwn
  omega

/-- The ownership table with one entry at every granule of a list. -/
def ownAll (e : BitVec 24) (own : List (Nat × BitVec 24)) (l : List Nat) : List (Nat × BitVec 24) :=
  l.foldl (fun m g => spSet ownReset m g e) own

theorem spGet_ownAll_of_get {e : BitVec 24} {g : Nat} {own : List (Nat × BitVec 24)} (h : spGet ownReset own g = e)
    (l : List Nat) : spGet ownReset (ownAll e own l) g = e := by
  induction l generalizing own with
  | nil => exact h
  | cons k l ih =>
    refine ih ?_
    by_cases hk : g = k
    · rw [hk, spGet_spSet_same]
    · rw [spGet_spSet_ne _ _ _ _ hk, h]

theorem spGet_ownAll_of_mem {e : BitVec 24} {g : Nat} {l : List Nat} (h : g ∈ l) (own : List (Nat × BitVec 24)) :
    spGet ownReset (ownAll e own l) g = e := by
  induction l generalizing own with
  | nil => simp at h
  | cons k l ih =>
    obtain rfl | hmem := List.mem_cons.mp h
    · exact spGet_ownAll_of_get (spGet_spSet_same _ _ _ _) l
    · exact ih hmem _

theorem Die.foldl_setOwn (x : Die) (e : BitVec 24) (l : List Nat) :
    l.foldl (fun (y : Die) g => y.setOwn g e) x = { x with xlt.own := ownAll e x.xlt.own l } := by
  induction l generalizing x with
  | nil => rfl
  | cons g l ih => exact ih (x.setOwn g e)

theorem claimGranules_eq (x : Die) : claimGranules x =
    { x with xlt.own := ownAll (ownMake 0 0 true true 1) x.xlt.own (List.range (firmwareOwn x)),
             xlt.fwGranules := firmwareOwn x } := by
  simp only [claimGranules, Die.foldl_setOwn]

theorem ownOwner_claimGranules {x : Die} {g : Nat} (h : g < firmwareOwn x) :
    ownOwner ((claimGranules x).ownEntry g) = 0 := by
  rw [claimGranules_eq]
  refine (congrArg ownOwner (spGet_ownAll_of_mem (List.mem_range.mpr h) x.xlt.own)).trans ?_
  decide

/-! ### STARTUP_READY: the port (R505, R532) -/

/-- `x.KeepsBoot y`: `y` has the ownership table, the local time and the security state of `x`. -/
structure Die.KeepsBoot (x y : Die) : Prop where
  own : y.xlt.own = x.xlt.own
  fwGranules : y.xlt.fwGranules = x.xlt.fwGranules
  time : y.time = x.time
  sec : y.sec = x.sec

namespace Die.KeepsBoot

variable {x y z : Die}

theorem refl (x : Die) : x.KeepsBoot x := ⟨rfl, rfl, rfl, rfl⟩

theorem trans (h : x.KeepsBoot y) (h' : y.KeepsBoot z) : x.KeepsBoot z :=
  ⟨h'.own.trans h.own, h'.fwGranules.trans h.fwGranules, h'.time.trans h.time, h'.sec.trans h.sec⟩

theorem ownEntry (h : x.KeepsBoot y) (g : Nat) : y.ownEntry g = x.ownEntry g := by
  rw [Die.ownEntry, h.own]
  rfl

/-- Answers leave what boot needs. -/
theorem of_replied (h : x.Replied y) : x.KeepsBoot y :=
  ⟨congrArg (fun t => t.own) h.xlt_eq, congrArg (fun t => t.fwGranules) h.xlt_eq,
    Eq.trans (congrArg Die.time (show y = _ from h)) rfl, Eq.trans (congrArg Die.sec (show y = _ from h)) rfl⟩

theorem endXfer (y : Die) (ch : Fin 4) (st : Byte) : y.KeepsBoot (y.endXfer ch st) :=
  Die.endXfer_induction st (refl y) fun r =>
    trans (y := y.freeChannel ch) ⟨rfl, rfl, rfl, rfl⟩ (of_replied (y.replied_endXferWith ch r))

theorem usbReset (x : Die) : x.KeepsBoot (usbReset x) :=
  usbReset_induction (P := x.KeepsBoot) ⟨rfl, rfl, rfl, rfl⟩ (fun y ch hy => hy.trans (endXfer y ch _))
    fun _ hy => hy.trans ⟨rfl, rfl, rfl, rfl⟩

end Die.KeepsBoot

/-- The die whose port has been disconnected, where recovery had connected it. -/
def Die.portFreed (x : Die) : Die := if x.io.usb.connected then usbReset x else x

theorem startUsb_eq (x : Die) : startUsb x =
    usbConnect x.portFreed.tick (usbOfRank (min (Config.choice x.free % 4) x.portFreed.usbLimit)) := rfl

theorem keepsBoot_portFreed (x : Die) : x.KeepsBoot x.portFreed := by
  unfold Die.portFreed
  split
  · exact .usbReset x
  · exact .refl x

theorem keepsBoot_startUsb (x : Die) : x.KeepsBoot (startUsb x) :=
  (keepsBoot_portFreed x).trans ⟨rfl, rfl, rfl, rfl⟩

theorem connected_startUsb (x : Die) : (startUsb x).io.usb.connected = true := rfl

/-- In recovery the port connects at high speed (R532). -/
theorem speed_startUsb_of_recovery {x : Die} (h : x.sec.recovery = true) :
    (startUsb x).io.usb.speed = .highSpeed := by
  have hlimit : x.portFreed.usbLimit = 0 := if_pos (by rw [(keepsBoot_portFreed x).sec, h])
  rw [startUsb_eq, hlimit, Nat.min_zero]
  rfl

/-! ### STARTUP_READY (R505, R568) -/

/-- The die whose firmware runs and whose UFS link is up. -/
def Die.started (x : Die) : Die :=
  { x.tick with dev := .ready, power.healthy := true, power.healthyAt := x.time, io.ufs.linkUp := true,
                io.ufs.gear := 1 + Config.choice x.free % 5, pair.lastAlive := x.time, pair.lastCtl := x.time }

section
variable {x : Die} (hrun : x.running = true) (hrom : x.dev = .rom) (hboot : x.sec.bootDone = true)
  (hwiped : x.dram.wiped = true)
include hrun hrom hboot hwiped

theorem startupDie_eq : startupDie x = (startUsb (claimGranules x)).started :=
  if_neg (by simp [hrun, hrom, hboot, hwiped])

/-- The die is READY and HEALTHY, its port is connected, and firmware owns its granules. -/
theorem startupDie_ready : let y := startupDie x
    y.dev = .ready ∧ y.power.healthy = true ∧ y.power.healthyAt = x.time ∧ y.io.usb.connected = true ∧
      y.io.ufs.linkUp = true ∧ 8 ≤ y.xlt.fwGranules ∧ y.xlt.fwGranules ≤ 1024 ∧
      (∀ g, g < y.xlt.fwGranules → ownOwner (y.ownEntry g) = 0) ∧
      (x.sec.recovery = true → y.io.usb.speed = .highSpeed) := by
  have hclaimed := claimGranules_eq x
  have hkeeps := keepsBoot_startUsb (claimGranules x)
  have hconnected := connected_startUsb (claimGranules x)
  have hgranules : (startUsb (claimGranules x)).xlt.fwGranules = firmwareOwn x := by rw [hkeeps.fwGranules, hclaimed]
  have htime : (startUsb (claimGranules x)).time = x.time := by rw [hkeeps.time, hclaimed]
  have howner : ∀ g, g < firmwareOwn x → ownOwner ((startUsb (claimGranules x)).ownEntry g) = 0 := fun g hg => by
    rw [hkeeps.ownEntry, ownOwner_claimGranules hg]
  have hspeed : x.sec.recovery = true → (startUsb (claimGranules x)).io.usb.speed = .highSpeed := fun h =>
    speed_startUsb_of_recovery (by rw [hclaimed, h])
  obtain ⟨hlow, hhigh⟩ := firmwareOwn_bounds x
  rw [startupDie_eq hrun hrom hboot hwiped]
  generalize startUsb (claimGranules x) = y at *
  exact ⟨rfl, rfl, htime, hconnected, rfl, hgranules ▸ hlow, hgranules ▸ hhigh, hgranules ▸ howner, hspeed⟩

end

theorem startupDie_of_not_ready {x : Die} (h : x.sec.bootDone = false ∨ x.dram.wiped = false) : startupDie x = x :=
  if_pos (by obtain h | h := h <;> simp [h])

/-- Settles O56, from what each step of start-up makes of the die. -/
theorem startUpRunsInOrder : Obligations.StartUpRunsInOrder := by
  unfold Obligations.StartUpRunsInOrder
  intro s d x
  refine ⟨exec_sramInitDone, fun res hrun hrom htrained => ⟨fun hok => ?_, fun hfailed => ?_⟩,
    fun res => uniform_of_trainingOk, fun ch hrun htrained => ⟨fun hawake => ?_, fun hasleep => ?_⟩,
    fun hfill htrained => ?_, fun g hfill => ⟨_, exec_fillWipeDone_granule hfill, ?_⟩,
    fun hrun hrom hboot hwiped => ⟨_, rfl, ?_⟩, fun hrun hrom hnot => ?_⟩
  · exact nextOn_congr (trainingDie_of_ok hrun hrom htrained hok)
  · exact nextOn_congr (trainingDie_of_failed hrun hrom htrained hfailed)
  · exact nextOn_congr (refreshDie_of_awake hrun htrained hawake)
  · exact nextOn_congr (refreshDie_of_asleep hasleep)
  · obtain ⟨out, hexec⟩ := exec_fillWipeDone_full hfill htrained
    refine ⟨_, hexec, ?_⟩
    rw [State.die_onDie, State.die_other_onDie]
    exact ⟨rfl, rfl, rfl, fun _ => rfl, Die.regI_setRegI x .drcFillCnt [] _, rfl⟩
  · have hwiped := granuleWiped_wipes (s.die d.other) (x.withFill (dropFirst isWipe x.dram.fill)) g
    rw [State.die_onDie]
    generalize granuleWiped _ _ g = y at *
    exact hwiped
  · have hready := startupDie_ready hrun hrom hboot hwiped
    rw [State.die_onDie]
    generalize startupDie (s.die d) = y at *
    exact hready
  · exact nextOn_congr (startupDie_of_not_ready hnot)

end Sys2Proof.Machine
end

section
/-! PROOFS. Dorkar links: what is read of a link after an update of it, what going down leaves, and how a lane's lock follows
its headers (R391, R403, R406). -/
namespace Sys2Proof.Machine

/-! ### A link -/

@[simp] theorem Die.link_updLink (x : Die) (l : Fin 3) (f : Link → Link) : (x.updLink l f).link l = f (x.link l) :=
  getElem_vmod_same x.torus.links l f

@[simp] theorem Die.regI_updLink (x : Die) (l : Fin 3) (f : Link → Link) (r : Reg) (is : List Nat) :
    (x.updLink l f).regI r is = x.regI r is := rfl

@[simp] theorem Die.link_linkCount (x : Die) (l m : Fin 3) (r : Reg) (n : Nat) :
    (x.linkCount l r n).link m = x.link m := rfl

@[simp] theorem Die.regI_linkCount (x : Die) (l : Fin 3) (r : Reg) (n : Nat) :
    (x.linkCount l r n).regI r [linkCode x.id l] = x.regI r [linkCode x.id l] + BitVec.ofNat 32 n :=
  Die.regI_countI x r _ n

/-! ### A link goes down (R406) -/

/-- The three registers that a link's loss writes are apart. -/
theorem linkDown_addrs : ∀ (d : DieId) (l : Fin 3),
    Reg.torDropCnt.addr [linkCode d l] ≠ Reg.torDownCnt.addr [linkCode d l] ∧
      Reg.torDropCnt.addr [linkCode d l] ≠ Reg.torFlags.addr [] ∧
      Reg.torDownCnt.addr [linkCode d l] ≠ Reg.torFlags.addr []
  | .a => by decide
  | .b => by decide

section
variable {x : Die} {l : Fin 3} (cause : BitVec 3) (hon : (x.link l).state ≠ .disabled) (hup : (x.link l).state ≠ .down)
include hon hup

/-- What the loss of a link that trains or is UP does: its queues are counted and discarded, and it is counted, flagged and
recorded. -/
theorem Die.linkDownOp_eq : x.linkDownOp l cause =
    (((((x.linkCount l .torDropCnt (x.link l).txQ.length).updLink l fun k =>
      { k with state := .down, cause := cause, since := x.time, goodBlocks := 0, rxPart := [], replay := [], txQ := [],
               nakFor := none, resends := 0 }).linkCount l .torDownCnt 1).flag .torFlags 0).note clsLinkDown
        (.linkTarget (Fin.ofNat 7 (linkCode x.id l))) (FaultInfo.plain 0 cause.toNat)) :=
  if_neg (not_or.mpr ⟨hon, hup⟩)

theorem Die.link_linkDownOp : (x.linkDownOp l cause).link l =
    { x.link l with state := .down, cause := cause, since := x.time, goodBlocks := 0, rxPart := [], replay := [],
                    txQ := [], nakFor := none, resends := 0 } := by
  rw [Die.linkDownOp_eq cause hon hup]
  exact Die.link_updLink _ l _

theorem Die.trans_linkDownOp : (x.linkDownOp l cause).torus.trans = x.torus.trans := by
  rw [Die.linkDownOp_eq cause hon hup]
  rfl

theorem Die.linkDown_linkDownOp : ((x.linkDownOp l cause).reg .torFlags).getLsbD 0 = true := by
  rw [Die.linkDownOp_eq cause hon hup, Die.reg_note]
  exact Die.getLsbD_reg_flag _ _ (by decide)

theorem Die.dropCnt_linkDownOp : (x.linkDownOp l cause).regI .torDropCnt [linkCode x.id l] =
    x.regI .torDropCnt [linkCode x.id l] + BitVec.ofNat 32 (x.link l).txQ.length := by
  obtain ⟨hdown, hflags, -⟩ := linkDown_addrs x.id l
  rw [Die.linkDownOp_eq cause hon hup]
  exact (Die.regI_flagI_ne _ 0 hflags).trans
    ((Die.regI_countI_ne _ 1 hdown).trans (Die.regI_linkCount x l .torDropCnt _))

theorem Die.downCnt_linkDownOp : (x.linkDownOp l cause).regI .torDownCnt [linkCode x.id l] =
    x.regI .torDownCnt [linkCode x.id l] + 1 := by
  obtain ⟨hdrop, -, hflags⟩ := linkDown_addrs x.id l
  rw [Die.linkDownOp_eq cause hon hup]
  exact (Die.regI_flagI_ne _ 0 hflags).trans ((Die.regI_countI _ .torDownCnt _ 1).trans
    (congrArg (· + 1) (Die.regI_countI_ne x _ hdrop.symm)))

theorem Die.reports_linkDownOp : ∃ r, (x.linkDownOp l cause).flt.reports = x.flt.reports ++ [r] ∧
    r.cls = clsLinkDown ∧ r.detail = cause.setWidth 64 := by
  rw [Die.linkDownOp_eq cause hon hup]
  exact ⟨_, rfl, rfl, BitVec.ofNat_toNat 64 cause⟩

end

/-! ### The lock of a lane (R391) -/

/-- A header that R389 makes a block of. -/
def validHeader (h : BitVec 2) : Bool := h == 1 || h == 2

theorem window_laneHeader (n : Lane) (h : BitVec 2) : (laneHeader n h).window = (validHeader h :: n.window).take 64 := rfl

theorem run_laneHeader (n : Lane) (h : BitVec 2) : (laneHeader n h).run = if validHeader h then n.run + 1 else 0 := rfl

/-- A locked lane stays so while fewer than 16 headers of its window are invalid; another locks after a run of 64. -/
theorem locked_laneHeader (n : Lane) (h : BitVec 2) : (laneHeader n h).locked =
    if n.locked then decide (((laneHeader n h).window.filter (! ·)).length < 16) else decide (64 ≤ (laneHeader n h).run) :=
  rfl

/-- Equal headers in a row, the last of them named. -/
theorem foldl_laneHeader_replicate_succ (n : Lane) (h : BitVec 2) (m : Nat) :
    (List.replicate (m + 1) h).foldl laneHeader n = laneHeader ((List.replicate m h).foldl laneHeader n) h := by
  rw [List.replicate_succ', List.foldl_append, List.foldl_cons, List.foldl_nil]

/-- The window after a row of equal headers. -/
theorem window_foldl_laneHeader (n : Lane) (h : BitVec 2) (m : Nat) :
    ((List.replicate (m + 1) h).foldl laneHeader n).window =
      (List.replicate (m + 1) (validHeader h) ++ n.window).take 64 := by
  induction m with
  | zero => rfl
  | succ m ih =>
    rw [foldl_laneHeader_replicate_succ, window_laneHeader, ih, List.replicate_succ (n := m + 1), List.cons_append]
    simp [List.take_succ_cons, List.take_take]

/-- The run after a row of valid headers. -/
theorem run_foldl_laneHeader {h : BitVec 2} (hv : validHeader h = true) (n : Lane) (m : Nat) :
    ((List.replicate m h).foldl laneHeader n).run = n.run + m := by
  induction m with
  | zero => rfl
  | succ m ih => rw [foldl_laneHeader_replicate_succ, run_laneHeader, if_pos hv, ih, Nat.add_assoc]

/-- 64 valid headers in a row lock a lane: its run is 64, and its window holds no invalid one. -/
theorem locked_of_valid {h : BitVec 2} (hv : validHeader h = true) (n : Lane) :
    ((List.replicate 64 h).foldl laneHeader n).locked = true := by
  have hrun := run_foldl_laneHeader hv n 64
  have hwindow := window_foldl_laneHeader n h 63
  rw [List.take_left' List.length_replicate, hv] at hwindow
  rw [foldl_laneHeader_replicate_succ _ _ 63] at hrun hwindow ⊢
  rw [locked_laneHeader, hrun, hwindow]
  simp

/-- 16 invalid headers in a row unlock a lane: they are in its window, and its run is over. -/
theorem unlocked_of_invalid {h : BitVec 2} (hv : validHeader h = false) (n : Lane) :
    ((List.replicate 16 h).foldl laneHeader n).locked = false := by
  have hwindow := window_foldl_laneHeader n h 15
  rw [List.take_append, hv] at hwindow
  rw [foldl_laneHeader_replicate_succ _ _ 15] at hwindow ⊢
  rw [locked_laneHeader, run_laneHeader, hv, hwindow]
  simp

end Sys2Proof.Machine
end

section
/-! PROOFS. O48: how Dorkar links train, receive flits and control blocks, and go down (R391 to R406). -/
namespace Sys2Proof.Machine

/-! ### Training (R403, R404) -/

section
variable {x : Die} {l : Fin 3} {b : List Byte}

theorem trainingBlockDie_of_other (hstate : (x.link l).state ≠ .exchange) : trainingBlockDie l b x = x :=
  if_pos hstate

theorem trainingBlockDie_of_bad (hstate : (x.link l).state = .exchange) (hok : trainBlockOk b = false) :
    trainingBlockDie l b x = (x.updLink l fun k => { k with goodBlocks := 0 }).linkCount l .torCbErrCnt 1 := by
  rw [trainingBlockDie, if_neg (not_not_intro hstate), if_pos (by rw [hok]; rfl)]

/-- A valid training block names its partner, and counts or takes the link down as the partner passes R404 or not. -/
theorem trainingBlockDie_of_ok (hstate : (x.link l).state = .exchange) (hok : trainBlockOk b = true) :
    trainingBlockDie l b x =
      let y := x.updLink l fun k =>
        { k with partnerLink := BitVec.ofNat 3 (fieldNat b 3 1), partnerNode := BitVec.ofNat 14 (fieldNat b 4 2) }
      if partnerPasses x l b then y.updLink l fun k => { k with goodBlocks := k.goodBlocks + 1 } else y.linkDownOp l 4 := by
  rw [trainingBlockDie, if_neg (not_not_intro hstate), if_neg (by rw [hok]; decide)]
  rfl

theorem link_trainingBlockDie (hstate : (x.link l).state = .exchange) (hok : trainBlockOk b = true) :
    let u := (trainingBlockDie l b x).link l
    (partnerPasses x l b = true → u.goodBlocks = (x.link l).goodBlocks + 1 ∧ u.state = .exchange) ∧
      (partnerPasses x l b = false → u.state = .down ∧ u.cause = 4) ∧
      u.partnerNode = BitVec.ofNat 14 (fieldNat b 4 2) := by
  rw [trainingBlockDie_of_ok hstate hok]
  cases hpass : partnerPasses x l b with
  | true => simp [hstate]
  | false =>
    simp only [Bool.false_eq_true, if_false]
    rw [Die.link_linkDownOp] <;> simp [hstate]

theorem trainProgressDie_of_signal (hstate : (x.link l).state = .signal) (f : LinkFound) :
    trainProgressDie l f x = x.linkEnter l .align := by
  simp only [trainProgressDie, hstate]

theorem trainProgressDie_of_align (hstate : (x.link l).state = .align) (f : LinkFound)
    (hlocked : ((List.range 8).all fun n => ((x.link l).lanes[Fin.ofNat 8 n]).locked) = true) :
    trainProgressDie l f x =
      (x.linkEnter l .exchange).updLink l fun k => { k with reversed := f.reversed, pol := f.pol } := by
  simp only [trainProgressDie, hstate]
  exact if_pos hlocked

theorem trainProgressDie_of_exchange (hstate : (x.link l).state = .exchange) (f : LinkFound) :
    trainProgressDie l f x = if 8 ≤ (x.link l).goodBlocks then x.linkUp l else x := by
  simp only [trainProgressDie, hstate]

/-- A link comes UP with SEQ, E and the CRD counters at 0 (R403). -/
theorem link_linkUp (x : Die) (l : Fin 3) : let u := (x.linkUp l).link l
    u.state = .up ∧ u.rxE = 0 ∧ u.txSeq = 0 ∧ u.replay = [] ∧ u.rxNak = false ∧
      ∀ b : Fin 4, u.crd[b] = 0 ∧ u.sent[b] = 0 := by
  simp [Die.linkUp]

theorem trainTimeoutDie_of_early (hearly : x.passed (x.link l).since 1000 = false) : trainTimeoutDie l x = x :=
  if_pos (by rw [hearly]; rfl)

theorem trainTimeoutDie_of_late (hlate : x.passed (x.link l).since 1000 = true) :
    ((x.link l).state = .signal → trainTimeoutDie l x = x.linkDownOp l 2) ∧
      ((x.link l).state = .align → trainTimeoutDie l x = x.linkDownOp l 3) ∧
      ((x.link l).state = .exchange → trainTimeoutDie l x = x.linkDownOp l 4) := by
  refine ⟨fun hstate => ?_, fun hstate => ?_, fun hstate => ?_⟩ <;>
    simp [trainTimeoutDie, hlate, hstate]

end

/-- A link that is UP goes down where no valid control block has come for 1 µs (R400). -/
theorem exec_linkControlLoss {s : State} {d : DieId} {l : Dim} (hstate : ((s.die d).link (dimIdx l)).state = .up) :
    exec (.linkControlLoss d l) s = if (s.die d).passed ((s.die d).link (dimIdx l)).lastCb 1
      then .next (s.onDie d fun x => x.linkDownOp (dimIdx l) 6) else .next (s.onDie d id) := by
  change nextOn d _ s = _
  split
  next hlate => exact nextOn_congr (if_pos (by simp [hstate, hlate]))
  next hearly => exact nextOn_congr (if_neg (by simp [hearly]))

/-! ### Flits (R394, R397, R399) -/

/-- An idle flit (R393): its CRC is that of no SEQ, and its content is zero. -/
def idleFlit (flit : List Byte) : Bool := flitPasses flit 0x8000 && (flit.take 28).all (· == 0)

theorem idleFlit_eq_true {flit : List Byte} :
    idleFlit flit = true ↔ flitPasses flit 0x8000 = true ∧ ∀ b ∈ flit.take 28, b = 0 := by
  simp [idleFlit]

theorem idleFlit_eq_false {flit : List Byte} :
    idleFlit flit = false ↔ flitPasses flit 0x8000 = false ∨ ∃ b ∈ flit.take 28, b ≠ 0 := by
  rw [← Bool.not_eq_true, idleFlit_eq_true, not_and_or, Bool.not_eq_true, not_forall]
  simp only [not_forall, exists_prop, ne_eq]

section
variable {x : Die} {l : Fin 3} {flit : List Byte}

/-- A flit error keeps E; the first of a run is counted. -/
theorem flitError_spec (x : Die) (l : Fin 3) : let y := flitError x l
    (y.link l).rxE = (x.link l).rxE ∧ (y.link l).rxNak = true ∧ y.regI .torCrcErrCnt [linkCode x.id l] =
      x.regI .torCrcErrCnt [linkCode x.id l] + if (x.link l).rxNak then 0 else 1 := by
  unfold flitError
  cases hnak : (x.link l).rxNak with
  | true => simp [hnak]
  | false =>
    simp only [Bool.false_eq_true, if_false, Die.link_linkCount, Die.link_updLink, true_and]
    exact Die.regI_linkCount _ l .torCrcErrCnt 1

theorem flitAccept_of_illegal {content : List Byte} (hpart : (x.link l).rxPart = [])
    (hillegal : headLegal content = false) : flitAccept x l content = x.linkDownOp l 7 :=
  if_pos (by rw [hpart, hillegal]; rfl)

/-- An accepted flit advances E and ends a run of errors. -/
theorem flitAccept_of_legal {content : List Byte} (hlegal : (x.link l).rxPart ≠ [] ∨ headLegal content = true) :
    let u := (flitAccept x l content).link l
    u.rxE = (x.link l).rxE + 1 ∧ u.rxNak = false ∧ u.state = (x.link l).state ∧ u.txQ = (x.link l).txQ := by
  rw [flitAccept, if_neg (by obtain h | h := hlegal <;> simp [h]), Die.link_updLink]
  exact ⟨rfl, rfl, rfl, rfl⟩

theorem flitReceiveDie_of_not_up (hstate : (x.link l).state ≠ .up) (err : Bool) : flitReceiveDie l flit err x = x :=
  if_pos hstate

theorem flitReceiveDie_of_passes (hstate : (x.link l).state = .up) (hpass : flitPasses flit (x.link l).rxE.toNat = true) :
    flitReceiveDie l flit false x = flitAccept x l (flit.take 28) := by
  rw [flitReceiveDie, if_neg (not_not_intro hstate), if_neg Bool.false_ne_true, if_pos hpass]

theorem flitReceiveDie_of_idle (hstate : (x.link l).state = .up) (hfail : flitPasses flit (x.link l).rxE.toNat = false)
    (hpart : (x.link l).rxPart = []) (hidle : idleFlit flit = true) : flitReceiveDie l flit false x = x := by
  rw [flitReceiveDie, if_neg (not_not_intro hstate), if_neg Bool.false_ne_true, if_neg (by rw [hfail]; decide)]
  exact if_pos (by simpa [hpart] using idleFlit_eq_true.mp hidle)

theorem flitReceiveDie_of_error {err : Bool} (hstate : (x.link l).state = .up) (herror : err = true ∨
    (flitPasses flit (x.link l).rxE.toNat = false ∧ ((x.link l).rxPart ≠ [] ∨ idleFlit flit = false))) :
    flitReceiveDie l flit err x = flitError x l := by
  rw [flitReceiveDie, if_neg (not_not_intro hstate)]
  cases err with
  | true => rfl
  | false =>
    obtain ⟨hfail, hreal⟩ := herror.resolve_left Bool.false_ne_true
    rw [if_neg Bool.false_ne_true, if_neg (by rw [hfail]; decide), Bool.and_assoc]
    refine if_neg fun hidle => ?_
    obtain ⟨hpart, hidle⟩ := Bool.and_eq_true_iff.mp hidle
    rcases hreal with hreal | hreal
    · exact hreal (List.isEmpty_iff.mp hpart)
    · exact Bool.false_ne_true (hreal.symm.trans hidle)

end

/-! ### Link control blocks (R398, R399) -/

/-- The die on which a link has taken the E and the CRD of a control block. -/
def Die.blockTaken (x : Die) (l : Fin 3) (b : List Byte) : Die :=
  x.updLink l fun k => { takeAck k (BitVec.ofNat 15 (fieldNat b 2 2)) with
    lastCb := x.time, crd := Vector.ofFn fun n : Fin 4 => BitVec.ofNat 16 (fieldNat b (4 + 2 * n.val) 2) }

section
variable {x : Die} {l : Fin 3} {b : List Byte} (hstate : (x.link l).state = .up)
include hstate

theorem controlBlockDie_of_bad (hok : linkBlockOk b = false) : controlBlockDie l b x = x.linkCount l .torCbErrCnt 1 := by
  rw [controlBlockDie, if_neg (not_not_intro hstate), if_pos (by rw [hok]; rfl)]

variable (hok : linkBlockOk b = true)
include hok

/-- An acknowledgement ends the request for a resend; a NAK is of the resend under way, takes the link down after 16 of a
run, or begins a resend. -/
theorem controlBlockDie_of_ok : controlBlockDie l b x =
    let e : BitVec 15 := BitVec.ofNat 15 (fieldNat b 2 2)
    let y := x.blockTaken l b
    let k := y.link l
    if !bitOf (fieldNat b 2 2) 15 then (y.updLink l fun k => { k with nakFor := none }).linkSend l
    else if k.nakFor = some e ∧ x.time < k.resendEnd then y.linkSend l
    else if 16 ≤ k.resends then y.linkDownOp l 5
    else ((y.updLink l fun t => { t with
      nakFor := some e, resends := t.resends + 1,
      resendEnd := x.time + BitVec.ofNat 64 (flitCycles k.replay.length) }).linkCount l .torReplayCnt 1).linkSend l := by
  rw [controlBlockDie, if_neg (not_not_intro hstate), if_neg (by rw [hok]; decide)]
  rfl

end

/-- Settles O48, row by row, from what each makes of the link. That a training block that is not valid counts as an invalid
control block is log 169; that a timeout of EXCHANGE has cause 4 is log 100. -/
theorem linksTrainReceiveAndGoDown : Obligations.LinksTrainReceiveAndGoDown := by
  unfold Obligations.LinksTrainReceiveAndGoDown
  intro s d l x p i k down
  refine ⟨fun cause => rfl, fun cause hon hup => ?_, fun lane hdrs => rfl, fun n => ⟨locked_of_valid rfl n,
    unlocked_of_invalid rfl n⟩, fun b => ⟨fun hstate => ?_, fun hstate hbad => ?_, fun hstate hok => ?_⟩,
    fun f => ⟨fun hstate => ?_, fun hstate hlocked => ?_, fun hstate hgood => ?_, fun hstate hfew => ?_⟩,
    fun hlate => ?_, fun hearly => ?_, fun hstate => ?_, rfl, fun flit err => ⟨?_, ?_, ?_, ?_, ?_⟩, fun b hstate => ?_⟩
  · have hlink := Die.link_linkDownOp cause hon hup
    refine ⟨?_, ?_, ?_, ?_, ?_, ?_, Die.linkDown_linkDownOp cause hon hup, Die.dropCnt_linkDownOp cause hon hup,
      Die.downCnt_linkDownOp cause hon hup, Die.trans_linkDownOp cause hon hup, Die.reports_linkDownOp cause hon hup⟩ <;>
      rw [hlink]
  · exact nextOn_of_unchanged (trainingBlockDie_of_other hstate)
  · exact nextOn_congr (trainingBlockDie_of_bad hstate hbad)
  · refine ⟨s.onDie d (trainingBlockDie i b), rfl, ?_⟩
    rw [State.die_onDie]
    exact link_trainingBlockDie hstate hok
  · exact nextOn_congr (trainProgressDie_of_signal hstate f)
  · exact nextOn_congr (trainProgressDie_of_align hstate f hlocked)
  · have hup := (trainProgressDie_of_exchange hstate f).trans (if_pos hgood)
    refine ⟨_, nextOn_of_eq hup, ?_⟩
    rw [State.die_setDie]
    exact link_linkUp x i
  · exact nextOn_of_unchanged ((trainProgressDie_of_exchange hstate f).trans (if_neg (Nat.not_le.mpr hfew)))
  · obtain ⟨hsignal, halign, hexchange⟩ := trainTimeoutDie_of_late hlate
    exact ⟨fun hstate => nextOn_congr (hsignal hstate), fun hstate => nextOn_congr (halign hstate),
      fun hstate => nextOn_congr (hexchange hstate)⟩
  · exact nextOn_of_unchanged (trainTimeoutDie_of_early hearly)
  · exact exec_linkControlLoss hstate
  · exact fun hstate => nextOn_of_unchanged (flitReceiveDie_of_not_up hstate err)
  · rintro hstate rfl hpass hlegal
    refine ⟨_, nextOn_of_eq (flitReceiveDie_of_passes hstate hpass), ?_⟩
    rw [State.die_setDie]
    obtain ⟨hseq, hnak, hup, hqueue⟩ := flitAccept_of_legal hlegal
    exact ⟨hseq, hnak, hup.trans hstate, hqueue⟩
  · rintro hstate rfl hpass hpart hillegal
    exact nextOn_congr ((flitReceiveDie_of_passes hstate hpass).trans (flitAccept_of_illegal hpart hillegal))
  · rintro hstate rfl hfail hpart hcrc hzero
    exact nextOn_of_unchanged (flitReceiveDie_of_idle hstate hfail hpart (idleFlit_eq_true.mpr ⟨hcrc, hzero⟩))
  · intro hstate herror
    rw [← idleFlit_eq_false] at herror
    refine ⟨_, nextOn_of_eq (flitReceiveDie_of_error hstate herror), ?_⟩
    rw [State.die_setDie]
    exact flitError_spec x i
  · intro e crds y kk resending
    refine ⟨fun hbad => nextOn_congr (controlBlockDie_of_bad hstate hbad), fun hok hack => ?_, fun hok hnak => ?_⟩
    · exact nextOn_of_eq ((controlBlockDie_of_ok hstate hok).trans (if_pos (by rw [hack]; rfl)))
    · have hblock := (controlBlockDie_of_ok hstate hok).trans (if_neg (by rw [hnak]; decide))
      exact ⟨fun hagain => nextOn_of_eq (hblock.trans (if_pos hagain)),
        fun hnew hmany => nextOn_of_eq (hblock.trans ((if_neg hnew).trans (if_pos hmany))),
        fun hnew hfew => nextOn_of_eq (hblock.trans ((if_neg hnew).trans (if_neg (Nat.not_le.mpr hfew))))⟩

end Sys2Proof.Machine
end

section
/-! PROOFS. The router and the target engine: where a packet goes, and how a request is answered (R407 to R412, R416, R420). -/
namespace Sys2Proof.Machine

/-! ### The router (R407 to R412) -/

section
variable {s : State} {d : DieId} {src : RouteSrc}

theorem exec_packetRoute_of_kept {y : Die} (h : routePacket (s.die d.other) (s.die d) src = (y, none)) :
    exec (.packetRoute d src) s = .next (s.setDie d y) := by
  change execPacketRoute d src s = _
  simp only [execPacketRoute, h]

theorem exec_packetRoute_of_crossed {y : Die} {k : Packet × Bool}
    (h : routePacket (s.die d.other) (s.die d) src = (y, some k)) : exec (.packetRoute d src) s =
      .next ((s.setDie d y).onDie d.other fun q => { q with torus.bridgeQ := q.torus.bridgeQ ++ [k] }) := by
  change execPacketRoute d src s = _
  simp only [execPacketRoute, h]

end

section
variable {p x y : Die} {src : RouteSrc} {k k' : Packet} {own : Bool} {l : Fin 3}

theorem routePacket_of_empty (htake : takeSource x src = none) : routePacket p x src = (x, none) := by
  simp only [routePacket, htake]

variable (htake : takeSource x src = some ((k, own), y))
include htake

theorem routePacket_of_drop (hhop : routeHop p x src k = .drop) :
    routePacket p x src = ((y.flag .torFlags 1).count .torNoRouteCnt, none) := by
  simp only [routePacket, htake, hhop]

theorem routePacket_of_deliver (hhop : routeHop p x src k = .deliver) : routePacket p x src =
    (if k.isReply then { y with torus.replyQ := y.torus.replyQ ++ [k] }
      else { y with torus.targetQ := y.torus.targetQ ++ [(arrivalPort x src, k)] }, none) := by
  simp only [routePacket, htake, hhop]

theorem routePacket_of_bridge (hhop : routeHop p x src k = .bridge k') :
    routePacket p x src = if x.pair.bridgeUp then (y, some (k', own)) else (x, none) := by
  simp only [routePacket, htake, hhop]

theorem routePacket_of_link_down (hhop : routeHop p x src k = .link l k') (hstate : (y.link l).state ≠ .up) :
    routePacket p x src = (y.linkCount l .torDropCnt 1, none) := by
  simp only [routePacket, htake, hhop]
  exact if_pos hstate

theorem routePacket_of_link_up (hhop : routeHop p x src k = .link l k') (hstate : (y.link l).state = .up) :
    routePacket p x src = (((if own then y else y.linkCount l .torFwdPktCnt 1).updLink l fun t =>
      { t with txQ := t.txQ ++ [k'] }).linkSend l, none) := by
  simp only [routePacket, htake, hhop]
  exact if_neg (not_not_intro hstate)

end

/-- No link of a ring is broken: every way is clear. -/
theorem spanClear_zero (ring a n : Nat) : spanClear 0 ring a n = true := by
  simp [spanClear, bitOf]

/-- On a ring without broken links the shorter way is taken, the plus way where both are as long (R407). -/
theorem chooseDir_zero (c t ring : Nat) :
    chooseDir c t ring 0 = some (decide (ring - (t + ring - c) % ring < (t + ring - c) % ring)) := by
  simp only [chooseDir, spanClear_zero]
  by_cases h : (t + ring - c) % ring ≤ ring - (t + ring - c) % ring
  · simp [h, Nat.not_lt.mpr h]
  · simp [h, Nat.lt_of_not_le h]

/-! ### The target engine (R416, R420, R421) -/

/-- The target has counted a request and queued its answer. -/
def Die.answered (z : Die) (q : Packet) (st fclass old : Nat) (data : List Byte) : Die :=
  let y := z.count (if st = 0 then .torTgtCnt else .torTgtFaultCnt)
  ({ y with torus.localQ := y.torus.localQ ++
    [replyPacket y q (if q.op = pkGet ∧ st = 0 then pkData else pkAck) st fclass old data] } : Die).tick

/-- A refusal is counted as one, and acknowledged without data. -/
theorem Die.answered_of_refused (z : Die) (q : Packet) {st : Nat} (hst : st ≠ 0) (fclass old : Nat) (data : List Byte) :
    z.answered q st fclass old data = let y := z.count .torTgtFaultCnt
      ({ y with torus.localQ := y.torus.localQ ++ [replyPacket y q pkAck st fclass old data] } : Die).tick := by
  simp only [Die.answered, hst, and_false, if_false]

section
variable {p x : Die} {port : Fin 7} {q : Packet} {rest : List (Fin 7 × Packet)}
  (hqueue : x.torus.targetQ = (port, q) :: rest) (hthaw : x.torus.frozenTgt = none) (hrun : x.running = true)
  (hhold : x.dev ≠ .hold)
include hqueue hthaw hrun hhold

/-- The request in front is taken and answered by its verdict. -/
theorem remoteTargetDie_eq : remoteTargetDie p x =
    let y : Die := { x with torus.targetQ := rest }
    let r := if x.dev ≠ .ready ∧ x.dev ≠ .active then (y, rsNotActive, 0, 0, [])
      else if x.pair.role = .standby then (y, rsNotActive, 0, 0, [])
      else if x.ctxState q.ctx = .free ∨ x.ctxState q.ctx = .faulted ∨ q.ctx = 0 then (y, rsNoContext, 0, 0, [])
      else targetPerform p y port q
    r.1.answered q r.2.1 r.2.2.1 r.2.2.2.1 r.2.2.2.2 := by
  simp only [remoteTargetDie, hqueue]
  rw [if_neg (by simp [hthaw, hrun, hhold])]
  simp only [← apply_ite]
  rfl

theorem remoteTargetDie_of_inactive (hdev : (x.dev ≠ .ready ∧ x.dev ≠ .active) ∨ x.pair.role = .standby) :
    remoteTargetDie p x = ({ x with torus.targetQ := rest } : Die).answered q rsNotActive 0 0 [] := by
  rw [remoteTargetDie_eq hqueue hthaw hrun hhold]
  by_cases hoff : x.dev ≠ .ready ∧ x.dev ≠ .active
  · simp only [if_pos hoff]
  · simp only [if_neg hoff, if_pos (hdev.resolve_left hoff)]

variable (hdev : x.dev = .ready ∨ x.dev = .active) (hrole : x.pair.role ≠ .standby)
include hdev hrole

theorem remoteTargetDie_of_noContext (hctx : x.ctxState q.ctx = .free ∨ x.ctxState q.ctx = .faulted ∨ q.ctx = 0) :
    remoteTargetDie p x = ({ x with torus.targetQ := rest } : Die).answered q rsNoContext 0 0 [] := by
  rw [remoteTargetDie_eq hqueue hthaw hrun hhold]
  simp only [if_neg (not_and_or.mpr (hdev.imp not_not_intro not_not_intro)), if_neg hrole, if_pos hctx]

theorem remoteTargetDie_of_performed {z : Die} {st fclass old : Nat} {data : List Byte}
    (hctx : ¬ (x.ctxState q.ctx = .free ∨ x.ctxState q.ctx = .faulted ∨ q.ctx = 0))
    (hperform : targetPerform p { x with torus.targetQ := rest } port q = (z, st, fclass, old, data)) :
    remoteTargetDie p x = z.answered q st fclass old data := by
  rw [remoteTargetDie_eq hqueue hthaw hrun hhold]
  simp only [if_neg (not_and_or.mpr (hdev.imp not_not_intro not_not_intro)), if_neg hrole, if_neg hctx, hperform]

end

end Sys2Proof.Machine
end

section
/-! PROOFS. O49: the router, the target engine and the requester (R404, R407 to R427). -/
namespace Sys2Proof.Machine

/-! ### The requester's rings and records (R413 to R418) -/

/-- A context is paired: bit 0 of its ATTR. Its records are denied (R426). -/
def Die.pairedCtx (x : Die) (c : Nat) : Bool :=
  match x.ctx? c with
  | some t => t.attr.getLsbD 0
  | none => false

/-- A record of a ring as it is read, before any of it is sent. -/
def freshRec (c j : Nat) (b : List Byte) : RemRec :=
  { ctx := c, num := j, bytes := b, total := recTrans b, sent := 0, results := [], complete := false }

/-- What becomes of a record that has been read: it completes at once where it is bad, of a paired context, or a FENCE that is
clear; a FENCE that is not clear waits, and every other record is sent. -/
def issueRead (p : Die) (c j : Nat) : Die × Except Byte (List Byte) → Die
  | (y, .error _) => y
  | (y, .ok b) =>
    if !recLegal b then completeRec p (writeCons p (y.count .torBadRecordCnt) c j) (freshRec c j b) rsBadRecord 0 0
    else if y.pairedCtx c then completeRec p (writeCons p y c j) (freshRec c j b) rsPairedDenied 0 0
    else if recOp b = 5 then
      if fenceClear y c j b then completeRec p (writeCons p y c j) (freshRec c j b) rsOk 0 0 else y
    else settleRec p (sendAll p 4097 { y with torus.recs := y.torus.recs ++ [freshRec c j b] } c j) c j

section
variable {p x : Die} {c : Nat}

theorem ringPollDie_of_off (hoff : requesterOn x = false) : ringPollDie p x = x :=
  if_pos (by rw [hoff]; rfl)

theorem recordIssueDie_of_off (hoff : requesterOn x = false) : recordIssueDie c p x = x :=
  if_pos (by rw [hoff]; rfl)

/-- A requester that works polls each ring that is on, in ascending context order (R414). -/
theorem ringPollDie_of_on (hon : requesterOn x = true) : ringPollDie p x =
    ((List.range 1024).filter fun c => x.torus.rings.any fun r => r.ctx == c && ringOn r).foldl (fun y c =>
      match y.torus.rings.find? fun r => r.ctx == c with
      | none => y
      | some r => match reqRead p y c (ringBase r) (if r.known then 8 else 16) with
        | (y, .ok bs) => y.updRing c fun r =>
          { r with prod := fieldNat bs 0 8, cons := if r.known then r.cons else fieldNat bs 8 8, known := true }
        | (y, .error _) => y) x :=
  if_neg (by rw [hon]; decide)

variable {ring : Ring} (hon : requesterOn x = true) (hring : (x.torus.rings.find? fun r => r.ctx == c) = some ring)
include hon hring

theorem recordIssueDie_of_ring_off (hoff : ringOn ring = false ∨ ring.known = false) : recordIssueDie c p x = x := by
  rw [recordIssueDie, if_neg (by rw [hon]; decide)]
  simp only [hring]
  exact if_pos (by obtain h | h := hoff <;> simp [h])

variable (hringOn : ringOn ring = true) (hknown : ring.known = true)
include hringOn hknown

/-- The requester goes on with a record that it is sending, and reads the next one otherwise. -/
theorem recordIssueDie_of_ring_on : recordIssueDie c p x = let j := ring.cons + 1
    if x.torus.recs.any fun r => r.ctx == c && r.num == j then settleRec p (sendAll p 4097 x c j) c j
    else if ring.prod < j then x
    else issueRead p c j (reqRead p x c (ringBase ring + 64 + 64 * ((j - 1) % 2 ^ ringLog ring)) 64) := by
  rw [recordIssueDie, if_neg (by rw [hon]; decide)]
  simp only [hring]
  rw [if_neg (by simp [hringOn, hknown])]
  obtain ⟨y, _ | b⟩ := reqRead p x c (ringBase ring + 64 + 64 * ((ring.cons + 1 - 1) % 2 ^ ringLog ring)) 64 <;> rfl

theorem recordIssueDie_of_sending (hrec : ∃ r ∈ x.torus.recs, r.ctx = c ∧ r.num = ring.cons + 1) :
    recordIssueDie c p x = settleRec p (sendAll p 4097 x c (ring.cons + 1)) c (ring.cons + 1) :=
  (recordIssueDie_of_ring_on hon hring hringOn hknown).trans (if_pos (by simpa using hrec))

theorem recordIssueDie_of_new (hnew : ∀ r ∈ x.torus.recs, r.ctx = c → r.num ≠ ring.cons + 1) :
    recordIssueDie c p x = if ring.prod < ring.cons + 1 then x else issueRead p c (ring.cons + 1)
      (reqRead p x c (ringBase ring + 64 + 64 * ((ring.cons + 1 - 1) % 2 ^ ringLog ring)) 64) :=
  (recordIssueDie_of_ring_on hon hring hringOn hknown).trans (if_neg (by simpa using hnew))

end

/-! ### Replies and timeouts (R421, R424, R425) -/

/-- The local address of the record of a transaction. -/
def Die.localOf (x : Die) (t : Trans) : Nat :=
  ((x.torus.recs.find? fun r => r.ctx == t.ctx && r.num == t.recNum).map fun r => recLocal r.bytes).getD 0

theorem Die.localOf_of_rec {x : Die} {t : Trans} {r : RemRec}
    (hrec : (x.torus.recs.find? fun r => r.ctx == t.ctx && r.num == t.recNum) = some r) :
    x.localOf t = recLocal r.bytes := by
  rw [Die.localOf, hrec]
  rfl

/-- How a transaction ends whose reply was written to the requester's memory, or faulted there. -/
def endWritten (p : Die) (t : Trans) : Die × Option Byte → Die
  | (x, none) => endTrans p x t rsOk 0 t.len
  | (x, some cls) => endTrans p x t rsLocalFault cls.toNat 0

theorem endWritten_eq (p : Die) (t : Trans) (wr : Die × Option Byte) : endWritten p t wr =
    match wr.2 with
    | none => endTrans p wr.1 t rsOk 0 t.len
    | some cls => endTrans p wr.1 t rsLocalFault cls.toNat 0 := by
  obtain ⟨z, _ | cls⟩ := wr <;> rfl

section
variable {p x : Die} {q : Packet} {rest : List Packet} (hqueue : x.torus.replyQ = q :: rest) (hrun : x.running = true)
  (hhold : x.dev ≠ .hold)
include hqueue hrun hhold

theorem remoteReplyDie_of_unknown (hlate : (x.torus.trans.find? fun t => t.tag == q.tag) = none) :
    remoteReplyDie p x = ({ x with torus.replyQ := rest } : Die).count .torLateCnt := by
  simp only [remoteReplyDie, hqueue]
  rw [if_neg (by simp [hrun, hhold])]
  simp only [hlate]

variable {t : Trans} (htrans : (x.torus.trans.find? fun t => t.tag == q.tag) = some t)
include htrans

/-- A reply that comes in time ends its transaction, once the data that it brings for the requester's memory is written. -/
theorem remoteReplyDie_of_known : remoteReplyDie p x = let y : Die := { x with torus.replyQ := rest }
    if x.passed t.sent (ctxTimeout x t.ctx) then y.count .torLateCnt
    else if q.aux = rsOk ∧ (t.op = 3 ∨ (t.op = 4 ∧ x.localOf t ≠ 0)) then
      endWritten p t (reqWrite p (y.count .torRspCnt) t.ctx (x.localOf t + t.ofs)
        (if t.op = 3 then q.data else leBytes t.len q.opnd))
    else endTrans p (y.count .torRspCnt) t q.aux (fieldNat q.head 12 1) (if q.aux = rsOk then t.len else 0) := by
  simp only [remoteReplyDie, hqueue]
  rw [if_neg (by simp [hrun, hhold])]
  simp only [htrans]
  rfl

theorem remoteReplyDie_of_late (hlate : x.passed t.sent (ctxTimeout x t.ctx) = true) :
    remoteReplyDie p x = ({ x with torus.replyQ := rest } : Die).count .torLateCnt :=
  (remoteReplyDie_of_known hqueue hrun hhold htrans).trans (if_pos hlate)

variable (hearly : x.passed t.sent (ctxTimeout x t.ctx) = false)
include hearly

theorem remoteReplyDie_of_plain (hplain : q.aux ≠ 0 ∨ (t.op ≠ 3 ∧ t.op ≠ 4)) :
    remoteReplyDie p x = endTrans p (({ x with torus.replyQ := rest } : Die).count .torRspCnt) t q.aux
      (fieldNat q.head 12 1) (if q.aux = 0 then t.len else 0) := by
  rw [remoteReplyDie_of_known hqueue hrun hhold htrans]
  refine (if_neg (Bool.eq_false_iff.mp hearly)).trans (if_neg ?_)
  rintro ⟨hok, hop⟩
  obtain ⟨hget, hatomic⟩ := hplain.resolve_left (not_not_intro hok)
  exact hop.elim hget fun h => hatomic h.1

theorem remoteReplyDie_of_data {r : RemRec} (hok : q.aux = 0)
    (hrec : (x.torus.recs.find? fun r => r.ctx == t.ctx && r.num == t.recNum) = some r)
    (hop : t.op = 3 ∨ (t.op = 4 ∧ recLocal r.bytes ≠ 0)) :
    remoteReplyDie p x = endWritten p t (reqWrite p (({ x with torus.replyQ := rest } : Die).count .torRspCnt) t.ctx
      (recLocal r.bytes + t.ofs) (if t.op = 3 then q.data else leBytes t.len q.opnd)) := by
  rw [remoteReplyDie_of_known hqueue hrun hhold htrans, Die.localOf_of_rec hrec]
  exact (if_neg (Bool.eq_false_iff.mp hearly)).trans (if_pos ⟨hok, hop⟩)

end

section
variable {p x : Die} {tag : Nat}

theorem remoteTimeoutDie_of_unknown (htrans : (x.torus.trans.find? fun t => t.tag == tag) = none) :
    remoteTimeoutDie tag p x = x := by
  simp only [remoteTimeoutDie, htrans]

variable {t : Trans} (htrans : (x.torus.trans.find? fun t => t.tag == tag) = some t)
include htrans

theorem remoteTimeoutDie_of_early (hearly : x.passed t.sent (ctxTimeout x t.ctx) = false) :
    remoteTimeoutDie tag p x = x := by
  simp only [remoteTimeoutDie, htrans]
  exact if_pos (by rw [hearly]; rfl)

/-- A transaction that is late ends with TIMEOUT, recorded against the running jobs of its context that have a folded share
(R339, R424). -/
theorem remoteTimeoutDie_of_late (hlate : x.passed t.sent (ctxTimeout x t.ctx) = true) :
    remoteTimeoutDie tag p x =
      let y := ((x.flag .torFlags 2).count .torTimeoutCnt).note clsRemoteTimeout .requester
        (FaultInfo.plain t.ctx (t.tag + 65536 * t.target.toNat))
      endTrans p { y with jobs.list := y.jobs.list.map fun j =>
        if j.ctx = t.ctx ∧ j.state = .running ∧ (j.shares.any fun h => decide (h.state = .folded)) = true then
          { j with timedOut := true } else j } t rsTimeout 0 0 := by
  simp only [remoteTimeoutDie, htrans]
  exact if_neg (by rw [hlate]; decide)

end

/-- A record that names no completion address leaves the requester, and nothing is written (R421). -/
theorem recs_completeRec (p y : Die) {r : RemRec} (hva : recCompVa r.bytes = 0) (st fclass done : Nat) :
    (completeRec p y r st fclass done).torus.recs = y.torus.recs.filter fun q => !(q.ctx == r.ctx && q.num == r.num) := by
  simp only [completeRec, if_pos hva]

/-- Settles O49, row by row, from what each makes of the die. The CTX of a reply is a free value (log 158); CONS is read beside
PROD where the requester does not know its own (log 157). -/
theorem routerTargetAndRequester : Obligations.RouterTargetAndRequester := by
  unfold Obligations.RouterTargetAndRequester
  intro s d x p
  refine ⟨fun src htake => exec_packetRoute_of_kept (routePacket_of_empty htake), fun src k own y htake => ?_,
    fun c t ring _ _ _ => chooseDir_zero c t ring, fun port q rest hqueue hthaw hrun hhold => ?_,
    fun hoff => ⟨nextOn_of_unchanged (ringPollDie_of_off hoff), fun c => nextOn_of_unchanged (recordIssueDie_of_off hoff)⟩,
    fun hon => nextOn_of_eq ((ringPollDie_of_on hon).trans rfl), fun c ring hon hring => ?_,
    fun c ring y b hon hring henabled hknown => ?_, fun q rest hqueue hrun hhold => ?_,
    fun tag hnone => nextOn_of_unchanged (remoteTimeoutDie_of_unknown hnone),
    fun tag t htrans => ⟨fun hearly => nextOn_of_unchanged (remoteTimeoutDie_of_early htrans hearly),
      fun hlate => nextOn_of_eq (remoteTimeoutDie_of_late htrans hlate)⟩,
    fun y r hva => recs_completeRec p y hva⟩
  · refine ⟨fun hdrop => ?_, fun hdeliver => ?_, fun k' hbridge hup => ?_, fun k' hbridge hdown => ?_,
      fun l k' hlink hstate => ?_, fun l k' hlink hstate => ?_⟩
    · exact exec_packetRoute_of_kept (routePacket_of_drop htake hdrop)
    · exact exec_packetRoute_of_kept (routePacket_of_deliver htake hdeliver)
    · exact exec_packetRoute_of_crossed ((routePacket_of_bridge htake hbridge).trans (if_pos hup))
    · exact exec_packetRoute_of_kept ((routePacket_of_bridge htake hbridge).trans (if_neg (Bool.eq_false_iff.mp hdown)))
    · exact exec_packetRoute_of_kept (routePacket_of_link_down htake hlink hstate)
    · exact exec_packetRoute_of_kept (routePacket_of_link_up htake hlink hstate)
  · intro y refuse
    refine ⟨fun hdev => nextOn_of_eq ?_, fun hdev hrole => ⟨fun hctx => nextOn_of_eq ?_,
      fun z st fclass old data hfree hfaulted hctx hperform => nextOn_of_eq ?_⟩⟩
    · exact (remoteTargetDie_of_inactive hqueue hthaw hrun hhold hdev).trans
        (Die.answered_of_refused y q (by decide) 0 0 [])
    · exact (remoteTargetDie_of_noContext hqueue hthaw hrun hhold hdev hrole hctx).trans
        (Die.answered_of_refused y q (by decide) 0 0 [])
    · exact remoteTargetDie_of_performed hqueue hthaw hrun hhold hdev hrole (by simp [hfree, hfaulted, hctx]) hperform
  · refine ⟨fun hoff => ?_, fun henabled hknown => ⟨fun hrec => ?_, fun hnew hempty => ?_⟩⟩
    · exact nextOn_of_unchanged (recordIssueDie_of_ring_off hon hring hoff)
    · exact nextOn_of_eq (recordIssueDie_of_sending hon hring henabled hknown hrec)
    · exact nextOn_of_unchanged ((recordIssueDie_of_new hon hring henabled hknown hnew).trans (if_pos hempty))
  · intro j hnew hposted hread r paired
    have hissue : recordIssueDie c p x = issueRead p c j (y, .ok b) := by
      rw [recordIssueDie_of_new hon hring henabled hknown hnew, if_neg (Nat.not_lt.mpr hposted), hread]
    have hgood := fun hlegal : recLegal b = true => hissue.trans (if_neg (by rw [hlegal]; decide))
    have hown := fun (hlegal : recLegal b = true) (hpaired : paired = false) =>
      (hgood hlegal).trans (if_neg (Bool.eq_false_iff.mp hpaired))
    exact ⟨fun hbad => nextOn_of_eq (hissue.trans (if_pos (by rw [hbad]; rfl))),
      fun hlegal hpaired => nextOn_of_eq ((hgood hlegal).trans (if_pos hpaired)),
      fun hlegal hpaired hfence => nextOn_of_eq ((hown hlegal hpaired).trans (if_pos hfence)),
      fun hlegal hpaired hdata => nextOn_of_eq ((hown hlegal hpaired).trans (if_neg hdata))⟩
  · refine ⟨fun hnone => nextOn_of_eq (remoteReplyDie_of_unknown hqueue hrun hhold hnone), fun t htrans =>
      ⟨fun hlate => nextOn_of_eq (remoteReplyDie_of_late hqueue hrun hhold htrans hlate),
      fun hearly hplain => nextOn_of_eq (remoteReplyDie_of_plain hqueue hrun hhold htrans hearly hplain),
      fun r hearly hok hrec hop => ?_⟩⟩
    exact nextOn_of_eq ((remoteReplyDie_of_data hqueue hrun hhold htrans hearly hok hrec hop).trans (endWritten_eq p t _))

end Sys2Proof.Machine
end

section
/-! PROOFS. O1 and O3: a step runs the front command, and every command answers a next state. -/
namespace Sys2Proof.Machine

/-- Settles O1, by the definition of a step. -/
theorem stepRunsTheFrontCommand : Obligations.StepRunsTheFrontCommand := fun _ _ _ => rfl

/-- Settles O3: the walk through all commands that the invariant of the block needed answers a state for each. That an event
whose condition does not hold answers the state unchanged is log 2. -/
theorem everyCommandAnswersANextState : Obligations.EveryCommandAnswersANextState := by
  unfold Obligations.EveryCommandAnswersANextState
  intro c s
  obtain ⟨t, hanswer, -⟩ := answers_exec s c
  exact ⟨t, hanswer⟩

end Sys2Proof.Machine
end

section
/-! PROOFS. O2: a step takes one command from the queue, or a local µs passes (R454). -/
namespace Sys2Proof.Machine

/-! ### The queue -/

/-- A command neither takes another command from the queue nor puts one into it. -/
theorem State.Evolves.pending {s t : State} (h : s.Evolves t) : t.pending = s.pending := by
  induction h with
  | refl => rfl
  | setDie d x _ ih => exact (State.setDie_pending _ d x).trans ih
  | shift sel out hir _ ih => exact ih

theorem pending_of_step {s t : State} (hstep : step s = .next t) : t.pending = s.pending.tail := by
  obtain ⟨hq, hidle⟩ | ⟨c, rest, hq, hexec⟩ := step_cases s
  · obtain rfl : s.idle = t := Host.Outcome.next.inj (hidle.symm.trans hstep)
    simp [State.idle, hq]
  · obtain ⟨u, hu, hevolves⟩ := answers_exec { s with pending := rest } c
    obtain rfl : u = t := Host.Outcome.next.inj (hu.symm.trans (hexec.symm.trans hstep))
    simp [hevolves.pending, hq]

/-! ### A local µs -/

/-- What a local µs leaves alone: everything but local time, the three counters of cycles waited, the running times of
folds, the ERDYs and the strap of the outputs. -/
structure Die.KeepsIdling (x y : Die) : Prop where
  regI : ∀ r is, (∀ q ∈ [Reg.locMrFullCnt, .l2cMrFullCnt, .gfxIlkWaitCnt], r.addr is ≠ q.addr []) → y.regI r is = x.regI r is
  shadow : y.shadow = x.shadow
  cmd : y.cmd = x.cmd
  press : y.press = x.press
  dram : y.dram = x.dram
  xlt : y.xlt = x.xlt
  flt : y.flt = x.flt
  jobs : y.jobs = x.jobs
  cache : y.cache = x.cache
  torus : y.torus = x.torus
  sec : y.sec = x.sec
  flash : y.io.flash = x.io.flash
  csi : y.io.csi = x.io.csi
  tdm : y.io.tdm = x.io.tdm
  ufs : y.io.ufs = x.io.ufs
  tlm : y.sh.tlm = x.sh.tlm

theorem Die.KeepsIdling.trans {x y z : Die} (h : x.KeepsIdling y) (h' : y.KeepsIdling z) : x.KeepsIdling z := by
  obtain ⟨r, h1, h2, h3, h4, h5, h6, h7, h8, h9, h10, h11, h12, h13, h14, h15⟩ := h
  exact ⟨fun q is hq => (h'.regI q is hq).trans (r q is hq), h'.shadow.trans h1, h'.cmd.trans h2, h'.press.trans h3,
    h'.dram.trans h4, h'.xlt.trans h5, h'.flt.trans h6, h'.jobs.trans h7, h'.cache.trans h8, h'.torus.trans h9,
    h'.sec.trans h10, h'.flash.trans h11, h'.csi.trans h12, h'.tdm.trans h13, h'.ufs.trans h14, h'.tlm.trans h15⟩

theorem Die.keepsIdling_countWaits (x : Die) : x.KeepsIdling x.countWaits := by
  unfold Die.countWaits
  split
  · constructor <;> intros <;> rfl
  · refine ⟨fun r is hr => ?_, ?_, ?_, ?_, ?_, ?_, ?_, ?_, ?_, ?_, ?_, ?_, ?_, ?_, ?_, ?_⟩
    · simp only [List.forall_mem_cons, List.not_mem_nil, false_imp_iff, implies_true, and_true] at hr
      obtain ⟨hports, hinputs, hilks⟩ := hr
      simp only [Die.countN, Die.regI_countI_ne _ _ hilks, Die.regI_countI_ne _ _ hinputs, Die.regI_countI_ne _ _ hports]
    all_goals rfl

theorem Die.keepsIdling_idle (x : Die) : x.KeepsIdling x.idle := by
  unfold Die.idle
  split
  · constructor <;> intros <;> rfl
  · split
    · unfold Die.refreshOwner Die.runFoldTime
      split <;> constructor <;> intros <;> rfl
    · constructor <;> intros <;> rfl

theorem Die.keepsIdling_sendErdy (x : Die) : x.KeepsIdling x.sendErdy := by
  unfold Die.sendErdy
  split <;> constructor <;> intros <;> rfl

/-! ### Local time (R454) -/

theorem Die.countWaits_clock (x : Die) : x.countWaits.time = x.time ∧ x.countWaits.dev = x.dev ∧
    x.countWaits.power = x.power := by
  unfold Die.countWaits
  split <;> exact ⟨rfl, rfl, rfl⟩

theorem Die.running_countWaits (x : Die) : x.countWaits.running = x.running := by
  obtain ⟨-, hdev, hpower⟩ := x.countWaits_clock
  simp only [Die.running, hdev, hpower]

theorem Die.time_sendErdy (x : Die) : x.sendErdy.time = x.time := by
  unfold Die.sendErdy
  split <;> rfl

theorem Die.time_refreshOwner (x : Die) : x.refreshOwner.time = x.time := by
  unfold Die.refreshOwner
  split <;> rfl

theorem Die.time_idle_of_running {x : Die} (hrun : x.running = true) (hhold : x.dev ≠ .hold) (hsafe : x.dev ≠ .safe) :
    x.idle.time = x.time + 400 := by
  unfold Die.idle
  rw [if_neg (by simp [hhold, hsafe]), if_pos hrun]
  exact Die.time_refreshOwner _

theorem Die.time_idle_of_stopped {x : Die} (hrun : x.running = false) : x.idle.time = x.time := by
  unfold Die.idle
  split
  · rfl
  · rw [if_neg (by simp [hrun])]

/-- What a local µs makes of a die. -/
def Die.afterUs (x : Die) : Die := x.countWaits.idle.sendErdy

theorem Die.keepsIdling_afterUs (x : Die) : x.KeepsIdling x.afterUs :=
  (x.keepsIdling_countWaits.trans x.countWaits.keepsIdling_idle).trans x.countWaits.idle.keepsIdling_sendErdy

theorem Die.time_afterUs_of_running {x : Die} (hrun : x.running = true) (hhold : x.dev ≠ .hold) (hsafe : x.dev ≠ .safe) :
    x.afterUs.time = x.time + 400 := by
  obtain ⟨htime, hdev, -⟩ := x.countWaits_clock
  rw [Die.afterUs, Die.time_sendErdy, Die.time_idle_of_running (x.running_countWaits.trans hrun) (hdev ▸ hhold) (hdev ▸ hsafe),
    htime]

theorem Die.time_afterUs_of_stopped {x : Die} (hrun : x.running = false) : x.afterUs.time = x.time := by
  obtain ⟨htime, -⟩ := x.countWaits_clock
  rw [Die.afterUs, Die.time_sendErdy, Die.time_idle_of_stopped (x.running_countWaits.trans hrun), htime]

/-- Settles O2: a command changes the package only by new states of its dies and shifts of the TAP, which leave the queue
alone; a local µs keeps of a die what `Die.KeepsIdling` lists. -/
theorem aStepTakesOneCommandOrIdles : Obligations.AStepTakesOneCommandOrIdles := by
  unfold Obligations.AStepTakesOneCommandOrIdles
  refine ⟨fun s t => pending_of_step, fun s hq => ?_⟩
  obtain ⟨-, hstep⟩ | ⟨c, rest, hcons, -⟩ := step_cases s
  · have hdie (d : DieId) : s.idle.die d = { (s.die d).afterUs with id := d } := State.die_onBoth s _ d
    refine ⟨s.idle, hstep, by simp [State.idle, hq], State.onBoth_tap _ _, fun d => ?_⟩
    simp only [hdie]
    obtain ⟨hregI, hshadow, hcmd, hpress, hdram, hxlt, hflt, hjobs, hcache, htorus, hsec, hflash, hcsi, htdm, hufs, htlm⟩ :=
      (s.die d).keepsIdling_afterUs
    exact ⟨Die.time_afterUs_of_running, Die.time_afterUs_of_stopped, hregI, hshadow, hcmd, hpress, hdram, hxlt, hflt, hjobs,
      hcache, htorus, hsec, hflash, hcsi, htdm, hufs, htlm⟩
  · simp [hq] at hcons

end Sys2Proof.Machine
end

section
/-! PROOFS. O6: what reset leaves on each die (R24, R67, R454, R467, R566, R567). -/
namespace Sys2Proof.Machine

/-- A die as the power-on reset leaves it: an unlisted register has its reset value, an unlisted byte is zero. -/
theorem regI_die_reset (d : DieId) (r : Reg) (is : List Nat) : (State.reset.die d).regI r is = r.info.reset ∧
    (State.reset.die d).shadowI r is = r.info.reset := by
  cases d <;> exact ⟨rfl, rfl⟩

theorem memories_die_reset (d : DieId) (pa : Nat) : Mem.byte (State.reset.die d).dram.cells pa = 0 ∧
    Mem.byte (State.reset.die d).sh.tlm pa = 0 ∧ Mem.byte (State.reset.die d).cache.l2carve pa = 0 := by
  cases d <;> exact ⟨rfl, rfl, rfl⟩

theorem links_die_reset (d : DieId) (l : Fin 3) : ((State.reset.die d).torus.links[l]).state = .disabled := by
  cases d <;> exact congrArg Link.state (Vector.getElem_replicate l.isLt)

theorem pipes_die_reset (d : DieId) (p : Fin 4) : ((State.reset.die d).pipes[p]).en = false := by
  cases d <;> exact congrArg Pipe.en (Vector.getElem_replicate p.isLt)

/-- Settles O6: the state of reset lists no register, no byte and nothing in progress. -/
theorem resetLeavesTheStatedValues : Obligations.ResetLeavesTheStatedValues := by
  unfold Obligations.ResetLeavesTheStatedValues
  intro d
  refine ⟨regI_die_reset d, memories_die_reset d, ?_⟩
  cases d <;> exact ⟨rfl, rfl, rfl, rfl, rfl, rfl, rfl, rfl, rfl, rfl, rfl, rfl, rfl, rfl, rfl, rfl, rfl,
    links_die_reset _, pipes_die_reset _, rfl, rfl⟩

end Sys2Proof.Machine
end

section
/-! PROOFS. O51: the reference clock and the arbiters (R455, R460 to R466). -/
namespace Sys2Proof.Machine

/-! ### Entering SAFE (R485) -/

@[simp] theorem Die.regs_enterSafe (x : Die) : x.enterSafe.regs = x.regs := by
  unfold Die.enterSafe
  split <;> rfl

@[simp] theorem Die.reg_enterSafe (x : Die) (r : Reg) : x.enterSafe.reg r = x.reg r := Die.reg_of_regs x.regs_enterSafe r

@[simp] theorem Die.press_enterSafe (x : Die) : x.enterSafe.press = x.press := by
  unfold Die.enterSafe
  split <;> rfl

theorem Die.clock_enterSafe (x : Die) : x.enterSafe.power.holdover = x.power.holdover ∧
    x.enterSafe.power.refOk = x.power.refOk := by
  unfold Die.enterSafe
  split <;> exact ⟨rfl, rfl⟩

/-! ### A lost reference (R455) -/

/-- The die in holdover, the loss flagged, counted and recorded. -/
def Die.inHoldover (x : Die) : Die :=
  ((({ x with power.refOk := false, power.holdover := true } : Die).flag .clkFlags 0).count .clkRefLostCnt).note clsRefClock
    .clockCtl (FaultInfo.plain 0 0)

theorem refLostDie_of_locked {x : Die} (hlock : x.power.pllLock = true) (hover : x.power.holdover = false)
    (hon : x.dev ≠ .off) (hreset : x.power.inReset = false) : refLostDie x = x.inHoldover.enterSafe := by
  rw [refLostDie, if_neg (by simp [hlock, hover, hon, hreset])]
  rfl

theorem reg_inHoldover_flags (x : Die) : (x.inHoldover.reg .clkFlags).getLsbD 0 = true := by
  rw [Die.inHoldover, Die.reg_note, Die.reg_count_ne _ (by decide)]
  exact Die.getLsbD_reg_flag _ _ (by decide)

theorem reg_inHoldover_count (x : Die) : x.inHoldover.reg .clkRefLostCnt = x.reg .clkRefLostCnt + 1 := by
  rw [Die.inHoldover, Die.reg_note, Die.reg_count, Die.reg_flag_ne _ _ (by decide)]
  rfl

/-! ### One cycle of an arbiter (R461, R462) -/

theorem lookup_bumpUsed (l : List (Nat × Nat)) (k : Nat) : (bumpUsed l k).lookup k = some ((l.lookup k).getD 0 + 1) := by
  unfold bumpUsed
  induction l with
  | nil => simp
  | cons e l ih =>
    obtain ⟨a, n⟩ := e
    by_cases ha : k = a
    · subst ha
      simp [updWhere]
    · have hne : (k == a) = false := by simpa using ha
      have hne' : (a == k) = false := by simpa using Ne.symm ha
      simp only [List.any_cons, hne', Bool.false_or, List.lookup_cons, hne]
      rw [← ih]
      split <;> simp [updWhere, List.lookup_cons, hne, Ne.symm ha]

theorem usedBy_bumpUsed (t : Arb) (k : Nat) : ({ t with used := bumpUsed t.used k } : Arb).usedBy k = t.usedBy k + 1 := by
  simp only [Arb.usedBy, lookup_bumpUsed, Option.getD_some]

/-- An input has a ready request. -/
def arbReady (ready : Word) (k : Nat) : Bool := decide (k < 16) && ready.getLsbD k

/-- A HIGH input has used up its quota. -/
def Arb.maskedAt (t : Arb) (ready : Word) (k : Nat) : Bool := t.isHigh ready k && decide (t.quota ≤ t.usedBy k)

section
variable {r : ArbRun} {ready : Word} (hfirst : r.arb.abandoned = none)

include hfirst

theorem arbCycle_of_high {k : Nat} (hk : firstFrom (arbInputs r.arb.id) r.arb.highPtr
    (fun k => arbReady ready k && r.arb.isHigh ready k && !r.arb.maskedAt ready k) = some k) :
    (arbCycle r ready).arb = { r.arb with highPtr := (k + 1) % arbInputs r.arb.id, used := bumpUsed r.arb.used k } := by
  simp only [arbReady, Arb.maskedAt] at hk
  simp only [arbCycle, hfirst, Option.isSome_none, Bool.false_eq_true, if_false, hk]

section
variable (hhigh : firstFrom (arbInputs r.arb.id) r.arb.highPtr
    (fun k => arbReady ready k && r.arb.isHigh ready k && !r.arb.maskedAt ready k) = none)
include hhigh

theorem arbCycle_of_normal {k : Nat} (hk : firstFrom (arbInputs r.arb.id) r.arb.normPtr
    (fun k => arbReady ready k && !r.arb.isHigh ready k) = some k) :
    (arbCycle r ready).arb = { r.arb with normPtr := (k + 1) % arbInputs r.arb.id } := by
  simp only [arbReady, Arb.maskedAt] at hk hhigh
  simp only [arbCycle, hfirst, Option.isSome_none, Bool.false_eq_true, if_false, hhigh, hk]

variable (hnorm : firstFrom (arbInputs r.arb.id) r.arb.normPtr (fun k => arbReady ready k && !r.arb.isHigh ready k) = none)
include hnorm

theorem arbCycle_of_masked {k : Nat} (hk : firstFrom (arbInputs r.arb.id) r.arb.highPtr
    (fun k => arbReady ready k && r.arb.maskedAt ready k) = some k) :
    (arbCycle r ready).arb = { r.arb with highPtr := (k + 1) % arbInputs r.arb.id } ∧ (arbCycle r ready).idle = r.idle + 1 := by
  simp only [arbReady, Arb.maskedAt] at hk hhigh hnorm
  simp only [arbCycle, hfirst, Option.isSome_none, Bool.false_eq_true, if_false, hhigh, hnorm, hk, and_self]

theorem arbCycle_of_none (hmasked : firstFrom (arbInputs r.arb.id) r.arb.highPtr
    (fun k => arbReady ready k && r.arb.maskedAt ready k) = none) : arbCycle r ready = r := by
  simp only [arbReady, Arb.maskedAt] at hmasked hhigh hnorm
  simp only [arbCycle, hfirst, Option.isSome_none, Bool.false_eq_true, if_false, hhigh, hnorm, hmasked]

end
end

/-! ### Turn hints (R464) -/

/-- How many requesters ranked ahead the code of a turn hint stands for at least. -/
def hintBound (c : Nat) : Nat := [0, 1, 2, 4, 8, 16, 32, 64].getD c 0

theorem hintBound_mono : ∀ c < 8, ∀ i ≤ c, hintBound i ≤ hintBound c := by decide

theorem filter_range_le : ∀ c < 8, ((List.range 8).filter fun i => decide (i ≤ c)).length - 1 = c := by decide

theorem turnCode_of_bounds {n c : Nat} (hc : c < 8) (hlo : hintBound c ≤ n) (hhi : c = 7 ∨ n < hintBound (c + 1)) :
    turnCode n = BitVec.ofNat 3 c := by
  have hle : ∀ i ∈ List.range 8, decide (hintBound i ≤ n) = decide (i ≤ c) := fun i hi => by
    have hi8 := List.mem_range.mp hi
    by_cases hic : i ≤ c
    · simp [hic, (hintBound_mono c hc i hic).trans hlo]
    · have hnext := hintBound_mono i hi8 (c + 1) (by omega)
      have hlt : ¬ hintBound i ≤ n := by omega
      simp [hic, hlt]
  rw [turnCode, ← filter_range_le c hc, ← List.filter_congr hle]
  rfl

theorem turnCode_eq (n : Nat) : turnCode n = (if n < 1 then 0 else if n < 2 then 1 else if n < 4 then 2 else if n < 8 then 3
    else if n < 16 then 4 else if n < 32 then 5 else if n < 64 then 6 else 7) := by
  split_ifs with h1 h2 h4 h8 h16 h32 h64
  · exact turnCode_of_bounds (c := 0) (by decide) (Nat.zero_le n) (.inr h1)
  · exact turnCode_of_bounds (c := 1) (by decide) (Nat.le_of_not_lt h1) (.inr h2)
  · exact turnCode_of_bounds (c := 2) (by decide) (Nat.le_of_not_lt h2) (.inr h4)
  · exact turnCode_of_bounds (c := 3) (by decide) (Nat.le_of_not_lt h4) (.inr h8)
  · exact turnCode_of_bounds (c := 4) (by decide) (Nat.le_of_not_lt h8) (.inr h16)
  · exact turnCode_of_bounds (c := 5) (by decide) (Nat.le_of_not_lt h16) (.inr h32)
  · exact turnCode_of_bounds (c := 6) (by decide) (Nat.le_of_not_lt h32) (.inr h64)
  · exact turnCode_of_bounds (c := 7) (by decide) (Nat.le_of_not_lt h64) (.inl rfl)

theorem mem_arbHints {t : Arb} {ready : Word} {i k : Nat} (h : (arbRanked t ready)[i]? = some k) :
    (t.abandoned = none → 0 < i → (k, turnCode i) ∈ arbHints t ready) ∧
    (t.abandoned.isSome = true → (k, turnCode (i + 1)) ∈ arbHints t ready) := by
  obtain ⟨hi, hget⟩ := List.getElem?_eq_some_iff.mp h
  constructor
  · intro hnone hpos
    obtain ⟨j, rfl⟩ := Nat.exists_eq_succ_of_ne_zero hpos.ne'
    simp only [arbHints, hnone, Option.isSome_none, Bool.false_eq_true, if_false]
    exact List.mem_iff_getElem?.mpr ⟨j, by simp [hi, hget]⟩
  · intro hsome
    simp only [arbHints, hsome, if_true]
    exact List.mem_map.mpr ⟨i, List.mem_range.mpr hi, by simp [hi, hget]⟩

/-! ### The rows -/

/-- Settles O51, row by row; a cycle of an arbiter by which of its three pointers' turns finds a ready input. -/
theorem referenceAndArbiters : Obligations.ReferenceAndArbiters := by
  unfold Obligations.ReferenceAndArbiters
  intro s d
  refine ⟨fun hlock hover hon hreset => ?_, fun a ready hrun => ?_, fun r ready hfirst => ⟨fun k hk => ?_, fun hhigh k hk => ?_,
    fun hhigh hnorm => ⟨fun k hk => ?_, fun hmasked => ?_⟩⟩, fun r ready => ⟨rfl, fun i k => mem_arbHints⟩, turnCode_eq,
    fun a holding hrun => ⟨fun hno => ?_, fun hok => ⟨?_, fun m => ?_⟩⟩, fun a m hrun => ⟨fun hbusy => ?_, fun hidle => ?_⟩⟩
  · refine ⟨_, nextOn_of_eq (refLostDie_of_locked hlock hover hon hreset), ?_⟩
    rw [State.die_setDie]
    obtain ⟨hover', href⟩ := (s.die d).inHoldover.clock_enterSafe
    refine ⟨hover', href, ?_, ?_, Die.dev_enterSafe (x := (s.die d).inHoldover), ?_⟩
    · exact (congrArg (·.getLsbD 0) (Die.reg_enterSafe _ _)).trans (reg_inHoldover_flags _)
    · exact (Die.reg_enterSafe _ _).trans (reg_inHoldover_count _)
    · exact ⟨_, congrArg Flt.reports (Die.flt_enterSafe _), rfl⟩
  · exact nextOn_of_eq (by simp only [windowEndDie, hrun, Bool.not_true, Bool.false_eq_true, if_false])
  · rw [arbCycle_of_high hfirst hk]
    exact ⟨rfl, rfl, usedBy_bumpUsed r.arb k⟩
  · exact arbCycle_of_normal hfirst hhigh hk
  · exact arbCycle_of_masked hfirst hhigh hnorm hk
  · exact arbCycle_of_none hfirst hhigh hnorm hmasked
  · exact nextOn_of_unchanged (by simp [emergencyDie, hno])
  · exact nextOn_congr (by simp [emergencyDie, hrun, hok])
  · exact nextOn_congr (by simp [emergencyDie, hrun, hok])
  · exact nextOn_of_unchanged (by simp [arbWatchdogDie, hbusy])
  · exact nextOn_congr (by simp [arbWatchdogDie, hrun, hidle])

end Sys2Proof.Machine
end

section
/-! PROOFS. O52: presses at the units, and parity of control storage and of configuration words (R468 to R473, R480,
R481). -/
namespace Sys2Proof.Machine

/-! ### A unit at its boundary (R468, R469) -/

section
variable {x : Die} {u : Nat}

theorem applyPlain_of_not_waiting (h : x.unitWaits u = false) : applyPlain u x = x := by simp [applyPlain, h]

theorem applyPlain_of_bad_shadow (h : x.unitWaits u = true) (hbad : x.shadowFails u = true) :
    applyPlain u x = x.unitRefuses u := by simp [applyPlain, h, hbad]

theorem applyPlain_of_good_shadow (h : x.unitWaits u = true) (hgood : x.shadowFails u = false) :
    applyPlain u x = x.unitApplies u := by simp [applyPlain, h, hgood]

end

/-- The units that apply a press without checks of their own: the clusters, the wringers, the front end, the scheduler, the
fabric's and the memory's arbiters, and the power unit. -/
def plainUnit (u : Nat) : Prop := u < 6 ∨ (26 ≤ u ∧ u < 36) ∨ u = 37 ∨ u = 38 ∨ u = 42

theorem exec_pressApply_plain {s : State} {d : DieId} {u : Fin 44} (hrun : (s.die d).running = true)
    (hu : plainUnit u.val) : exec (.pressApply d u) s = .next (s.onDie d (applyPlain u.val)) := by
  refine congrArg Host.Outcome.next ?_
  unfold pressApply
  simp only [hrun, Bool.not_true, Bool.false_eq_true, if_false]
  obtain hu | ⟨hlo, hhi⟩ | hu | hu | hu := hu
  · rw [if_pos hu]
  · rw [if_neg (by omega), if_neg (by omega), if_neg (by omega), if_pos hhi]
  all_goals simp [hu]

theorem exec_pressApply_refused {s : State} {d : DieId} {u : Fin 44} (hrun : (s.die d).running = true)
    (hwait : (s.die d).unitWaits u.val = true) (hbad : (s.die d).shadowFails u.val = true) (hu : u.val = 39 ∨ u.val = 40) :
    exec (.pressApply d u) s = .next (s.onDie d fun x => x.unitRefuses u.val) := by
  refine congrArg Host.Outcome.next ?_
  unfold pressApply
  simp only [hrun, Bool.not_true, Bool.false_eq_true, if_false]
  obtain hu | hu := hu
  · rw [hu] at hwait hbad ⊢
    simp [torusPress, hwait, hbad]
  · rw [hu] at hwait hbad ⊢
    refine State.onDie_congr ?_
    simp [ringsPress, applyPlain_of_bad_shadow hwait hbad, hbad]

/-- A unit that refuses a press has dealt with it, and stays concerned (R470). -/
theorem press_unitRefuses (x : Die) {u : Nat} (hu : u < 44) : (x.unitRefuses u).press.applied.getLsbD u = true ∧
    (x.unitRefuses u).press.dirty.getLsbD u = true := by
  constructor <;> exact (BitVec.getLsbD_or).trans (by rw [getLsbD_bit44_self hu, Bool.or_true])

/-! ### Registers that a group of units applies (R469) -/

theorem nodup_addr_unitRegs : ∀ u < 44, ((unitRegs u).map fun q => q.1.addr q.2).Nodup := by decide

theorem Die.regI_activate_of_not_mem {q : Reg} {js : List Nat} {rs : List (Reg × List Nat)}
    (h : q.addr js ∉ rs.map fun p => p.1.addr p.2) (x : Die) : (x.activate rs).regI q js = x.regI q js := by
  induction rs generalizing x with
  | nil => rfl
  | cons p rs ih =>
    rw [List.map_cons, List.mem_cons, not_or] at h
    obtain ⟨hp, hrs⟩ := h
    exact (ih hrs _).trans (Die.regI_setRegI_ne x p.1 q p.2 js _ hp)

/-- Registers of different addresses become active each by its own pressed word. -/
theorem Die.regI_activate_of_mem {r : Reg} {is : List Nat} {rs : List (Reg × List Nat)} (hmem : (r, is) ∈ rs)
    (hnodup : (rs.map fun p => p.1.addr p.2).Nodup) (x : Die) :
    (x.activate rs).regI r is = rwpMerge r (x.regI r is) (x.pressedI r is) := by
  induction rs generalizing x with
  | nil => simp at hmem
  | cons p rs ih =>
    obtain ⟨hp, hrs⟩ := List.nodup_cons.mp hnodup
    obtain rfl | htail := List.mem_cons.mp hmem
    · exact (Die.regI_activate_of_not_mem hp _).trans (Die.regI_setRegI x r is _)
    · have hne : r.addr is ≠ p.1.addr p.2 := fun heq => hp (List.mem_map.mpr ⟨_, htail, heq⟩)
      refine (ih htail hrs _).trans ?_
      rw [Die.regI_setRegI_ne x p.1 r p.2 is _ hne]
      rfl

/-- The unit's own mark: it has applied the press, under the press's epoch. -/
def Die.unitMarked (x : Die) (u : Nat) : Die :=
  { (x.setUnitEpoch u).unitAcks u with press.cfgBad := x.press.cfgBad.filter fun e => e.1 != u }

theorem Die.unitDone_unitMarked {x : Die} {u v : Nat} (hu : u < 44) (h : (v == u || x.unitDone v) = true) :
    (x.unitMarked u).unitDone v = true := by
  change (!x.press.behind.getLsbD v || (x.press.applied ||| bit44 u).getLsbD v) = true
  rw [BitVec.getLsbD_or]
  by_cases hvu : v = u
  · rw [hvu, getLsbD_bit44_self hu, Bool.or_true, Bool.or_true]
  · have hdone : x.unitDone v = true := by simpa [hvu] using h
    rw [← Bool.or_assoc, show (!x.press.behind.getLsbD v || x.press.applied.getLsbD v) = true from hdone, Bool.true_or]

theorem Die.unitApplies_of_last {x : Die} {u : Nat} (hu : u < 44)
    (h : (unitGroup u).all (fun v => v == u || x.unitDone v) = true) :
    x.unitApplies u = (x.unitMarked u).activate (unitRegs u) := by
  have hall : (unitGroup u).all (fun v => (x.unitMarked u).unitDone v) = true :=
    List.all_eq_true.mpr fun v hv => Die.unitDone_unitMarked hu (List.all_eq_true.mp h v hv)
  exact if_pos hall

theorem Die.unitApplies_last_spec {x : Die} {u : Nat} {r : Reg} {is : List Nat} (hu : u < 44) (hr : (r, is) ∈ unitRegs u)
    (h : (unitGroup u).all (fun v => v == u || x.unitDone v) = true) :
    (x.unitApplies u).regI r is = (x.regI r is &&& ~~~r.info.rwp) ||| (x.pressedI r is &&& r.info.rwp) ∧
    (x.unitApplies u).press.applied.getLsbD u = true ∧ (x.unitApplies u).shadow = x.shadow := by
  rw [Die.unitApplies_of_last hu h]
  refine ⟨Die.regI_activate_of_mem hr (nodup_addr_unitRegs u hu) _, ?_⟩
  obtain ⟨regs, hregs⟩ := activate_cases (unitRegs u) (x.unitMarked u)
  rw [hregs]
  refine ⟨?_, rfl⟩
  change (x.press.applied ||| bit44 u).getLsbD u = true
  rw [BitVec.getLsbD_or, getLsbD_bit44_self hu, Bool.or_true]

/-! ### Acknowledgements (R471) -/

theorem Die.activeEpoch_unitAcked_cases (x : Die) (u : Nat) :
    (x.press.behind &&& ~~~bit44 u = 0 → (x.unitAcked u).press.activeEpoch = x.press.epoch) ∧
    (x.press.behind &&& ~~~bit44 u ≠ 0 → (x.unitAcked u).press.activeEpoch = x.press.activeEpoch) := by
  constructor
  · intro h
    simp only [Die.unitAcked, if_pos h]
  · intro h
    simp only [Die.unitAcked, if_neg h]

/-! ### Late units and frozen pipes (R473, R481) -/

/-- What freezing the masters of a unit leaves alone. -/
structure Die.FreezesMasters (x y : Die) : Prop where
  dev : y.dev = x.dev
  press : y.press = x.press
  flt : y.flt = x.flt
  reg : ∀ r : Reg, (∀ p : Fin 4, r.addr [] ≠ Reg.dspFreezeCnt.addr [p.val]) → y.reg r = x.reg r

namespace Die.FreezesMasters

variable {x y z : Die}

theorem refl (x : Die) : x.FreezesMasters x := ⟨rfl, rfl, rfl, fun _ _ => rfl⟩

theorem trans (h : x.FreezesMasters y) (h' : y.FreezesMasters z) : x.FreezesMasters z :=
  ⟨h'.dev.trans h.dev, h'.press.trans h.press, h'.flt.trans h.flt, fun r hr => (h'.reg r hr).trans (h.reg r hr)⟩

theorem foldl {α : Type} {f : Die → α → Die} (hf : ∀ (y : Die) a, y.FreezesMasters (f y a)) (l : List α) (x : Die) :
    x.FreezesMasters (l.foldl f x) := by
  induction l generalizing x with
  | nil => exact refl x
  | cons a l ih => exact (hf x a).trans (ih (f x a))

theorem freezePipe (x : Die) (p : Fin 4) (cls : Byte) : x.FreezesMasters (x.freezePipe p cls) := by
  unfold Die.freezePipe
  split
  · exact refl x
  · exact ⟨rfl, rfl, rfl, fun r hr => Die.regI_countI_ne _ 1 (hr p)⟩

theorem freezeLate (x : Die) (u : Nat) : x.FreezesMasters (freezeLate x u) := by
  unfold Machine.freezeLate
  split
  · exact freezePipe x _ _
  · split
    · exact foldl (f := fun (y : Die) q => (y.freeze (.csi q) clsPressTimeout).freeze (.tdm q) clsPressTimeout)
        (fun _ _ => ⟨rfl, rfl, rfl, fun _ _ => rfl⟩) pipeIds x
    · exact refl x

end Die.FreezesMasters

/-- A report comes last among those on their way to the darner (R482). -/
theorem Die.reports_report (x : Die) (cls : Byte) (m : Master) (i : FaultInfo) (freezes : Bool) : ∃ r : Report,
    (x.report cls m i freezes).flt.reports = x.flt.reports ++ [r] ∧ r.cls = cls ∧ r.detail = BitVec.ofNat 64 i.detail :=
  ⟨_, rfl, rfl, rfl⟩

/-- The registers of the press's and the parity's records are no counters of frozen pipes. -/
theorem addr_ne_dspFreezeCnt : ∀ r ∈ [Reg.clkFlags, .clkPressTimeoutCnt, .fltFlags, .fltCfgParityCnt], ∀ p : Fin 4,
    r.addr [] ≠ Reg.dspFreezeCnt.addr [p.val] := by decide

/-- The units that are late from now on. -/
def Die.newlyLate (x : Die) : BitVec 44 := x.press.behind &&& ~~~x.press.late

/-- The die once its late units have been marked and their masters have stopped. -/
def Die.lateStopped (x : Die) : Die :=
  ((List.range 44).filter fun u => x.newlyLate.getLsbD u).foldl freezeLate
    { x with press.late := x.press.late ||| x.newlyLate }

theorem Die.freezesMasters_lateStopped (x : Die) :
    ({ x with press.late := x.press.late ||| x.newlyLate } : Die).FreezesMasters x.lateStopped :=
  Die.FreezesMasters.foldl Die.FreezesMasters.freezeLate _ _

/-- The record of a press that has timed out. -/
def Die.pressLateNoted (x : Die) : Die :=
  ((x.lateStopped.flag .clkFlags 1).count .clkPressTimeoutCnt).note clsPressTimeout .clockCtl
    { flags := 0, ctx := 0, va := 0, detail := x.lateStopped.press.behind.toNat, thing := 0 }

section
variable {x : Die}

theorem pressTimeoutDie_of_early (h : x.running = false ∨ x.newlyLate = 0 ∨ x.pair.copying = true ∨
    x.passed x.press.issued (1000 * x.fld .clkPressCfg [] 9 0) = false) : pressTimeoutDie x = x := by
  refine if_pos ?_
  rcases h with h | h | h | h
  · simp [h]
  · simp [show x.press.behind &&& ~~~x.press.late = 0 from h]
  · simp [h]
  · simp [h]

theorem pressTimeoutDie_of_late (hrun : x.running = true) (hlate : x.newlyLate ≠ 0) (hcopy : x.pair.copying = false)
    (hpassed : x.passed x.press.issued (1000 * x.fld .clkPressCfg [] 9 0) = true) :
    pressTimeoutDie x = x.pressLateNoted.enterSafe := by
  have hlate' : x.press.behind &&& ~~~x.press.late ≠ 0 := hlate
  exact if_neg (by simpa [hrun, hcopy, hpassed] using hlate')

theorem Die.press_lateStopped : x.lateStopped.press = { x.press with late := x.press.late ||| x.newlyLate } :=
  x.freezesMasters_lateStopped.press

theorem reg_pressLateNoted_flags : (x.pressLateNoted.reg .clkFlags).getLsbD 1 = true := by
  rw [Die.pressLateNoted, Die.reg_note, Die.reg_count_ne _ (by decide)]
  exact Die.getLsbD_reg_flag _ _ (by decide)

theorem reg_pressLateNoted_count : x.pressLateNoted.reg .clkPressTimeoutCnt = x.reg .clkPressTimeoutCnt + 1 := by
  rw [Die.pressLateNoted, Die.reg_note, Die.reg_count, Die.reg_flag_ne _ _ (by decide),
    x.freezesMasters_lateStopped.reg _ (addr_ne_dspFreezeCnt _ (by simp))]
  rfl

theorem reports_pressLateNoted : ∃ r : Report, x.pressLateNoted.flt.reports = x.flt.reports ++ [r] ∧
    r.cls = clsPressTimeout ∧ r.detail = BitVec.ofNat 64 x.press.behind.toNat := by
  obtain ⟨r, hreports, hcls, hdetail⟩ := Die.reports_report ((x.lateStopped.flag .clkFlags 1).count .clkPressTimeoutCnt)
    clsPressTimeout .clockCtl
    { flags := 0, ctx := 0, va := 0, detail := x.lateStopped.press.behind.toNat, thing := 0 } false
  exact ⟨r, hreports.trans (congrArg (fun f : Flt => f.reports ++ [r]) x.freezesMasters_lateStopped.flt), hcls,
    hdetail.trans (by rw [Die.press_lateStopped])⟩

end

/-! ### Parity of control storage (R480) -/

/-- Both or one of the copies of control storage, the error flagged and counted. -/
def Die.ctrlParityCounted (x : Die) : Die := (x.flag .fltFlags 2).count .fltCtrlParityCnt

theorem reg_ctrlParityCounted (x : Die) : (x.ctrlParityCounted.reg .fltFlags).getLsbD 2 = true ∧
    x.ctrlParityCounted.reg .fltCtrlParityCnt = x.reg .fltCtrlParityCnt + 1 := by
  unfold Die.ctrlParityCounted
  constructor
  · rw [Die.reg_count_ne _ (by decide)]
    exact Die.getLsbD_reg_flag _ _ (by decide)
  · rw [Die.reg_count, Die.reg_flag_ne _ _ (by decide)]

/-- The record of an error of both copies. -/
def Die.ctrlParityNoted (x : Die) : Die := x.ctrlParityCounted.note clsCtrlParity (.cmdProc 0 none) (FaultInfo.plain 0 0)

/-- The near caches once an entry of a master's has been dropped. -/
def eraseNear (m : Master) (n : Nat) (near : List NearTlb) : List NearTlb :=
  (near.map fun t => if t.who = m then { t with ents := t.ents.eraseIdx n } else t).filter fun t => !t.ents.isEmpty

/-- The near caches of the other masters stay, but for those without an entry. -/
theorem filter_eraseNear (m : Master) (n : Nat) (near : List NearTlb) :
    (eraseNear m n near).filter (fun q => q.who != m) = near.filter fun q => q.who != m && !q.ents.isEmpty := by
  unfold eraseNear
  induction near with
  | nil => rfl
  | cons t near ih =>
    rw [List.filter_filter] at ih ⊢
    rw [List.map_cons, List.filter_cons, List.filter_cons, ih]
    by_cases ht : t.who = m <;> simp [ht]

section
variable {x : Die} (hreset : x.power.inReset = false) (hon : x.dev ≠ .off)
include hreset hon

theorem ctrlParityDie_tlb (n : Nat) : ctrlParityDie (.tlb n) x =
    ({ x with xlt.tlb := x.xlt.tlb.eraseIdx n } : Die).count .fltXlateParityCnt := if_neg (by simp [hreset, hon])

theorem ctrlParityDie_walkCache (n : Nat) : ctrlParityDie (.walkCache n) x =
    ({ x with xlt.walk := x.xlt.walk.eraseIdx n } : Die).count .fltXlateParityCnt := if_neg (by simp [hreset, hon])

theorem ctrlParityDie_sliceOwnership : ctrlParityDie .sliceOwnership x = x.count .fltXlateParityCnt :=
  if_neg (by simp [hreset, hon])

theorem ctrlParityDie_nearTlb (m : Master) (n : Nat) : ctrlParityDie (.nearTlb m n) x =
    ({ x with xlt.near := eraseNear m n x.xlt.near } : Die).count .fltXlateParityCnt := if_neg (by simp [hreset, hon])

theorem ctrlParityDie_oneCopy : ctrlParityDie (.copies false) x = x.ctrlParityCounted := if_neg (by simp [hreset, hon])

theorem ctrlParityDie_bothCopies : ctrlParityDie (.copies true) x = x.ctrlParityNoted.enterSafe :=
  if_neg (by simp [hreset, hon])

end

/-! ### Parity of configuration words (R481) -/

/-- What a parity error of a configuration word says. -/
def cfgParityInfo (addr : Nat) (shadow : Bool) : FaultInfo :=
  { flags := 0, ctx := 0, va := 0, detail := addr + 2 ^ 32 * b2n shadow, thing := addr }

/-- The die with the parity error of a configuration word flagged and counted. -/
def Die.cfgParityCounted (x : Die) : Die := (x.flag .fltFlags 3).count .fltCfgParityCnt

theorem reg_cfgParityCounted (x : Die) : (x.cfgParityCounted.reg .fltFlags).getLsbD 3 = true ∧
    x.cfgParityCounted.reg .fltCfgParityCnt = x.reg .fltCfgParityCnt + 1 := by
  unfold Die.cfgParityCounted
  constructor
  · rw [Die.reg_count_ne _ (by decide)]
    exact Die.getLsbD_reg_flag _ _ (by decide)
  · rw [Die.reg_count, Die.reg_flag_ne _ _ (by decide)]

/-- The pipes among the units of a word whose active copy has failed freeze. -/
def freezeUnits (us : List Nat) (x : Die) : Die :=
  us.foldl (fun (y : Die) u => if 22 ≤ u ∧ u < 26 then y.freezePipe (Fin.ofNat 4 (u - 22)) clsCfgParity else y) x

theorem freezesMasters_freezeUnits (us : List Nat) (x : Die) : x.FreezesMasters (freezeUnits us x) := by
  refine Die.FreezesMasters.foldl (fun y u => ?_) us x
  split
  · exact .freezePipe y _ _
  · exact .refl y

section
variable {x : Die} {addr : Nat} {r : Reg} {is : List Nat} (hr : regAt addr = some (r, is)) (hrun : x.running = true)
  (hrwp : r.info.rwp ≠ 0)
include hr hrun hrwp

theorem cfgParityDie_shadow : cfgParityDie addr true x =
    { x.cfgParityCounted.note clsCfgParity (unitMaster ((r.units is).headD 36)) (cfgParityInfo addr true) with
      press.shadowBad := addr :: x.press.shadowBad.filter fun a => a != addr } := by
  simp only [cfgParityDie, hr]
  rw [if_neg (by simpa [hrun] using hrwp)]
  rfl

theorem cfgParityDie_active : cfgParityDie addr false x =
    { (freezeUnits (r.units is) x.cfgParityCounted).report clsCfgParity (unitMaster ((r.units is).headD 36))
        (cfgParityInfo addr false) true with
      press.cfgBad := (freezeUnits (r.units is) x.cfgParityCounted).press.cfgBad ++ (r.units is).map fun u => (u, addr) } := by
  simp only [cfgParityDie, hr]
  rw [if_neg (by simpa [hrun] using hrwp)]
  rfl

end

/-! ### The rows -/

/-- Settles O52, row by row. That a unit refuses rather than waits when its shadow's parity has failed is R481; which units
apply without checks of their own is `plainUnit`. -/
theorem pressesAndParity : Obligations.PressesAndParity := by
  unfold Obligations.PressesAndParity
  intro s d
  refine ⟨fun u hrun hu => ?_, fun u hrun hwait hbad hu => ?_, fun y u r is hu hr hall _ => Die.unitApplies_last_spec hu hr hall,
    fun u => ?_, fun y u => ⟨Die.behind_unitAcked y u, Die.activeEpoch_unitAcked_cases y u⟩,
    ⟨fun hearly => nextOn_of_unchanged (pressTimeoutDie_of_early hearly), fun hrun hlate hcopy hpassed => ?_⟩,
    fun hreset hon => ⟨fun n => ?_, fun n => ?_, ?_, fun m n => ?_⟩, fun both hreset hon => ?_,
    fun addr r is hr hrun hrwp shadow => ?_⟩
  · rw [exec_pressApply_plain hrun hu]
    exact ⟨fun hwait => nextOn_of_unchanged (applyPlain_of_not_waiting hwait),
      fun hwait hbad => nextOn_congr (applyPlain_of_bad_shadow hwait hbad),
      fun hwait hgood => nextOn_congr (applyPlain_of_good_shadow hwait hgood)⟩
  · refine ⟨_, exec_pressApply_refused hrun hwait hbad hu, ?_⟩
    rw [State.die_onDie]
    exact ⟨rfl, press_unitRefuses _ u.isLt⟩
  · refine nextOn_congr ?_
    simp [pressAckDie, and_assoc]
  · obtain ⟨r, hreports, hcls, hdetail⟩ := reports_pressLateNoted (x := s.die d)
    refine ⟨_, r, nextOn_of_eq (pressTimeoutDie_of_late hrun hlate hcopy hpassed), ?_⟩
    rw [State.die_setDie]
    refine ⟨?_, ?_, ?_, ?_, hcls, hdetail, fun hdev => Die.dev_enterSafe ?_⟩
    · exact (congrArg Press.late (Die.press_enterSafe _)).trans (congrArg Press.late Die.press_lateStopped)
    · exact (congrArg (·.getLsbD 1) (Die.reg_enterSafe _ _)).trans reg_pressLateNoted_flags
    · exact (Die.reg_enterSafe _ _).trans reg_pressLateNoted_count
    · exact (congrArg Flt.reports (Die.flt_enterSafe _)).trans hreports
    · rwa [show (s.die d).pressLateNoted.dev = (s.die d).dev from (s.die d).freezesMasters_lateStopped.dev]
  · exact nextOn_of_eq (ctrlParityDie_tlb hreset hon n)
  · exact nextOn_of_eq (ctrlParityDie_walkCache hreset hon n)
  · exact nextOn_of_eq (ctrlParityDie_sliceOwnership hreset hon)
  · refine ⟨_, nextOn_of_eq (ctrlParityDie_nearTlb hreset hon m n), ?_⟩
    rw [State.die_setDie]
    exact ⟨Die.reg_count _ _, rfl, filter_eraseNear m n (s.die d).xlt.near, rfl⟩
  · obtain ⟨hflag, hcount⟩ := reg_ctrlParityCounted (s.die d)
    cases both with
    | false =>
      refine ⟨_, nextOn_of_eq (ctrlParityDie_oneCopy hreset hon), ?_⟩
      rw [State.die_setDie]
      exact ⟨hflag, hcount, fun _ => ⟨rfl, rfl⟩, fun h => absurd h Bool.false_ne_true⟩
    | true =>
      refine ⟨_, nextOn_of_eq (ctrlParityDie_bothCopies hreset hon), ?_⟩
      rw [State.die_setDie]
      refine ⟨?_, ?_, fun h => absurd h.symm Bool.false_ne_true, fun _ => Die.dev_enterSafe
        (x := (s.die d).ctrlParityNoted)⟩
      · exact (congrArg (·.getLsbD 2) (Die.reg_enterSafe (s.die d).ctrlParityNoted _)).trans hflag
      · exact (Die.reg_enterSafe (s.die d).ctrlParityNoted _).trans hcount
  · obtain ⟨hflag, hcount⟩ := reg_cfgParityCounted (s.die d)
    cases shadow with
    | true =>
      obtain ⟨rep, hreports, hcls, hdetail⟩ := Die.reports_report (s.die d).cfgParityCounted clsCfgParity
        (unitMaster ((r.units is).headD 36)) (cfgParityInfo addr true) false
      refine ⟨_, rep, nextOn_of_eq (cfgParityDie_shadow hr hrun hrwp), ?_⟩
      rw [State.die_setDie]
      exact ⟨hflag, hcount, hreports, hcls, hdetail, fun _ => ⟨List.mem_cons_self, rfl⟩,
        fun h => absurd h.symm Bool.false_ne_true⟩
    | false =>
      have hfreeze := freezesMasters_freezeUnits (r.units is) (s.die d).cfgParityCounted
      have hshadow := congrArg Press.shadowBad hfreeze.press
      obtain ⟨rep, hreports, hcls, hdetail⟩ := Die.reports_report (freezeUnits (r.units is) (s.die d).cfgParityCounted)
        clsCfgParity (unitMaster ((r.units is).headD 36)) (cfgParityInfo addr false) true
      refine ⟨_, rep, nextOn_of_eq (cfgParityDie_active hr hrun hrwp), ?_⟩
      rw [State.die_setDie]
      refine ⟨?_, ?_, hreports.trans (congrArg (fun f : Flt => f.reports ++ [rep]) hfreeze.flt), hcls, hdetail,
        fun h => absurd h Bool.false_ne_true, fun _ => ⟨?_, hshadow⟩⟩
      · exact (congrArg (·.getLsbD 3) (hfreeze.reg _ (addr_ne_dspFreezeCnt _ (by simp)))).trans hflag
      · exact (hfreeze.reg _ (addr_ne_dspFreezeCnt _ (by simp))).trans hcount
      · exact congrArg (fun q : Press => q.cfgBad ++ (r.units is).map fun u => (u, addr)) hfreeze.press

end Sys2Proof.Machine
end

section
/-! PROOFS. O23: the darner takes reports, and records enter the fault queue (R381, R382, R486 to R488). -/
namespace Sys2Proof.Machine

/-! ### The first report (R487) -/

/-- The die with its first report taken from the queue. -/
def Die.withReports (x : Die) (rs : List Report) : Die := { x with flt.reports := rs }

/-- A report counted at the die, and charged to its context. -/
def Die.counted (x : Die) (r : Report) : Die :=
  let y := x.countI .fltReportCnt [r.cls.toNat % 64] 1
  if r.ctx = 0 then y else y.updCtx r.ctx fun t => { t with faultCnt := t.faultCnt + 1 }

/-- The open shared place of a report's key. -/
def Place.shares (r : Report) (q : Place) : Bool := !q.reserved && !q.held && q.matches r

/-- The reserved place of a report's source. -/
def Place.reservedFor (r : Report) (q : Place) : Bool := q.reserved && sourceId q.who == sourceId r.who

theorem Die.counted_keeps (x : Die) (r : Report) : (x.counted r).flt = x.flt ∧ (x.counted r).id = x.id ∧
    (x.counted r).time = x.time ∧ (x.counted r).regs = (x.countI .fltReportCnt [r.cls.toNat % 64] 1).regs := by
  unfold Die.counted
  dsimp only
  split <;> exact ⟨rfl, rfl, rfl, rfl⟩

theorem Die.flt_counted (x : Die) (r : Report) : (x.counted r).flt = x.flt := (x.counted_keeps r).1

theorem Die.regs_counted (x : Die) (r : Report) :
    (x.counted r).regs = (x.countI .fltReportCnt [r.cls.toNat % 64] 1).regs := (x.counted_keeps r).2.2.2

theorem exec_darnerReport {s : State} {d : DieId} {r : Report} {rs : List Report} {y : Die}
    (hreports : (s.die d).flt.reports = r :: rs) (htake : takeReport ((s.die d).withReports rs) r = some y) :
    exec (.darnerReport d) s = .next (s.setDie d y) := by
  refine nextOn_of_eq (?_ : darnerScan (s.die d) [] (s.die d).flt.reports = y)
  simp only [hreports, darnerScan, List.nil_append]
  rw [show ({ s.die d with flt.reports := rs } : Die) = (s.die d).withReports rs from rfl, htake]

theorem exec_darnerReport_waits {s : State} {d : DieId} {r : Report} (hreports : (s.die d).flt.reports = [r])
    (htake : takeReport ((s.die d).withReports []) r = none) :
    exec (.darnerReport d) s = .next (s.onDie d id) := by
  refine nextOn_of_unchanged (?_ : darnerScan (s.die d) [] (s.die d).flt.reports = s.die d)
  simp only [hreports, darnerScan, List.nil_append]
  rw [show ({ s.die d with flt.reports := [] } : Die) = (s.die d).withReports [] from rfl, htake]

/-! ### Its place (R486 to R488) -/

section
variable {x : Die} {r : Report}

section
variable (hreserved : reservedSource r.who r.cls = true)
include hreserved

theorem takeReport_opens_reserved (hfree : x.flt.darner.any (Place.reservedFor r) = false) :
    takeReport x r = some (openPlace (x.counted r) r true) := by
  unfold Place.reservedFor at hfree
  simp only [takeReport, hreserved, hfree, if_true, Bool.false_eq_true, if_false]
  rfl

theorem takeReport_suppressed (hbusy : x.flt.darner.any (Place.reservedFor r) = true)
    (hkey : (x.flt.darner.any fun q => q.reservedFor r && q.matches r) = false) :
    takeReport x r = some (suppress (x.counted r)) := by
  unfold Place.reservedFor at hbusy hkey
  simp only [takeReport, hreserved, hbusy, hkey, if_true, Bool.false_eq_true, if_false]
  rfl

end

section
variable (hshared : reservedSource r.who r.cls = false)
include hshared

theorem takeReport_merges (hsame : x.flt.darner.any (Place.shares r) = true) :
    takeReport x r = some (mergePlace (x.counted r) r (Place.shares r)) := by
  unfold Place.shares at hsame
  simp only [takeReport, hshared, hsame, if_true, Bool.false_eq_true, if_false]
  rfl

section
variable (hnew : x.flt.darner.any (Place.shares r) = false)
include hnew

theorem takeReport_opens_shared (hroom : x.sharedBusy < 48) :
    takeReport x r = some (openPlace (x.counted r) r false) := by
  unfold Place.shares at hnew
  simp only [takeReport, hshared, hnew, hroom, if_true, Bool.false_eq_true, if_false]
  rfl

theorem takeReport_waits (hfull : 48 ≤ x.sharedBusy) (hmismatch : r.cls ≠ 0x30) (htimeout : r.cls ≠ 0x31) :
    takeReport x r = none := by
  unfold Place.shares at hnew
  simp only [takeReport, hshared, hnew, if_neg (Nat.not_lt.mpr hfull), Bool.false_eq_true, if_false]
  exact if_neg (not_or.mpr ⟨hmismatch, htimeout⟩)

end
end

/-- A place that opens is the last, and takes the next FAULT_ID; a held report becomes a held fault. -/
theorem flt_openPlace (x : Die) (r : Report) (reserved : Bool) : (openPlace x r reserved).flt = { x.flt with
    serial := x.flt.serial + 1, darner := x.flt.darner ++ [placeOf x.id x.time x.flt.serial r reserved],
    faults := x.flt.faults ++ (if r.held then
      [{ fid := x.flt.serial, cls := r.cls, ctx := r.ctx, reporters := r.holders, page := r.va.toNat }] else []) } := by
  unfold openPlace
  dsimp only
  split
  · rfl
  · simp

theorem flt_openPlace_counted (x : Die) (r : Report) (reserved : Bool) :
    (openPlace (x.counted r) r reserved).flt = (openPlace x r reserved).flt := by
  obtain ⟨hflt, hid, htime, -⟩ := x.counted_keeps r
  simp only [flt_openPlace, hflt, hid, htime]

/-- A report that merges lengthens its place alone, and perhaps the held faults. -/
theorem mergePlace_cases {sel : Place → Bool} {q : Place} (hq : x.flt.darner.find? sel = some q) :
    ∃ faults, mergePlace x r sel = { x with
      flt.darner := updFirst sel (fun t => t.merge x.id x.time r) x.flt.darner, flt.faults := faults } := by
  unfold mergePlace
  rw [hq]
  exact ⟨_, rfl⟩

end

/-- COUNT of a record saturates (R487). -/
theorem count_merge (q : Place) (d : DieId) (now : DWord) (r : Report) : (q.merge d now r).record.count =
    (if q.record.count = 0xFFFF then 0xFFFF else q.record.count + 1) := by
  unfold Place.merge
  dsimp only
  split <;> rfl

theorem addr_fltReportCnt_ne : ∀ n < 64, Reg.fltSuppressCnt.addr [] ≠ Reg.fltReportCnt.addr [n] := by decide

theorem addr_fltOvfCnt_ne : ∀ n < 64, Reg.fltQueueStatus.addr [] ≠ Reg.fltOvfCnt.addr [n] := by decide

theorem suppress_counted_spec (x : Die) (r : Report) : (suppress (x.counted r)).flt = x.flt ∧
    (suppress (x.counted r)).reg .fltSuppressCnt = x.reg .fltSuppressCnt + 1 := by
  refine ⟨x.flt_counted r, ?_⟩
  rw [suppress, Die.reg_count, Die.reg_flag_ne _ _ (by decide), Die.reg_of_regs (x.regs_counted r)]
  exact congrArg (· + 1) (Die.regI_countI_ne x 1 (addr_fltReportCnt_ne _ (Nat.mod_lt _ (by decide))))

/-! ### The fault queue (R381, R382) -/

section
variable {x : Die} {i : Nat} {q : Place} (hq : x.flt.darner[i]? = some q)
include hq

theorem closeRecord_of_early (hearly : x.windowPassed q = false) : closeRecord x i = x := by
  simp [closeRecord, hq, hearly]

section
variable (hopen : q.held = false) (hpassed : x.windowPassed q = true)
include hopen hpassed

theorem closeRecord_of_room (hroom : x.flt.queue.length < 1024) (hnone : (x.flt.darner.any fun t => t.held) = false) :
    closeRecord x i = queueRecord x i q.record := by
  simp [closeRecord, hq, hopen, hpassed, hroom, hnone]

theorem closeRecord_of_full (hfull : 1024 ≤ x.flt.queue.length ∨ (x.flt.darner.any fun t => t.held) = true) :
    closeRecord x i =
      ((({ x with flt.darner := x.flt.darner.eraseIdx i ++ [{ q with held := true, opened := x.time }] } : Die).flag
        .fltQueueStatus 31).countI .fltOvfCnt [q.record.cls.toNat % 64] 1) := by
  have hno : (decide (x.flt.queue.length < 1024) && !(x.flt.darner.any fun t => t.held)) = false := by
    rcases hfull with h | h
    · simp [Nat.not_lt.mpr h]
    · simp [h]
  simp only [closeRecord, hq, hopen, hpassed, hno, Bool.not_true, Bool.or_self, Bool.false_eq_true, if_false]

end
end

/-- Settles O23, by which place the first report finds, and by whether the queue has room. That the records held wait in
the order of R382 is log 74. -/
theorem theDarnerTakesAndQueuesReports : Obligations.TheDarnerTakesAndQueuesReports := by
  unfold Obligations.TheDarnerTakesAndQueuesReports
  refine ⟨fun s d r rs => ?_, fun s d => ⟨fun i q hq hopen hpassed hroom hnone => ?_, fun i q hq hopen hpassed hfull => ?_,
    fun i q hq hearly => nextOn_of_unchanged (closeRecord_of_early hq hearly), fun i q hroom hnext => ?_⟩⟩
  · intro x same mine hreports
    obtain ⟨hflt, hid, htime, hregs⟩ := (x.withReports rs).counted_keeps r
    refine ⟨fun hreserved => ⟨fun hfree => ?_, fun hbusy hkey => ?_⟩, fun hshared => ⟨fun q hq => ?_, fun hnew hroom => ?_,
      fun hnew hfull hrs hmismatch htimeout => ?_⟩⟩
    · refine ⟨_, placeOf x.id x.time x.flt.serial r true,
        exec_darnerReport hreports (takeReport_opens_reserved hreserved hfree), ?_⟩
      rw [State.die_setDie]
      have hplace := (flt_openPlace_counted (x.withReports rs) r true).trans (flt_openPlace _ r true)
      exact ⟨(congrArg Flt.reports hplace :), (congrArg Flt.darner hplace :), rfl, rfl, rfl, (congrArg Flt.serial hplace :)⟩
    · obtain ⟨hflt', hcount⟩ := suppress_counted_spec (x.withReports rs) r
      refine ⟨_, exec_darnerReport hreports (takeReport_suppressed hreserved hbusy hkey), ?_⟩
      rw [State.die_setDie]
      exact ⟨(congrArg Flt.reports hflt' :), (congrArg Flt.darner hflt' :), hcount⟩
    · have hsome : x.flt.darner.any same = true := List.any_eq_true.mpr ⟨q, List.mem_of_find?_eq_some hq, List.find?_some hq⟩
      have hfind : ((x.withReports rs).counted r).flt.darner.find? (Place.shares r) = some q :=
        (congrArg (fun f : Flt => f.darner.find? (Place.shares r)) hflt).trans hq
      obtain ⟨faults, hmerge⟩ := mergePlace_cases (r := r) hfind
      refine ⟨_, exec_darnerReport hreports (takeReport_merges hshared hsome), ?_⟩
      rw [State.die_setDie, hmerge]
      simp only [hflt, hid, htime]
      refine ⟨rfl, rfl, count_merge q _ _ r, rfl, rfl, ?_⟩
      exact (Die.regI_of_regs hregs _ _).trans (Die.regI_countI x _ _ 1)
    · refine ⟨_, placeOf x.id x.time x.flt.serial r false,
        exec_darnerReport hreports (takeReport_opens_shared hshared hnew hroom), ?_⟩
      rw [State.die_setDie]
      have hplace := (flt_openPlace_counted (x.withReports rs) r false).trans (flt_openPlace _ r false)
      exact ⟨(congrArg Flt.reports hplace :), (congrArg Flt.darner hplace :), rfl, rfl, rfl, rfl, rfl, rfl, rfl,
        (congrArg Flt.serial hplace :), (congrArg Flt.queue hplace :), (congrArg Flt.faults hplace :)⟩
    · subst hrs
      exact exec_darnerReport_waits hreports (takeReport_waits hshared hnew hfull hmismatch htimeout)
  · refine ⟨_, nextOn_of_eq (closeRecord_of_room hq hopen hpassed hroom hnone), ?_⟩
    rw [State.die_setDie]
    exact ⟨rfl, rfl, Die.reg_count _ _⟩
  · refine ⟨_, nextOn_of_eq (closeRecord_of_full hq hopen hpassed hfull), ?_⟩
    rw [State.die_setDie]
    refine ⟨rfl, rfl, ?_⟩
    exact (congrArg (·.getLsbD 31) (Die.regI_countI_ne _ 1 (addr_fltOvfCnt_ne _ (Nat.mod_lt _ (by decide))))).trans
      (Die.getLsbD_reg_flag _ _ (by decide))
  · refine ⟨_, nextOn_of_eq (?_ : enqueueHeld (s.die d) =
      queueRecord (s.die d) i { q.record with flags := q.record.flags ||| 0x20 }), ?_⟩
    · simp only [enqueueHeld, if_pos hroom, hnext]
    · rw [State.die_setDie]
      exact ⟨rfl, rfl⟩

end Sys2Proof.Machine
end

section
/-! PROOFS. O53: boot, tamper and verified model loads (R504 to R511, R520, R523). -/
namespace Sys2Proof.Machine

/-! ### Images that have been checked (R504) -/

/-- The die with a check counted, and its outcome in SEC_LAST_IMAGE. -/
def Die.checkCounted (x : Die) (outcome : Word) : Die := { x.count .secVerifyCnt with sec.lastImage := outcome }

theorem Die.reg_checkCounted (x : Die) (outcome : Word) (r : Reg) :
    (x.checkCounted outcome).reg r = (x.count .secVerifyCnt).reg r := rfl

theorem imageChecked_eq (x : Die) (st src : Nat) : imageChecked x st src =
    if st = imgVerified then x.checkCounted (BitVec.ofNat 32 (st + src * 65536))
    else ((x.checkCounted (BitVec.ofNat 32 (st + src * 65536))).count .secVerifyFailCnt).flag .secFlags 0 := rfl

theorem imageChecked_verified (x : Die) (src : Nat) : (imageChecked x 0 src).reg .secVerifyCnt = x.reg .secVerifyCnt + 1 := by
  rw [imageChecked_eq, if_pos (show 0 = imgVerified from rfl), Die.reg_checkCounted, Die.reg_count]

theorem imageChecked_refused (x : Die) {st : Nat} (src : Nat) (h : st ≠ 0) :
    ((imageChecked x st src).reg .secFlags).getLsbD 0 = true ∧
    (imageChecked x st src).reg .secVerifyFailCnt = x.reg .secVerifyFailCnt + 1 := by
  rw [imageChecked_eq, if_neg (show st ≠ imgVerified from h)]
  refine ⟨Die.getLsbD_reg_flag _ _ (by decide), ?_⟩
  rw [Die.reg_flag_ne _ _ (by decide), Die.reg_count, Die.reg_checkCounted, Die.reg_count_ne _ (by decide)]

theorem imageChecked_cases (x : Die) (st src : Nat) : ∃ outcome, imageChecked x st src = x.checkCounted outcome ∨
    imageChecked x st src = ((x.checkCounted outcome).count .secVerifyFailCnt).flag .secFlags 0 := by
  refine ⟨BitVec.ofNat 32 (st + src * 65536), ?_⟩
  rw [imageChecked_eq]
  by_cases h : st = imgVerified
  · exact .inl (if_pos h)
  · exact .inr (if_neg h)

theorem imageChecked_keeps (x : Die) (st src : Nat) : (imageChecked x st src).sec.bootDone = x.sec.bootDone ∧
    (imageChecked x st src).sec.models = x.sec.models ∧ (imageChecked x st src).reg .secImageCnt = x.reg .secImageCnt := by
  obtain ⟨outcome, h | h⟩ := imageChecked_cases x st src <;> rw [h]
  · exact ⟨rfl, rfl, by rw [Die.reg_checkCounted, Die.reg_count_ne _ (by decide)]⟩
  · refine ⟨rfl, rfl, ?_⟩
    rw [Die.reg_flag_ne _ _ (by decide), Die.reg_count_ne _ (by decide), Die.reg_checkCounted, Die.reg_count_ne _ (by decide)]

/-! ### Boot (R505, R506, R512, R520) -/

theorem done_of_mem_completeOps (x : Die) : ∀ o ∈ (completeOps x).sec.fuses.ops, o.done = true := by
  intro o ho
  obtain ⟨q, -, rfl⟩ := List.mem_map.mp (show o ∈ List.map _ _ from ho)
  rfl

theorem bootDone_deriveIdentity (x : Die) : (deriveIdentity x).sec.bootDone = x.sec.bootDone := by
  unfold deriveIdentity
  dsimp only
  split <;> rfl

/-- The die after the first steps of boot: fuse operations completed, ROM measured, identity derived. -/
def Die.identified (x : Die) : Die :=
  deriveIdentity { completeOps x with sec.romMeas := (completeOps x).sec.fuses.romDigest }

/-- The last steps of boot: SCRAPPED locks the die; else it takes the first image that verifies, or goes into recovery. -/
def Die.takesImage (x : Die) : Die :=
  if x.sec.fuses.lc = 5 then lockDie x else
  let a := imageCheck x.sec.fuses (flashImage x 0) true
  let x := imageChecked x a 0
  if a = imgVerified then takeFirmware x (flashImage x 0) 1 else
  let b := imageCheck x.sec.fuses (flashImage x 1) true
  let x := imageChecked x b 1
  if b = imgVerified then takeFirmware x (flashImage x 1) 2
  else usbConnect { x with sec.recovery := true } .highSpeed

theorem bootDie_of_waiting {x : Die} (hrun : x.running = true) (hrom : x.dev = .rom) (hsram : x.power.sramDone = true)
    (hdone : x.sec.bootDone = false) (hrec : x.sec.recovery = false) : bootDie x = x.identified.takesImage := by
  unfold bootDie Die.takesImage Die.identified
  rw [if_neg (by simp [hrun, hrom, hsram, hdone, hrec])]

theorem bootDone_identified (x : Die) : x.identified.sec.bootDone = x.sec.bootDone := bootDone_deriveIdentity _

section
variable {y : Die}

theorem Die.takesImage_of_scrapped (h : y.sec.fuses.lc = 5) : y.takesImage = lockDie y := if_pos h

section
variable (hlc : y.sec.fuses.lc ≠ 5) {a : Nat} (ha : imageCheck y.sec.fuses (flashImage y 0) true = a) {y1 : Die}
  (hy1 : imageChecked y a 0 = y1)
include hlc ha hy1

theorem Die.takesImage_of_slot0 (hok : a = imgVerified) : y.takesImage = takeFirmware y1 (flashImage y1 0) 1 := by
  unfold Die.takesImage
  rw [if_neg hlc]
  dsimp only
  rw [ha, hy1, if_pos hok]

variable (hbad : a ≠ imgVerified) {b : Nat} (hb : imageCheck y1.sec.fuses (flashImage y1 1) true = b) {y2 : Die}
  (hy2 : imageChecked y1 b 1 = y2)
include hbad hb hy2

theorem Die.takesImage_of_slot1 (hok : b = imgVerified) : y.takesImage = takeFirmware y2 (flashImage y2 1) 2 := by
  unfold Die.takesImage
  rw [if_neg hlc]
  dsimp only
  rw [ha, hy1, if_neg hbad, hb, hy2, if_pos hok]

theorem Die.takesImage_of_neither (hno : b ≠ imgVerified) : y.takesImage = usbConnect { y2 with sec.recovery := true } .highSpeed := by
  unfold Die.takesImage
  rw [if_neg hlc]
  dsimp only
  rw [ha, hy1, if_neg hbad, hb, hy2, if_neg hno]

end
end

/-! ### Tamper findings (R523) -/

/-- A finding of this kind locks the die in its present state: a check of boot in ROM or leaving HOLD alone. -/
def tamperApplies (c : TamperCause) (x : Die) : Bool :=
  match c with
  | .fuseCopies => decide (x.dev = .rom) || decide (x.dev = .hold)
  | .romMeas => decide (x.dev = .rom) || decide (x.dev = .hold)
  | .bootBound => decide (x.dev = .rom) || decide (x.dev = .hold)
  | .fuseReadback => true
  | .scrapped => x.sec.fuses.lc == 5

theorem tamperDie_eq (c : TamperCause) (x : Die) :
    tamperDie c x = if x.dev = .off ∨ x.power.inReset ∨ !tamperApplies c x then x else lockDie x := by
  cases c <;> rfl

theorem tamperApplies_iff (c : TamperCause) (x : Die) : tamperApplies c x = true ↔
    c = .fuseReadback ∨ (c = .scrapped ∧ x.sec.fuses.lc = 5) ∨
      ((c = .fuseCopies ∨ c = .romMeas ∨ c = .bootBound) ∧ (x.dev = .rom ∨ x.dev = .hold)) := by
  cases c <;> simp [tamperApplies]

/-! ### The list of model measurements (R511) -/

theorem getD_models_setEntry (y : Die) (i k : Nat) (e : Option ModelEnt) :
    (setEntry y i e).sec.models.getD k none = if k = i then e else y.sec.models.getD k none := by
  simp only [setEntry, List.getD_eq_getElem?_getD, List.getElem?_map]
  by_cases hk : k < max (i + 1) y.sec.models.length
  · rw [List.getElem?_range hk]
    rfl
  · have hi : k ≠ i := by omega
    have hlen : y.sec.models.length ≤ k := by omega
    rw [List.getElem?_eq_none (by simpa using Nat.le_of_not_lt hk), if_neg hi, List.getElem?_eq_none hlen]
    rfl

/-! ### What a load that is over leaves (R504, R508, R511) -/

/-- What counting an image's contents leaves alone. -/
structure Die.KeepsRecord (x y : Die) : Prop where
  models : y.sec.models = x.sec.models
  reg : ∀ r ∈ [Reg.secImageCnt, .secFlags, .secVerifyFailCnt], y.reg r = x.reg r

namespace Die.KeepsRecord

theorem refl (x : Die) : x.KeepsRecord x := ⟨rfl, fun _ _ => rfl⟩

theorem trans {x y z : Die} (h : x.KeepsRecord y) (h' : y.KeepsRecord z) : x.KeepsRecord z :=
  ⟨h'.models.trans h.models, fun r hr => (h'.reg r hr).trans (h.reg r hr)⟩

theorem countN {x : Die} {q : Reg} (n : Nat) (h : ∀ r ∈ [Reg.secImageCnt, .secFlags, .secVerifyFailCnt], r.addr [] ≠ q.addr []) :
    x.KeepsRecord (x.countN q n) := ⟨rfl, fun r hr => Die.regI_countI_ne x n (h r hr)⟩

theorem ite {x y z : Die} {c : Prop} [Decidable c] (h : x.KeepsRecord y) (h' : x.KeepsRecord z) :
    x.KeepsRecord (if c then y else z) := by
  split
  · exact h
  · exact h'

theorem countDecoded (x : Die) (bsize : Option Nat) (bs : List Byte) : x.KeepsRecord (countDecoded x bsize bs) := by
  unfold Machine.countDecoded
  induction wrgPassed (bs.length / 16 + 1) bsize bs generalizing x with
  | nil => exact refl x
  | cons u us ih => exact ((countN 1 (by decide)).trans (countN _ (by decide))).trans (ih _)

end Die.KeepsRecord

/-- The counters of a load's image, beside those of its check. -/
def countImage (st : Nat) (img : List Byte) (x : Die) : Die :=
  let x := if st = imgSourceError then x.count .ufsErrCnt else x
  let x := if st = imgDataError then x.count .wrgDataErrCnt else x
  if imgWrung (field img) && (decide (st = imgVerified) || decide (st = imgDataError)) then
    countDecoded x none (field img imgHeaderBytes (imgPayloadLen (field img))) else x

theorem keepsRecord_countImage (st : Nat) (img : List Byte) (x : Die) : x.KeepsRecord (countImage st img x) :=
  ((Die.KeepsRecord.ite (.countN 1 (by decide)) (.refl x)).trans (.ite (.countN 1 (by decide)) (.refl _))).trans
    (.ite (.countDecoded _ _ _) (.refl _))

/-- An entry of the list, told to a standby in step. -/
def putEntry (p : Die) (i : Nat) (e : Option ModelEnt) (x : Die) : Die :=
  if mirrors p (setEntry x i e) then
    { setEntry x i e with pair.mirOut := (setEntry x i e).pair.mirOut ++ [.model i e] }
  else setEntry x i e

theorem putEntry_keeps (p : Die) (i : Nat) (e : Option ModelEnt) (x : Die) :
    (putEntry p i e x).sec.models = (setEntry x i e).sec.models ∧ (putEntry p i e x).regs = x.regs := by
  unfold putEntry
  split <;> exact ⟨rfl, rfl⟩

/-- The measurement of a load that verified. -/
def loadedEntry (l : LoadReq) (img : List Byte) : ModelEnt :=
  { ctx := l.ctx, keySlot := imgSlot (field img), wrung := imgWrung (field img), closed := false,
    svn := BitVec.ofNat 32 (imgSvn (field img)), dest := BitVec.ofNat 64 l.dest, digest := imgDigest (field img),
    verified := true }

theorem loadRecorded_eq (p : Die) (l : LoadReq) (st : Nat) (img : List Byte) (x : Die) : loadRecorded p l st img x =
    if st = imgVerified then
      (putEntry p l.entry (some (loadedEntry l img)) (countImage st img (imageChecked x st 3))).count .secImageCnt
    else putEntry p l.entry none (countImage st img (imageChecked x st 3)) := by
  unfold loadRecorded putEntry countImage loadedEntry
  dsimp only

theorem loadRecorded_verified (p : Die) (l : LoadReq) (img : List Byte) (x : Die) : loadRecorded p l 0 img x =
    (putEntry p l.entry (some (loadedEntry l img)) (countImage 0 img (imageChecked x 0 3))).count .secImageCnt :=
  (loadRecorded_eq p l 0 img x).trans (if_pos rfl)

theorem loadRecorded_refused (p : Die) (l : LoadReq) {st : Nat} (img : List Byte) (x : Die) (h : st ≠ 0) :
    loadRecorded p l st img x = putEntry p l.entry none (countImage st img (imageChecked x st 3)) :=
  (loadRecorded_eq p l st img x).trans (if_neg (show st ≠ imgVerified from h))

theorem loadRecorded_verified_spec (p : Die) (l : LoadReq) (img : List Byte) (x : Die) :
    (loadRecorded p l 0 img x).reg .secImageCnt = x.reg .secImageCnt + 1 ∧
    (loadRecorded p l 0 img x).sec.models.getD l.entry none = some (loadedEntry l img) := by
  obtain ⟨hmodels, hregs⟩ := putEntry_keeps p l.entry (some (loadedEntry l img)) (countImage 0 img (imageChecked x 0 3))
  obtain ⟨-, -, himage⟩ := imageChecked_keeps x 0 3
  rw [loadRecorded_verified]
  constructor
  · rw [Die.reg_count, Die.reg_of_regs hregs, (keepsRecord_countImage _ _ _).reg _ (by simp), himage]
  · exact (congrArg (fun m : List (Option ModelEnt) => m.getD l.entry none) hmodels).trans (models_setEntry_same _ _ _)

theorem loadRecorded_refused_spec (p : Die) (l : LoadReq) {st : Nat} (img : List Byte) (x : Die) (h : st ≠ 0) :
    (loadRecorded p l st img x).sec.models.getD l.entry none = none ∧
    (loadRecorded p l st img x).reg .secImageCnt = x.reg .secImageCnt ∧
    ((loadRecorded p l st img x).reg .secFlags).getLsbD 0 = true ∧
    (loadRecorded p l st img x).reg .secVerifyFailCnt = x.reg .secVerifyFailCnt + 1 := by
  obtain ⟨hmodels, hregs⟩ := putEntry_keeps p l.entry none (countImage st img (imageChecked x st 3))
  obtain ⟨-, -, himage⟩ := imageChecked_keeps x st 3
  obtain ⟨hflag, hfail⟩ := imageChecked_refused x 3 h
  have hreg (r : Reg) (hr : r ∈ [Reg.secImageCnt, .secFlags, .secVerifyFailCnt]) :
      (putEntry p l.entry none (countImage st img (imageChecked x st 3))).reg r = (imageChecked x st 3).reg r :=
    (Die.reg_of_regs hregs r).trans ((keepsRecord_countImage st img _).reg r hr)
  rw [loadRecorded_refused p l img x h, hreg _ (by simp), hreg _ (by simp), hreg _ (by simp), hmodels]
  exact ⟨models_setEntry_same _ _ _, himage, hflag, hfail⟩

/-! ### The load in front (R483, R508, R510) -/

section
variable {p x : Die} {l : LoadReq} {ls : List LoadReq} (hloads : x.sec.loads = l :: ls)
include hloads

theorem imageLoadDie_of_early (ok : Bool) (img : List Byte) (h : loadReady x l = false) : imageLoadDie ok img p x = x := by
  simp [imageLoadDie, hloads, h]

section
variable (hready : loadReady x l = true)
include hready

theorem imageLoadDie_of_no_entry (ok : Bool) (img : List Byte) (hentry : l.entry = noEntry) :
    imageLoadDie ok img p x = endLoad p x l 10 id := by
  simp only [imageLoadDie, hloads, hready, hentry, Bool.not_true, Bool.false_eq_true, if_false, if_true]
  rfl

theorem imageLoadDie_of_entry {ok : Bool} {img out : List Byte} {st : Nat} {r : Die × Bool} (hentry : l.entry ≠ noEntry)
    (hout : loadOutcome x ok img = (st, out))
    (hunits : loadUnits p l.ctx l.dest out (out.length / 4096 + 1) 0 x = r) :
    imageLoadDie ok img p x = thenOk r fun x => endLoad p x l st (loadRecorded p l st img) := by
  simp only [imageLoadDie, hloads, hready, if_neg hentry, hout, hunits, Bool.not_true, Bool.false_eq_true, if_false]

end
end

/-! ### The rows -/

/-- Settles O53, row by row. That the ROM's measurement is the digest of the fuses is log 115. -/
theorem bootTamperAndModelLoads : Obligations.BootTamperAndModelLoads := by
  unfold Obligations.BootTamperAndModelLoads
  intro s d x p
  refine ⟨fun hrun hrom hsram hdone hrec => ?_, fun y => ?_, fun c hc hon hreset => ?_, fun c hc => ?_,
    fun l ls ok img hloads => ⟨fun hearly => ?_, fun hready hentry => ?_,
      fun st out y hready hentry hout => ⟨fun hheld => ?_, fun hmoved => ?_⟩⟩,
    fun y z w l st k => ⟨fun hheld => ?_, fun hwritten => ⟨fun hheld => ?_, fun v hsignalled => ?_⟩⟩,
    fun y l st img => ⟨?_, fun hst => ?_⟩, fun y i e => ⟨?_, fun k hk => ?_⟩⟩
  · intro c y
    have hboot : bootDie x = y.takesImage := bootDie_of_waiting hrun hrom hsram hdone hrec
    have hbooted : y.sec.bootDone = false := (bootDone_identified x).trans hdone
    clear_value y
    intro a y1 b y2
    have ha : imageCheck y.sec.fuses (flashImage y 0) true = a := rfl
    have hy1 : imageChecked y a 0 = y1 := rfl
    have hb : imageCheck y1.sec.fuses (flashImage y1 1) true = b := rfl
    have hy2 : imageChecked y1 b 1 = y2 := rfl
    clear_value y2 b y1 a
    refine ⟨fun hlc => nextOn_of_eq (hboot.trans (Die.takesImage_of_scrapped hlc)),
      fun hlc hok => nextOn_of_eq (hboot.trans (Die.takesImage_of_slot0 hlc ha hy1 hok)),
      fun hlc hbad hok => nextOn_of_eq (hboot.trans (Die.takesImage_of_slot1 hlc ha hy1 hbad hb hy2 hok)),
      fun hlc hbad hno => ⟨_, nextOn_of_eq (hboot.trans (Die.takesImage_of_neither hlc ha hy1 hbad hb hy2 hno)), ?_⟩⟩
    rw [State.die_setDie]
    refine ⟨rfl, ?_, rfl, rfl⟩
    have h1 := (imageChecked_keeps y a 0).1
    have h2 := (imageChecked_keeps y1 b 1).1
    rw [hy1] at h1
    rw [hy2] at h2
    exact h2.trans (h1.trans hbooted)
  · exact ⟨done_of_mem_completeOps y, imageChecked_verified y 0, fun st src => imageChecked_refused y src⟩
  · have happlies := (tamperApplies_iff c x).mpr hc
    refine ⟨_, nextOn_of_eq ((tamperDie_eq c x).trans (if_neg (by simp [hon, hreset, happlies]))), ?_⟩
    rw [State.die_setDie]
    exact ⟨rfl, rfl, rfl, rfl, rfl, rfl, rfl, rfl, rfl⟩
  · refine nextOn_of_unchanged ((tamperDie_eq c x).trans (if_pos ?_))
    obtain hoff | hreset | ⟨rfl, hlc⟩ | ⟨hboot, hrom, hhold⟩ := hc
    · exact .inl hoff
    · exact .inr (.inl hreset)
    · exact .inr (.inr (by simpa [tamperApplies] using hlc))
    · exact .inr (.inr (by obtain rfl | rfl | rfl := hboot <;> simp [tamperApplies, hrom, hhold]))
  · exact nextOn_of_unchanged (imageLoadDie_of_early hloads ok img hearly)
  · exact nextOn_of_eq (imageLoadDie_of_no_entry hloads hready ok img hentry)
  · exact nextOn_of_eq (imageLoadDie_of_entry hloads hready hentry hout hheld)
  · exact nextOn_of_eq (imageLoadDie_of_entry hloads hready hentry hout hmoved)
  · rw [endLoad, hheld, thenOk_false]
  · rw [endLoad, hwritten, thenOk_true, hheld]
  · rw [endLoad, hwritten, thenOk_true, hsignalled]
  · exact loadRecorded_refused_spec p l img y
  · subst hst
    obtain ⟨hcount, hentry⟩ := loadRecorded_verified_spec p l img y
    exact ⟨hcount, _, hentry, rfl, rfl, rfl, rfl, rfl⟩
  · exact models_setEntry_same y i e
  · rw [getD_models_setEntry, if_neg hk]

end Sys2Proof.Machine
end

section
/-! PROOFS. O54: the test access port and the debug unlock (R515, R521, R522, R601). -/
namespace Sys2Proof.Machine

/-! ### The dies under a shift of the TAP (R521) -/

/-- The TAP takes an instruction for a die, whose number it keeps. -/
def tapShiftTo (s : State) (d : DieId) (ir : Byte) (out : List Byte) : State := { tapShift s ir out with tap.sel := d }

theorem die_tapShiftTo_onDie (s : State) (d : DieId) (f : Die → Die) (ir : Byte) (out : List Byte) :
    (tapShiftTo (s.onDie d f) d ir out).die d = { f (s.die d) with id := d } := by
  cases d <;> rfl

theorem exec_extest_scrapped {s : State} (h : s.a.sec.fuses.lc = 5 ∨ s.b.sec.fuses.lc = 5) : exec .extest s = .next s :=
  if_pos h

theorem exec_extest_scans {s : State} (ha : s.a.sec.fuses.lc ≠ 5) (hb : s.b.sec.fuses.lc ≠ 5) :
    exec .extest s = .next (tickBoth (tapShift s 0x00 (boundary s))) := if_neg (not_or.mpr ⟨ha, hb⟩)

/-! ### Challenges (R522) -/

/-- The challenge that the die makes next. -/
def Die.nextChallenge (x : Die) : List Byte := (List.range 32).map (Config.byte x.free)

/-- The die with a new challenge, kept with its time. -/
def Die.challenged (x : Die) : Die := { x.tick with sec.challenge := some (x.nextChallenge, x.time) }

section
variable {s : State}

theorem exec_dbgChallenge_unnamed {sel : Byte} (h : dieOf sel.toNat = none) :
    exec (.dbgChallenge sel) s = .next (tapShift s 0x10 []) := by
  change execDbgChallenge sel s = _
  rw [execDbgChallenge, h]

section
variable {sel : Byte} {d : DieId} (hsel : dieOf sel.toNat = some d)
include hsel

theorem exec_dbgChallenge_inert (hoff : (s.die d).debugOn = false) :
    exec (.dbgChallenge sel) s = .next (tapShift s 0x10 []) := by
  change execDbgChallenge sel s = _
  simp only [execDbgChallenge, hsel]
  exact if_pos (by rw [hoff]; rfl)

theorem exec_dbgChallenge_answered (hon : (s.die d).debugOn = true) : exec (.dbgChallenge sel) s =
    .next (tapShiftTo (s.onDie d Die.challenged) d 0x10 ((s.die d).nextChallenge ++ (s.die d).shownId ++
      [BitVec.ofNat 8 (s.die d).sec.fuses.lc, BitVec.ofNat 8 (maxLevel (s.die d).sec.fuses.lc)])) := by
  change execDbgChallenge sel s = _
  simp only [execDbgChallenge, hsel]
  exact if_neg (by rw [hon]; decide)

end

/-! ### Responses (R522) -/

/-- The die whose level has been raised. -/
def Die.unlocked (x : Die) (level : Nat) : Die :=
  (({ x with sec.dbgLevel := level, sec.dbgEver := x.sec.dbgEver || decide (0 < level) } : Die).flag .secFlags 1).count
    .secDbgUnlockCnt

/-- The die that has turned a response away. -/
def Die.unlockRefused (x : Die) : Die :=
  (({ x with sec.dbgFails := x.sec.dbgFails + 1 } : Die).flag .secFlags 2).count .secDbgFailCnt

theorem responseDie_of_good {x : Die} {r : List Byte} (h : responseOk x r = true) :
    responseDie r x = x.unlocked (fieldNat r 7219 1) := if_pos h

theorem responseDie_of_bad {x : Die} {r : List Byte} (h : responseOk x r = false) : responseDie r x = x.unlockRefused :=
  if_neg (Bool.eq_false_iff.mp h)

theorem level_le_of_responseOk {x : Die} {r : List Byte} (h : responseOk x r = true) :
    fieldNat r 7219 1 ≤ maxLevel x.sec.fuses.lc := by
  simp only [responseOk, Bool.and_eq_true, decide_eq_true_eq] at h
  exact h.1.2

theorem reg_unlocked (x : Die) (level : Nat) : ((x.unlocked level).reg .secFlags).getLsbD 1 = true ∧
    (x.unlocked level).reg .secDbgUnlockCnt = x.reg .secDbgUnlockCnt + 1 := by
  unfold Die.unlocked
  constructor
  · rw [Die.reg_count_ne _ (by decide)]
    exact Die.getLsbD_reg_flag _ _ (by decide)
  · rw [Die.reg_count, Die.reg_flag_ne _ _ (by decide)]
    exact congrArg (· + 1) (Die.reg_of_regs rfl _)

theorem reg_unlockRefused (x : Die) : x.unlockRefused.reg .secDbgFailCnt = x.reg .secDbgFailCnt + 1 := by
  rw [Die.unlockRefused, Die.reg_count, Die.reg_flag_ne _ _ (by decide)]
  exact congrArg (· + 1) (Die.reg_of_regs rfl _)

section
variable {r : List Byte} {d : DieId} (hsel : dieOf (fieldNat r 7220 1) = some d)
include hsel

theorem exec_dbgResponse_ignored (h : (s.die d).debugOn = false ∨ 8 ≤ (s.die d).sec.dbgFails) :
    exec (.dbgResponse r) s = .next (tapShift s 0x11 []) := by
  change execDbgResponse r s = _
  simp only [execDbgResponse, hsel]
  exact if_pos (by obtain h | h := h <;> simp [h])

theorem exec_dbgResponse_heard (hon : (s.die d).debugOn = true) (hfails : (s.die d).sec.dbgFails < 8) :
    exec (.dbgResponse r) s = .next (tapShiftTo (s.onDie d (responseDie r)) d 0x11 []) := by
  change execDbgResponse r s = _
  simp only [execDbgResponse, hsel]
  exact if_neg (by simp [hon, hfails])

end
end

/-! ### The rows -/

/-- Settles O54, instruction by instruction. That a SCRAPPED die anywhere refuses EXTEST, and that a LOCKED die answers no
debug access, is log 116. -/
theorem tapAndDebugUnlock : Obligations.TapAndDebugUnlock := by
  unfold Obligations.TapAndDebugUnlock
  intro s shift
  refine ⟨rfl, rfl, exec_extest_scrapped, fun ha hb => ⟨_, exec_extest_scans ha hb, rfl, rfl, rfl, rfl⟩,
    ⟨_, rfl, rfl, rfl, rfl⟩, fun sel => exec_dbgChallenge_unnamed, fun sel d hsel => ⟨exec_dbgChallenge_inert hsel, fun hon => ?_⟩,
    fun r d hsel => ⟨exec_dbgResponse_ignored hsel, fun hon hfails hgood => ?_, fun hon hfails hbad => ?_⟩,
    fun op => ⟨fun hno => ?_, fun hok => ?_⟩⟩
  · refine ⟨_, (s.die d).nextChallenge, exec_dbgChallenge_answered hsel hon, by simp [Die.nextChallenge], rfl, rfl, ?_⟩
    rw [die_tapShiftTo_onDie]
    exact ⟨rfl, rfl, rfl⟩
  · obtain ⟨hflag, hcount⟩ := reg_unlocked (s.die d) (fieldNat r 7219 1)
    refine ⟨_, exec_dbgResponse_heard hsel hon hfails, ?_⟩
    rw [die_tapShiftTo_onDie, responseDie_of_good hgood]
    exact ⟨rfl, level_le_of_responseOk hgood, hflag, hcount, rfl⟩
  · refine ⟨_, exec_dbgResponse_heard hsel hon hfails, ?_⟩
    rw [die_tapShiftTo_onDie, responseDie_of_bad hbad]
    exact ⟨rfl, rfl, reg_unlockRefused (s.die d)⟩
  · exact if_neg (Bool.eq_false_iff.mp hno)
  · exact if_pos hok

end Sys2Proof.Machine
end

section
/-! PROOFS. O59: the USB port's states, UFS transfers and the boot flash (R532 to R535, R549 to R552). -/
namespace Sys2Proof.Machine

/-! ### The USB port (R532 to R535) -/

section
variable {x : Die}

theorem lowPowerDie_of_disconnected (req : UsbPower) (h : x.io.usb.connected = false) : lowPowerDie req x = x :=
  if_pos (by rw [h]; rfl)

section
variable (hcon : x.io.usb.connected = true) {req : UsbPower}
include hcon

theorem lowPowerDie_of_enabled (hreq : req = .u1 ∨ req = .u2) (h : (x.reg .usbCfg).getLsbD 4 = true) :
    lowPowerDie req x = { x with io.usb.lowPower := some req, cmd.answer := .ack } := by
  unfold lowPowerDie
  rw [if_neg (by rw [hcon]; decide)]
  obtain rfl | rfl := hreq <;> dsimp only <;> rw [h] <;> rfl

theorem lowPowerDie_of_disabled (hreq : req = .u1 ∨ req = .u2) (h : (x.reg .usbCfg).getLsbD 4 = false) :
    lowPowerDie req x = { x with cmd.answer := .nak } := by
  unfold lowPowerDie
  rw [if_neg (by rw [hcon]; decide)]
  obtain rfl | rfl := hreq <;> dsimp only <;> rw [h] <;> rfl

theorem lowPowerDie_of_suspend (hreq : req = .u3 ∨ req = .suspend) :
    lowPowerDie req x = ({ x with io.usb.lowPower := some req } : Die).count .usbSuspendCnt := by
  unfold lowPowerDie
  rw [if_neg (by rw [hcon]; decide)]
  obtain rfl | rfl := hreq <;> rfl

theorem lowPowerDie_of_resume : lowPowerDie .resume x = { x with io.usb.lowPower := none } :=
  if_neg (by rw [hcon]; decide)

end

theorem reconnectDie_of_none (speed : UsbSpeed) (h : x.io.usb.reconnect = none ∨ x.running = false) :
    reconnectDie speed x = x := by
  unfold reconnectDie
  split
  · rfl
  · next t ht =>
    have hrun : x.running = false := h.resolve_left (by simp [ht])
    simp [hrun]

section
variable {t0 : DWord} (ht : x.io.usb.reconnect = some t0)
include ht

theorem reconnectDie_of_early (speed : UsbSpeed) (h : x.passed t0 10000 = false) : reconnectDie speed x = x := by
  simp [reconnectDie, ht, h]

theorem reconnectDie_of_passed (hrun : x.running = true) (speed : UsbSpeed) (h : x.passed t0 10000 = true) :
    reconnectDie speed x = usbConnect x (usbOfRank (min (usbRank speed) x.usbLimit)) := by
  simp [reconnectDie, ht, hrun, h]

end
end

/-- A rank that a speed bounds is the rank of the speed with that rank. -/
theorem usbRank_usbOfRank_min (speed : UsbSpeed) (n : Nat) : usbRank (usbOfRank (min (usbRank speed) n)) =
    min (usbRank speed) n := by
  have hrank : usbRank speed ≤ 3 := by cases speed <;> decide
  have hinv : ∀ m ≤ 3, usbRank (usbOfRank m) = m := by decide
  exact hinv _ ((Nat.min_le_left _ _).trans hrank)

/-! ### UFS transfers (R549, R550) -/

section
variable {p x : Die} {u : UfsXfer} (hxfer : x.io.ufs.xfer = some u)
include hxfer

theorem ufsDoneDie_of_waiting (ok : Bool) (data : List Byte)
    (h : u.frozen.isSome = true ∨ u.ahead ≠ 0 ∨ x.io.ufs.linkUp = false ∨ x.running = false) :
    ufsDoneDie ok data p x = x := by
  simp only [ufsDoneDie, hxfer]
  refine if_pos ?_
  obtain h | h | h | h := h <;> simp [h]

section
variable (hrun : x.running = true) (hfrozen : u.frozen = none) (hahead : u.ahead = 0) (hlink : x.io.ufs.linkUp = true)
include hrun hfrozen hahead hlink

theorem ufsDoneDie_of_failed (data : List Byte) : ufsDoneDie false data p x = ufsFinish p x u false := by
  simp [ufsDoneDie, hxfer, hrun, hfrozen, hahead, hlink]

theorem ufsDoneDie_of_moved {data : List Byte} {r : Die × Bool} (hunits : ufsUnits p u data u.count 0 x = r) :
    ufsDoneDie true data p x = thenOk r fun y => ufsFinish p y u true := by
  simp [ufsDoneDie, hxfer, hrun, hfrozen, hahead, hlink, hunits]

end
end

/-! ### The boot flash (R551, R552) -/

theorem Flash.byte_store_ne (bs : List Byte) (f : Flash) (a b : Nat) (h : b < a ∨ a + bs.length ≤ b) :
    (f.store a bs).byte b = f.byte b := by
  induction bs generalizing f a with
  | nil => rfl
  | cons v bs ih =>
    rw [List.length_cons] at h
    rw [Flash.store, ih _ _ (by omega)]
    exact spGet_spSet_ne erasedByte erasedByte f.cells v (by omega)

/-- A programmed byte reads as programmed. -/
theorem Flash.byte_store (bs : List Byte) (f : Flash) (a i : Nat) (h : i < bs.length) :
    (f.store a bs).byte (a + i) = bs.getD i 0 := by
  induction bs generalizing f a i with
  | nil => simp at h
  | cons v bs ih =>
    rw [Flash.store]
    cases i with
    | zero =>
      rw [Flash.byte_store_ne bs _ (a + 1) (a + 0) (by omega)]
      exact spGet_spSet_same erasedByte f.cells a v
    | succ i =>
      rw [show a + (i + 1) = a + 1 + i by omega, ih _ _ i (by simpa using h)]
      simp

theorem cmd_flash_store (bs : List Byte) (f : Flash) (a : Nat) : (f.store a bs).cmd = f.cmd := by
  induction bs generalizing f a with
  | nil => rfl
  | cons v bs ih => exact ih _ _

theorem addr_xspBuf_inj {i k : Nat} (h : Reg.xspBuf.addr [i] = Reg.xspBuf.addr [k]) : i = k := by
  have haddr (n : Nat) : Reg.xspBuf.addr [n] = 0x5C0100 + (n * 4 + 0) := rfl
  rw [haddr, haddr] at h
  omega

/-- Words of XSP_BUF written one after another. -/
def fillXspBuf (v : Nat → Word) (is : List Nat) (x : Die) : Die :=
  is.foldl (fun y i => y.setRegI .xspBuf [i] (v i)) x

theorem io_fillXspBuf (v : Nat → Word) (is : List Nat) (x : Die) : (fillXspBuf v is x).io = x.io := by
  induction is generalizing x with
  | nil => rfl
  | cons i is ih => exact ih _

theorem regI_fillXspBuf_of_not_mem (v : Nat → Word) {is : List Nat} {k : Nat} (h : k ∉ is) (x : Die) :
    (fillXspBuf v is x).regI .xspBuf [k] = x.regI .xspBuf [k] := by
  induction is generalizing x with
  | nil => rfl
  | cons i is ih =>
    rw [List.mem_cons, not_or] at h
    obtain ⟨hi, his⟩ := h
    exact (ih his _).trans (Die.regI_setRegI_ne x .xspBuf .xspBuf [i] [k] _ fun haddr => hi (addr_xspBuf_inj haddr))

theorem regI_fillXspBuf_of_mem (v : Nat → Word) {is : List Nat} {k : Nat} (h : k ∈ is) (x : Die) :
    (fillXspBuf v is x).regI .xspBuf [k] = v k := by
  induction is generalizing x with
  | nil => simp at h
  | cons i is ih =>
    by_cases his : k ∈ is
    · exact ih his _
    · obtain rfl : k = i := (List.mem_cons.mp h).resolve_right his
      exact (regI_fillXspBuf_of_not_mem v his _).trans (Die.regI_setRegI _ _ _ _)

theorem xspFail_spec (x : Die) : ((xspFail x).reg .xspStatus).getLsbD 1 = true ∧
    (xspFail x).reg .xspErrCnt = x.reg .xspErrCnt + 1 := by
  unfold xspFail
  constructor
  · rw [Die.reg_count_ne _ (by decide)]
    exact Die.getLsbD_reg_flag _ _ (by decide)
  · rw [Die.reg_count, Die.reg_flag_ne _ _ (by decide)]
    exact congrArg (· + 1) (Die.reg_of_regs rfl _)

/-! ### The rows -/

theorem State.regI_die_setDie (s : State) (d : DieId) (y : Die) (r : Reg) (is : List Nat) :
    ((s.setDie d y).die d).regI r is = y.regI r is :=
  (congrArg (Die.regI · r is) (State.die_setDie s d y)).trans (Die.regI_of_regs rfl r is)

theorem exec_ufsXferGo {s : State} {d : DieId} (v : Word) (hrun : (s.die d).running = true)
    (hgo : ufsGoRefused (s.die d) v = false) : exec (.ufsXferGo d v) s = .next (s.setDie d (ufsGo (s.die d) v)) :=
  nextOn_of_eq (if_pos (by rw [hrun, hgo]; rfl))

/-- The rows that begin a flash command. -/
theorem exec_xspStart {s : State} {d : DieId} {cmd : Nat} {row : Instr}
    (h : (cmd = 1 ∧ row = .xspErase d) ∨ (cmd = 2 ∧ row = .xspProgram d) ∨ (cmd = 3 ∧ row = .xspRead d)) :
    exec row s = nextOn d (xspStart cmd) s := by
  obtain ⟨rfl, rfl⟩ | ⟨rfl, rfl⟩ | ⟨rfl, rfl⟩ := h <;> rfl

section
variable {s : State} {d : DieId} {cmd a : Nat} {buf : List Byte} (hcmd : (s.die d).io.flash.cmd = some (cmd, a, buf))
include hcmd

theorem exec_xspCmdDone_good : exec (.xspCmdDone d true) s = .next (s.setDie d (xspEnd cmd a buf (s.die d))) := by
  refine nextOn_of_eq (?_ : xspDoneDie true (s.die d) = _)
  simp only [xspDoneDie, hcmd, if_true]

theorem exec_xspCmdDone_failed : exec (.xspCmdDone d false) s = .next (s.setDie d (xspFail (s.die d))) := by
  refine nextOn_of_eq (?_ : xspDoneDie false (s.die d) = _)
  simp only [xspDoneDie, hcmd, Bool.false_eq_true, if_false]

theorem exec_xspBusyTimeout_late (h : (s.die d).passed (s.die d).io.flash.since 4000000 = true) :
    exec (.xspBusyTimeout d) s = .next (s.setDie d (xspFail (s.die d))) :=
  nextOn_of_eq (if_pos (by rw [hcmd, h]; rfl))

end

/-- What a GO write starts: a transfer with the operands in force. -/
theorem ufsGo_spec (x : Die) (v : Word) : ∃ u, (ufsGo x v).io.ufs.xfer = some u ∧ u.write = v.getLsbD 31 ∧
    u.lu = wbits v 2 0 ∧ u.ctx = x.fld .ufsLuOwner [wbits v 2 0] 9 0 ∧ u.count = (x.reg .ufsXferCount).toNat ∧
    u.va = vaOf (x.reg .ufsXferVaLo) (x.reg .ufsXferVaHi) ∧ u.frozen = none ∧ u.ahead = x.sec.loads.length ∧
    (ufsGo x v).dram = x.dram :=
  ⟨_, rfl, rfl, rfl, rfl, rfl, rfl, rfl, rfl, rfl⟩

theorem cmd_xspEnd (cmd a : Nat) (buf : List Byte) (x : Die) : (xspEnd cmd a buf x).io.flash.cmd = none := by
  unfold xspEnd
  split
  · rfl
  split
  · exact cmd_flash_store buf _ a
  · exact congrArg (fun io => io.flash.cmd) (io_fillXspBuf _ _ _)

theorem byte_xspEnd_erase (a : Nat) (buf : List Byte) (x : Die) (b : Nat) : (xspEnd 1 a buf x).io.flash.byte b =
    if a ≤ b ∧ b < a + 65536 then 0xFF else x.io.flash.byte b :=
  spGet_spClear erasedByte a (a + 65536) b x.io.flash.cells

theorem byte_xspEnd_program (a : Nat) (buf : List Byte) (x : Die) {i : Nat} (h : i < buf.length) :
    (xspEnd 2 a buf x).io.flash.byte (a + i) = buf.getD i 0 :=
  Flash.byte_store buf _ a i h

theorem byte_xspEnd_program_ne (a : Nat) (buf : List Byte) (x : Die) {b : Nat} (h : b < a ∨ a + buf.length ≤ b) :
    (xspEnd 2 a buf x).io.flash.byte b = x.io.flash.byte b :=
  Flash.byte_store_ne buf _ a b h

theorem xspEnd_read (a : Nat) (buf : List Byte) (x : Die) : xspEnd 3 a buf x =
    fillXspBuf (fun i => BitVec.ofNat 32 (ofLe (x.io.flash.bytes (a + 4 * i) 4))) (List.range 64)
      { x with io.flash.cmd := none } := by
  unfold xspEnd
  rw [if_neg (by decide), if_neg (by decide)]
  rfl

theorem xspBuf_xspEnd_read (a : Nat) (buf : List Byte) (x : Die) {i : Nat} (h : i < 64) :
    (xspEnd 3 a buf x).regI .xspBuf [i] = BitVec.ofNat 32 (ofLe (x.io.flash.bytes (a + 4 * i) 4)) := by
  rw [xspEnd_read, regI_fillXspBuf_of_mem _ (List.mem_range.mpr h)]

theorem cells_xspEnd_read (a : Nat) (buf : List Byte) (x : Die) :
    (xspEnd 3 a buf x).io.flash.cells = x.io.flash.cells := by
  rw [xspEnd_read, io_fillXspBuf]

/-- Settles O59, row by row. The word that holds the enable of U1 and U2 is log 25; an erased byte is log 7; that a flash
command needs no more than a running die is log 110. -/
theorem usbAndStorage : Obligations.UsbAndStorage := by
  unfold Obligations.UsbAndStorage
  refine ⟨fun s d => ⟨fun hoff req => nextOn_of_unchanged (lowPowerDie_of_disconnected req hoff),
      fun hnone speed => nextOn_of_unchanged (reconnectDie_of_none speed hnone),
      fun req hreq hcon => ⟨fun hon => ?_, fun hoff => ?_⟩, fun req hreq hcon => ?_,
      fun hcon => nextOn_congr (lowPowerDie_of_resume hcon), fun speed t0 ht hrun => ⟨fun hearly => ?_, fun hpassed => ?_⟩⟩,
    fun s d => ⟨fun v hrun => ⟨fun hrefused => ?_, fun hgo => ?_⟩,
      fun u ok data hxfer hrun hfrozen hahead hlink => ⟨fun hfailed => ?_, fun hok y => ⟨fun hmoved => ?_, fun hheld => ?_⟩⟩,
      fun u ok data hxfer hwait => nextOn_of_unchanged (ufsDoneDie_of_waiting hxfer ok data hwait),
      fun u ok y z v hstatus hfence => ?_, fun hrun cmd row hrow => ⟨fun hrefused => ?_, fun hgo => ?_⟩,
      fun cmd a buf hcmd => ⟨?_, ?_, fun hlate => ?_⟩⟩⟩
  · refine ⟨_, nextOn_of_eq (lowPowerDie_of_enabled hcon hreq hon), ?_⟩
    rw [State.die_setDie]
    exact ⟨rfl, rfl⟩
  · refine ⟨_, nextOn_of_eq (lowPowerDie_of_disabled hcon hreq hoff), ?_⟩
    rw [State.die_setDie]
    exact ⟨rfl, rfl⟩
  · refine ⟨_, nextOn_of_eq (lowPowerDie_of_suspend hcon hreq), ?_⟩
    rw [State.die_setDie]
    exact ⟨rfl, Die.reg_count _ _, rfl⟩
  · exact nextOn_of_unchanged (reconnectDie_of_early ht speed hearly)
  · refine ⟨_, nextOn_of_eq (reconnectDie_of_passed ht hrun speed hpassed), ?_⟩
    rw [State.die_setDie]
    exact ⟨rfl, rfl, rfl, usbRank_usbOfRank_min speed _, Die.reg_count _ _⟩
  · exact nextOn_of_unchanged (if_neg (by rw [hrun, hrefused]; decide))
  · obtain ⟨u, hu⟩ := ufsGo_spec (s.die d) v
    refine ⟨_, u, exec_ufsXferGo v hrun hgo, ?_⟩
    rwa [State.die_setDie]
  · subst hfailed
    exact nextOn_congr (ufsDoneDie_of_failed hxfer hrun hfrozen hahead hlink data)
  · subst hok
    exact nextOn_of_eq (ufsDoneDie_of_moved hxfer hrun hfrozen hahead hlink hmoved)
  · subst hok
    exact nextOn_of_eq (ufsDoneDie_of_moved hxfer hrun hfrozen hahead hlink hheld)
  · rw [ufsFinish, hstatus, thenOk_true, hfence]
  · rw [exec_xspStart hrow]
    exact nextOn_of_unchanged (if_pos (by rw [hrefused, Bool.or_true]))
  · rw [exec_xspStart hrow]
    exact nextOn_congr (if_neg (by rw [hrun, hgo]; decide))
  · refine ⟨_, exec_xspCmdDone_good hcmd, ?_⟩
    simp only [State.regI_die_setDie]
    rw [State.die_setDie]
    refine ⟨cmd_xspEnd cmd a buf (s.die d), ?_, ?_, ?_⟩ <;> rintro rfl
    · exact byte_xspEnd_erase a buf (s.die d)
    · exact ⟨fun _ => byte_xspEnd_program a buf (s.die d), fun _ => byte_xspEnd_program_ne a buf (s.die d)⟩
    · exact ⟨fun i hi => xspBuf_xspEnd_read a buf (s.die d) hi, cells_xspEnd_read a buf (s.die d)⟩
  · refine ⟨_, exec_xspCmdDone_failed hcmd, ?_⟩
    rw [State.die_setDie]
    exact ⟨rfl, rfl, xspFail_spec (s.die d)⟩
  · refine ⟨_, exec_xspBusyTimeout_late hcmd hlate, ?_⟩
    rw [State.die_setDie]
    exact ⟨rfl, rfl, xspFail_spec (s.die d)⟩

end Sys2Proof.Machine
end

section
/-! PROOFS. O50: wringers move blocks and yield (R438 to R446). -/
namespace Sys2Proof.Machine

/-! ### One block of a job (R441 to R445) -/

section
variable {x : Die} {e : Fin 8}

/-- An engine that does not work and yet has a job is frozen. -/
theorem frozen_of_busy {slot : Nat} (h : x.wringers[e].job = none ∨ x.wringers[e].frozen ≠ none)
    (hjob : x.wringers[e].job = some slot) : x.wringers[e].frozen.isSome = true :=
  Option.isSome_iff_ne_none.mpr (h.resolve_left (hjob ▸ Option.some_ne_none slot))

theorem wringerBlockDie_of_idle (p : Die) (h : x.wringers[e].job = none ∨ x.wringers[e].frozen ≠ none) :
    wringerBlockDie e p x = x := by
  unfold wringerBlockDie
  dsimp only
  split
  · rfl
  · next slot hjob =>
    split
    · rfl
    · exact if_pos (by simp [-Fin.getElem_fin, frozen_of_busy h hjob])

theorem wringerYieldDie_of_idle (p : Die) (h : x.wringers[e].job = none ∨ x.wringers[e].frozen ≠ none) :
    wringerYieldDie e p x = x := by
  unfold wringerYieldDie
  dsimp only
  split
  · rfl
  · next slot hjob =>
    split
    · rfl
    · exact if_pos (by simp [-Fin.getElem_fin, frozen_of_busy h hjob])

section
variable {slot : Nat} {j : Job} (hjob : x.wringers[e].job = some slot) (hslot : x.job? slot = some j)
  (hfrozen : x.wringers[e].frozen = none)
include hjob hslot

theorem wringerBlockDie_of_held (p : Die) (h : x.schedules = false ∨ x.ctxStarts j.ctx = false ∨ x.power.therm = 2) :
    wringerBlockDie e p x = x := by
  simp only [wringerBlockDie, hjob, hslot]
  refine if_pos ?_
  obtain h | h | h := h <;> simp [h]

theorem wringerYieldDie_of_unwanted (p : Die) (h : x.wringerWanted j = false) : wringerYieldDie e p x = x := by
  simp only [wringerYieldDie, hjob, hslot]
  exact if_pos (by simp [h])

include hfrozen

section
variable (hsched : x.schedules = true) (hctx : x.ctxStarts j.ctx = true) (htherm : x.power.therm ≠ 2)
include hsched hctx htherm

theorem wringerBlockDie_of_decompress (p : Die) (huse : x.wringers[e].use = 2) :
    wringerBlockDie e p x = decompressBlock p x e j := by
  simp only [wringerBlockDie, hjob, hslot]
  rw [if_neg (by simp [-Fin.getElem_fin, hfrozen, hsched, hctx, htherm, huse]), if_neg (by rw [huse]; decide)]

theorem wringerBlockDie_of_compress (p : Die) (huse : x.wringers[e].use = 1) :
    wringerBlockDie e p x = compressBlock p x e j := by
  simp only [wringerBlockDie, hjob, hslot]
  rw [if_neg (by simp [-Fin.getElem_fin, hfrozen, hsched, hctx, htherm, huse]), if_pos huse]

end

/-- A die whose engine gave its job up: the counts written, the engine free, the yield counted. -/
def yieldedDie (p x : Die) (e : Fin 8) (slot : Nat) : Die :=
  let y := (writeWrgCounts p x e slot).count .wrgYieldCnt
  { y with wringers := vmod y.wringers e (fun _ => Wringer.reset) }

theorem wringerYieldDie_of_wanted (p : Die) (hrun : x.running = true) (h : x.wringerWanted j = true) :
    wringerYieldDie e p x = yieldedDie p x e slot := by
  simp only [wringerYieldDie, hjob, hslot]
  exact if_neg (by simp [-Fin.getElem_fin, hfrozen, hrun, h])

end
end

/-! ### What a compressed block comes to -/

/-- Bytes of input of the block at hand. -/
def blockInput (j : Job) : Nat := min (2 ^ fieldNat j.wrg.par 2 1) (fieldNat j.wrg.par 0x10 8 - j.wrg.inDone)

/-- Whether the block at hand is the job's last. -/
def blockLast (j : Job) : Bool := j.wrg.inDone + blockInput j == fieldNat j.wrg.par 0x10 8

/-- The write of the block's index word (R444). -/
def indexWrites (j : Job) : List (Nat × List Byte) :=
  if fieldNat j.wrg.par 0x28 8 = 0 then [] else [(fieldNat j.wrg.par 0x28 8 + 8 * j.wrg.blocks, leBytes 8 j.wrg.outDone)]

section
variable {p x y z zz : Die} {e : Fin 8} {j : Job} {bs : List Byte} {rs : List OutRun}

theorem compressBlock_of_unread
    (hread : wrgReads p x e j.ctx (fieldNat j.wrg.par 0x08 8 + j.wrg.inDone) (blockInput j) 0 = (y, none)) :
    compressBlock p x e j = writeWrgCounts p y e j.slot := by
  unfold blockInput at hread
  simp only [compressBlock, hread, wrgFrozen]

section
variable (hread : wrgReads p x e j.ctx (fieldNat j.wrg.par 0x08 8 + j.wrg.inDone) (blockInput j) 0 = (y, some bs))
  {k : WrgBlock} (hk : wrgEncode (fieldNat j.wrg.par 2 1) (blockLast j) bs = k)
  (hruns : outRuns p y (.wringer e) j (j.wrg.outDone + k.bytes.length) = (z, some rs))
include hread hk hruns

theorem compressBlock_of_overflow (hfit : runsEnd rs < j.wrg.outDone + k.bytes.length) :
    compressBlock p x e j = wrgStop p z e j.slot j.ctx rs j.wrg.outDone := by
  unfold blockLast blockInput at hk
  unfold blockInput at hread
  simp only [compressBlock, hread, hk, hruns]
  exact if_pos hfit

theorem compressBlock_of_written (hfit : j.wrg.outDone + k.bytes.length ≤ runsEnd rs)
    (hwrite : wrgWrites p z e j.ctx (outWrites rs (j.wrg.outDone + 16) (k.bytes.drop 16) ++
      outWrites rs j.wrg.outDone (k.bytes.take 16) ++ indexWrites j) = (zz, true)) :
    compressBlock p x e j = wrgAdvance p (zz.count (kindCounter k.kind)) e j.slot (blockInput j) k.bytes.length
      (blockInput j) (blockLast j) := by
  unfold indexWrites at hwrite
  unfold blockLast blockInput at *
  simp only [compressBlock, hread, hk, hruns]
  rw [if_neg (Nat.not_lt.mpr hfit), hwrite]

end
end

/-! ### The rows -/

/-- Settles O50, row by row. -/
theorem wringersMoveBlocksAndYield : Obligations.WringersMoveBlocksAndYield := by
  unfold Obligations.WringersMoveBlocksAndYield
  refine fun s d e slot j => ⟨fun hidle => ⟨nextOn_congr (wringerBlockDie_of_idle _ hidle),
      nextOn_congr (wringerYieldDie_of_idle _ hidle)⟩,
    fun hjob hslot hfrozen => ⟨fun hheld => nextOn_congr (wringerBlockDie_of_held hjob hslot _ hheld),
      fun hsched hctx htherm huse => nextOn_of_eq (wringerBlockDie_of_decompress hjob hslot hfrozen hsched hctx htherm _ huse),
      fun y bs z rs hsched hctx htherm huse hread hruns => ?_, fun y hsched hctx htherm huse hread => ?_,
      fun _ hnot => nextOn_congr (wringerYieldDie_of_unwanted hjob hslot _ hnot), fun hrun hwanted => ?_⟩⟩
  · have hblock := wringerBlockDie_of_compress hjob hslot hfrozen hsched hctx htherm (s.die d.other) huse
    exact ⟨fun hfit => nextOn_of_eq (hblock.trans (compressBlock_of_overflow hread rfl hruns hfit)),
      fun zz hfit hwrite => nextOn_of_eq (hblock.trans (compressBlock_of_written hread rfl hruns hfit hwrite))⟩
  · have hblock := wringerBlockDie_of_compress hjob hslot hfrozen hsched hctx htherm (s.die d.other) huse
    exact nextOn_of_eq (hblock.trans (compressBlock_of_unread hread))
  · refine ⟨_, nextOn_of_eq (wringerYieldDie_of_wanted hjob hslot hfrozen _ hrun hwanted), ?_⟩
    rw [State.die_setDie]
    exact ⟨getElem_vmod_same _ e _, rfl, (Die.reg_of_regs rfl _).trans (Die.reg_count _ _), fun f hf => getElem_vmod_ne _ _ hf⟩

end Sys2Proof.Machine
end

section
/-! PROOFS. O9: PING, status, configuration and fault reads, configuration writes and PRESS (R16, R25, R84, R85, R98 to
R100, R310, R381, R454, R467, R468). -/
namespace Sys2Proof.Machine

/-! ### Words read and written one after another (R98, R99) -/

theorem cfgReadWords_succ {p x y : Die} {a n : Nat} {ws : List Word} (h : cfgReadWords p x a n = (y, ws)) :
    cfgReadWords p x a (n + 1) = ((cfgReadWord p y (a + 4 * n)).1, ws ++ [(cfgReadWord p y (a + 4 * n)).2]) := by
  unfold cfgReadWords at h ⊢
  rw [List.range_succ, List.foldl_append, h]
  rfl

theorem cfgWriteWords_append (d : DieId) (a : Nat) (vs : List Word) (v : Word) (s : State) :
    cfgWriteWords d a (vs ++ [v]) s = cfgWriteWord (cfgWriteWords d a vs s) d (a + 4 * vs.length) v := by
  have hprefix : (List.range vs.length).foldl (fun t i => cfgWriteWord t d (a + 4 * i) ((vs ++ [v]).getD i 0)) s =
      cfgWriteWords d a vs s := by
    refine List.foldl_ext _ _ _ fun t i hi => ?_
    rw [List.getD_append _ _ _ _ (List.mem_range.mp hi)]
  rw [cfgWriteWords, List.length_append, List.length_singleton, List.range_succ, List.foldl_append, hprefix]
  simp

theorem length_cfgData (k : List Byte) : (cfgData k).length = par k 4 2 := by
  simp [cfgData]

/-- Every word before the first refused one is accepted. -/
theorem valueOk_of_lt_cfgBadWord {x : Die} {a i k : Nat} {vs : List Word} {r : Reg} {is : List Nat}
    (hbad : cfgBadWord x a vs = some i) (hk : k < i) (hr : regAt (a + 4 * k) = some (r, is)) :
    valueOk x r is (vs.getD k 0) = true := by
  obtain ⟨-, -, hbefore⟩ := List.find?_range_eq_some.mp hbad
  simpa [hr] using hbefore k hk

section
variable {s : State} {d : DieId} {c : PendCmd}

/-- A CFG_WRITE comes to what its run gives. -/
theorem exec_cfgWrite_turn (h : turn s d 0 .cfgWrite c = true) {t : State} {r : CmdRes}
    (hrun : cfgWriteRun s d (par c.pkt 0 4) (cfgData c.pkt) = (t, r)) :
    exec (.cfgWrite d) s = .next (answerOn d c r t) := by
  have hexec : exec (.cfgWrite d) s = _ := runDevice_turn h (effCfgWrite d)
  rw [hexec, effCfgWrite, hrun]
  rfl

end

section
variable {s : State} {d : DieId} {a : Nat} {vs : List Word}

theorem cfgWriteRun_of_pairedPipe (h : holdsPairedPipe (s.die d) a vs.length = true) :
    cfgWriteRun s d a vs = (s, resErr stWrongState) :=
  if_pos h

theorem cfgWriteRun_of_pairCfg (hpipe : holdsPairedPipe (s.die d) a vs.length = false)
    (h : (holdsPairCfg a vs.length && (s.die d).pairCfgRefused) = true) :
    cfgWriteRun s d a vs = (s, resErr stPairRefused) := by
  unfold cfgWriteRun
  dsimp only
  rw [hpipe, if_neg Bool.false_ne_true, if_pos h]

section
variable (hpipe : holdsPairedPipe (s.die d) a vs.length = false)
  (hpair : (holdsPairCfg a vs.length && (s.die d).pairCfgRefused) = false)
include hpipe hpair

theorem cfgWriteRun_of_badWord {i : Nat} (hbad : cfgBadWord (s.die d) a vs = some i) :
    cfgWriteRun s d a vs = (s, resBad (2 + i)) := by
  unfold cfgWriteRun
  dsimp only
  rw [hpipe, hpair, hbad, if_neg Bool.false_ne_true, if_neg Bool.false_ne_true]

theorem cfgWriteRun_of_accepted (hgood : cfgBadWord (s.die d) a vs = none) :
    cfgWriteRun s d a vs = (cfgWriteWords d a vs s, resOk []) := by
  unfold cfgWriteRun
  dsimp only
  rw [hpipe, hpair, hgood, if_neg Bool.false_ne_true, if_neg Bool.false_ne_true]

end
end

/-! ### PRESS (R16, R84, R467, R468) -/

/-- The press takes the next epoch and holds the shadows. -/
def pressBegun (x : Die) : Die :=
  { x with press.epoch := epochNext x.press.epoch, press.pressed := x.shadow, press.issued := x.time, press.ioDone := 0,
           press.applied := 0, torus.rings := x.torus.rings.map (fun r => { r with prLo := r.shLo, prHi := r.shHi }) }

/-- The units that the press concerns fall behind, and every other unit acknowledges. -/
def pressSent (e : Word) (x : Die) : Die :=
  let due := x.press.dirty &&& ~~~bit44 36
  { x with press.behind := due, press.dirty := x.press.dirty &&& bit44 36,
           press.unitEpoch := (List.range 44).map (fun u => if due.getLsbD u then x.unitEpoch u else e),
           press.activeEpoch := if due = 0 then e else x.press.activeEpoch }

theorem issuePress_eq (x : Die) :
    issuePress x = (pressSent (epochNext x.press.epoch) (pressOwn (pressBegun x))).count .clkPressCnt := rfl

theorem getLsbD_and_not_bit44 (b : BitVec 44) {u v : Nat} (hu : u < 44) (hne : u ≠ v) :
    (b &&& ~~~bit44 v).getLsbD u = b.getLsbD u := by
  have hbit : (bit44 v).getLsbD u = false := by
    simp [bit44]
    omega
  rw [BitVec.getLsbD_and, BitVec.getLsbD_not, hbit]
  simp [hu]

/-- The command processor's own part of a press: its registers, and its bit of the units that have something to press. -/
theorem pressOwn_cases (x : Die) : ∃ regs dirty bad,
    pressOwn x = { x with regs := regs, press.dirty := dirty, press.cfgBad := bad } ∧
      dirty &&& ~~~bit44 36 = x.press.dirty &&& ~~~bit44 36 := by
  unfold pressOwn
  split
  · exact ⟨_, _, _, rfl, rfl⟩
  split
  · exact ⟨_, _, _, rfl, rfl⟩
  · obtain ⟨regs, hregs⟩ := activate_cases (unitRegs 36) x
    refine ⟨regs, x.press.dirty &&& ~~~bit44 36, _, by rw [hregs], ?_⟩
    rw [BitVec.and_assoc, BitVec.and_self]

theorem reg_pressOwn_clkPressCnt (x : Die) : (pressOwn x).reg .clkPressCnt = x.reg .clkPressCnt := by
  unfold pressOwn
  split
  · rfl
  split
  · rfl
  · exact Die.regI_activate_of_not_mem (by decide) x

/-- The units that a press concerns, but for the command processor, which deals with it at issue. -/
def Die.pressDue (x : Die) : BitVec 44 := x.press.dirty &&& ~~~bit44 36

/-- What a press that is issued leaves. -/
structure PressIssued (x y : Die) : Prop where
  epoch : y.press.epoch = epochNext x.press.epoch
  shadow : y.shadow = x.shadow
  pressed : y.press.pressed = x.shadow
  rings : y.torus.rings = x.torus.rings.map fun r => { r with prLo := r.shLo, prHi := r.shHi }
  behind : y.press.behind = x.pressDue
  activeEpoch : x.pressDue = 0 → y.press.activeEpoch = epochNext x.press.epoch
  unitEpoch : ∀ u < 44, y.unitEpoch u = if x.pressDue.getLsbD u then x.unitEpoch u else epochNext x.press.epoch
  count : y.reg .clkPressCnt = x.reg .clkPressCnt + 1

theorem getD_map_range {α : Type} (f : Nat → α) (dflt : α) {n u : Nat} (h : u < n) :
    ((List.range n).map f).getD u dflt = f u := by
  simp [List.getD, h]

theorem unitEpoch_pressSent (e : Word) (x : Die) {u : Nat} (hu : u < 44) : (pressSent e x).unitEpoch u =
    if x.pressDue.getLsbD u then x.unitEpoch u else e :=
  getD_map_range _ 0 hu

theorem issuePress_issued (x : Die) : PressIssued x (issuePress x) := by
  have hcount : (issuePress x).reg .clkPressCnt = x.reg .clkPressCnt + 1 :=
    (Die.reg_count _ _).trans (congrArg (· + 1) (reg_pressOwn_clkPressCnt (pressBegun x)))
  rw [issuePress_eq] at hcount ⊢
  obtain ⟨regs, dirty, bad, hown, hdirty⟩ := pressOwn_cases (pressBegun x)
  rw [hown] at hcount ⊢
  refine ⟨rfl, rfl, rfl, rfl, hdirty, fun hdue => if_pos (hdirty.trans hdue), fun u hu => ?_, hcount⟩
  exact (unitEpoch_pressSent _ _ hu).trans
    (congrArg (fun due => if BitVec.getLsbD due u then x.unitEpoch u else epochNext x.press.epoch) hdirty)

section
variable {s : State} {d : DieId} {c : PendCmd} (h : turn s d 0 .press c = true)
include h

theorem exec_press_turn {e : Eff} (heff : effPress d s = e) : exec (.press d) s = .next (answerEff d c e) := by
  have hexec : exec (.press d) s = _ := runDevice_turn h fun _ => effPress d
  rw [hexec, heff]

theorem exec_press_busy (hbehind : (s.die d).press.behind ≠ 0) :
    exec (.press d) s = .next (answerOn d c (resErr stBusy) s) :=
  exec_press_turn h (if_pos hbehind)

variable (hbehind : (s.die d).press.behind = 0)
include hbehind

theorem exec_press_refused {st : Byte} (hst : pairPressRefused (s.die d.other) (s.die d) = some st) :
    exec (.press d) s = .next (answerOn d c (resErr st) s) := by
  refine exec_press_turn h (e := effRefuse s st) ?_
  simp only [effPress, hbehind, hst]
  rfl

theorem exec_press_issued (hst : pairPressRefused (s.die d.other) (s.die d) = none) :
    exec (.press d) s = .next (answerOn d c (resOk (leBytes 4 (issuePress (s.die d)).press.epoch.toNat))
      (s.setDie d (issuePress (s.die d)))) := by
  refine exec_press_turn h
    (e := (s.setDie d (issuePress (s.die d)), some (resOk (leBytes 4 (issuePress (s.die d)).press.epoch.toNat)))) ?_
  unfold effPress
  dsimp only
  rw [if_neg (not_not.mpr hbehind), hst]

end

/-- Settles O9, command by command. That a CFG_WRITE of CMD_PAIR_CFG is refused is R26; that PRESS refuses a pair
configuration that R22 or R24 refuses is log 133. -/
theorem readsConfigurationAndPressesAnswer : Obligations.ReadsConfigurationAndPressesAnswer := by
  unfold Obligations.ReadsConfigurationAndPressesAnswer
  refine ⟨fun s d c => ⟨fun h => runDevice_turn h fun _ => effPing d, fun h => runDevice_turn h fun _ => effGetStatus d,
      fun h => ⟨_, _, rfl, cfgReadWords_length _ _ _ _, runDevice_turn h (effCfgRead d)⟩, fun a => rfl,
      fun a n y ws h => cfgReadWords_succ h, fun h => runDevice_turn h (effFaultRead d)⟩,
    fun s d c => ⟨fun h hpipe => ?_, fun h hpipe hpair => ?_, fun h hpipe hpair => ⟨fun hgood => ?_, fun i hbad => ⟨?_, ?_⟩⟩,
      rfl, fun vs v => cfgWriteWords_append d _ vs v s, fun h hbehind => exec_press_busy h hbehind,
      fun h hbehind st hst => exec_press_refused h hbehind hst,
      fun h hbehind hst => ⟨issuePress (s.die d), exec_press_issued h hbehind hst, ?_⟩⟩⟩
  · rw [← length_cfgData] at hpipe
    exact exec_cfgWrite_turn h (cfgWriteRun_of_pairedPipe hpipe)
  · rw [← length_cfgData] at hpipe hpair
    exact exec_cfgWrite_turn h (cfgWriteRun_of_pairCfg hpipe hpair)
  · rw [← length_cfgData] at hpipe hpair
    exact exec_cfgWrite_turn h (cfgWriteRun_of_accepted hpipe hpair hgood)
  · rw [← length_cfgData] at hpipe hpair
    exact exec_cfgWrite_turn h (cfgWriteRun_of_badWord hpipe hpair hbad)
  · exact fun k r is hk hr => valueOk_of_lt_cfgBadWord hbad hk hr
  · obtain ⟨epoch, shadow, pressed, rings, behind, activeEpoch, unitEpoch, count⟩ := issuePress_issued (s.die d)
    rw [epoch, rings, behind]
    refine ⟨rfl, shadow, pressed, fun r hr => ?_, activeEpoch, fun u hu hdone => ?_, fun u hu hdue => ?_,
      fun u hu hne => getLsbD_and_not_bit44 _ hu hne, count⟩
    · obtain ⟨t, -, rfl⟩ := List.mem_map.mp hr
      exact ⟨rfl, rfl⟩
    · rw [unitEpoch u hu, hdone, if_neg Bool.false_ne_true]
    · rw [unitEpoch u hu, hdue, if_pos rfl]

end Sys2Proof.Machine
end

section
/-! PROOFS. O12 fails: a FAILOVER need not leave its die ACTIVE. As for the takeover of O17, the standby that takes over gives
back what a mirrored job held and writes the counts of a wringer job; where the walk for that write reads a word of wrong
parity in a granule of context 0, the granule is poisoned and the die enters SAFE (R42, R477, R479, R485). -/
namespace Sys2Proof.Machine

/-- A FAILOVER packet (R80), waiting for its turn. -/
def failoverCmd : PendCmd :=
  { ctx := 0, pkt := [0, 0, 0x12] ++ List.replicate 13 0, phase := .waiting, closed := false, repeats := 0 }

/-- The standby of `sparePair` takes a FAILOVER while its partner is alive. -/
def failoverPair : State := { State.reset with a := { spareStandby with cmd.pool := [failoverCmd] } }

theorem turn_failoverPair : turn failoverPair .a 0 .failover failoverCmd = true := by decide

/-- An answer leaves the device state. -/
theorem dev_answerOn (d : DieId) (c : PendCmd) (r : CmdRes) (s : State) : ((answerOn d c r s).die d).dev = (s.die d).dev := by
  have hreplied : (s.die d).answerCmd c r = _ := Die.replied_answerCmd (s.die d) c r
  rw [answerOn, State.die_onDie]
  exact (congrArg Die.dev hreplied :)

theorem dev_answerEff (d : DieId) (c : PendCmd) (e : Eff) : ((answerEff d c e).die d).dev = (e.1.die d).dev := by
  unfold answerEff
  split
  · exact dev_answerOn d c _ e.1
  · rfl

/-- A FAILOVER comes to its effect, which it answers. -/
theorem exec_failover_turn {s : State} {d : DieId} {c : PendCmd} (h : turn s d 0 .failover c = true) :
    exec (.failover d) s = .next (answerEff d c (effFailover d s)) :=
  runDevice_turn h fun _ => effFailover d

set_option maxRecDepth 1000 in
theorem dev_failoverPair : ((effFailover .a failoverPair).1.die .a).dev = .safe := by decide

/-- Refutes O12: the die of `failoverPair` meets every premise of FAILOVER's clause, and ends in SAFE. -/
theorem not_holdFailoverAndReset : ¬ Obligations.HoldFailoverAndReset := by
  unfold Obligations.HoldFailoverAndReset
  intro hall
  obtain ⟨-, -, hfailover, -, -⟩ := hall failoverPair .a failoverCmd
  obtain ⟨u, hexec, -, hactive, -⟩ := hfailover turn_failoverPair rfl rfl
  have hnext : answerEff .a failoverCmd (effFailover .a failoverPair) = answerOn .a failoverCmd (resOk [1, 0, 0, 0]) u :=
    Host.Outcome.next.inj ((exec_failover_turn turn_failoverPair).symm.trans hexec)
  have hdev : DevState.safe = .active :=
    calc DevState.safe
      _ = ((effFailover .a failoverPair).1.die .a).dev := dev_failoverPair.symm
      _ = ((answerEff .a failoverCmd (effFailover .a failoverPair)).die .a).dev := (dev_answerEff _ _ _).symm
      _ = (u.die .a).dev := by rw [hnext, dev_answerOn]
      _ = .active := hactive
  exact absurd hdev (by decide)

end Sys2Proof.Machine
end
